-- ==== Sys2Proof/Word.lean ====
section
/-! DEFINITION. The machine's words: bytes, 64-bit words, 128-bit registers (R3, R35, R38). -/

namespace Sys2Proof

/-- One byte of memory (R3). -/
abbrev Byte := BitVec 8

/-- A 64-bit word: scalar operands, addresses, device registers. -/
abbrev Word := BitVec 64

/-- A 128-bit register of a thread context (R35). -/
abbrev Reg := BitVec 128

end Sys2Proof
end

