-- ==== Sys2Proof/Config.lean ====
section
/-! DEFINITION. What the spec leaves open: constants with no body, so that no proof can rest on a value of one. Each is
applied to a counter of State (`fresh`) or to the operands that the open value depends on, and has a row in the
assumption log. -/

namespace Sys2Proof.Config

/-- Cycles of the reference clock that pass in one step of the model (R90, R442; log entry 4). -/
opaque stepCycles : Nat → Nat

/-- The entropy source's draw of srs at a handler start (R73); zero is replaced by one where it is used (log entry 5). -/
opaque entropy : Nat → BitVec 64

/-- Draws of an engine's own generator under stochastic rounding (R104; log entry 5). -/
opaque engineDraw : Nat → BitVec 64

/-- Which of the results that R145 allows a special function returns: operation, type and operand give a correction to the
nearest one (R144, R145; log entry 6). -/
opaque sfu : Nat → Nat → BitVec 64 → BitVec 64

/-- Which of R211's three outcomes a damage beyond the code has: granule, damaged symbols (log entry 7). -/
opaque damageOutcome : Nat → List Nat → Nat

/-- The data that a miscorrecting read returns for a byte, given what is stored (R211; log entry 7). -/
opaque miscorrected : Nat → List Nat → BitVec 8 → BitVec 8

/-- Digests, keys, serial number and signatures of the module's identity, byte by byte (R412, R413; log entry 8). -/
opaque identity : Nat → Nat → BitVec 8

/-- Fields that boot firmware writes before any context exists, marked "fw" (R6): register address to value (log
entry 9). -/
opaque fwReg : Nat → BitVec 64

/-- Which class-block frames boot firmware reserves (R163, R244, R210; log entry 9). -/
opaque reservedFrame : Nat → Bool

/-- Horizontal and vertical eye margins of a lane of a stack as a monitor finds them (R414; log entry 10). -/
opaque eyeMargin : Nat → Nat → Nat → BitVec 16

/-- Power in W and temperatures in degrees C that the management bus reads (R417; log entry 10). -/
opaque sensor : Nat → Nat → Nat

/-- How the syndrome of a class mismatch names two classes, and which lease index an address outside every lease logs (R303;
log entry 24). -/
opaque syndrome : Nat → Nat → Nat → BitVec 64

/-- Words of a requeue-area entry, whose layout the spec does not give (R244, R368; log entry 28). -/
opaque areaWord : Nat → Nat → BitVec 64

/-- Which worker core or cluster an image of Turat or a task unit picks where the spec leaves the choice (R240, R383,
R386; log entry 12). -/
opaque choice : Nat → Nat

end Sys2Proof.Config
end

