-- ==== Sys2Proof/Syntax.lean ====
section
/-! DEFINITION. The instructions and steps of the UZ8: one constructor of `Instr` per row of spec/opcode_table.json.
Rows with an encoding take the operands of their format (R29, R32); rows without one are the part's own steps and take
what the step acts on, supplied by the schedule or by the world outside the module. -/

namespace Sys2Proof

/-- A 6-bit register specifier (R35): 0 `lt`, 1 `zero`, 8-15 q0-q7, 16-63 v0-v47. -/
abbrev Spec := Fin 64

/-- A predicate number, p0 to p7 (R39). -/
abbrev PredNo := Fin 8

/-- A 3-bit register field of a 16-bit form (R32): 0-6 q0-q6, 7 `lt`. -/
abbrev CReg := Fin 8

/-- An operand-extension register number, x0 to x3 (R40). -/
abbrev XNo := Fin 4

/-- The float types of R31; `fr n` is the format register fn. -/
inductive FTy where
  | f32 | f64 | b16 | h16 | e4 | e5
  | fr (n : Fin 4)
  deriving DecidableEq, Repr

/-- The 3-bit integer types of R31. -/
inductive IntTy where
  | i8 | i16 | i32 | i64 | n8 | n16 | n32 | n64
  deriving DecidableEq, Repr

/-- The integer side of `cvti` and `cvtf` (R119): an integer type or a format register. -/
inductive CvtInt where
  | int (t : IntTy)
  | fr (n : Fin 4)
  deriving DecidableEq, Repr

/-- Memory orders (R30). -/
inductive MOrd where
  | rlx | acq | rel | ar | sc
  deriving DecidableEq, Repr

/-- Scopes, from narrowest to widest (R30, R189). -/
inductive Scope where
  | task | core | clu | quad | die | half | dev | host | link | fab | sys
  deriving DecidableEq, Repr

/-- What the home slice of a line is asked to do in one step (R162): serve the outstanding access `id`, note the
eviction of a line by one core's L1, or let the line leave the L2. A line is named by its location divided by 32. -/
inductive HomeReq where
  | access (id : Nat)
  | evict (core line : Nat)
  | l2Evict (line : Nat)
  deriving DecidableEq, Repr

/-- What a Notur flit carries to this module (R408): a peer's read or write of this module's memory, its atomic by function
number on 4 or 8 bytes (R177, R178; 11 is the saturating add of a signal, R393), or, for flits of this module's own, the response
to an access, the acknowledgement of a flit and the request to replay from one. -/
inductive NoturBody where
  | read (pa n : Nat)
  | write (pa : Nat) (bytes : List Byte)
  | atomic (pa : Nat) (fn : Fin 12) (size : Bool) (data : BitVec 256)
  | response (acc : Nat) (bytes : List Byte)
  | ack (seq : BitVec 12)
  | replay (seq : BitVec 12)
  deriving DecidableEq, Repr

/-- A received Notur flit: its sequence number, whether its CRC-64 is right, and its content (R408). -/
structure NoturFlit where
  seq : BitVec 12
  crcOk : Bool
  body : NoturBody
  deriving DecidableEq, Repr

/-- A lane of a stack's HBM interface (R414). -/
structure HbmLane where
  stack : Nat
  lane  : BitVec 16
  deriving DecidableEq, Repr

/-- What the host writes to a device register: 8 bytes, or 4 (R160). -/
inductive RegData where
  | word (v : BitVec 64)
  | half (v : BitVec 32)
  deriving DecidableEq, Repr

/-- The instructions and steps, one constructor per row of the table. -/
inductive Instr where
  /-- Adds a and b modulo 2^64 into d (R62). -/
  | add (d a b : Spec)
  /-- Subtracts b from a modulo 2^64 into d (R62). -/
  | sub (d a b : Spec)
  /-- Writes the low 64 bits of a times b to d (R62). -/
  | mul (d a b : Spec)
  /-- Writes the high half of the signed product to d (R62). -/
  | mulh (d a b : Spec)
  /-- Writes the high half of the unsigned product to d (R62). -/
  | mulhu (d a b : Spec)
  /-- Signed division rounded towards zero, never faulting (R64). -/
  | div (d a b : Spec)
  /-- Unsigned division, all ones for a zero divisor (R64). -/
  | divu (d a b : Spec)
  /-- Signed remainder taking the sign of a (R64). -/
  | rem (d a b : Spec)
  /-- Unsigned remainder (R64). -/
  | remu (d a b : Spec)
  /-- Bitwise and of a and b (R62). -/
  | and (d a b : Spec)
  /-- Bitwise or of a and b (R62). -/
  | or (d a b : Spec)
  /-- Bitwise xor of a and b (R62). -/
  | xor (d a b : Spec)
  /-- a and not b (R62). -/
  | andn (d a b : Spec)
  /-- Shifts a left by register count b (R63). -/
  | shl (d a b : Spec)
  /-- Shifts a logically right by register count b (R63). -/
  | shr (d a b : Spec)
  /-- Shifts a arithmetically right by register count b (R63). -/
  | sar (d a b : Spec)
  /-- Shifts a left by an immediate count (R63). -/
  | shli (d a : Spec) (s : BitVec 6)
  /-- Shifts a logically right by an immediate count (R63). -/
  | shri (d a : Spec) (s : BitVec 6)
  /-- Shifts a arithmetically right by an immediate count (R63). -/
  | sari (d a : Spec) (s : BitVec 6)
  /-- Signed minimum (R62). -/
  | min (d a b : Spec)
  /-- Signed maximum (R62). -/
  | max (d a b : Spec)
  /-- Unsigned minimum (R62). -/
  | minu (d a b : Spec)
  /-- Unsigned maximum (R62). -/
  | maxu (d a b : Spec)
  /-- Counts leading zero bits of a (R62). -/
  | clz (d a : Spec)
  /-- Counts trailing zero bits of a (R62). -/
  | ctz (d a : Spec)
  /-- Counts one bits of a (R62). -/
  | popc (d a : Spec)
  /-- a plus b shifted left by 1 (R62). -/
  | leaS2 (d a b : Spec)
  /-- a plus b shifted left by 2 (R62). -/
  | leaS4 (d a b : Spec)
  /-- a plus b shifted left by 3 (R62). -/
  | leaS8 (d a b : Spec)
  /-- a plus b shifted left by 4 (R62). -/
  | leaS16 (d a b : Spec)
  /-- Sign-extends the low k bits of a (R62). -/
  | sext (d a : Spec) (k : BitVec 6)
  /-- Zero-extends the low k bits of a (R62). -/
  | zext (d a : Spec) (k : BitVec 6)
  /-- 32-bit add, sign-extended result (R61). -/
  | addI32 (d a b : Spec)
  /-- 32-bit subtract (R61). -/
  | subI32 (d a b : Spec)
  /-- 32-bit low product (R61). -/
  | mulI32 (d a b : Spec)
  /-- 32-bit signed high product (R61). -/
  | mulhI32 (d a b : Spec)
  /-- 32-bit unsigned high product (R61). -/
  | mulhuI32 (d a b : Spec)
  /-- 32-bit signed division (R64). -/
  | divI32 (d a b : Spec)
  /-- 32-bit unsigned division (R64). -/
  | divuI32 (d a b : Spec)
  /-- 32-bit signed remainder (R64). -/
  | remI32 (d a b : Spec)
  /-- 32-bit unsigned remainder (R64). -/
  | remuI32 (d a b : Spec)
  /-- 32-bit and (R61). -/
  | andI32 (d a b : Spec)
  /-- 32-bit or (R61). -/
  | orI32 (d a b : Spec)
  /-- 32-bit xor (R61). -/
  | xorI32 (d a b : Spec)
  /-- 32-bit and-not (R61). -/
  | andnI32 (d a b : Spec)
  /-- 32-bit left shift by register (R63). -/
  | shlI32 (d a b : Spec)
  /-- 32-bit logical right shift by register (R63). -/
  | shrI32 (d a b : Spec)
  /-- 32-bit arithmetic right shift by register (R63). -/
  | sarI32 (d a b : Spec)
  /-- 32-bit left shift by immediate (R63). -/
  | shliI32 (d a : Spec) (s : BitVec 5)
  /-- 32-bit logical right shift by immediate (R63). -/
  | shriI32 (d a : Spec) (s : BitVec 5)
  /-- 32-bit arithmetic right shift by immediate (R63). -/
  | sariI32 (d a : Spec) (s : BitVec 5)
  /-- 32-bit signed minimum (R61). -/
  | minI32 (d a b : Spec)
  /-- 32-bit signed maximum (R61). -/
  | maxI32 (d a b : Spec)
  /-- 32-bit unsigned minimum (R61). -/
  | minuI32 (d a b : Spec)
  /-- 32-bit unsigned maximum (R61). -/
  | maxuI32 (d a b : Spec)
  /-- Adds a signed 13-bit immediate to a (R58). -/
  | addi (d a : Spec) (i : BitVec 13)
  /-- Writes imm19 times 8192 to d (R57). -/
  | lui (d : Spec) (i : BitVec 19)
  /-- Sets a predicate if a equals b (R67). -/
  | cmpEq (p : PredNo) (a b : Spec)
  /-- Sets a predicate if a differs from b (R67). -/
  | cmpNe (p : PredNo) (a b : Spec)
  /-- Signed less-than compare (R67). -/
  | cmpLt (p : PredNo) (a b : Spec)
  /-- Signed less-or-equal compare (R67). -/
  | cmpLe (p : PredNo) (a b : Spec)
  /-- Unsigned less-than compare (R67). -/
  | cmpLtu (p : PredNo) (a b : Spec)
  /-- Unsigned less-or-equal compare (R67). -/
  | cmpLeu (p : PredNo) (a b : Spec)
  /-- FP32 equality compare into a predicate (R68). -/
  | fcmpEq (p : PredNo) (a b : Spec)
  /-- FP32 less-than compare (R68). -/
  | fcmpLt (p : PredNo) (a b : Spec)
  /-- FP32 less-or-equal compare (R68). -/
  | fcmpLe (p : PredNo) (a b : Spec)
  /-- FP32 unordered compare (R68). -/
  | fcmpUn (p : PredNo) (a b : Spec)
  /-- Predicate and (R69). -/
  | pand (p s q : PredNo)
  /-- Predicate or (R69). -/
  | por (p s q : PredNo)
  /-- Predicate xor (R69). -/
  | pxor (p s q : PredNo)
  /-- Predicate not (R69). -/
  | pnot (p s : PredNo)
  /-- Predicate copy (R69). -/
  | pmov (p s : PredNo)
  /-- Sets a predicate to an immediate bit (R69). -/
  | pset (p : PredNo) (k : Bool)
  /-- 32-bit equality compare (R67). -/
  | cmpEqI32 (p : PredNo) (a b : Spec)
  /-- 32-bit inequality compare (R67). -/
  | cmpNeI32 (p : PredNo) (a b : Spec)
  /-- 32-bit signed less-than (R67). -/
  | cmpLtI32 (p : PredNo) (a b : Spec)
  /-- 32-bit signed less-or-equal (R67). -/
  | cmpLeI32 (p : PredNo) (a b : Spec)
  /-- 32-bit unsigned less-than (R67). -/
  | cmpLtuI32 (p : PredNo) (a b : Spec)
  /-- 32-bit unsigned less-or-equal (R67). -/
  | cmpLeuI32 (p : PredNo) (a b : Spec)
  /-- FP64 equality compare (R68). -/
  | fcmpEqF64 (p : PredNo) (a b : Spec)
  /-- FP64 less-than compare (R68). -/
  | fcmpLtF64 (p : PredNo) (a b : Spec)
  /-- FP64 less-or-equal compare (R68). -/
  | fcmpLeF64 (p : PredNo) (a b : Spec)
  /-- FP64 unordered compare (R68). -/
  | fcmpUnF64 (p : PredNo) (a b : Spec)
  /-- Branches by a halfword offset when the predicate is 1 (R70). -/
  | br (p : PredNo) (o : BitVec 19)
  /-- Branches when the predicate is 0 (R70). -/
  | brNot (p : PredNo) (o : BitVec 19)
  /-- Decrements lc and loops back while it is nonzero (R71). -/
  | lpe (p : PredNo) (n : Bool) (o : BitVec 19)
  /-- Computes a target, writes the link and jumps (R72). -/
  | call (d a : Spec) (i : BitVec 13)
  /-- Loads a byte zero-extended (R171). -/
  | ldN8 (t b : Spec) (o : BitVec 10)
  /-- Loads 16 bits zero-extended (R171). -/
  | ldN16 (t b : Spec) (o : BitVec 10)
  /-- Loads 32 bits zero-extended (R171). -/
  | ldN32 (t b : Spec) (o : BitVec 10)
  /-- Loads 64 bits (R171). -/
  | ld64 (t b : Spec) (o : BitVec 10)
  /-- Loads a byte sign-extended (R171). -/
  | ldI8 (t b : Spec) (o : BitVec 10)
  /-- Loads 16 bits sign-extended (R171). -/
  | ldI16 (t b : Spec) (o : BitVec 10)
  /-- Loads 32 bits sign-extended (R171). -/
  | ldI32 (t b : Spec) (o : BitVec 10)
  /-- Loads 128 bits (R171). -/
  | ldV (t b : Spec) (o : BitVec 10)
  /-- Stores a byte (R171). -/
  | st8 (t b : Spec) (o : BitVec 10)
  /-- Stores 16 bits (R171). -/
  | st16 (t b : Spec) (o : BitVec 10)
  /-- Stores 32 bits (R171). -/
  | st32 (t b : Spec) (o : BitVec 10)
  /-- Stores 64 bits (R171). -/
  | st64 (t b : Spec) (o : BitVec 10)
  /-- Stores 128 bits (R171). -/
  | stV (t b : Spec) (o : BitVec 10)
  /-- Atomically swaps the operand into memory (R177). -/
  | amoSwap (t b : Spec) (o : MOrd) (c : Scope) (z : Bool)
  /-- Atomic add (R177). -/
  | amoAdd (t b : Spec) (o : MOrd) (c : Scope) (z : Bool)
  /-- Atomic and (R177). -/
  | amoAnd (t b : Spec) (o : MOrd) (c : Scope) (z : Bool)
  /-- Atomic or (R177). -/
  | amoOr (t b : Spec) (o : MOrd) (c : Scope) (z : Bool)
  /-- Atomic xor (R177). -/
  | amoXor (t b : Spec) (o : MOrd) (c : Scope) (z : Bool)
  /-- Atomic signed minimum (R177). -/
  | amoMin (t b : Spec) (o : MOrd) (c : Scope) (z : Bool)
  /-- Atomic signed maximum (R177). -/
  | amoMax (t b : Spec) (o : MOrd) (c : Scope) (z : Bool)
  /-- Atomic unsigned minimum (R177). -/
  | amoMinu (t b : Spec) (o : MOrd) (c : Scope) (z : Bool)
  /-- Atomic unsigned maximum (R177). -/
  | amoMaxu (t b : Spec) (o : MOrd) (c : Scope) (z : Bool)
  /-- Atomic float add with RNE (R177). -/
  | amoFadd (t b : Spec) (o : MOrd) (c : Scope) (z : Bool)
  /-- Atomic compare-and-swap (R177). -/
  | cas (t b : Spec) (o : MOrd) (c : Scope) (z : Bool)
  /-- Orders earlier and later accesses at a scope (R179). -/
  | fence (s : Scope) (o : MOrd)
  /-- Writes back modified host- or peer-backed lines of a range (R180). -/
  | cwb (s : Scope) (a b : Spec)
  /-- Writes back then invalidates device copies of a range (R180). -/
  | cinv (s : Scope) (a b : Spec)
  /-- Prefetches a line by hint (R182). -/
  | pf (a : Spec) (h : BitVec 3)
  /-- Decodes eight bank elements into 16-bit lanes (R175). -/
  | lds (d a : Spec) (i : BitVec 6)
  /-- Encodes eight lanes back into a bank, quantising blocked banks (R176). -/
  | sts (t a : Spec) (i : BitVec 6)
  /-- Holds the context until counters fall to their limits (R83). -/
  | wait (d s c l : BitVec 4)
  /-- Lane-wise float add (R130). -/
  | vaddF (t : FTy) (d a b : Spec)
  /-- Lane-wise float subtract (R130). -/
  | vsubF (t : FTy) (d a b : Spec)
  /-- Lane-wise float multiply (R130). -/
  | vmulF (t : FTy) (d a b : Spec)
  /-- Lane-wise float divide (R130). -/
  | vdivF (t : FTy) (d a b : Spec)
  /-- Lane-wise float minimum (R131). -/
  | vminF (t : FTy) (d a b : Spec)
  /-- Lane-wise float maximum (R131). -/
  | vmaxF (t : FTy) (d a b : Spec)
  /-- Clears each lane's sign (R131). -/
  | vabsF (t : FTy) (d a : Spec)
  /-- Inverts each lane's sign (R131). -/
  | vnegF (t : FTy) (d a : Spec)
  /-- Float equality lane mask (R132). -/
  | vceqF (t : FTy) (d a b : Spec)
  /-- Float less-than lane mask (R132). -/
  | vcltF (t : FTy) (d a b : Spec)
  /-- Float less-or-equal lane mask (R132). -/
  | vcleF (t : FTy) (d a b : Spec)
  /-- Float unordered lane mask (R132). -/
  | vcunF (t : FTy) (d a b : Spec)
  /-- Sums all lanes with one rounding into lane 0 (R133). -/
  | vrsumF (t : FTy) (d a : Spec)
  /-- Maximum across lanes into lane 0 (R133). -/
  | vrmaxF (t : FTy) (d a : Spec)
  /-- Minimum across lanes into lane 0 (R133). -/
  | vrminF (t : FTy) (d a : Spec)
  /-- Lane-wise integer add modulo 2^w (R137). -/
  | vaddI (t : IntTy) (d a b : Spec)
  /-- Lane-wise integer subtract (R137). -/
  | vsubI (t : IntTy) (d a b : Spec)
  /-- Saturating lane-wise add (R138). -/
  | vadds (t : IntTy) (d a b : Spec)
  /-- Saturating lane-wise subtract (R138). -/
  | vsubs (t : IntTy) (d a b : Spec)
  /-- Lane-wise low product (R137). -/
  | vmulI (t : IntTy) (d a b : Spec)
  /-- Lane-wise integer minimum (R137). -/
  | vminI (t : IntTy) (d a b : Spec)
  /-- Lane-wise integer maximum (R137). -/
  | vmaxI (t : IntTy) (d a b : Spec)
  /-- Bitwise and of registers (R137). -/
  | vand (t : IntTy) (d a b : Spec)
  /-- Bitwise or of registers; mov is vor.n64 with zero (R137). -/
  | vor (t : IntTy) (d a b : Spec)
  /-- Bitwise xor of registers (R137). -/
  | vxor (t : IntTy) (d a b : Spec)
  /-- Lane-wise left shift (R137). -/
  | vshl (t : IntTy) (d a b : Spec)
  /-- Lane-wise right shift by signedness (R137). -/
  | vshr (t : IntTy) (d a b : Spec)
  /-- Integer equality lane mask (R137). -/
  | vceqI (t : IntTy) (d a b : Spec)
  /-- Integer less-than lane mask (R137). -/
  | vcltI (t : IntTy) (d a b : Spec)
  /-- Bitwise select by the old d (R137). -/
  | vsel (t : IntTy) (d a b : Spec)
  /-- Sums integer lanes into d[63:0] (R140). -/
  | vrsumI (t : IntTy) (d a : Spec)
  /-- Byte shuffle from a and old d by index b (R141). -/
  | vshuf (d a b : Spec)
  /-- Zips low 32-bit elements (R141). -/
  | vzlo (d a b : Spec)
  /-- Zips high 32-bit elements (R141). -/
  | vzhi (d a b : Spec)
  /-- Unzips even 32-bit elements (R141). -/
  | vuev (d a b : Spec)
  /-- Unzips odd 32-bit elements (R141). -/
  | vuod (d a b : Spec)
  /-- Broadcasts lane n of a (R142). -/
  | vbcst (d a : Spec) (n : BitVec 4) (w : BitVec 2)
  /-- Extracts lane n of a zero-extended (R142). -/
  | vext (d a : Spec) (n : BitVec 4) (w : BitVec 2)
  /-- Inserts a into lane n of d (R142). -/
  | vins (d a : Spec) (n : BitVec 4) (w : BitVec 2)
  /-- Shifts a byte window across old d and a (R143). -/
  | vexl (d a b : Spec)
  /-- Reverses the bytes of a (R141). -/
  | vrev (d a : Spec)
  /-- Sends a 128-bit entry to an inter-core queue (R148). -/
  | xqSnd (a b : Spec)
  /-- Takes a queue's head entry if present, without blocking (R151). -/
  | xqTry (d : Spec) (n : BitVec 3) (k : PredNo)
  /-- Takes a queue's head entry, blocking while empty (R150). -/
  | xqRcv (d : Spec) (n : BitVec 3)
  /-- Fused multiply-add per lane (R134). -/
  | vfma (t : FTy) (d a b : Spec)
  /-- Fused multiply-subtract per lane (R134). -/
  | vfms (t : FTy) (d a b : Spec)
  /-- Negated fused multiply-add per lane (R134). -/
  | vfnma (t : FTy) (d a b : Spec)
  /-- Negated fused multiply-subtract per lane (R134). -/
  | vfnms (t : FTy) (d a b : Spec)
  /-- Accumulates narrow float products into FP32 lanes (R135). -/
  | vdot (t : FTy) (d a b : Spec)
  /-- Accumulates integer products into 32-bit lanes (R136). -/
  | vdoti (t : IntTy) (d a b : Spec)
  /-- Lane-wise reciprocal (R144). -/
  | vrcp (t : FTy) (d a : Spec)
  /-- Lane-wise reciprocal square root (R144). -/
  | vrsqrt (t : FTy) (d a : Spec)
  /-- Lane-wise square root, rounded by fm (R144). -/
  | vsqrt (t : FTy) (d a : Spec)
  /-- Lane-wise 2^x (R144). -/
  | vexp2 (t : FTy) (d a : Spec)
  /-- Lane-wise log2 (R144). -/
  | vlog2 (t : FTy) (d a : Spec)
  /-- Lane-wise sin(pi x) (R144). -/
  | vsin (t : FTy) (d a : Spec)
  /-- Lane-wise cos(pi x) (R144). -/
  | vcos (t : FTy) (d a : Spec)
  /-- Lane-wise tanh (R144). -/
  | vtanh (t : FTy) (d a : Spec)
  /-- Lane-wise sigmoid (R144). -/
  | vsigm (t : FTy) (d a : Spec)
  /-- Lane-wise erf (R144). -/
  | verf (t : FTy) (d a : Spec)
  /-- Converts float lanes between formats (R120). -/
  | cvt (t s : FTy) (d a : Spec)
  /-- Converts float lanes to integers (R120). -/
  | cvti (t : CvtInt) (s : FTy) (d a : Spec)
  /-- Converts integer lanes to floats (R120). -/
  | cvtf (t : FTy) (s : CvtInt) (d a : Spec)
  /-- Quantises one register block with a shared scale (R121). -/
  | qnt (t s : FTy) (d a : Spec)
  /-- Dequantises one register block (R122). -/
  | dqnt (t s : FTy) (d a : Spec)
  /-- Writes a 4-bit class per lane (R123). -/
  | fclass (s : FTy) (d a : Spec)
  /-- Packs bytes into 4- or 6-bit elements (R124). -/
  | pack (d a : Spec) (w : Bool)
  /-- Unpacks 4- or 6-bit elements into bytes (R124). -/
  | unpack (d a : Spec) (w : BitVec 2)
  /-- Issues a dense tile operation token (R311). -/
  | mx (d a : Spec) (i : BitVec 7)
  /-- Issues a sparse tile operation token (R311). -/
  | mxs (d a : Spec) (i : BitVec 7)
  /-- Issues a drain of an accumulator bank (R314). -/
  | mxDrn (d a : Spec) (i : BitVec 7)
  /-- Issues a clear of an accumulator bank (R314). -/
  | mxClr (d a : Spec) (i : BitVec 7)
  /-- Issues a linear copy token (R315). -/
  | cp (d a : Spec) (i : BitVec 7)
  /-- Issues a tensor copy with format conversion (R316). -/
  | cpT (d a : Spec) (i : BitVec 7)
  /-- Issues an element-wise reduction into a destination (R317). -/
  | cpRed (d a : Spec) (i : BitVec 7)
  /-- Issues a copy across reliability classes (R221). -/
  | cpCls (d a : Spec) (i : BitVec 7)
  /-- Creates an A-operand stream token (R309). -/
  | strmA (d a : Spec) (i : BitVec 7)
  /-- Creates a B-operand stream token (R309). -/
  | strmB (d a : Spec) (i : BitVec 7)
  /-- Issues a gather through an index array (R318). -/
  | cpGat (d a : Spec) (i : BitVec 7)
  /-- Issues a scatter through an index array (R318). -/
  | cpSca (d a : Spec) (i : BitVec 7)
  /-- Issues an all-reduce participant token (R320). -/
  | colAr (d a : Spec) (i : BitVec 7)
  /-- Issues an all-gather participant token (R320). -/
  | colAg (d a : Spec) (i : BitVec 7)
  /-- Issues a reduce-scatter participant token (R320). -/
  | colRs (d a : Spec) (i : BitVec 7)
  /-- Issues a broadcast participant token (R320). -/
  | colBc (d a : Spec) (i : BitVec 7)
  /-- Issues an all-to-all participant token (R320). -/
  | colA2a (d a : Spec) (i : BitVec 7)
  /-- Blocks until a token is terminal, or on the basin for handle 0 (R325). -/
  | tokWait (d a : Spec)
  /-- Tests a token without blocking (R326). -/
  | tokTest (d a : Spec) (k : PredNo)
  /-- Detaches a token from the issuing task (R327). -/
  | tokDet (a : Spec)
  /-- Adopts an orphan token of the group (R327). -/
  | tokAdop (a : Spec)
  /-- Adds a dependence to a gated token (R328). -/
  | tokDep (a b : Spec)
  /-- Adds a dependence and releases the gated token (R328). -/
  | tokDepGo (a b : Spec)
  /-- Cancels a token or acknowledges its fault (R329). -/
  | tokCan (a : Spec)
  /-- Restarts a faulted or suspended token (R329). -/
  | tokCanR (a : Spec)
  /-- Writes a token's priority (R330). -/
  | tokPri (a b : Spec)
  /-- Reads a token record, optionally releasing the slot (R331). -/
  | tokRec (d a : Spec) (n : Bool)
  /-- Replaces a token's notice choice (R330). -/
  | tokPost (a b : Spec)
  /-- Issues a row gather token (R336). -/
  | rowGat (d a : Spec) (i : BitVec 7)
  /-- Issues a row scatter-combine token (R337). -/
  | rowSca (d a : Spec) (i : BitVec 7)
  /-- Issues a token pinning rows in the row cache (R340). -/
  | rowPin (d a : Spec) (i : BitVec 7)
  /-- Issues a token unpinning rows (R340). -/
  | rowUnp (d a : Spec) (i : BitVec 7)
  /-- Issues a token hinting row heat or migration (R341). -/
  | rowHint (d a : Spec) (i : BitVec 7)
  /-- Sends a plain task record (R249). -/
  | spawn (a b : Spec)
  /-- Sends an ordered task record and returns its seq (R249). -/
  | spawnO (d a b : Spec)
  /-- Sends a plain task to the home of a named address (R249). -/
  | spawnD (a b : Spec)
  /-- Writes a continuation and ends the task (R252). -/
  | susp
  /-- Retires the task after its tokens finish (R251). -/
  | done
  /-- Hands a continuation to the own task unit (R253). -/
  | yield
  /-- Reads the applied frontier (R255). -/
  | tsGet (d : Spec)
  /-- Aborts and requeues a speculative ordered task (R254). -/
  | abort
  /-- Marks a safe point, entering Saving if pre-emption is pending (R84). -/
  | spt (n : BitVec 12)
  /-- Submits a launch descriptor to Turat (R353). -/
  | launch (d a : Spec)
  /-- Reads one item of the running launch (R354). -/
  | kinfo (d a : Spec)
  /-- Sends a record of a permitted kind (R267). -/
  | snd (a b : Spec)
  /-- Sends a code message (R268). -/
  | sndC (a b : Spec)
  /-- Sends a reply to the sender of the running record (R271). -/
  | rpl (a : Spec)
  /-- Writes a tag table entry (R269). -/
  | tagBind (a b : Spec)
  /-- Takes a reply slot and sends a request (R270). -/
  | rq (d a b : Spec)
  /-- Binds a pattern and fires it if ready (R283). -/
  | patBind (a b : Spec)
  /-- Unbinds a pattern (R283). -/
  | patDrop (a : Spec)
  /-- Configures or unconfigures a port (R287). -/
  | portCfg (a b : Spec)
  /-- Sends a message to a port (R288). -/
  | portGive (a b : Spec)
  /-- Reads a port's state word (R289). -/
  | portSt (d a : Spec) (w : BitVec 4)
  /-- Takes a port's head message without waiting (R290). -/
  | portTake (d a : Spec) (k : PredNo)
  /-- Takes a port's head message, blocking while empty (R290). -/
  | portTakeW (d a : Spec)
  /-- Discards every message of a port (R291). -/
  | portClr (d a : Spec)
  /-- Saturating atomic add to a signal (R400). -/
  | sigAdd (d a b : Spec)
  /-- Atomically sets a signal (R400). -/
  | sigSet (d a b : Spec)
  /-- Acquire-reads a signal (R400). -/
  | sigRd (d a : Spec)
  /-- Blocks until a signal is at or below a threshold (R401). -/
  | sigWait (d a b : Spec)
  /-- Compare-and-swap on a signal (R400). -/
  | sigCas (d a b : Spec)
  /-- Creates a child group from a GCB (R364). -/
  | grpNew (d a : Spec)
  /-- Ends a group gracefully or forcefully (R359). -/
  | grpEnd (a : Spec) (k : Bool)
  /-- Reads a GCB word as the device holds it (R364). -/
  | grpRd (d a : Spec) (n : BitVec 4)
  /-- Writes a permitted GCB word (R364). -/
  | grpSet (n : BitVec 4) (a b : Spec)
  /-- Rearms a group's error budget (R364). -/
  | ebudSet (a b : Spec)
  /-- Reads a group's error budget (R364). -/
  | ebudRd (d a : Spec)
  /-- Reads a system register (R88). -/
  | mfs (d : Spec) (s : BitVec 6)
  /-- Writes a system register with its checks (R89). -/
  | mts (a : Spec) (s : BitVec 6)
  /-- Raises a software-trap fault (R87). -/
  | trap (a : Spec)
  /-- Writes a TLB entry into selected TLBs (R232). -/
  | tlbWr (a b : Spec)
  /-- Removes the entry of one page (mode 0) (R233). -/
  | tlbInvPage (a b : Spec)
  /-- Removes every entry of one context (mode 1) (R233). -/
  | tlbInvContext (a b : Spec)
  /-- Removes every entry (mode 2) (R233). -/
  | tlbInvAll (a b : Spec)
  /-- Probes one TLB for an address (R234). -/
  | tlbPrb (d a b : Spec)
  /-- Wakes a context sleeping on its pager with a code (R236). -/
  | pgWake (d a b : Spec)
  /-- Harvests a core's dirty log to a buffer (R238). -/
  | dlHv (d a b : Spec)
  /-- Corrupts stored bits for test (R224). -/
  | errInj (a b : Spec)
  /-- Reports the class and state of memory at an address (R223). -/
  | clsQ (d a : Spec)
  /-- Stores a context record to memory (R374). -/
  | ctxSv (d a b : Spec)
  /-- Creates a context from a record image (op 0) (R373). -/
  | ctxLdCreate (a b : Spec)
  /-- Updates bas, root and lay of a context (op 1) (R373). -/
  | ctxLdUpdate (a b : Spec)
  /-- Destroys a context (op 2) (R372). -/
  | ctxLdDestroy (a b : Spec)
  /-- Registers a QCB with a die's Turat (op 0) (R390). -/
  | queSubRegister (d a b : Spec)
  /-- Unregisters a queue (op 1) (R390). -/
  | queSubUnregister (d a b : Spec)
  /-- Resumes a Stopped queue and clears its errors (op 2) (R390). -/
  | queSubResume (d a b : Spec)
  /-- Maps a registered queue into a hardware slot (R390). -/
  | slotMap (a b : Spec)
  /-- Unmaps a slot's queue (R390). -/
  | slotUnm (a b : Spec)
  /-- Reads a slot's queue and state (R390). -/
  | slotRd (d a : Spec)
  /-- Writes a record to a die's decision log (R390). -/
  | dlogWr (a b : Spec)
  /-- Reads a decision-log counter (R390). -/
  | dlogRd (d a : Spec)
  /-- Stops the core with a code when breakpoints are enabled (R424). -/
  | dbgBrk (k : BitVec 6)
  /-- Writes a mark record to the trace (R424). -/
  | dbgMark (a : Spec)
  /-- Reads a profile counter (R422). -/
  | profRd (d a : Spec)
  /-- Stops a named core (op 0) (R424). -/
  | dbgStopStop (a b : Spec)
  /-- Clears a named core's debugger stop (op 1) (R424). -/
  | dbgStopGo (a b : Spec)
  /-- Steps a context of a named core (op 2) (R424). -/
  | dbgStopStep (a b : Spec)
  /-- Loads one extension register (R41). -/
  | xld (n : XNo) (a : Spec) (o : BitVec 6)
  /-- Loads all four extension registers (R41). -/
  | xld4 (a : Spec) (o : BitVec 6)
  /-- Moves a register into an extension register (R41). -/
  | xmv (n : XNo) (a : Spec)
  /-- Reads an extension register (R41). -/
  | xrd (d : Spec) (n : XNo)
  /-- Stores one extension register (R41). -/
  | xst (n : XNo) (a : Spec) (o : BitVec 6)
  /-- Stores all four extension registers (R41). -/
  | xst4 (a : Spec) (o : BitVec 6)
  /-- Compact add or add.i32 (R32). -/
  | cAdd (w : Bool) (b a d : CReg)
  /-- Compact sub or sub.i32 (R32). -/
  | cSub (w : Bool) (b a d : CReg)
  /-- Compact move between a q register and any register (R60). -/
  | cMov (r : Bool) (m : Spec) (d : CReg)
  /-- Compact addi (R32). -/
  | cAddi (i : BitVec 5) (a d : CReg)
  /-- Compact load immediate (R32). -/
  | cLi (i : BitVec 8) (d : CReg)
  /-- Compact ld.64 or ld.v (R32). -/
  | cLd (z : Bool) (o : BitVec 4) (b t : CReg)
  /-- Compact st.64 or st.v (R32). -/
  | cSt (z : Bool) (o : BitVec 4) (b t : CReg)
  /-- Compact integer compare (R32). -/
  | cCmp (c : BitVec 2) (b a : CReg) (p : PredNo)
  /-- Compact conditional branch (R32). -/
  | cBr (o : BitVec 7) (n : Bool) (p : PredNo)
  /-- Compact unconditional branch (R32). -/
  | cJmp (o : BitVec 11)
  /-- Compact vector add (R32). -/
  | cVadd (t : BitVec 2) (b a d : CReg)
  /-- Compact fused multiply-add (R32). -/
  | cVfma (t : BitVec 2) (b a d : CReg)
  /-- Compact xmv (R32). -/
  | cXmv (m : Spec) (x : XNo)
  /-- Compact wait on one counter (R83). -/
  | cWait (n : BitVec 4) (s : BitVec 2)
  /-- Compact safe point (R84). -/
  | cSpt (n : BitVec 11)
  /-- Compact susp (R32). -/
  | cSusp
  /-- Compact done (R32). -/
  | cDone
  /-- Predicates the following word as one pair (R33). -/
  | cIf (n : Bool) (p : PredNo)
  /-- No effect (R32). -/
  | cNop
  /-- Fetches a 64-byte block, raising fetch faults (R27). -/
  | instructionFetch (place : Nat)
  /-- A record arrives at a core inbox and is held, dropped or looked up as a reply (R75). -/
  | inboxRecordArrival (msg : Nat)
  /-- A record arrives at a task unit, spilling ordered records if full (R244). -/
  | taskUnitRecordArrival (msg : Nat)
  /-- A record reaches a port and is stored, taken, refused or dropped (R274). -/
  | portArrival (msg : Nat)
  /-- A core admits a record to a freed context and starts its handler (R79). -/
  | admission (place : Nat)
  /-- A send held 2^24 cycles raises a send-stall fault (R76). -/
  | sendStallTimeout (place : Nat)
  /-- An entry arrives at a receive queue and is appended or refused (R147). -/
  | xqEntryArrival (place : Nat)
  /-- A load's value is written to its register and cld falls (R82). -/
  | loadValueReturn (acc : Nat)
  /-- A store is applied at its home and cst falls (R172). -/
  | storePerformed (acc : Nat)
  /-- The home slice processes one line request under the directory (R162). -/
  | homeRequest (req : HomeReq)
  /-- An engine claims a destination line, recalling L1 copies (R164). -/
  | engineClaim (tok line : Nat)
  /-- An engine releases a written line and waiting accesses proceed (R164). -/
  | engineRelease (tok line : Nat)
  /-- The stack's background scrub reads and repairs or poisons a granule (R214). -/
  | scrubRead (pa : Nat)
  /-- A class-block table write is checked and applied or rejected (R210). -/
  | clsBlkWrite (j : Nat) (v : BitVec 64)
  /-- Reclassed frames finish clearing and busy clears (R210). -/
  | classClearDone
  /-- A miss message reaches the translation service core (R229). -/
  | tlbMiss (place : Nat)
  /-- The walk's answer reaches the requester, which proceeds or faults (R229). -/
  | walkReply (place : Nat)
  /-- A context enters Pre-empting: flags set, ordered tasks aborted, records requeued (R368). -/
  | preemptionRequest (ctx : Nat)
  /-- No safe point within 2^21 cycles ends the kernel (R86). -/
  | noSafePointTimeout (place : Nat)
  /-- All saves done and no token running; the context is Suspended (R367). -/
  | contextSuspended (ctx : Nat)
  /-- Save entries and requeued records return as records (R369). -/
  | contextResume (ctx : Nat)
  /-- Save and requeue areas become resident; Created goes Idle (R367). -/
  | contextAreasResident (ctx : Nat)
  /-- Kernel-faulted discarding ends and the queue advances (R367). -/
  | contextDiscardComplete (ctx : Nat)
  /-- An HBM stack at 105 C freezes every context (R371). -/
  | freeze (stack : Nat) (temp : Nat)
  /-- All stacks at 95 C or less resume every context (R371). -/
  | thaw (temps : List Nat)
  /-- At cycle 0 of a round each cluster samples its least unfinished and greatest finished keys (R263). -/
  | weirSample
  /-- Per-die reductions complete at cycle 64 (R263). -/
  | weirDieReduction
  /-- The hub yields each launch's frontier at cycle 128 (R263). -/
  | weirDeviceReduction
  /-- At cycle 160 the frontier is applied and frontier waits end (R257). -/
  | weirFrontierApply
  /-- Clusters commit finished tasks below the frontier and release deferred items (R264). -/
  | weirCommit
  /-- A full spill area for one whole round aborts the latest-key task (R244). -/
  | spillFullAbort (cl : Nat)
  /-- A freed unit takes the highest-priority ready Waiting token (R300). -/
  | tokenStart (tok engine : Nat)
  /-- A stream fetches a group into its engine FIFO (R310). -/
  | streamGroupFetch (tok : Nat)
  /-- A tile accumulates one group of 48 products (R313). -/
  | tileGroupStep (tok : Nat)
  /-- A tile drain converts and writes the accumulator into a scratchpad (R318). -/
  | tileDrain (tok : Nat)
  /-- A copy, gather or scatter streamer writes a destination line (R315). -/
  | copyLineStep (tok : Nat)
  /-- An instance unstarted after 2^28 cycles faults its tokens (R321). -/
  | collectiveTimeout (tok : Nat)
  /-- A draining collective exceeding its bound faults (R323). -/
  | drainBoundExceeded (tok : Nat)
  /-- An issue stalled 2^24 cycles for a slot faults (R298). -/
  | tokenSlotStallTimeout (place : Nat)
  /-- A token completes, writes its record and posts its notice (R304). -/
  | tokenDone (tok : Nat)
  /-- A running token faults or suspends, releasing lines and posting its notice (R303). -/
  | tokenFault (tok : Nat)
  /-- The row engine processes one window of 64 elements (R335). -/
  | rowWindow (tok : Nat)
  /-- A slice combiner applies one row update (R337). -/
  | rowCombinerUpdate (tok elem : Nat)
  /-- Every 65,536 cycles each row-cache counter halves (R339). -/
  | rowCounterHalving (slice : Nat)
  /-- A row element not read within 4,096 cycles rereads its map entry (R342). -/
  | rowEntryReread (tok elem : Nat)
  /-- A submitted launch receives a launch number and enters Checking (R349). -/
  | launchAdmit (sub : Nat)
  /-- Header and tables are checked; failure ends with status 1 (R350). -/
  | launchCheck (launch : Nat)
  /-- Every leased page is Leased, or backing fails with status 2 (R349). -/
  | launchResident (launch : Nat) (backed : Bool)
  /-- An ordered launch takes a frontier slot (R349). -/
  | launchWeirSlot (launch : Nat)
  /-- Turat places the entry task on a cluster (R351). -/
  | launchPlace (launch cl : Nat)
  /-- A launch ends, releases its resources and writes its signal (R352). -/
  | launchEnd (launch : Nat)
  /-- An Ending group with no live tasks, orphans or children becomes Ended (R359). -/
  | groupEnded (launch slot : Nat)
  /-- Every 4,096 cycles stage caps move by ring occupancy (R363). -/
  | sluiceGovernorVisit (launch : Nat)
  /-- A write of wi notifies Turat, checking indices (R377). -/
  | queueWiNotice (queue : Nat)
  /-- A slot waiting on a not-ready header sees it published (R379). -/
  | packetHeaderReady (queue : Nat)
  /-- A mapped queue starts its next eligible packet (R380). -/
  | packetStart (queue : Nat)
  /-- A packet completes, writes its signal and retires in order (R381). -/
  | packetComplete (queue idx : Nat)
  /-- A stage ring hands its head record to a task unit (R383). -/
  | stageRingHandoff (queue cl : Nat)
  /-- Each aging interval raises a Pending queue's epri (R386). -/
  | agingTick (die : Nat)
  /-- A queue mapped for a quantum is unmapped if a rival waits (R386). -/
  | quantumExpiry (slot : Nat)
  /-- A queue's wait timer passes the bound and a record is written (R387). -/
  | boundMissed (queue : Nat)
  /-- Starts loading a signed Turat image (R385). -/
  | trtCtlGo (die : Nat)
  /-- An image load ends, good or bad, with a decision record (R385). -/
  | turatLoadComplete (die err key : Nat)
  /-- A change to a watched HBM signal notifies barriers and waiters (R396). -/
  | signalNotify (loc : Nat)
  /-- Every 512 cycles a chip-scratchpad signal is read again (R396). -/
  | signalPollChip (watch : Nat)
  /-- Every 4,096 cycles a host or peer signal is read again (R396). -/
  | signalPollRemote (watch : Nat)
  /-- A host write through the queue-control window (R404). -/
  | hostBar2Write (off : Nat) (bytes : List (BitVec 8))
  /-- A host read through the queue-control window (R404). -/
  | hostBar2Read (off n : Nat)
  /-- A doorbell command registers a queue (R405). -/
  | dbCmdRegister (set : Nat) (qcb cmd : BitVec 64)
  /-- A doorbell command unregisters a queue (R405). -/
  | dbCmdUnregister (set : Nat) (qcb cmd : BitVec 64)
  /-- A doorbell command resumes a Stopped queue (R405). -/
  | dbCmdResume (set : Nat) (qcb cmd : BitVec 64)
  /-- A completion for a host-backed access arrives, possibly with error (R406). -/
  | hostLinkCompletion (acc : Nat) (err : Bool) (bytes : List (BitVec 8))
  /-- No completion in 2^24 cycles raises a host-link fault (R406). -/
  | hostLinkTimeout (acc : Nat)
  /-- A die-to-die link failing retry 64 times retrains (R407). -/
  | d2dRetrain (enda endb : Nat)
  /-- A die-to-die retrain completes and traffic resumes (R407). -/
  | d2dRetrainDone (enda endb : Nat)
  /-- A retrain not done in 2^20 cycles raises the fatal condition (R407). -/
  | d2dRetrainTimeout (enda endb : Nat)
  /-- A Notur flit is checked, replayed or delivered once (R408). -/
  | noturFlitReceive (port : Nat) (flit : NoturFlit)
  /-- Writing en 1 starts port training (R409). -/
  | noturEnable (port : Nat)
  /-- Writing en 0 disables the port, failing outstanding requests (R409). -/
  | noturDisable (port : Nat)
  /-- Port lanes pass and the port becomes Active (R409). -/
  | noturTrainingDone (port : Nat) (bad : Option (Fin 8))
  /-- Training for 2^22 cycles makes the port Down (R409). -/
  | noturTrainingTimeout (port : Nat)
  /-- Retraining for 2^21 cycles makes the port Down and fails requests (R410). -/
  | noturRetrainTimeout (port : Nat)
  /-- MG_RESET_N low resets the module and starts boot verification (R412). -/
  | coldReset
  /-- MG_PWRGD changes, holding or releasing cold reset (R417). -/
  | powerGoodChange (good : Bool)
  /-- Firmware signature check ends and compute dies leave reset or stay (R412). -/
  | bootVerifyComplete (code : Nat)
  /-- Starts an attestation report request (R413). -/
  | attReqReport (v : BitVec 64)
  /-- Starts an identity public key request (R413). -/
  | attReqPubkey (v : BitVec 64)
  /-- An attestation request ends and vector 3 is raised (R413). -/
  | attReqComplete (ok : Bool)
  /-- An HBM lane margin below threshold raises vector 2 (R414). -/
  | eyeMarginAlert (lane : HbmLane) (hor : BitVec 8) (ver : BitVec 8)
  /-- A write names an MSI-X vector to raise (R416). -/
  | hostIrqWrite (v : BitVec 64)
  /-- Sets the module input limit, ignoring out-of-range values (R423). -/
  | pwrLimWrite (v : BitVec 64)
  /-- The device changes clock, voltage or issue limit and records why (R423). -/
  | throttleChange (die : Nat) (cause : BitVec 4) (quantity : BitVec 4) (v : BitVec 64)
  /-- A management-bus read of 8 bytes at an offset (R417). -/
  | smbusBlockRead (off : Nat)
  /-- Writing stop halts the core (R418). -/
  | dbgCtlStop (core : Nat)
  /-- Writing go clears the debugger stop (R418). -/
  | dbgCtlGo (core : Nat)
  /-- Writing step runs one instruction of the selected context (R419). -/
  | dbgCtlStep (core : Nat)
  /-- Writes the selected state of a halted context (R418). -/
  | dbgDatWrite (core : Nat) (v : BitVec 64)
  /-- A write to a device register without behaviour of its own (R6). -/
  | registerWrite (addr : Nat) (data : RegData)
  /-- The pager cannot back the save or requeue area of a Created context in class full, so the context returns to Destroyed and the reason goes to the decision log (R367). -/
  | contextAreasUnbacked (ctx : Nat)
  /-- The PCI Express host link's LTSSM changes state, trains to a rate and width, or goes down, and HOST_CTL ltssm, wid and rate change with it (R403). -/
  | hostLinkTraining (ltssm : BitVec 6) (rate : BitVec 3) (wid : BitVec 5)
  /-- The retraining of a stack's interface, or the mapping of a lane to a spare lane, ends and the accesses waiting at their homes for that stack proceed (R414). -/
  | hbmInterfaceRetrainDone (stack : Nat)
  deriving DecidableEq, Repr

end Sys2Proof
end

