-- ==== Sys2Proof/WellFormed.lean ====
section
/-! DEFINITION. Which operand values make an instruction (R35, R39, R45 to R47 and the operand ranges of each chapter).
Every check has the name under which the decoder rejects a word. -/

namespace Sys2Proof

/-- Why a word is no instruction: each raises the illegal-instruction fault (R47). -/
inductive Ill where
  /-- The halfword 0x0000 (R28). -/
  | zeroHalfword
  /-- Major 0x1E or 0x1F (R44). -/
  | reservedMajor
  /-- A function or size code that R44 does not assign. -/
  | reservedFn
  /-- A 16-bit form that R32 does not assign. -/
  | reservedForm16
  /-- A nonzero value in a field that must be zero, or a reserved field value (R46, R47). -/
  | reservedField
  /-- A register specifier from 2 to 7 (R35). -/
  | reservedSpec
  /-- A type code that R31 reserves or that the instruction does not accept (R46, R119, R127). -/
  | reservedType
  /-- A reserved order (R30), or `fence` with `.rlx` (R179). -/
  | reservedOrd
  /-- A reserved scope (R30), or one that `cwb` and `cinv` do not accept (R180). -/
  | reservedScope
  /-- p0 as destination (R39). -/
  | destP0
  /-- A register that cannot start the run of registers the instruction names (R248, R290, R331, R353). -/
  | payloadReg
  /-- An immediate outside its range (R45, R46). -/
  | badRange
  /-- A reserved system-register number, or a write of one marked RO (R43). -/
  | badSysReg
  /-- The word is cut short: fewer bytes than its length (R26). -/
  | truncated
  deriving DecidableEq, Repr

/-- Specifiers 2 to 7 are reserved (R35). -/
def specOk (x : Spec) : Bool := x.val ≤ 1 || 8 ≤ x.val

/-- The register that starts a payload of three (R248): q0-q5, v0-v45, or `zero`. -/
def payloadOk (x : Spec) : Bool := x.val == 1 || (8 ≤ x.val && x.val ≤ 13) || (16 ≤ x.val && x.val ≤ 61)

/-- The register that starts the four of `tok.rec` (R331). -/
def recRegOk (x : Spec) : Bool := (8 ≤ x.val && x.val ≤ 12) || (16 ≤ x.val && x.val ≤ 60)

/-- The register that starts the pair of `launch` (R353). -/
def pairRegOk (x : Spec) : Bool := (8 ≤ x.val && x.val ≤ 14) || (16 ≤ x.val && x.val ≤ 62)

/-- A destination predicate is not p0 (R39). -/
def destPredOk (p : PredNo) : Bool := p.val != 0

/-- Lane n exists at the width of code w (R142): n < 128 div W. -/
def laneOk (w : BitVec 2) (n : BitVec 4) : Bool := n.toNat < 16 / 2 ^ w.toNat

/-- The notice codes of an issue: imm7[6:4] from 0 to 4 (R295, R297). -/
def ntcOk (i : BitVec 7) : Bool := i.toNat / 16 ≤ 4

/-- The system registers that R42 marks RW: fm, f0-f3, tagbase, lc, srs, bf0-bf7. -/
def sysWritable (n : Nat) : Bool := (1 ≤ n && n ≤ 5) || n == 12 || n == 16 || n == 17 || (20 ≤ n && n ≤ 27)

/-- The words that `grp.set` accepts (R364). -/
def grpSetWord (n : Nat) : Bool := n == 1 || n == 2 || (4 ≤ n && n ≤ 7) || n == 11

/-- The types of the 3-bit float code: all but `.e4` and `.e5` (R31). -/
def FTy.isCode3 : FTy → Bool
  | .e4 | .e5 => false
  | _ => true

/-- The native types of the 2-bit code: `.f32`, `.f64`, `.b16`, `.h16` (R144). -/
def FTy.isNative : FTy → Bool
  | .f32 | .f64 | .b16 | .h16 => true
  | _ => false

/-- `vdiv` accepts `.f32` and `.f64` only (R46, R128). -/
def FTy.isFixed32or64 : FTy → Bool
  | .f32 | .f64 => true
  | _ => false

/-- `vdot` accepts `.b16`, `.h16` and format registers (R135). -/
def FTy.isDot : FTy → Bool
  | .b16 | .h16 | .fr _ => true
  | _ => false

/-- The narrow side of `qnt` and `dqnt`: codes 4, 5 and 8 to 11 (R119). -/
def FTy.isNarrow : FTy → Bool
  | .e4 | .e5 | .fr _ => true
  | _ => false

/-- `vdoti` accepts the 8- and 16-bit types (R136). -/
def IntTy.isDotInt : IntTy → Bool
  | .i8 | .n8 | .i16 | .n16 => true
  | _ => false

/-- The scopes of `cwb` and `cinv` (R180). -/
def Scope.isExternal : Scope → Bool
  | .host | .link | .fab | .sys => true
  | _ => false

/-- The checks of an instruction's operands, each with the name under which a failure is reported. A step without an
encoding has none. -/
def Instr.checks : Instr → List (Bool × Ill)
  | .add d a b => [(specOk d, .reservedSpec), (specOk a, .reservedSpec), (specOk b, .reservedSpec)]
  | .sub d a b => [(specOk d, .reservedSpec), (specOk a, .reservedSpec), (specOk b, .reservedSpec)]
  | .mul d a b => [(specOk d, .reservedSpec), (specOk a, .reservedSpec), (specOk b, .reservedSpec)]
  | .mulh d a b => [(specOk d, .reservedSpec), (specOk a, .reservedSpec), (specOk b, .reservedSpec)]
  | .mulhu d a b => [(specOk d, .reservedSpec), (specOk a, .reservedSpec), (specOk b, .reservedSpec)]
  | .div d a b => [(specOk d, .reservedSpec), (specOk a, .reservedSpec), (specOk b, .reservedSpec)]
  | .divu d a b => [(specOk d, .reservedSpec), (specOk a, .reservedSpec), (specOk b, .reservedSpec)]
  | .rem d a b => [(specOk d, .reservedSpec), (specOk a, .reservedSpec), (specOk b, .reservedSpec)]
  | .remu d a b => [(specOk d, .reservedSpec), (specOk a, .reservedSpec), (specOk b, .reservedSpec)]
  | .and d a b => [(specOk d, .reservedSpec), (specOk a, .reservedSpec), (specOk b, .reservedSpec)]
  | .or d a b => [(specOk d, .reservedSpec), (specOk a, .reservedSpec), (specOk b, .reservedSpec)]
  | .xor d a b => [(specOk d, .reservedSpec), (specOk a, .reservedSpec), (specOk b, .reservedSpec)]
  | .andn d a b => [(specOk d, .reservedSpec), (specOk a, .reservedSpec), (specOk b, .reservedSpec)]
  | .shl d a b => [(specOk d, .reservedSpec), (specOk a, .reservedSpec), (specOk b, .reservedSpec)]
  | .shr d a b => [(specOk d, .reservedSpec), (specOk a, .reservedSpec), (specOk b, .reservedSpec)]
  | .sar d a b => [(specOk d, .reservedSpec), (specOk a, .reservedSpec), (specOk b, .reservedSpec)]
  | .shli d a _ => [(specOk d, .reservedSpec), (specOk a, .reservedSpec)]
  | .shri d a _ => [(specOk d, .reservedSpec), (specOk a, .reservedSpec)]
  | .sari d a _ => [(specOk d, .reservedSpec), (specOk a, .reservedSpec)]
  | .min d a b => [(specOk d, .reservedSpec), (specOk a, .reservedSpec), (specOk b, .reservedSpec)]
  | .max d a b => [(specOk d, .reservedSpec), (specOk a, .reservedSpec), (specOk b, .reservedSpec)]
  | .minu d a b => [(specOk d, .reservedSpec), (specOk a, .reservedSpec), (specOk b, .reservedSpec)]
  | .maxu d a b => [(specOk d, .reservedSpec), (specOk a, .reservedSpec), (specOk b, .reservedSpec)]
  | .clz d a => [(specOk d, .reservedSpec), (specOk a, .reservedSpec)]
  | .ctz d a => [(specOk d, .reservedSpec), (specOk a, .reservedSpec)]
  | .popc d a => [(specOk d, .reservedSpec), (specOk a, .reservedSpec)]
  | .leaS2 d a b => [(specOk d, .reservedSpec), (specOk a, .reservedSpec), (specOk b, .reservedSpec)]
  | .leaS4 d a b => [(specOk d, .reservedSpec), (specOk a, .reservedSpec), (specOk b, .reservedSpec)]
  | .leaS8 d a b => [(specOk d, .reservedSpec), (specOk a, .reservedSpec), (specOk b, .reservedSpec)]
  | .leaS16 d a b => [(specOk d, .reservedSpec), (specOk a, .reservedSpec), (specOk b, .reservedSpec)]
  | .sext d a k => [(specOk d, .reservedSpec), (specOk a, .reservedSpec), (k != 0, .badRange)]
  | .zext d a k => [(specOk d, .reservedSpec), (specOk a, .reservedSpec), (k != 0, .badRange)]
  | .addI32 d a b => [(specOk d, .reservedSpec), (specOk a, .reservedSpec), (specOk b, .reservedSpec)]
  | .subI32 d a b => [(specOk d, .reservedSpec), (specOk a, .reservedSpec), (specOk b, .reservedSpec)]
  | .mulI32 d a b => [(specOk d, .reservedSpec), (specOk a, .reservedSpec), (specOk b, .reservedSpec)]
  | .mulhI32 d a b => [(specOk d, .reservedSpec), (specOk a, .reservedSpec), (specOk b, .reservedSpec)]
  | .mulhuI32 d a b => [(specOk d, .reservedSpec), (specOk a, .reservedSpec), (specOk b, .reservedSpec)]
  | .divI32 d a b => [(specOk d, .reservedSpec), (specOk a, .reservedSpec), (specOk b, .reservedSpec)]
  | .divuI32 d a b => [(specOk d, .reservedSpec), (specOk a, .reservedSpec), (specOk b, .reservedSpec)]
  | .remI32 d a b => [(specOk d, .reservedSpec), (specOk a, .reservedSpec), (specOk b, .reservedSpec)]
  | .remuI32 d a b => [(specOk d, .reservedSpec), (specOk a, .reservedSpec), (specOk b, .reservedSpec)]
  | .andI32 d a b => [(specOk d, .reservedSpec), (specOk a, .reservedSpec), (specOk b, .reservedSpec)]
  | .orI32 d a b => [(specOk d, .reservedSpec), (specOk a, .reservedSpec), (specOk b, .reservedSpec)]
  | .xorI32 d a b => [(specOk d, .reservedSpec), (specOk a, .reservedSpec), (specOk b, .reservedSpec)]
  | .andnI32 d a b => [(specOk d, .reservedSpec), (specOk a, .reservedSpec), (specOk b, .reservedSpec)]
  | .shlI32 d a b => [(specOk d, .reservedSpec), (specOk a, .reservedSpec), (specOk b, .reservedSpec)]
  | .shrI32 d a b => [(specOk d, .reservedSpec), (specOk a, .reservedSpec), (specOk b, .reservedSpec)]
  | .sarI32 d a b => [(specOk d, .reservedSpec), (specOk a, .reservedSpec), (specOk b, .reservedSpec)]
  | .shliI32 d a _ => [(specOk d, .reservedSpec), (specOk a, .reservedSpec)]
  | .shriI32 d a _ => [(specOk d, .reservedSpec), (specOk a, .reservedSpec)]
  | .sariI32 d a _ => [(specOk d, .reservedSpec), (specOk a, .reservedSpec)]
  | .minI32 d a b => [(specOk d, .reservedSpec), (specOk a, .reservedSpec), (specOk b, .reservedSpec)]
  | .maxI32 d a b => [(specOk d, .reservedSpec), (specOk a, .reservedSpec), (specOk b, .reservedSpec)]
  | .minuI32 d a b => [(specOk d, .reservedSpec), (specOk a, .reservedSpec), (specOk b, .reservedSpec)]
  | .maxuI32 d a b => [(specOk d, .reservedSpec), (specOk a, .reservedSpec), (specOk b, .reservedSpec)]
  | .addi d a _ => [(specOk d, .reservedSpec), (specOk a, .reservedSpec)]
  | .lui d _ => [(specOk d, .reservedSpec)]
  | .cmpEq p a b => [(destPredOk p, .destP0), (specOk a, .reservedSpec), (specOk b, .reservedSpec)]
  | .cmpNe p a b => [(destPredOk p, .destP0), (specOk a, .reservedSpec), (specOk b, .reservedSpec)]
  | .cmpLt p a b => [(destPredOk p, .destP0), (specOk a, .reservedSpec), (specOk b, .reservedSpec)]
  | .cmpLe p a b => [(destPredOk p, .destP0), (specOk a, .reservedSpec), (specOk b, .reservedSpec)]
  | .cmpLtu p a b => [(destPredOk p, .destP0), (specOk a, .reservedSpec), (specOk b, .reservedSpec)]
  | .cmpLeu p a b => [(destPredOk p, .destP0), (specOk a, .reservedSpec), (specOk b, .reservedSpec)]
  | .fcmpEq p a b => [(destPredOk p, .destP0), (specOk a, .reservedSpec), (specOk b, .reservedSpec)]
  | .fcmpLt p a b => [(destPredOk p, .destP0), (specOk a, .reservedSpec), (specOk b, .reservedSpec)]
  | .fcmpLe p a b => [(destPredOk p, .destP0), (specOk a, .reservedSpec), (specOk b, .reservedSpec)]
  | .fcmpUn p a b => [(destPredOk p, .destP0), (specOk a, .reservedSpec), (specOk b, .reservedSpec)]
  | .pand p _ _ => [(destPredOk p, .destP0)]
  | .por p _ _ => [(destPredOk p, .destP0)]
  | .pxor p _ _ => [(destPredOk p, .destP0)]
  | .pnot p _ => [(destPredOk p, .destP0)]
  | .pmov p _ => [(destPredOk p, .destP0)]
  | .pset p _ => [(destPredOk p, .destP0)]
  | .cmpEqI32 p a b => [(destPredOk p, .destP0), (specOk a, .reservedSpec), (specOk b, .reservedSpec)]
  | .cmpNeI32 p a b => [(destPredOk p, .destP0), (specOk a, .reservedSpec), (specOk b, .reservedSpec)]
  | .cmpLtI32 p a b => [(destPredOk p, .destP0), (specOk a, .reservedSpec), (specOk b, .reservedSpec)]
  | .cmpLeI32 p a b => [(destPredOk p, .destP0), (specOk a, .reservedSpec), (specOk b, .reservedSpec)]
  | .cmpLtuI32 p a b => [(destPredOk p, .destP0), (specOk a, .reservedSpec), (specOk b, .reservedSpec)]
  | .cmpLeuI32 p a b => [(destPredOk p, .destP0), (specOk a, .reservedSpec), (specOk b, .reservedSpec)]
  | .fcmpEqF64 p a b => [(destPredOk p, .destP0), (specOk a, .reservedSpec), (specOk b, .reservedSpec)]
  | .fcmpLtF64 p a b => [(destPredOk p, .destP0), (specOk a, .reservedSpec), (specOk b, .reservedSpec)]
  | .fcmpLeF64 p a b => [(destPredOk p, .destP0), (specOk a, .reservedSpec), (specOk b, .reservedSpec)]
  | .fcmpUnF64 p a b => [(destPredOk p, .destP0), (specOk a, .reservedSpec), (specOk b, .reservedSpec)]
  | .br _ _ => []
  | .brNot _ _ => []
  | .lpe _ _ _ => []
  | .call d a _ => [(specOk d, .reservedSpec), (specOk a, .reservedSpec)]
  | .ldN8 t b _ => [(specOk t, .reservedSpec), (specOk b, .reservedSpec)]
  | .ldN16 t b _ => [(specOk t, .reservedSpec), (specOk b, .reservedSpec)]
  | .ldN32 t b _ => [(specOk t, .reservedSpec), (specOk b, .reservedSpec)]
  | .ld64 t b _ => [(specOk t, .reservedSpec), (specOk b, .reservedSpec)]
  | .ldI8 t b _ => [(specOk t, .reservedSpec), (specOk b, .reservedSpec)]
  | .ldI16 t b _ => [(specOk t, .reservedSpec), (specOk b, .reservedSpec)]
  | .ldI32 t b _ => [(specOk t, .reservedSpec), (specOk b, .reservedSpec)]
  | .ldV t b _ => [(specOk t, .reservedSpec), (specOk b, .reservedSpec)]
  | .st8 t b _ => [(specOk t, .reservedSpec), (specOk b, .reservedSpec)]
  | .st16 t b _ => [(specOk t, .reservedSpec), (specOk b, .reservedSpec)]
  | .st32 t b _ => [(specOk t, .reservedSpec), (specOk b, .reservedSpec)]
  | .st64 t b _ => [(specOk t, .reservedSpec), (specOk b, .reservedSpec)]
  | .stV t b _ => [(specOk t, .reservedSpec), (specOk b, .reservedSpec)]
  | .amoSwap t b _ _ _ => [(specOk t, .reservedSpec), (specOk b, .reservedSpec)]
  | .amoAdd t b _ _ _ => [(specOk t, .reservedSpec), (specOk b, .reservedSpec)]
  | .amoAnd t b _ _ _ => [(specOk t, .reservedSpec), (specOk b, .reservedSpec)]
  | .amoOr t b _ _ _ => [(specOk t, .reservedSpec), (specOk b, .reservedSpec)]
  | .amoXor t b _ _ _ => [(specOk t, .reservedSpec), (specOk b, .reservedSpec)]
  | .amoMin t b _ _ _ => [(specOk t, .reservedSpec), (specOk b, .reservedSpec)]
  | .amoMax t b _ _ _ => [(specOk t, .reservedSpec), (specOk b, .reservedSpec)]
  | .amoMinu t b _ _ _ => [(specOk t, .reservedSpec), (specOk b, .reservedSpec)]
  | .amoMaxu t b _ _ _ => [(specOk t, .reservedSpec), (specOk b, .reservedSpec)]
  | .amoFadd t b _ _ _ => [(specOk t, .reservedSpec), (specOk b, .reservedSpec)]
  | .cas t b _ _ _ => [(specOk t, .reservedSpec), (specOk b, .reservedSpec)]
  | .fence _ o => [(o != .rlx, .reservedOrd)]
  | .cwb s a b => [(specOk a, .reservedSpec), (specOk b, .reservedSpec), (s.isExternal, .reservedScope)]
  | .cinv s a b => [(specOk a, .reservedSpec), (specOk b, .reservedSpec), (s.isExternal, .reservedScope)]
  | .pf a h => [(specOk a, .reservedSpec), (h.toNat ≤ 2, .badRange)]
  | .lds d a _ => [(specOk d, .reservedSpec), (specOk a, .reservedSpec)]
  | .sts t a _ => [(specOk t, .reservedSpec), (specOk a, .reservedSpec)]
  | .wait _ _ _ _ => []
  | .vaddF t d a b => [(t.isCode3, .reservedType), (specOk d, .reservedSpec), (specOk a, .reservedSpec), (specOk b, .reservedSpec)]
  | .vsubF t d a b => [(t.isCode3, .reservedType), (specOk d, .reservedSpec), (specOk a, .reservedSpec), (specOk b, .reservedSpec)]
  | .vmulF t d a b => [(t.isCode3, .reservedType), (specOk d, .reservedSpec), (specOk a, .reservedSpec), (specOk b, .reservedSpec)]
  | .vdivF t d a b => [(t.isFixed32or64, .reservedType), (specOk d, .reservedSpec), (specOk a, .reservedSpec), (specOk b, .reservedSpec)]
  | .vminF t d a b => [(t.isCode3, .reservedType), (specOk d, .reservedSpec), (specOk a, .reservedSpec), (specOk b, .reservedSpec)]
  | .vmaxF t d a b => [(t.isCode3, .reservedType), (specOk d, .reservedSpec), (specOk a, .reservedSpec), (specOk b, .reservedSpec)]
  | .vabsF t d a => [(t.isCode3, .reservedType), (specOk d, .reservedSpec), (specOk a, .reservedSpec)]
  | .vnegF t d a => [(t.isCode3, .reservedType), (specOk d, .reservedSpec), (specOk a, .reservedSpec)]
  | .vceqF t d a b => [(t.isCode3, .reservedType), (specOk d, .reservedSpec), (specOk a, .reservedSpec), (specOk b, .reservedSpec)]
  | .vcltF t d a b => [(t.isCode3, .reservedType), (specOk d, .reservedSpec), (specOk a, .reservedSpec), (specOk b, .reservedSpec)]
  | .vcleF t d a b => [(t.isCode3, .reservedType), (specOk d, .reservedSpec), (specOk a, .reservedSpec), (specOk b, .reservedSpec)]
  | .vcunF t d a b => [(t.isCode3, .reservedType), (specOk d, .reservedSpec), (specOk a, .reservedSpec), (specOk b, .reservedSpec)]
  | .vrsumF t d a => [(t.isCode3, .reservedType), (specOk d, .reservedSpec), (specOk a, .reservedSpec)]
  | .vrmaxF t d a => [(t.isCode3, .reservedType), (specOk d, .reservedSpec), (specOk a, .reservedSpec)]
  | .vrminF t d a => [(t.isCode3, .reservedType), (specOk d, .reservedSpec), (specOk a, .reservedSpec)]
  | .vaddI _ d a b => [(specOk d, .reservedSpec), (specOk a, .reservedSpec), (specOk b, .reservedSpec)]
  | .vsubI _ d a b => [(specOk d, .reservedSpec), (specOk a, .reservedSpec), (specOk b, .reservedSpec)]
  | .vadds _ d a b => [(specOk d, .reservedSpec), (specOk a, .reservedSpec), (specOk b, .reservedSpec)]
  | .vsubs _ d a b => [(specOk d, .reservedSpec), (specOk a, .reservedSpec), (specOk b, .reservedSpec)]
  | .vmulI _ d a b => [(specOk d, .reservedSpec), (specOk a, .reservedSpec), (specOk b, .reservedSpec)]
  | .vminI _ d a b => [(specOk d, .reservedSpec), (specOk a, .reservedSpec), (specOk b, .reservedSpec)]
  | .vmaxI _ d a b => [(specOk d, .reservedSpec), (specOk a, .reservedSpec), (specOk b, .reservedSpec)]
  | .vand _ d a b => [(specOk d, .reservedSpec), (specOk a, .reservedSpec), (specOk b, .reservedSpec)]
  | .vor _ d a b => [(specOk d, .reservedSpec), (specOk a, .reservedSpec), (specOk b, .reservedSpec)]
  | .vxor _ d a b => [(specOk d, .reservedSpec), (specOk a, .reservedSpec), (specOk b, .reservedSpec)]
  | .vshl _ d a b => [(specOk d, .reservedSpec), (specOk a, .reservedSpec), (specOk b, .reservedSpec)]
  | .vshr _ d a b => [(specOk d, .reservedSpec), (specOk a, .reservedSpec), (specOk b, .reservedSpec)]
  | .vceqI _ d a b => [(specOk d, .reservedSpec), (specOk a, .reservedSpec), (specOk b, .reservedSpec)]
  | .vcltI _ d a b => [(specOk d, .reservedSpec), (specOk a, .reservedSpec), (specOk b, .reservedSpec)]
  | .vsel _ d a b => [(specOk d, .reservedSpec), (specOk a, .reservedSpec), (specOk b, .reservedSpec)]
  | .vrsumI _ d a => [(specOk d, .reservedSpec), (specOk a, .reservedSpec)]
  | .vshuf d a b => [(specOk d, .reservedSpec), (specOk a, .reservedSpec), (specOk b, .reservedSpec)]
  | .vzlo d a b => [(specOk d, .reservedSpec), (specOk a, .reservedSpec), (specOk b, .reservedSpec)]
  | .vzhi d a b => [(specOk d, .reservedSpec), (specOk a, .reservedSpec), (specOk b, .reservedSpec)]
  | .vuev d a b => [(specOk d, .reservedSpec), (specOk a, .reservedSpec), (specOk b, .reservedSpec)]
  | .vuod d a b => [(specOk d, .reservedSpec), (specOk a, .reservedSpec), (specOk b, .reservedSpec)]
  | .vbcst d a n w => [(specOk d, .reservedSpec), (specOk a, .reservedSpec), (laneOk w n, .badRange)]
  | .vext d a n w => [(specOk d, .reservedSpec), (specOk a, .reservedSpec), (laneOk w n, .badRange)]
  | .vins d a n w => [(specOk d, .reservedSpec), (specOk a, .reservedSpec), (laneOk w n, .badRange)]
  | .vexl d a b => [(specOk d, .reservedSpec), (specOk a, .reservedSpec), (specOk b, .reservedSpec)]
  | .vrev d a => [(specOk d, .reservedSpec), (specOk a, .reservedSpec)]
  | .xqSnd a b => [(specOk a, .reservedSpec), (specOk b, .reservedSpec)]
  | .xqTry d _ k => [(specOk d, .reservedSpec), (destPredOk k, .destP0)]
  | .xqRcv d _ => [(specOk d, .reservedSpec)]
  | .vfma t d a b => [(t.isCode3, .reservedType), (specOk d, .reservedSpec), (specOk a, .reservedSpec), (specOk b, .reservedSpec)]
  | .vfms t d a b => [(t.isCode3, .reservedType), (specOk d, .reservedSpec), (specOk a, .reservedSpec), (specOk b, .reservedSpec)]
  | .vfnma t d a b => [(t.isCode3, .reservedType), (specOk d, .reservedSpec), (specOk a, .reservedSpec), (specOk b, .reservedSpec)]
  | .vfnms t d a b => [(t.isCode3, .reservedType), (specOk d, .reservedSpec), (specOk a, .reservedSpec), (specOk b, .reservedSpec)]
  | .vdot t d a b => [(t.isDot, .reservedType), (specOk d, .reservedSpec), (specOk a, .reservedSpec), (specOk b, .reservedSpec)]
  | .vdoti t d a b => [(specOk d, .reservedSpec), (specOk a, .reservedSpec), (specOk b, .reservedSpec), (t.isDotInt, .reservedType)]
  | .vrcp t d a => [(t.isNative, .reservedType), (specOk d, .reservedSpec), (specOk a, .reservedSpec)]
  | .vrsqrt t d a => [(t.isNative, .reservedType), (specOk d, .reservedSpec), (specOk a, .reservedSpec)]
  | .vsqrt t d a => [(t.isNative, .reservedType), (specOk d, .reservedSpec), (specOk a, .reservedSpec)]
  | .vexp2 t d a => [(t.isNative, .reservedType), (specOk d, .reservedSpec), (specOk a, .reservedSpec)]
  | .vlog2 t d a => [(t.isNative, .reservedType), (specOk d, .reservedSpec), (specOk a, .reservedSpec)]
  | .vsin t d a => [(t.isNative, .reservedType), (specOk d, .reservedSpec), (specOk a, .reservedSpec)]
  | .vcos t d a => [(t.isNative, .reservedType), (specOk d, .reservedSpec), (specOk a, .reservedSpec)]
  | .vtanh t d a => [(t.isNative, .reservedType), (specOk d, .reservedSpec), (specOk a, .reservedSpec)]
  | .vsigm t d a => [(t.isNative, .reservedType), (specOk d, .reservedSpec), (specOk a, .reservedSpec)]
  | .verf t d a => [(t.isNative, .reservedType), (specOk d, .reservedSpec), (specOk a, .reservedSpec)]
  | .cvt _ _ d a => [(specOk d, .reservedSpec), (specOk a, .reservedSpec)]
  | .cvti _ _ d a => [(specOk d, .reservedSpec), (specOk a, .reservedSpec)]
  | .cvtf _ _ d a => [(specOk d, .reservedSpec), (specOk a, .reservedSpec)]
  | .qnt t s d a => [(specOk d, .reservedSpec), (specOk a, .reservedSpec), (t.isNarrow, .reservedType), (s.isCode3, .reservedType)]
  | .dqnt t s d a => [(specOk d, .reservedSpec), (specOk a, .reservedSpec), (t.isCode3, .reservedType), (s.isNarrow, .reservedType)]
  | .fclass _ d a => [(specOk d, .reservedSpec), (specOk a, .reservedSpec)]
  | .pack d a _ => [(specOk d, .reservedSpec), (specOk a, .reservedSpec)]
  | .unpack d a _ => [(specOk d, .reservedSpec), (specOk a, .reservedSpec)]
  | .mx d a i => [(specOk d, .reservedSpec), (specOk a, .reservedSpec), (ntcOk i, .badRange)]
  | .mxs d a i => [(specOk d, .reservedSpec), (specOk a, .reservedSpec), (ntcOk i, .badRange)]
  | .mxDrn d a i => [(specOk d, .reservedSpec), (specOk a, .reservedSpec), (ntcOk i, .badRange)]
  | .mxClr d a i => [(specOk d, .reservedSpec), (specOk a, .reservedSpec), (ntcOk i, .badRange)]
  | .cp d a i => [(specOk d, .reservedSpec), (specOk a, .reservedSpec), (ntcOk i, .badRange)]
  | .cpT d a i => [(specOk d, .reservedSpec), (specOk a, .reservedSpec), (ntcOk i, .badRange)]
  | .cpRed d a i => [(specOk d, .reservedSpec), (specOk a, .reservedSpec), (ntcOk i, .badRange)]
  | .cpCls d a i => [(specOk d, .reservedSpec), (specOk a, .reservedSpec), (ntcOk i, .badRange)]
  | .strmA d a i => [(specOk d, .reservedSpec), (specOk a, .reservedSpec), (ntcOk i, .badRange)]
  | .strmB d a i => [(specOk d, .reservedSpec), (specOk a, .reservedSpec), (ntcOk i, .badRange)]
  | .cpGat d a i => [(specOk d, .reservedSpec), (specOk a, .reservedSpec), (ntcOk i, .badRange)]
  | .cpSca d a i => [(specOk d, .reservedSpec), (specOk a, .reservedSpec), (ntcOk i, .badRange)]
  | .colAr d a i => [(specOk d, .reservedSpec), (specOk a, .reservedSpec), (ntcOk i, .badRange)]
  | .colAg d a i => [(specOk d, .reservedSpec), (specOk a, .reservedSpec), (ntcOk i, .badRange)]
  | .colRs d a i => [(specOk d, .reservedSpec), (specOk a, .reservedSpec), (ntcOk i, .badRange)]
  | .colBc d a i => [(specOk d, .reservedSpec), (specOk a, .reservedSpec), (ntcOk i, .badRange)]
  | .colA2a d a i => [(specOk d, .reservedSpec), (specOk a, .reservedSpec), (ntcOk i, .badRange)]
  | .tokWait d a => [(specOk d, .reservedSpec), (specOk a, .reservedSpec)]
  | .tokTest d a k => [(specOk d, .reservedSpec), (specOk a, .reservedSpec), (destPredOk k, .destP0)]
  | .tokDet a => [(specOk a, .reservedSpec)]
  | .tokAdop a => [(specOk a, .reservedSpec)]
  | .tokDep a b => [(specOk a, .reservedSpec), (specOk b, .reservedSpec)]
  | .tokDepGo a b => [(specOk a, .reservedSpec), (specOk b, .reservedSpec)]
  | .tokCan a => [(specOk a, .reservedSpec)]
  | .tokCanR a => [(specOk a, .reservedSpec)]
  | .tokPri a b => [(specOk a, .reservedSpec), (specOk b, .reservedSpec)]
  | .tokRec d a _ => [(recRegOk d, .payloadReg), (specOk a, .reservedSpec)]
  | .tokPost a b => [(specOk a, .reservedSpec), (specOk b, .reservedSpec)]
  | .rowGat d a i => [(specOk d, .reservedSpec), (specOk a, .reservedSpec), (ntcOk i, .badRange)]
  | .rowSca d a i => [(specOk d, .reservedSpec), (specOk a, .reservedSpec), (ntcOk i, .badRange)]
  | .rowPin d a i => [(specOk d, .reservedSpec), (specOk a, .reservedSpec), (ntcOk i, .badRange)]
  | .rowUnp d a i => [(specOk d, .reservedSpec), (specOk a, .reservedSpec), (ntcOk i, .badRange)]
  | .rowHint d a i => [(specOk d, .reservedSpec), (specOk a, .reservedSpec), (ntcOk i, .badRange)]
  | .spawn a b => [(payloadOk a, .payloadReg), (specOk b, .reservedSpec)]
  | .spawnO d a b => [(specOk d, .reservedSpec), (payloadOk a, .payloadReg), (specOk b, .reservedSpec)]
  | .spawnD a b => [(payloadOk a, .payloadReg), (specOk b, .reservedSpec)]
  | .susp => []
  | .done => []
  | .yield => []
  | .tsGet d => [(specOk d, .reservedSpec)]
  | .abort => []
  | .spt _ => []
  | .launch d a => [(specOk d, .reservedSpec), (pairRegOk a, .payloadReg)]
  | .kinfo d a => [(specOk d, .reservedSpec), (specOk a, .reservedSpec)]
  | .snd a b => [(payloadOk a, .payloadReg), (specOk b, .reservedSpec)]
  | .sndC a b => [(payloadOk a, .payloadReg), (specOk b, .reservedSpec)]
  | .rpl a => [(payloadOk a, .payloadReg)]
  | .tagBind a b => [(specOk a, .reservedSpec), (specOk b, .reservedSpec)]
  | .rq d a b => [(specOk d, .reservedSpec), (payloadOk a, .payloadReg), (specOk b, .reservedSpec)]
  | .patBind a b => [(specOk a, .reservedSpec), (specOk b, .reservedSpec)]
  | .patDrop a => [(specOk a, .reservedSpec)]
  | .portCfg a b => [(specOk a, .reservedSpec), (specOk b, .reservedSpec)]
  | .portGive a b => [(payloadOk a, .payloadReg), (specOk b, .reservedSpec)]
  | .portSt d a _ => [(specOk d, .reservedSpec), (specOk a, .reservedSpec)]
  | .portTake d a k => [(payloadOk d, .payloadReg), (specOk a, .reservedSpec), (destPredOk k, .destP0)]
  | .portTakeW d a => [(payloadOk d, .payloadReg), (specOk a, .reservedSpec)]
  | .portClr d a => [(specOk d, .reservedSpec), (specOk a, .reservedSpec)]
  | .sigAdd d a b => [(specOk d, .reservedSpec), (specOk a, .reservedSpec), (specOk b, .reservedSpec)]
  | .sigSet d a b => [(specOk d, .reservedSpec), (specOk a, .reservedSpec), (specOk b, .reservedSpec)]
  | .sigRd d a => [(specOk d, .reservedSpec), (specOk a, .reservedSpec)]
  | .sigWait d a b => [(specOk d, .reservedSpec), (specOk a, .reservedSpec), (specOk b, .reservedSpec)]
  | .sigCas d a b => [(specOk d, .reservedSpec), (specOk a, .reservedSpec), (specOk b, .reservedSpec)]
  | .grpNew d a => [(specOk d, .reservedSpec), (specOk a, .reservedSpec)]
  | .grpEnd a _ => [(specOk a, .reservedSpec)]
  | .grpRd d a _ => [(specOk d, .reservedSpec), (specOk a, .reservedSpec)]
  | .grpSet n a b => [(specOk a, .reservedSpec), (specOk b, .reservedSpec), (grpSetWord n.toNat, .badRange)]
  | .ebudSet a b => [(specOk a, .reservedSpec), (specOk b, .reservedSpec)]
  | .ebudRd d a => [(specOk d, .reservedSpec), (specOk a, .reservedSpec)]
  | .mfs d s => [(specOk d, .reservedSpec), (s.toNat ≤ 27, .badSysReg)]
  | .mts a s => [(specOk a, .reservedSpec), (sysWritable s.toNat, .badSysReg)]
  | .trap a => [(specOk a, .reservedSpec)]
  | .tlbWr a b => [(specOk a, .reservedSpec), (specOk b, .reservedSpec)]
  | .tlbInvPage a b => [(specOk a, .reservedSpec), (specOk b, .reservedSpec)]
  | .tlbInvContext a b => [(specOk a, .reservedSpec), (specOk b, .reservedSpec)]
  | .tlbInvAll a b => [(specOk a, .reservedSpec), (specOk b, .reservedSpec)]
  | .tlbPrb d a b => [(specOk d, .reservedSpec), (specOk a, .reservedSpec), (specOk b, .reservedSpec)]
  | .pgWake d a b => [(specOk d, .reservedSpec), (specOk a, .reservedSpec), (specOk b, .reservedSpec)]
  | .dlHv d a b => [(specOk d, .reservedSpec), (specOk a, .reservedSpec), (specOk b, .reservedSpec)]
  | .errInj a b => [(specOk a, .reservedSpec), (specOk b, .reservedSpec)]
  | .clsQ d a => [(specOk d, .reservedSpec), (specOk a, .reservedSpec)]
  | .ctxSv d a b => [(specOk d, .reservedSpec), (specOk a, .reservedSpec), (specOk b, .reservedSpec)]
  | .ctxLdCreate a b => [(specOk a, .reservedSpec), (specOk b, .reservedSpec)]
  | .ctxLdUpdate a b => [(specOk a, .reservedSpec), (specOk b, .reservedSpec)]
  | .ctxLdDestroy a b => [(specOk a, .reservedSpec), (specOk b, .reservedSpec)]
  | .queSubRegister d a b => [(specOk d, .reservedSpec), (specOk a, .reservedSpec), (specOk b, .reservedSpec)]
  | .queSubUnregister d a b => [(specOk d, .reservedSpec), (specOk a, .reservedSpec), (specOk b, .reservedSpec)]
  | .queSubResume d a b => [(specOk d, .reservedSpec), (specOk a, .reservedSpec), (specOk b, .reservedSpec)]
  | .slotMap a b => [(specOk a, .reservedSpec), (specOk b, .reservedSpec)]
  | .slotUnm a b => [(specOk a, .reservedSpec), (specOk b, .reservedSpec)]
  | .slotRd d a => [(specOk d, .reservedSpec), (specOk a, .reservedSpec)]
  | .dlogWr a b => [(specOk a, .reservedSpec), (specOk b, .reservedSpec)]
  | .dlogRd d a => [(specOk d, .reservedSpec), (specOk a, .reservedSpec)]
  | .dbgBrk _ => []
  | .dbgMark a => [(specOk a, .reservedSpec)]
  | .profRd d a => [(specOk d, .reservedSpec), (specOk a, .reservedSpec)]
  | .dbgStopStop a b => [(specOk a, .reservedSpec), (specOk b, .reservedSpec)]
  | .dbgStopGo a b => [(specOk a, .reservedSpec), (specOk b, .reservedSpec)]
  | .dbgStopStep a b => [(specOk a, .reservedSpec), (specOk b, .reservedSpec)]
  | .xld _ a _ => [(specOk a, .reservedSpec)]
  | .xld4 a _ => [(specOk a, .reservedSpec)]
  | .xmv _ a => [(specOk a, .reservedSpec)]
  | .xrd d _ => [(specOk d, .reservedSpec)]
  | .xst _ a _ => [(specOk a, .reservedSpec)]
  | .xst4 a _ => [(specOk a, .reservedSpec)]
  | .cAdd _ _ _ _ => []
  | .cSub _ _ _ _ => []
  | .cMov _ m _ => [(specOk m, .reservedSpec)]
  | .cAddi _ _ _ => []
  | .cLi _ _ => []
  | .cLd _ _ _ _ => []
  | .cSt _ _ _ _ => []
  | .cCmp _ _ _ p => [(destPredOk p, .destP0)]
  | .cBr _ _ _ => []
  | .cJmp _ => []
  | .cVadd _ _ _ _ => []
  | .cVfma t _ _ _ => [(t != 3, .reservedType)]
  | .cXmv m _ => [(specOk m, .reservedSpec)]
  | .cWait _ _ => []
  | .cSpt _ => []
  | .cSusp => []
  | .cDone => []
  | .cIf _ _ => []
  | .cNop => []
  | .instructionFetch _ => []
  | .inboxRecordArrival _ => []
  | .taskUnitRecordArrival _ => []
  | .portArrival _ => []
  | .admission _ => []
  | .sendStallTimeout _ => []
  | .xqEntryArrival _ => []
  | .loadValueReturn _ => []
  | .storePerformed _ => []
  | .homeRequest _ => []
  | .engineClaim _ _ => []
  | .engineRelease _ _ => []
  | .scrubRead _ => []
  | .clsBlkWrite _ _ => []
  | .classClearDone => []
  | .tlbMiss _ => []
  | .walkReply _ => []
  | .preemptionRequest _ => []
  | .noSafePointTimeout _ => []
  | .contextSuspended _ => []
  | .contextResume _ => []
  | .contextAreasResident _ => []
  | .contextDiscardComplete _ => []
  | .freeze _ _ => []
  | .thaw _ => []
  | .weirSample => []
  | .weirDieReduction => []
  | .weirDeviceReduction => []
  | .weirFrontierApply => []
  | .weirCommit => []
  | .spillFullAbort _ => []
  | .tokenStart _ _ => []
  | .streamGroupFetch _ => []
  | .tileGroupStep _ => []
  | .tileDrain _ => []
  | .copyLineStep _ => []
  | .collectiveTimeout _ => []
  | .drainBoundExceeded _ => []
  | .tokenSlotStallTimeout _ => []
  | .tokenDone _ => []
  | .tokenFault _ => []
  | .rowWindow _ => []
  | .rowCombinerUpdate _ _ => []
  | .rowCounterHalving _ => []
  | .rowEntryReread _ _ => []
  | .launchAdmit _ => []
  | .launchCheck _ => []
  | .launchResident _ _ => []
  | .launchWeirSlot _ => []
  | .launchPlace _ _ => []
  | .launchEnd _ => []
  | .groupEnded _ _ => []
  | .sluiceGovernorVisit _ => []
  | .queueWiNotice _ => []
  | .packetHeaderReady _ => []
  | .packetStart _ => []
  | .packetComplete _ _ => []
  | .stageRingHandoff _ _ => []
  | .agingTick _ => []
  | .quantumExpiry _ => []
  | .boundMissed _ => []
  | .trtCtlGo _ => []
  | .turatLoadComplete _ _ _ => []
  | .signalNotify _ => []
  | .signalPollChip _ => []
  | .signalPollRemote _ => []
  | .hostBar2Write _ _ => []
  | .hostBar2Read _ _ => []
  | .dbCmdRegister _ _ _ => []
  | .dbCmdUnregister _ _ _ => []
  | .dbCmdResume _ _ _ => []
  | .hostLinkCompletion _ _ _ => []
  | .hostLinkTimeout _ => []
  | .d2dRetrain _ _ => []
  | .d2dRetrainDone _ _ => []
  | .d2dRetrainTimeout _ _ => []
  | .noturFlitReceive _ _ => []
  | .noturEnable _ => []
  | .noturDisable _ => []
  | .noturTrainingDone _ _ => []
  | .noturTrainingTimeout _ => []
  | .noturRetrainTimeout _ => []
  | .coldReset => []
  | .powerGoodChange _ => []
  | .bootVerifyComplete _ => []
  | .attReqReport _ => []
  | .attReqPubkey _ => []
  | .attReqComplete _ => []
  | .eyeMarginAlert _ _ _ => []
  | .hostIrqWrite _ => []
  | .pwrLimWrite _ => []
  | .throttleChange _ _ _ _ => []
  | .smbusBlockRead _ => []
  | .dbgCtlStop _ => []
  | .dbgCtlGo _ => []
  | .dbgCtlStep _ => []
  | .dbgDatWrite _ _ => []
  | .registerWrite _ _ => []
  | .contextAreasUnbacked _ => []
  | .hostLinkTraining _ _ _ => []
  | .hbmInterfaceRetrainDone _ => []

/-- The first failed check, if any. -/
def Instr.illFormed (i : Instr) : Option Ill := (i.checks.find? (fun c => !c.1)).map (·.2)

/-- An instruction whose operands all pass their checks. -/
def Instr.WellFormed (i : Instr) : Prop := i.illFormed = none

end Sys2Proof
end

