-- ==== Sys2Proof/Decode.lean ====
section
/-! DEFINITION. The decoder and the encoder, from the formats and the opcode map of spec/02_words.md (R26 to R47). Definitions that build an
`Instr` are marked noncomputable because Lean's runtime numbers at most 245 constructors with fields; the kernel evaluates
them all the same (log entry 2). -/

namespace Sys2Proof

/-- Field of `n` bits from bit `lo` of a word (R3). -/
def fld (w lo n : Nat) : Nat := w / 2 ^ lo % 2 ^ n

/-- A register specifier at bit `lo` (R29). -/
def specAt (w lo : Nat) : Spec := Fin.ofNat 64 (fld w lo 6)

/-- A 3-bit predicate or compact register field at bit `lo`. -/
def octAt (w lo : Nat) : Fin 8 := Fin.ofNat 8 (fld w lo 3)

/-- An extension-register field at bit `lo` (R41). -/
def xAt (w lo : Nat) : XNo := Fin.ofNat 4 (fld w lo 2)

/-- A one-bit field at bit `lo`. -/
def bitAt (w lo : Nat) : Bool := fld w lo 1 == 1

/-- An immediate of `n` bits at bit `lo`. -/
def immAt (w lo n : Nat) : BitVec n := BitVec.ofNat n (fld w lo n)

/-- The 3-bit float type codes of R31. -/
def FTy.ofCode3 (n : Nat) : FTy :=
  match n with
  | 0 => .f32 | 1 => .f64 | 2 => .b16 | 3 => .h16
  | _ => .fr (Fin.ofNat 4 (n - 4))

/-- The 4-bit float type codes of R31; `.i4o` (6) is never allowed by a core instruction (R119). -/
def FTy.ofCode4 (n : Nat) : Option FTy :=
  match n with
  | 0 => some .f32 | 1 => some .f64 | 2 => some .b16 | 3 => some .h16
  | 4 => some .e4 | 5 => some .e5
  | 8 => some (.fr 0) | 9 => some (.fr 1) | 10 => some (.fr 2) | 11 => some (.fr 3)
  | _ => none

/-- The 3-bit integer type codes of R31. -/
def IntTy.ofCode (n : Nat) : IntTy :=
  match n with
  | 0 => .i8 | 1 => .i16 | 2 => .i32 | 3 => .i64
  | 4 => .n8 | 5 => .n16 | 6 => .n32 | _ => .n64

/-- The integer codes of `cvti` and `cvtf` (R119): 0-7 types, 8-11 format registers. -/
def CvtInt.ofCode (n : Nat) : Option CvtInt :=
  if n < 8 then some (.int (IntTy.ofCode n))
  else if n < 12 then some (.fr (Fin.ofNat 4 (n - 8)))
  else none

/-- The order codes of R30. -/
def MOrd.ofCode (n : Nat) : Option MOrd :=
  match n with
  | 0 => some .rlx | 1 => some .acq | 2 => some .rel | 3 => some .ar | 4 => some .sc
  | _ => none

/-- The scope codes of R30. -/
def Scope.ofCode (n : Nat) : Option Scope :=
  match n with
  | 0 => some .task | 1 => some .core | 2 => some .clu | 3 => some .quad | 4 => some .die | 5 => some .half
  | 6 => some .dev | 7 => some .host | 8 => some .link | 9 => some .fab | 10 => some .sys
  | _ => none

/-- The 3-bit code of a float type; `.e4` and `.e5` have none and give the code 0. -/
def FTy.code3 : FTy → Nat
  | .f32 => 0 | .f64 => 1 | .b16 => 2 | .h16 => 3 | .fr n => 4 + n.val | .e4 => 0 | .e5 => 0

/-- The 4-bit code of a float type. -/
def FTy.code4 : FTy → Nat
  | .f32 => 0 | .f64 => 1 | .b16 => 2 | .h16 => 3 | .e4 => 4 | .e5 => 5 | .fr n => 8 + n.val

/-- The 3-bit code of an integer type. -/
def IntTy.code : IntTy → Nat
  | .i8 => 0 | .i16 => 1 | .i32 => 2 | .i64 => 3 | .n8 => 4 | .n16 => 5 | .n32 => 6 | .n64 => 7

/-- The 4-bit code of the integer side of a conversion. -/
def CvtInt.code : CvtInt → Nat
  | .int t => t.code
  | .fr n => 8 + n.val

/-- The code of an order. -/
def MOrd.code : MOrd → Nat
  | .rlx => 0 | .acq => 1 | .rel => 2 | .ar => 3 | .sc => 4

/-- The code of a scope. -/
def Scope.code : Scope → Nat
  | .task => 0 | .core => 1 | .clu => 2 | .quad => 3 | .die => 4 | .half => 5 | .dev => 6 | .host => 7
  | .link => 8 | .fab => 9 | .sys => 10

/-- Continue with an operand that its code names, or reject under the given name. -/
def need {α : Type} (x : Option α) (e : Ill) (k : α → Except Ill Instr) : Except Ill Instr :=
  match x with
  | some a => k a
  | none => .error e

/-- Major 0x00 of the opcode map (R44, R29). -/
def decodeMajor00 (w : Nat) : Except Ill Instr :=
  match fld w 25 7 with
  | 0x00 => .ok (.add (specAt w 7) (specAt w 13) (specAt w 19))
  | 0x01 => .ok (.sub (specAt w 7) (specAt w 13) (specAt w 19))
  | 0x02 => .ok (.mul (specAt w 7) (specAt w 13) (specAt w 19))
  | 0x03 => .ok (.mulh (specAt w 7) (specAt w 13) (specAt w 19))
  | 0x04 => .ok (.mulhu (specAt w 7) (specAt w 13) (specAt w 19))
  | 0x05 => .ok (.div (specAt w 7) (specAt w 13) (specAt w 19))
  | 0x06 => .ok (.divu (specAt w 7) (specAt w 13) (specAt w 19))
  | 0x07 => .ok (.rem (specAt w 7) (specAt w 13) (specAt w 19))
  | 0x08 => .ok (.remu (specAt w 7) (specAt w 13) (specAt w 19))
  | 0x09 => .ok (.and (specAt w 7) (specAt w 13) (specAt w 19))
  | 0x0A => .ok (.or (specAt w 7) (specAt w 13) (specAt w 19))
  | 0x0B => .ok (.xor (specAt w 7) (specAt w 13) (specAt w 19))
  | 0x0C => .ok (.andn (specAt w 7) (specAt w 13) (specAt w 19))
  | 0x0D => .ok (.shl (specAt w 7) (specAt w 13) (specAt w 19))
  | 0x0E => .ok (.shr (specAt w 7) (specAt w 13) (specAt w 19))
  | 0x0F => .ok (.sar (specAt w 7) (specAt w 13) (specAt w 19))
  | 0x10 => .ok (.shli (specAt w 7) (specAt w 13) (immAt w 19 6))
  | 0x11 => .ok (.shri (specAt w 7) (specAt w 13) (immAt w 19 6))
  | 0x12 => .ok (.sari (specAt w 7) (specAt w 13) (immAt w 19 6))
  | 0x13 => .ok (.min (specAt w 7) (specAt w 13) (specAt w 19))
  | 0x14 => .ok (.max (specAt w 7) (specAt w 13) (specAt w 19))
  | 0x15 => .ok (.minu (specAt w 7) (specAt w 13) (specAt w 19))
  | 0x16 => .ok (.maxu (specAt w 7) (specAt w 13) (specAt w 19))
  | 0x17 => if fld w 19 6 = 0 then .ok (.clz (specAt w 7) (specAt w 13)) else .error .reservedField
  | 0x18 => if fld w 19 6 = 0 then .ok (.ctz (specAt w 7) (specAt w 13)) else .error .reservedField
  | 0x19 => if fld w 19 6 = 0 then .ok (.popc (specAt w 7) (specAt w 13)) else .error .reservedField
  | 0x1A => .ok (.leaS2 (specAt w 7) (specAt w 13) (specAt w 19))
  | 0x1B => .ok (.leaS4 (specAt w 7) (specAt w 13) (specAt w 19))
  | 0x1C => .ok (.leaS8 (specAt w 7) (specAt w 13) (specAt w 19))
  | 0x1D => .ok (.leaS16 (specAt w 7) (specAt w 13) (specAt w 19))
  | 0x1E => .ok (.sext (specAt w 7) (specAt w 13) (immAt w 19 6))
  | 0x1F => .ok (.zext (specAt w 7) (specAt w 13) (immAt w 19 6))
  | 0x40 => .ok (.addI32 (specAt w 7) (specAt w 13) (specAt w 19))
  | 0x41 => .ok (.subI32 (specAt w 7) (specAt w 13) (specAt w 19))
  | 0x42 => .ok (.mulI32 (specAt w 7) (specAt w 13) (specAt w 19))
  | 0x43 => .ok (.mulhI32 (specAt w 7) (specAt w 13) (specAt w 19))
  | 0x44 => .ok (.mulhuI32 (specAt w 7) (specAt w 13) (specAt w 19))
  | 0x45 => .ok (.divI32 (specAt w 7) (specAt w 13) (specAt w 19))
  | 0x46 => .ok (.divuI32 (specAt w 7) (specAt w 13) (specAt w 19))
  | 0x47 => .ok (.remI32 (specAt w 7) (specAt w 13) (specAt w 19))
  | 0x48 => .ok (.remuI32 (specAt w 7) (specAt w 13) (specAt w 19))
  | 0x49 => .ok (.andI32 (specAt w 7) (specAt w 13) (specAt w 19))
  | 0x4A => .ok (.orI32 (specAt w 7) (specAt w 13) (specAt w 19))
  | 0x4B => .ok (.xorI32 (specAt w 7) (specAt w 13) (specAt w 19))
  | 0x4C => .ok (.andnI32 (specAt w 7) (specAt w 13) (specAt w 19))
  | 0x4D => .ok (.shlI32 (specAt w 7) (specAt w 13) (specAt w 19))
  | 0x4E => .ok (.shrI32 (specAt w 7) (specAt w 13) (specAt w 19))
  | 0x4F => .ok (.sarI32 (specAt w 7) (specAt w 13) (specAt w 19))
  | 0x50 => if fld w 24 1 = 0 then .ok (.shliI32 (specAt w 7) (specAt w 13) (immAt w 19 5)) else .error .reservedField
  | 0x51 => if fld w 24 1 = 0 then .ok (.shriI32 (specAt w 7) (specAt w 13) (immAt w 19 5)) else .error .reservedField
  | 0x52 => if fld w 24 1 = 0 then .ok (.sariI32 (specAt w 7) (specAt w 13) (immAt w 19 5)) else .error .reservedField
  | 0x53 => .ok (.minI32 (specAt w 7) (specAt w 13) (specAt w 19))
  | 0x54 => .ok (.maxI32 (specAt w 7) (specAt w 13) (specAt w 19))
  | 0x55 => .ok (.minuI32 (specAt w 7) (specAt w 13) (specAt w 19))
  | 0x56 => .ok (.maxuI32 (specAt w 7) (specAt w 13) (specAt w 19))
  | _ => .error .reservedFn

/-- Major 0x01 of the opcode map (R44, R29). -/
def decodeMajor01 (w : Nat) : Except Ill Instr :=
  .ok (.addi (specAt w 7) (specAt w 13) (immAt w 19 13))

/-- Major 0x02 of the opcode map (R44, R29). -/
def decodeMajor02 (w : Nat) : Except Ill Instr :=
  .ok (.lui (specAt w 7) (immAt w 13 19))

/-- Major 0x03 of the opcode map (R44, R29). -/
def decodeMajor03 (w : Nat) : Except Ill Instr :=
  match fld w 25 7 with
  | 0x00 => if fld w 10 3 = 0 then .ok (.cmpEq (octAt w 7) (specAt w 13) (specAt w 19)) else .error .reservedField
  | 0x01 => if fld w 10 3 = 0 then .ok (.cmpNe (octAt w 7) (specAt w 13) (specAt w 19)) else .error .reservedField
  | 0x02 => if fld w 10 3 = 0 then .ok (.cmpLt (octAt w 7) (specAt w 13) (specAt w 19)) else .error .reservedField
  | 0x03 => if fld w 10 3 = 0 then .ok (.cmpLe (octAt w 7) (specAt w 13) (specAt w 19)) else .error .reservedField
  | 0x04 => if fld w 10 3 = 0 then .ok (.cmpLtu (octAt w 7) (specAt w 13) (specAt w 19)) else .error .reservedField
  | 0x05 => if fld w 10 3 = 0 then .ok (.cmpLeu (octAt w 7) (specAt w 13) (specAt w 19)) else .error .reservedField
  | 0x06 => if fld w 10 3 = 0 then .ok (.fcmpEq (octAt w 7) (specAt w 13) (specAt w 19)) else .error .reservedField
  | 0x07 => if fld w 10 3 = 0 then .ok (.fcmpLt (octAt w 7) (specAt w 13) (specAt w 19)) else .error .reservedField
  | 0x08 => if fld w 10 3 = 0 then .ok (.fcmpLe (octAt w 7) (specAt w 13) (specAt w 19)) else .error .reservedField
  | 0x09 => if fld w 10 3 = 0 then .ok (.fcmpUn (octAt w 7) (specAt w 13) (specAt w 19)) else .error .reservedField
  | 0x0A => if fld w 10 3 = 0 ∧ fld w 16 3 = 0 ∧ fld w 22 3 = 0 then .ok (.pand (octAt w 7) (octAt w 13) (octAt w 19)) else .error .reservedField
  | 0x0B => if fld w 10 3 = 0 ∧ fld w 16 3 = 0 ∧ fld w 22 3 = 0 then .ok (.por (octAt w 7) (octAt w 13) (octAt w 19)) else .error .reservedField
  | 0x0C => if fld w 10 3 = 0 ∧ fld w 16 3 = 0 ∧ fld w 22 3 = 0 then .ok (.pxor (octAt w 7) (octAt w 13) (octAt w 19)) else .error .reservedField
  | 0x0D => if fld w 10 3 = 0 ∧ fld w 16 9 = 0 then .ok (.pnot (octAt w 7) (octAt w 13)) else .error .reservedField
  | 0x0E => if fld w 10 3 = 0 ∧ fld w 16 9 = 0 then .ok (.pmov (octAt w 7) (octAt w 13)) else .error .reservedField
  | 0x0F => if fld w 10 9 = 0 ∧ fld w 20 5 = 0 then .ok (.pset (octAt w 7) (bitAt w 19)) else .error .reservedField
  | 0x40 => if fld w 10 3 = 0 then .ok (.cmpEqI32 (octAt w 7) (specAt w 13) (specAt w 19)) else .error .reservedField
  | 0x41 => if fld w 10 3 = 0 then .ok (.cmpNeI32 (octAt w 7) (specAt w 13) (specAt w 19)) else .error .reservedField
  | 0x42 => if fld w 10 3 = 0 then .ok (.cmpLtI32 (octAt w 7) (specAt w 13) (specAt w 19)) else .error .reservedField
  | 0x43 => if fld w 10 3 = 0 then .ok (.cmpLeI32 (octAt w 7) (specAt w 13) (specAt w 19)) else .error .reservedField
  | 0x44 => if fld w 10 3 = 0 then .ok (.cmpLtuI32 (octAt w 7) (specAt w 13) (specAt w 19)) else .error .reservedField
  | 0x45 => if fld w 10 3 = 0 then .ok (.cmpLeuI32 (octAt w 7) (specAt w 13) (specAt w 19)) else .error .reservedField
  | 0x46 => if fld w 10 3 = 0 then .ok (.fcmpEqF64 (octAt w 7) (specAt w 13) (specAt w 19)) else .error .reservedField
  | 0x47 => if fld w 10 3 = 0 then .ok (.fcmpLtF64 (octAt w 7) (specAt w 13) (specAt w 19)) else .error .reservedField
  | 0x48 => if fld w 10 3 = 0 then .ok (.fcmpLeF64 (octAt w 7) (specAt w 13) (specAt w 19)) else .error .reservedField
  | 0x49 => if fld w 10 3 = 0 then .ok (.fcmpUnF64 (octAt w 7) (specAt w 13) (specAt w 19)) else .error .reservedField
  | _ => .error .reservedFn

/-- Major 0x04 of the opcode map (R44, R29). -/
def decodeMajor04 (w : Nat) : Except Ill Instr :=
  match fld w 10 3 with
  | 0x00 => .ok (.br (octAt w 7) (immAt w 13 19))
  | 0x01 => .ok (.brNot (octAt w 7) (immAt w 13 19))
  | 0x02 => .ok (.lpe (octAt w 7) (bitAt w 10) (immAt w 13 19))
  | 0x03 => .ok (.lpe (octAt w 7) (bitAt w 10) (immAt w 13 19))
  | _ => .error .reservedFn

/-- Major 0x05 of the opcode map (R44, R29). -/
def decodeMajor05 (w : Nat) : Except Ill Instr :=
  .ok (.call (specAt w 7) (specAt w 13) (immAt w 19 13))

/-- Major 0x06 of the opcode map (R44, R29). -/
def decodeMajor06 (w : Nat) : Except Ill Instr :=
  match fld w 29 3 with
  | 0x00 => .ok (.ldN8 (specAt w 7) (specAt w 13) (immAt w 19 10))
  | 0x01 => .ok (.ldN16 (specAt w 7) (specAt w 13) (immAt w 19 10))
  | 0x02 => .ok (.ldN32 (specAt w 7) (specAt w 13) (immAt w 19 10))
  | 0x03 => .ok (.ld64 (specAt w 7) (specAt w 13) (immAt w 19 10))
  | 0x04 => .ok (.ldI8 (specAt w 7) (specAt w 13) (immAt w 19 10))
  | 0x05 => .ok (.ldI16 (specAt w 7) (specAt w 13) (immAt w 19 10))
  | 0x06 => .ok (.ldI32 (specAt w 7) (specAt w 13) (immAt w 19 10))
  | 0x07 => .ok (.ldV (specAt w 7) (specAt w 13) (immAt w 19 10))
  | _ => .error .reservedFn

/-- Major 0x07 of the opcode map (R44, R29). -/
def decodeMajor07 (w : Nat) : Except Ill Instr :=
  match fld w 29 3 with
  | 0x00 => .ok (.st8 (specAt w 7) (specAt w 13) (immAt w 19 10))
  | 0x01 => .ok (.st16 (specAt w 7) (specAt w 13) (immAt w 19 10))
  | 0x02 => .ok (.st32 (specAt w 7) (specAt w 13) (immAt w 19 10))
  | 0x03 => .ok (.st64 (specAt w 7) (specAt w 13) (immAt w 19 10))
  | 0x04 => .ok (.stV (specAt w 7) (specAt w 13) (immAt w 19 10))
  | _ => .error .reservedFn

/-- Major 0x08 of the opcode map (R44, R29). -/
def decodeMajor08 (w : Nat) : Except Ill Instr :=
  match fld w 19 5 with
  | 0x00 => need (MOrd.ofCode (fld w 24 3)) .reservedOrd fun o => need (Scope.ofCode (fld w 27 4)) .reservedScope fun c => .ok (.amoSwap (specAt w 7) (specAt w 13) o c (bitAt w 31))
  | 0x01 => need (MOrd.ofCode (fld w 24 3)) .reservedOrd fun o => need (Scope.ofCode (fld w 27 4)) .reservedScope fun c => .ok (.amoAdd (specAt w 7) (specAt w 13) o c (bitAt w 31))
  | 0x02 => need (MOrd.ofCode (fld w 24 3)) .reservedOrd fun o => need (Scope.ofCode (fld w 27 4)) .reservedScope fun c => .ok (.amoAnd (specAt w 7) (specAt w 13) o c (bitAt w 31))
  | 0x03 => need (MOrd.ofCode (fld w 24 3)) .reservedOrd fun o => need (Scope.ofCode (fld w 27 4)) .reservedScope fun c => .ok (.amoOr (specAt w 7) (specAt w 13) o c (bitAt w 31))
  | 0x04 => need (MOrd.ofCode (fld w 24 3)) .reservedOrd fun o => need (Scope.ofCode (fld w 27 4)) .reservedScope fun c => .ok (.amoXor (specAt w 7) (specAt w 13) o c (bitAt w 31))
  | 0x05 => need (MOrd.ofCode (fld w 24 3)) .reservedOrd fun o => need (Scope.ofCode (fld w 27 4)) .reservedScope fun c => .ok (.amoMin (specAt w 7) (specAt w 13) o c (bitAt w 31))
  | 0x06 => need (MOrd.ofCode (fld w 24 3)) .reservedOrd fun o => need (Scope.ofCode (fld w 27 4)) .reservedScope fun c => .ok (.amoMax (specAt w 7) (specAt w 13) o c (bitAt w 31))
  | 0x07 => need (MOrd.ofCode (fld w 24 3)) .reservedOrd fun o => need (Scope.ofCode (fld w 27 4)) .reservedScope fun c => .ok (.amoMinu (specAt w 7) (specAt w 13) o c (bitAt w 31))
  | 0x08 => need (MOrd.ofCode (fld w 24 3)) .reservedOrd fun o => need (Scope.ofCode (fld w 27 4)) .reservedScope fun c => .ok (.amoMaxu (specAt w 7) (specAt w 13) o c (bitAt w 31))
  | 0x09 => need (MOrd.ofCode (fld w 24 3)) .reservedOrd fun o => need (Scope.ofCode (fld w 27 4)) .reservedScope fun c => .ok (.amoFadd (specAt w 7) (specAt w 13) o c (bitAt w 31))
  | 0x0A => need (MOrd.ofCode (fld w 24 3)) .reservedOrd fun o => need (Scope.ofCode (fld w 27 4)) .reservedScope fun c => .ok (.cas (specAt w 7) (specAt w 13) o c (bitAt w 31))
  | _ => .error .reservedFn

/-- Major 0x09 of the opcode map (R44, R29). -/
def decodeMajor09 (w : Nat) : Except Ill Instr :=
  match fld w 25 7 with
  | 0x00 => if fld w 7 6 = 0 ∧ fld w 17 2 = 0 ∧ fld w 22 3 = 0 then need (Scope.ofCode (fld w 13 4)) .reservedScope fun s => need (MOrd.ofCode (fld w 19 3)) .reservedOrd fun o => .ok (.fence s o) else .error .reservedField
  | 0x01 => if fld w 11 2 = 0 then need (Scope.ofCode (fld w 7 4)) .reservedScope fun s => .ok (.cwb s (specAt w 13) (specAt w 19)) else .error .reservedField
  | 0x02 => if fld w 11 2 = 0 then need (Scope.ofCode (fld w 7 4)) .reservedScope fun s => .ok (.cinv s (specAt w 13) (specAt w 19)) else .error .reservedField
  | 0x03 => if fld w 7 6 = 0 ∧ fld w 22 3 = 0 then .ok (.pf (specAt w 13) (immAt w 19 3)) else .error .reservedField
  | 0x04 => .ok (.lds (specAt w 7) (specAt w 13) (immAt w 19 6))
  | 0x05 => .ok (.sts (specAt w 7) (specAt w 13) (immAt w 19 6))
  | 0x06 => if fld w 23 2 = 0 then .ok (.wait (immAt w 7 4) (immAt w 11 4) (immAt w 15 4) (immAt w 19 4)) else .error .reservedField
  | _ => .error .reservedFn

/-- Major 0x0A of the opcode map (R44, R29). -/
def decodeMajor0A (w : Nat) : Except Ill Instr :=
  match fld w 25 4 with
  | 0x00 => .ok (.vaddF (FTy.ofCode3 (fld w 29 3)) (specAt w 7) (specAt w 13) (specAt w 19))
  | 0x01 => .ok (.vsubF (FTy.ofCode3 (fld w 29 3)) (specAt w 7) (specAt w 13) (specAt w 19))
  | 0x02 => .ok (.vmulF (FTy.ofCode3 (fld w 29 3)) (specAt w 7) (specAt w 13) (specAt w 19))
  | 0x03 => .ok (.vdivF (FTy.ofCode3 (fld w 29 3)) (specAt w 7) (specAt w 13) (specAt w 19))
  | 0x04 => .ok (.vminF (FTy.ofCode3 (fld w 29 3)) (specAt w 7) (specAt w 13) (specAt w 19))
  | 0x05 => .ok (.vmaxF (FTy.ofCode3 (fld w 29 3)) (specAt w 7) (specAt w 13) (specAt w 19))
  | 0x06 => if fld w 19 6 = 0 then .ok (.vabsF (FTy.ofCode3 (fld w 29 3)) (specAt w 7) (specAt w 13)) else .error .reservedField
  | 0x07 => if fld w 19 6 = 0 then .ok (.vnegF (FTy.ofCode3 (fld w 29 3)) (specAt w 7) (specAt w 13)) else .error .reservedField
  | 0x08 => .ok (.vceqF (FTy.ofCode3 (fld w 29 3)) (specAt w 7) (specAt w 13) (specAt w 19))
  | 0x09 => .ok (.vcltF (FTy.ofCode3 (fld w 29 3)) (specAt w 7) (specAt w 13) (specAt w 19))
  | 0x0A => .ok (.vcleF (FTy.ofCode3 (fld w 29 3)) (specAt w 7) (specAt w 13) (specAt w 19))
  | 0x0B => .ok (.vcunF (FTy.ofCode3 (fld w 29 3)) (specAt w 7) (specAt w 13) (specAt w 19))
  | 0x0C => if fld w 19 6 = 0 then .ok (.vrsumF (FTy.ofCode3 (fld w 29 3)) (specAt w 7) (specAt w 13)) else .error .reservedField
  | 0x0D => if fld w 19 6 = 0 then .ok (.vrmaxF (FTy.ofCode3 (fld w 29 3)) (specAt w 7) (specAt w 13)) else .error .reservedField
  | 0x0E => if fld w 19 6 = 0 then .ok (.vrminF (FTy.ofCode3 (fld w 29 3)) (specAt w 7) (specAt w 13)) else .error .reservedField
  | _ => .error .reservedFn

/-- Major 0x0B of the opcode map (R44, R29). -/
def decodeMajor0B (w : Nat) : Except Ill Instr :=
  match fld w 25 4 with
  | 0x00 => .ok (.vaddI (IntTy.ofCode (fld w 29 3)) (specAt w 7) (specAt w 13) (specAt w 19))
  | 0x01 => .ok (.vsubI (IntTy.ofCode (fld w 29 3)) (specAt w 7) (specAt w 13) (specAt w 19))
  | 0x02 => .ok (.vadds (IntTy.ofCode (fld w 29 3)) (specAt w 7) (specAt w 13) (specAt w 19))
  | 0x03 => .ok (.vsubs (IntTy.ofCode (fld w 29 3)) (specAt w 7) (specAt w 13) (specAt w 19))
  | 0x04 => .ok (.vmulI (IntTy.ofCode (fld w 29 3)) (specAt w 7) (specAt w 13) (specAt w 19))
  | 0x05 => .ok (.vminI (IntTy.ofCode (fld w 29 3)) (specAt w 7) (specAt w 13) (specAt w 19))
  | 0x06 => .ok (.vmaxI (IntTy.ofCode (fld w 29 3)) (specAt w 7) (specAt w 13) (specAt w 19))
  | 0x07 => .ok (.vand (IntTy.ofCode (fld w 29 3)) (specAt w 7) (specAt w 13) (specAt w 19))
  | 0x08 => .ok (.vor (IntTy.ofCode (fld w 29 3)) (specAt w 7) (specAt w 13) (specAt w 19))
  | 0x09 => .ok (.vxor (IntTy.ofCode (fld w 29 3)) (specAt w 7) (specAt w 13) (specAt w 19))
  | 0x0A => .ok (.vshl (IntTy.ofCode (fld w 29 3)) (specAt w 7) (specAt w 13) (specAt w 19))
  | 0x0B => .ok (.vshr (IntTy.ofCode (fld w 29 3)) (specAt w 7) (specAt w 13) (specAt w 19))
  | 0x0C => .ok (.vceqI (IntTy.ofCode (fld w 29 3)) (specAt w 7) (specAt w 13) (specAt w 19))
  | 0x0D => .ok (.vcltI (IntTy.ofCode (fld w 29 3)) (specAt w 7) (specAt w 13) (specAt w 19))
  | 0x0E => .ok (.vsel (IntTy.ofCode (fld w 29 3)) (specAt w 7) (specAt w 13) (specAt w 19))
  | 0x0F => if fld w 19 6 = 0 then .ok (.vrsumI (IntTy.ofCode (fld w 29 3)) (specAt w 7) (specAt w 13)) else .error .reservedField
  | _ => .error .reservedFn

/-- Major 0x0C of the opcode map (R44, R29). -/
def decodeMajor0C (w : Nat) : Except Ill Instr :=
  match fld w 25 7 with
  | 0x00 => .ok (.vshuf (specAt w 7) (specAt w 13) (specAt w 19))
  | 0x01 => .ok (.vzlo (specAt w 7) (specAt w 13) (specAt w 19))
  | 0x02 => .ok (.vzhi (specAt w 7) (specAt w 13) (specAt w 19))
  | 0x03 => .ok (.vuev (specAt w 7) (specAt w 13) (specAt w 19))
  | 0x04 => .ok (.vuod (specAt w 7) (specAt w 13) (specAt w 19))
  | 0x05 => .ok (.vbcst (specAt w 7) (specAt w 13) (immAt w 19 4) (immAt w 23 2))
  | 0x06 => .ok (.vext (specAt w 7) (specAt w 13) (immAt w 19 4) (immAt w 23 2))
  | 0x07 => .ok (.vins (specAt w 7) (specAt w 13) (immAt w 19 4) (immAt w 23 2))
  | 0x08 => .ok (.vexl (specAt w 7) (specAt w 13) (specAt w 19))
  | 0x09 => if fld w 19 6 = 0 then .ok (.vrev (specAt w 7) (specAt w 13)) else .error .reservedField
  | 0x10 => if fld w 7 6 = 0 then .ok (.xqSnd (specAt w 13) (specAt w 19)) else .error .reservedField
  | 0x11 => if fld w 13 6 = 0 then .ok (.xqTry (specAt w 7) (immAt w 19 3) (octAt w 22)) else .error .reservedField
  | 0x12 => if fld w 13 6 = 0 ∧ fld w 22 3 = 0 then .ok (.xqRcv (specAt w 7) (immAt w 19 3)) else .error .reservedField
  | _ => .error .reservedFn

/-- Major 0x0D of the opcode map (R44, R29). -/
def decodeMajor0D (w : Nat) : Except Ill Instr :=
  match fld w 25 4 with
  | 0x00 => .ok (.vfma (FTy.ofCode3 (fld w 29 3)) (specAt w 7) (specAt w 13) (specAt w 19))
  | 0x01 => .ok (.vfms (FTy.ofCode3 (fld w 29 3)) (specAt w 7) (specAt w 13) (specAt w 19))
  | 0x02 => .ok (.vfnma (FTy.ofCode3 (fld w 29 3)) (specAt w 7) (specAt w 13) (specAt w 19))
  | 0x03 => .ok (.vfnms (FTy.ofCode3 (fld w 29 3)) (specAt w 7) (specAt w 13) (specAt w 19))
  | 0x04 => .ok (.vdot (FTy.ofCode3 (fld w 29 3)) (specAt w 7) (specAt w 13) (specAt w 19))
  | 0x05 => .ok (.vdoti (IntTy.ofCode (fld w 29 3)) (specAt w 7) (specAt w 13) (specAt w 19))
  | _ => .error .reservedFn

/-- Major 0x0E of the opcode map (R44, R29). -/
def decodeMajor0E (w : Nat) : Except Ill Instr :=
  match fld w 25 4 with
  | 0x00 => if fld w 19 6 = 0 ∧ fld w 31 1 = 0 then .ok (.vrcp (FTy.ofCode3 (fld w 29 2)) (specAt w 7) (specAt w 13)) else .error .reservedField
  | 0x01 => if fld w 19 6 = 0 ∧ fld w 31 1 = 0 then .ok (.vrsqrt (FTy.ofCode3 (fld w 29 2)) (specAt w 7) (specAt w 13)) else .error .reservedField
  | 0x02 => if fld w 19 6 = 0 ∧ fld w 31 1 = 0 then .ok (.vsqrt (FTy.ofCode3 (fld w 29 2)) (specAt w 7) (specAt w 13)) else .error .reservedField
  | 0x03 => if fld w 19 6 = 0 ∧ fld w 31 1 = 0 then .ok (.vexp2 (FTy.ofCode3 (fld w 29 2)) (specAt w 7) (specAt w 13)) else .error .reservedField
  | 0x04 => if fld w 19 6 = 0 ∧ fld w 31 1 = 0 then .ok (.vlog2 (FTy.ofCode3 (fld w 29 2)) (specAt w 7) (specAt w 13)) else .error .reservedField
  | 0x05 => if fld w 19 6 = 0 ∧ fld w 31 1 = 0 then .ok (.vsin (FTy.ofCode3 (fld w 29 2)) (specAt w 7) (specAt w 13)) else .error .reservedField
  | 0x06 => if fld w 19 6 = 0 ∧ fld w 31 1 = 0 then .ok (.vcos (FTy.ofCode3 (fld w 29 2)) (specAt w 7) (specAt w 13)) else .error .reservedField
  | 0x07 => if fld w 19 6 = 0 ∧ fld w 31 1 = 0 then .ok (.vtanh (FTy.ofCode3 (fld w 29 2)) (specAt w 7) (specAt w 13)) else .error .reservedField
  | 0x08 => if fld w 19 6 = 0 ∧ fld w 31 1 = 0 then .ok (.vsigm (FTy.ofCode3 (fld w 29 2)) (specAt w 7) (specAt w 13)) else .error .reservedField
  | 0x09 => if fld w 19 6 = 0 ∧ fld w 31 1 = 0 then .ok (.verf (FTy.ofCode3 (fld w 29 2)) (specAt w 7) (specAt w 13)) else .error .reservedField
  | _ => .error .reservedFn

/-- Major 0x0F of the opcode map (R44, R29). -/
def decodeMajor0F (w : Nat) : Except Ill Instr :=
  match fld w 29 3 with
  | 0x00 => if fld w 23 2 = 0 then need (FTy.ofCode4 (fld w 25 4)) .reservedType fun t => need (FTy.ofCode4 (fld w 19 4)) .reservedType fun s => .ok (.cvt t s (specAt w 7) (specAt w 13)) else .error .reservedField
  | 0x01 => if fld w 23 2 = 0 then need (CvtInt.ofCode (fld w 25 4)) .reservedType fun t => need (FTy.ofCode4 (fld w 19 4)) .reservedType fun s => .ok (.cvti t s (specAt w 7) (specAt w 13)) else .error .reservedField
  | 0x02 => if fld w 23 2 = 0 then need (FTy.ofCode4 (fld w 25 4)) .reservedType fun t => need (CvtInt.ofCode (fld w 19 4)) .reservedType fun s => .ok (.cvtf t s (specAt w 7) (specAt w 13)) else .error .reservedField
  | 0x03 => if fld w 23 2 = 0 then need (FTy.ofCode4 (fld w 25 4)) .reservedType fun t => need (FTy.ofCode4 (fld w 19 4)) .reservedType fun s => .ok (.qnt t s (specAt w 7) (specAt w 13)) else .error .reservedField
  | 0x04 => if fld w 23 2 = 0 then need (FTy.ofCode4 (fld w 25 4)) .reservedType fun t => need (FTy.ofCode4 (fld w 19 4)) .reservedType fun s => .ok (.dqnt t s (specAt w 7) (specAt w 13)) else .error .reservedField
  | 0x05 => if fld w 23 6 = 0 then need (FTy.ofCode4 (fld w 19 4)) .reservedType fun s => .ok (.fclass s (specAt w 7) (specAt w 13)) else .error .reservedField
  | 0x06 => if fld w 19 6 = 0 ∧ fld w 26 3 = 0 then .ok (.pack (specAt w 7) (specAt w 13) (bitAt w 25)) else .error .reservedField
  | 0x07 => if fld w 19 6 = 0 ∧ fld w 27 2 = 0 then .ok (.unpack (specAt w 7) (specAt w 13) (immAt w 25 2)) else .error .reservedField
  | _ => .error .reservedFn

/-- Major 0x10 of the opcode map (R44, R29). -/
def decodeMajor10 (w : Nat) : Except Ill Instr :=
  match fld w 19 6 with
  | 0x00 => .ok (.mx (specAt w 7) (specAt w 13) (immAt w 25 7))
  | 0x01 => .ok (.mxs (specAt w 7) (specAt w 13) (immAt w 25 7))
  | 0x02 => .ok (.mxDrn (specAt w 7) (specAt w 13) (immAt w 25 7))
  | 0x03 => .ok (.mxClr (specAt w 7) (specAt w 13) (immAt w 25 7))
  | _ => .error .reservedFn

/-- Major 0x11 of the opcode map (R44, R29). -/
def decodeMajor11 (w : Nat) : Except Ill Instr :=
  match fld w 19 6 with
  | 0x00 => .ok (.cp (specAt w 7) (specAt w 13) (immAt w 25 7))
  | 0x01 => .ok (.cpT (specAt w 7) (specAt w 13) (immAt w 25 7))
  | 0x02 => .ok (.cpRed (specAt w 7) (specAt w 13) (immAt w 25 7))
  | 0x03 => .ok (.cpCls (specAt w 7) (specAt w 13) (immAt w 25 7))
  | 0x04 => .ok (.strmA (specAt w 7) (specAt w 13) (immAt w 25 7))
  | 0x05 => .ok (.strmB (specAt w 7) (specAt w 13) (immAt w 25 7))
  | 0x06 => .ok (.cpGat (specAt w 7) (specAt w 13) (immAt w 25 7))
  | 0x07 => .ok (.cpSca (specAt w 7) (specAt w 13) (immAt w 25 7))
  | _ => .error .reservedFn

/-- Major 0x12 of the opcode map (R44, R29). -/
def decodeMajor12 (w : Nat) : Except Ill Instr :=
  match fld w 19 6 with
  | 0x00 => .ok (.colAr (specAt w 7) (specAt w 13) (immAt w 25 7))
  | 0x01 => .ok (.colAg (specAt w 7) (specAt w 13) (immAt w 25 7))
  | 0x02 => .ok (.colRs (specAt w 7) (specAt w 13) (immAt w 25 7))
  | 0x03 => .ok (.colBc (specAt w 7) (specAt w 13) (immAt w 25 7))
  | 0x04 => .ok (.colA2a (specAt w 7) (specAt w 13) (immAt w 25 7))
  | _ => .error .reservedFn

/-- Major 0x13 of the opcode map (R44, R29). -/
def decodeMajor13 (w : Nat) : Except Ill Instr :=
  match fld w 25 7 with
  | 0x00 => if fld w 19 6 = 0 then .ok (.tokWait (specAt w 7) (specAt w 13)) else .error .reservedField
  | 0x01 => if fld w 22 3 = 0 then .ok (.tokTest (specAt w 7) (specAt w 13) (octAt w 19)) else .error .reservedField
  | 0x02 => if fld w 7 6 = 0 ∧ fld w 19 6 = 0 then .ok (.tokDet (specAt w 13)) else .error .reservedField
  | 0x03 => if fld w 7 6 = 0 ∧ fld w 19 6 = 0 then .ok (.tokAdop (specAt w 13)) else .error .reservedField
  | 0x04 => if fld w 7 6 = 0 then .ok (.tokDep (specAt w 13) (specAt w 19)) else if fld w 7 6 = 1 then .ok (.tokDepGo (specAt w 13) (specAt w 19)) else .error .reservedField
  | 0x05 => if fld w 7 6 = 0 ∧ fld w 19 6 = 0 then .ok (.tokCan (specAt w 13)) else if fld w 7 6 = 1 ∧ fld w 19 6 = 0 then .ok (.tokCanR (specAt w 13)) else .error .reservedField
  | 0x06 => if fld w 7 6 = 0 then .ok (.tokPri (specAt w 13) (specAt w 19)) else .error .reservedField
  | 0x07 => if fld w 20 5 = 0 then .ok (.tokRec (specAt w 7) (specAt w 13) (bitAt w 19)) else .error .reservedField
  | 0x08 => if fld w 7 6 = 0 then .ok (.tokPost (specAt w 13) (specAt w 19)) else .error .reservedField
  | _ => .error .reservedFn

/-- Major 0x14 of the opcode map (R44, R29). -/
def decodeMajor14 (w : Nat) : Except Ill Instr :=
  match fld w 19 6 with
  | 0x00 => .ok (.rowGat (specAt w 7) (specAt w 13) (immAt w 25 7))
  | 0x01 => .ok (.rowSca (specAt w 7) (specAt w 13) (immAt w 25 7))
  | 0x02 => .ok (.rowPin (specAt w 7) (specAt w 13) (immAt w 25 7))
  | 0x03 => .ok (.rowUnp (specAt w 7) (specAt w 13) (immAt w 25 7))
  | 0x04 => .ok (.rowHint (specAt w 7) (specAt w 13) (immAt w 25 7))
  | _ => .error .reservedFn

/-- Major 0x15 of the opcode map (R44, R29). -/
def decodeMajor15 (w : Nat) : Except Ill Instr :=
  match fld w 25 7 with
  | 0x00 => if fld w 7 6 = 0 then .ok (.spawn (specAt w 13) (specAt w 19)) else .error .reservedField
  | 0x01 => .ok (.spawnO (specAt w 7) (specAt w 13) (specAt w 19))
  | 0x02 => if fld w 7 6 = 0 then .ok (.spawnD (specAt w 13) (specAt w 19)) else .error .reservedField
  | 0x03 => if fld w 7 18 = 0 then .ok .susp else .error .reservedField
  | 0x04 => if fld w 7 18 = 0 then .ok .done else .error .reservedField
  | 0x05 => if fld w 7 18 = 0 then .ok .yield else .error .reservedField
  | 0x06 => if fld w 13 12 = 0 then .ok (.tsGet (specAt w 7)) else .error .reservedField
  | 0x07 => if fld w 7 18 = 0 then .ok .abort else .error .reservedField
  | 0x08 => if fld w 7 6 = 0 then .ok (.spt (immAt w 13 12)) else .error .reservedField
  | 0x09 => if fld w 19 6 = 0 then .ok (.launch (specAt w 7) (specAt w 13)) else .error .reservedField
  | 0x0A => if fld w 19 6 = 0 then .ok (.kinfo (specAt w 7) (specAt w 13)) else .error .reservedField
  | _ => .error .reservedFn

/-- Major 0x16 of the opcode map (R44, R29). -/
def decodeMajor16 (w : Nat) : Except Ill Instr :=
  match fld w 25 7 with
  | 0x00 => if fld w 7 6 = 0 then .ok (.snd (specAt w 13) (specAt w 19)) else .error .reservedField
  | 0x01 => if fld w 7 6 = 0 then .ok (.sndC (specAt w 13) (specAt w 19)) else .error .reservedField
  | 0x02 => if fld w 7 6 = 0 ∧ fld w 19 6 = 0 then .ok (.rpl (specAt w 13)) else .error .reservedField
  | 0x03 => if fld w 7 6 = 0 then .ok (.tagBind (specAt w 13) (specAt w 19)) else .error .reservedField
  | 0x04 => .ok (.rq (specAt w 7) (specAt w 13) (specAt w 19))
  | _ => .error .reservedFn

/-- Major 0x17 of the opcode map (R44, R29). -/
def decodeMajor17 (w : Nat) : Except Ill Instr :=
  match fld w 25 7 with
  | 0x00 => if fld w 7 6 = 0 then .ok (.patBind (specAt w 13) (specAt w 19)) else .error .reservedField
  | 0x01 => if fld w 7 6 = 0 ∧ fld w 19 6 = 0 then .ok (.patDrop (specAt w 13)) else .error .reservedField
  | 0x02 => if fld w 7 6 = 0 then .ok (.portCfg (specAt w 13) (specAt w 19)) else .error .reservedField
  | 0x03 => if fld w 7 6 = 0 then .ok (.portGive (specAt w 13) (specAt w 19)) else .error .reservedField
  | 0x04 => if fld w 23 2 = 0 then .ok (.portSt (specAt w 7) (specAt w 13) (immAt w 19 4)) else .error .reservedField
  | 0x05 => if fld w 19 1 = 0 ∧ fld w 23 2 = 0 then .ok (.portTake (specAt w 7) (specAt w 13) (octAt w 20)) else if fld w 19 6 = 1 then .ok (.portTakeW (specAt w 7) (specAt w 13)) else .error .reservedField
  | 0x06 => if fld w 19 6 = 0 then .ok (.portClr (specAt w 7) (specAt w 13)) else .error .reservedField
  | _ => .error .reservedFn

/-- Major 0x18 of the opcode map (R44, R29). -/
noncomputable def decodeMajor18 (w : Nat) : Except Ill Instr :=
  match fld w 25 7 with
  | 0x00 => .ok (.sigAdd (specAt w 7) (specAt w 13) (specAt w 19))
  | 0x01 => .ok (.sigSet (specAt w 7) (specAt w 13) (specAt w 19))
  | 0x02 => if fld w 19 6 = 0 then .ok (.sigRd (specAt w 7) (specAt w 13)) else .error .reservedField
  | 0x03 => .ok (.sigWait (specAt w 7) (specAt w 13) (specAt w 19))
  | 0x04 => .ok (.sigCas (specAt w 7) (specAt w 13) (specAt w 19))
  | _ => .error .reservedFn

/-- Major 0x19 of the opcode map (R44, R29). -/
noncomputable def decodeMajor19 (w : Nat) : Except Ill Instr :=
  match fld w 25 7 with
  | 0x00 => if fld w 19 6 = 0 then .ok (.grpNew (specAt w 7) (specAt w 13)) else .error .reservedField
  | 0x01 => if fld w 7 6 = 0 ∧ fld w 20 5 = 0 then .ok (.grpEnd (specAt w 13) (bitAt w 19)) else .error .reservedField
  | 0x02 => if fld w 23 2 = 0 then .ok (.grpRd (specAt w 7) (specAt w 13) (immAt w 19 4)) else .error .reservedField
  | 0x03 => if fld w 11 2 = 0 then .ok (.grpSet (immAt w 7 4) (specAt w 13) (specAt w 19)) else .error .reservedField
  | 0x04 => if fld w 7 6 = 0 then .ok (.ebudSet (specAt w 13) (specAt w 19)) else .error .reservedField
  | 0x05 => if fld w 19 6 = 0 then .ok (.ebudRd (specAt w 7) (specAt w 13)) else .error .reservedField
  | _ => .error .reservedFn

/-- Major 0x1A of the opcode map (R44, R29). -/
noncomputable def decodeMajor1A (w : Nat) : Except Ill Instr :=
  match fld w 25 7 with
  | 0x00 => if fld w 13 6 = 0 then .ok (.mfs (specAt w 7) (immAt w 19 6)) else .error .reservedField
  | 0x01 => if fld w 7 6 = 0 then .ok (.mts (specAt w 13) (immAt w 19 6)) else .error .reservedField
  | 0x02 => if fld w 7 6 = 0 ∧ fld w 19 6 = 0 then .ok (.trap (specAt w 13)) else .error .reservedField
  | 0x03 => if fld w 7 6 = 0 then .ok (.tlbWr (specAt w 13) (specAt w 19)) else .error .reservedField
  | 0x04 => if fld w 7 6 = 0 then .ok (.tlbInvPage (specAt w 13) (specAt w 19)) else .error .reservedField
  | 0x05 => .ok (.tlbPrb (specAt w 7) (specAt w 13) (specAt w 19))
  | 0x06 => .ok (.pgWake (specAt w 7) (specAt w 13) (specAt w 19))
  | 0x07 => .ok (.dlHv (specAt w 7) (specAt w 13) (specAt w 19))
  | 0x08 => if fld w 7 6 = 0 then .ok (.errInj (specAt w 13) (specAt w 19)) else .error .reservedField
  | 0x09 => if fld w 19 6 = 0 then .ok (.clsQ (specAt w 7) (specAt w 13)) else .error .reservedField
  | 0x0A => .ok (.ctxSv (specAt w 7) (specAt w 13) (specAt w 19))
  | 0x0B => if fld w 7 6 = 0 then .ok (.ctxLdCreate (specAt w 13) (specAt w 19)) else .error .reservedField
  | _ => .error .reservedFn

/-- Major 0x1B of the opcode map (R44, R29). -/
noncomputable def decodeMajor1B (w : Nat) : Except Ill Instr :=
  match fld w 25 7 with
  | 0x00 => .ok (.queSubRegister (specAt w 7) (specAt w 13) (specAt w 19))
  | 0x01 => if fld w 7 6 = 0 then .ok (.slotMap (specAt w 13) (specAt w 19)) else .error .reservedField
  | 0x02 => if fld w 7 6 = 0 then .ok (.slotUnm (specAt w 13) (specAt w 19)) else .error .reservedField
  | 0x03 => if fld w 19 6 = 0 then .ok (.slotRd (specAt w 7) (specAt w 13)) else .error .reservedField
  | 0x04 => if fld w 7 6 = 0 then .ok (.dlogWr (specAt w 13) (specAt w 19)) else .error .reservedField
  | 0x05 => if fld w 19 6 = 0 then .ok (.dlogRd (specAt w 7) (specAt w 13)) else .error .reservedField
  | _ => .error .reservedFn

/-- Major 0x1C of the opcode map (R44, R29). -/
noncomputable def decodeMajor1C (w : Nat) : Except Ill Instr :=
  match fld w 25 7 with
  | 0x00 => if fld w 7 12 = 0 then .ok (.dbgBrk (immAt w 19 6)) else .error .reservedField
  | 0x01 => if fld w 7 6 = 0 ∧ fld w 19 6 = 0 then .ok (.dbgMark (specAt w 13)) else .error .reservedField
  | 0x02 => if fld w 19 6 = 0 then .ok (.profRd (specAt w 7) (specAt w 13)) else .error .reservedField
  | 0x03 => if fld w 7 6 = 0 then .ok (.dbgStopStop (specAt w 13) (specAt w 19)) else .error .reservedField
  | _ => .error .reservedFn

/-- Major 0x1D of the opcode map (R44, R29). -/
noncomputable def decodeMajor1D (w : Nat) : Except Ill Instr :=
  match fld w 25 7 with
  | 0x00 => if fld w 9 4 = 0 then .ok (.xld (xAt w 7) (specAt w 13) (immAt w 19 6)) else .error .reservedField
  | 0x01 => if fld w 7 6 = 0 then .ok (.xld4 (specAt w 13) (immAt w 19 6)) else .error .reservedField
  | 0x02 => if fld w 9 4 = 0 ∧ fld w 19 6 = 0 then .ok (.xmv (xAt w 7) (specAt w 13)) else .error .reservedField
  | 0x03 => if fld w 15 10 = 0 then .ok (.xrd (specAt w 7) (xAt w 13)) else .error .reservedField
  | 0x04 => if fld w 9 4 = 0 then .ok (.xst (xAt w 7) (specAt w 13) (immAt w 19 6)) else .error .reservedField
  | 0x05 => if fld w 7 6 = 0 then .ok (.xst4 (specAt w 13) (immAt w 19 6)) else .error .reservedField
  | _ => .error .reservedFn

/-- A 32-bit word by its major opcode (R26, R44); majors 0x1E and 0x1F are reserved. -/
noncomputable def decodeWord32 (w : Nat) : Except Ill Instr :=
  match fld w 2 5 with
  | 0x00 => decodeMajor00 w
  | 0x01 => decodeMajor01 w
  | 0x02 => decodeMajor02 w
  | 0x03 => decodeMajor03 w
  | 0x04 => decodeMajor04 w
  | 0x05 => decodeMajor05 w
  | 0x06 => decodeMajor06 w
  | 0x07 => decodeMajor07 w
  | 0x08 => decodeMajor08 w
  | 0x09 => decodeMajor09 w
  | 0x0A => decodeMajor0A w
  | 0x0B => decodeMajor0B w
  | 0x0C => decodeMajor0C w
  | 0x0D => decodeMajor0D w
  | 0x0E => decodeMajor0E w
  | 0x0F => decodeMajor0F w
  | 0x10 => decodeMajor10 w
  | 0x11 => decodeMajor11 w
  | 0x12 => decodeMajor12 w
  | 0x13 => decodeMajor13 w
  | 0x14 => decodeMajor14 w
  | 0x15 => decodeMajor15 w
  | 0x16 => decodeMajor16 w
  | 0x17 => decodeMajor17 w
  | 0x18 => decodeMajor18 w
  | 0x19 => decodeMajor19 w
  | 0x1A => decodeMajor1A w
  | 0x1B => decodeMajor1B w
  | 0x1C => decodeMajor1C w
  | 0x1D => decodeMajor1D w
  | _ => .error .reservedMajor

/-- A 16-bit word by quadrant and fn3 (R32): key = 8 * quadrant + fn3. -/
noncomputable def decodeWord16 (w : Nat) : Except Ill Instr :=
  if w = 0 then .error .zeroHalfword else
  match 8 * fld w 0 2 + fld w 13 3 with
  | 0 => if fld w 3 1 = 0 then .ok (.cAdd (bitAt w 2) (octAt w 4) (octAt w 7) (octAt w 10)) else .error .reservedField
  | 1 => if fld w 3 1 = 0 then .ok (.cSub (bitAt w 2) (octAt w 4) (octAt w 7) (octAt w 10)) else .error .reservedField
  | 2 => if fld w 3 1 = 0 then .ok (.cMov (bitAt w 2) (specAt w 4) (octAt w 10)) else .error .reservedField
  | 3 => .ok (.cAddi (immAt w 2 5) (octAt w 7) (octAt w 10))
  | 4 => .ok (.cLi (immAt w 2 8) (octAt w 10))
  | 5 => .ok (.cLd (bitAt w 2) (immAt w 3 4) (octAt w 7) (octAt w 10))
  | 6 => .ok (.cSt (bitAt w 2) (immAt w 3 4) (octAt w 7) (octAt w 10))
  | 7 => .ok (.cCmp (immAt w 2 2) (octAt w 4) (octAt w 7) (octAt w 10))
  | 8 => .ok (.cBr (immAt w 2 7) (bitAt w 9) (octAt w 10))
  | 9 => .ok (.cJmp (immAt w 2 11))
  | 10 => .ok (.cVadd (immAt w 2 2) (octAt w 4) (octAt w 7) (octAt w 10))
  | 11 => .ok (.cVfma (immAt w 2 2) (octAt w 4) (octAt w 7) (octAt w 10))
  | 12 => if fld w 2 3 = 0 then .ok (.cXmv (specAt w 5) (xAt w 11)) else .error .reservedField
  | 13 => if fld w 2 5 = 0 then .ok (.cWait (immAt w 7 4) (immAt w 11 2)) else .error .reservedField
  | 14 => .ok (.cSpt (immAt w 2 11))
  | 16 => if fld w 2 11 = 0 then .ok .cSusp else .error .reservedField
  | 17 => if fld w 2 11 = 0 then .ok .cDone else .error .reservedField
  | 18 => if fld w 2 7 = 0 then .ok (.cIf (bitAt w 9) (octAt w 10)) else .error .reservedField
  | 19 => if fld w 2 11 = 0 then .ok .cNop else .error .reservedField
  | _ => .error .reservedForm16

/-- The length in bytes of the word that starts with halfword `h` (R26). -/
def wordBytes (h : Nat) : Nat := if fld h 0 2 = 3 then 4 else 2

/-- Reject an instruction whose operands fail a check (R47). -/
def checked (i : Instr) : Except Ill Instr :=
  match i.illFormed with
  | none => .ok i
  | some e => .error e

/-- The instruction of a word: `w` holds the first halfword in bits 15:0 and, in a 32-bit word, the second in bits
31:16 (R26). Bits above the word's length are not read. -/
noncomputable def decodeWord (w : Nat) : Except Ill Instr :=
  match (if fld w 0 2 = 3 then decodeWord32 (w % 2 ^ 32) else decodeWord16 (w % 2 ^ 16)) with
  | .ok i => checked i
  | .error e => .error e

/-- The number that the bytes of a word stand for, the lowest address first (R3). -/
def leNat : List Byte → Nat
  | [] => 0
  | b :: bs => b.toNat + 256 * leNat bs

/-- The first `n` bytes of a number, the lowest address first (R3). -/
def leBytes : Nat → Nat → List Byte
  | 0, _ => []
  | n + 1, v => BitVec.ofNat 8 v :: leBytes n (v / 256)

/-- Decode the instruction that stands first in a run of bytes, with its length in bytes. -/
noncomputable def decodeBytes (bs : List Byte) : Except Ill (Instr × Nat) :=
  let n := wordBytes (leNat (bs.take 2))
  if bs.length < n ∨ bs.length < 2 then .error .truncated
  else match decodeWord (leNat (bs.take n)) with
    | .ok i => .ok (i, n)
    | .error e => .error e

/-- The instruction that this decoder reads from a table row's bits, bit 0 the least significant bit of the first
halfword; every bit above `nbits` is 0. -/
noncomputable def decodeTableWord (nbits w : Nat) : Option Instr :=
  match decodeBytes (leBytes 4 (w % 2 ^ nbits)) with
  | .ok (i, _) => some i
  | .error _ => none

/-- The word of an instruction: its length in bits and the word itself, from the formats of R29 and R32. A step of the
table that has no encoding has no word. -/
def Instr.encode : Instr → Option (Nat × Nat)
  | .add d a b => some (32, 0x3 + d.val * 0x80 + a.val * 0x2000 + b.val * 0x80000)
  | .sub d a b => some (32, 0x2000003 + d.val * 0x80 + a.val * 0x2000 + b.val * 0x80000)
  | .mul d a b => some (32, 0x4000003 + d.val * 0x80 + a.val * 0x2000 + b.val * 0x80000)
  | .mulh d a b => some (32, 0x6000003 + d.val * 0x80 + a.val * 0x2000 + b.val * 0x80000)
  | .mulhu d a b => some (32, 0x8000003 + d.val * 0x80 + a.val * 0x2000 + b.val * 0x80000)
  | .div d a b => some (32, 0xA000003 + d.val * 0x80 + a.val * 0x2000 + b.val * 0x80000)
  | .divu d a b => some (32, 0xC000003 + d.val * 0x80 + a.val * 0x2000 + b.val * 0x80000)
  | .rem d a b => some (32, 0xE000003 + d.val * 0x80 + a.val * 0x2000 + b.val * 0x80000)
  | .remu d a b => some (32, 0x10000003 + d.val * 0x80 + a.val * 0x2000 + b.val * 0x80000)
  | .and d a b => some (32, 0x12000003 + d.val * 0x80 + a.val * 0x2000 + b.val * 0x80000)
  | .or d a b => some (32, 0x14000003 + d.val * 0x80 + a.val * 0x2000 + b.val * 0x80000)
  | .xor d a b => some (32, 0x16000003 + d.val * 0x80 + a.val * 0x2000 + b.val * 0x80000)
  | .andn d a b => some (32, 0x18000003 + d.val * 0x80 + a.val * 0x2000 + b.val * 0x80000)
  | .shl d a b => some (32, 0x1A000003 + d.val * 0x80 + a.val * 0x2000 + b.val * 0x80000)
  | .shr d a b => some (32, 0x1C000003 + d.val * 0x80 + a.val * 0x2000 + b.val * 0x80000)
  | .sar d a b => some (32, 0x1E000003 + d.val * 0x80 + a.val * 0x2000 + b.val * 0x80000)
  | .shli d a s => some (32, 0x20000003 + d.val * 0x80 + a.val * 0x2000 + s.toNat * 0x80000)
  | .shri d a s => some (32, 0x22000003 + d.val * 0x80 + a.val * 0x2000 + s.toNat * 0x80000)
  | .sari d a s => some (32, 0x24000003 + d.val * 0x80 + a.val * 0x2000 + s.toNat * 0x80000)
  | .min d a b => some (32, 0x26000003 + d.val * 0x80 + a.val * 0x2000 + b.val * 0x80000)
  | .max d a b => some (32, 0x28000003 + d.val * 0x80 + a.val * 0x2000 + b.val * 0x80000)
  | .minu d a b => some (32, 0x2A000003 + d.val * 0x80 + a.val * 0x2000 + b.val * 0x80000)
  | .maxu d a b => some (32, 0x2C000003 + d.val * 0x80 + a.val * 0x2000 + b.val * 0x80000)
  | .clz d a => some (32, 0x2E000003 + d.val * 0x80 + a.val * 0x2000)
  | .ctz d a => some (32, 0x30000003 + d.val * 0x80 + a.val * 0x2000)
  | .popc d a => some (32, 0x32000003 + d.val * 0x80 + a.val * 0x2000)
  | .leaS2 d a b => some (32, 0x34000003 + d.val * 0x80 + a.val * 0x2000 + b.val * 0x80000)
  | .leaS4 d a b => some (32, 0x36000003 + d.val * 0x80 + a.val * 0x2000 + b.val * 0x80000)
  | .leaS8 d a b => some (32, 0x38000003 + d.val * 0x80 + a.val * 0x2000 + b.val * 0x80000)
  | .leaS16 d a b => some (32, 0x3A000003 + d.val * 0x80 + a.val * 0x2000 + b.val * 0x80000)
  | .sext d a k => some (32, 0x3C000003 + d.val * 0x80 + a.val * 0x2000 + k.toNat * 0x80000)
  | .zext d a k => some (32, 0x3E000003 + d.val * 0x80 + a.val * 0x2000 + k.toNat * 0x80000)
  | .addI32 d a b => some (32, 0x80000003 + d.val * 0x80 + a.val * 0x2000 + b.val * 0x80000)
  | .subI32 d a b => some (32, 0x82000003 + d.val * 0x80 + a.val * 0x2000 + b.val * 0x80000)
  | .mulI32 d a b => some (32, 0x84000003 + d.val * 0x80 + a.val * 0x2000 + b.val * 0x80000)
  | .mulhI32 d a b => some (32, 0x86000003 + d.val * 0x80 + a.val * 0x2000 + b.val * 0x80000)
  | .mulhuI32 d a b => some (32, 0x88000003 + d.val * 0x80 + a.val * 0x2000 + b.val * 0x80000)
  | .divI32 d a b => some (32, 0x8A000003 + d.val * 0x80 + a.val * 0x2000 + b.val * 0x80000)
  | .divuI32 d a b => some (32, 0x8C000003 + d.val * 0x80 + a.val * 0x2000 + b.val * 0x80000)
  | .remI32 d a b => some (32, 0x8E000003 + d.val * 0x80 + a.val * 0x2000 + b.val * 0x80000)
  | .remuI32 d a b => some (32, 0x90000003 + d.val * 0x80 + a.val * 0x2000 + b.val * 0x80000)
  | .andI32 d a b => some (32, 0x92000003 + d.val * 0x80 + a.val * 0x2000 + b.val * 0x80000)
  | .orI32 d a b => some (32, 0x94000003 + d.val * 0x80 + a.val * 0x2000 + b.val * 0x80000)
  | .xorI32 d a b => some (32, 0x96000003 + d.val * 0x80 + a.val * 0x2000 + b.val * 0x80000)
  | .andnI32 d a b => some (32, 0x98000003 + d.val * 0x80 + a.val * 0x2000 + b.val * 0x80000)
  | .shlI32 d a b => some (32, 0x9A000003 + d.val * 0x80 + a.val * 0x2000 + b.val * 0x80000)
  | .shrI32 d a b => some (32, 0x9C000003 + d.val * 0x80 + a.val * 0x2000 + b.val * 0x80000)
  | .sarI32 d a b => some (32, 0x9E000003 + d.val * 0x80 + a.val * 0x2000 + b.val * 0x80000)
  | .shliI32 d a s => some (32, 0xA0000003 + d.val * 0x80 + a.val * 0x2000 + s.toNat * 0x80000)
  | .shriI32 d a s => some (32, 0xA2000003 + d.val * 0x80 + a.val * 0x2000 + s.toNat * 0x80000)
  | .sariI32 d a s => some (32, 0xA4000003 + d.val * 0x80 + a.val * 0x2000 + s.toNat * 0x80000)
  | .minI32 d a b => some (32, 0xA6000003 + d.val * 0x80 + a.val * 0x2000 + b.val * 0x80000)
  | .maxI32 d a b => some (32, 0xA8000003 + d.val * 0x80 + a.val * 0x2000 + b.val * 0x80000)
  | .minuI32 d a b => some (32, 0xAA000003 + d.val * 0x80 + a.val * 0x2000 + b.val * 0x80000)
  | .maxuI32 d a b => some (32, 0xAC000003 + d.val * 0x80 + a.val * 0x2000 + b.val * 0x80000)
  | .addi d a i => some (32, 0x7 + d.val * 0x80 + a.val * 0x2000 + i.toNat * 0x80000)
  | .lui d i => some (32, 0xB + d.val * 0x80 + i.toNat * 0x2000)
  | .cmpEq p a b => some (32, 0xF + p.val * 0x80 + a.val * 0x2000 + b.val * 0x80000)
  | .cmpNe p a b => some (32, 0x200000F + p.val * 0x80 + a.val * 0x2000 + b.val * 0x80000)
  | .cmpLt p a b => some (32, 0x400000F + p.val * 0x80 + a.val * 0x2000 + b.val * 0x80000)
  | .cmpLe p a b => some (32, 0x600000F + p.val * 0x80 + a.val * 0x2000 + b.val * 0x80000)
  | .cmpLtu p a b => some (32, 0x800000F + p.val * 0x80 + a.val * 0x2000 + b.val * 0x80000)
  | .cmpLeu p a b => some (32, 0xA00000F + p.val * 0x80 + a.val * 0x2000 + b.val * 0x80000)
  | .fcmpEq p a b => some (32, 0xC00000F + p.val * 0x80 + a.val * 0x2000 + b.val * 0x80000)
  | .fcmpLt p a b => some (32, 0xE00000F + p.val * 0x80 + a.val * 0x2000 + b.val * 0x80000)
  | .fcmpLe p a b => some (32, 0x1000000F + p.val * 0x80 + a.val * 0x2000 + b.val * 0x80000)
  | .fcmpUn p a b => some (32, 0x1200000F + p.val * 0x80 + a.val * 0x2000 + b.val * 0x80000)
  | .pand p s q => some (32, 0x1400000F + p.val * 0x80 + s.val * 0x2000 + q.val * 0x80000)
  | .por p s q => some (32, 0x1600000F + p.val * 0x80 + s.val * 0x2000 + q.val * 0x80000)
  | .pxor p s q => some (32, 0x1800000F + p.val * 0x80 + s.val * 0x2000 + q.val * 0x80000)
  | .pnot p s => some (32, 0x1A00000F + p.val * 0x80 + s.val * 0x2000)
  | .pmov p s => some (32, 0x1C00000F + p.val * 0x80 + s.val * 0x2000)
  | .pset p k => some (32, 0x1E00000F + p.val * 0x80 + k.toNat * 0x80000)
  | .cmpEqI32 p a b => some (32, 0x8000000F + p.val * 0x80 + a.val * 0x2000 + b.val * 0x80000)
  | .cmpNeI32 p a b => some (32, 0x8200000F + p.val * 0x80 + a.val * 0x2000 + b.val * 0x80000)
  | .cmpLtI32 p a b => some (32, 0x8400000F + p.val * 0x80 + a.val * 0x2000 + b.val * 0x80000)
  | .cmpLeI32 p a b => some (32, 0x8600000F + p.val * 0x80 + a.val * 0x2000 + b.val * 0x80000)
  | .cmpLtuI32 p a b => some (32, 0x8800000F + p.val * 0x80 + a.val * 0x2000 + b.val * 0x80000)
  | .cmpLeuI32 p a b => some (32, 0x8A00000F + p.val * 0x80 + a.val * 0x2000 + b.val * 0x80000)
  | .fcmpEqF64 p a b => some (32, 0x8C00000F + p.val * 0x80 + a.val * 0x2000 + b.val * 0x80000)
  | .fcmpLtF64 p a b => some (32, 0x8E00000F + p.val * 0x80 + a.val * 0x2000 + b.val * 0x80000)
  | .fcmpLeF64 p a b => some (32, 0x9000000F + p.val * 0x80 + a.val * 0x2000 + b.val * 0x80000)
  | .fcmpUnF64 p a b => some (32, 0x9200000F + p.val * 0x80 + a.val * 0x2000 + b.val * 0x80000)
  | .br p o => some (32, 0x13 + p.val * 0x80 + o.toNat * 0x2000)
  | .brNot p o => some (32, 0x413 + p.val * 0x80 + o.toNat * 0x2000)
  | .lpe p n o => some (32, 0x813 + p.val * 0x80 + n.toNat * 0x400 + o.toNat * 0x2000)
  | .call d a i => some (32, 0x17 + d.val * 0x80 + a.val * 0x2000 + i.toNat * 0x80000)
  | .ldN8 t b o => some (32, 0x1B + t.val * 0x80 + b.val * 0x2000 + o.toNat * 0x80000)
  | .ldN16 t b o => some (32, 0x2000001B + t.val * 0x80 + b.val * 0x2000 + o.toNat * 0x80000)
  | .ldN32 t b o => some (32, 0x4000001B + t.val * 0x80 + b.val * 0x2000 + o.toNat * 0x80000)
  | .ld64 t b o => some (32, 0x6000001B + t.val * 0x80 + b.val * 0x2000 + o.toNat * 0x80000)
  | .ldI8 t b o => some (32, 0x8000001B + t.val * 0x80 + b.val * 0x2000 + o.toNat * 0x80000)
  | .ldI16 t b o => some (32, 0xA000001B + t.val * 0x80 + b.val * 0x2000 + o.toNat * 0x80000)
  | .ldI32 t b o => some (32, 0xC000001B + t.val * 0x80 + b.val * 0x2000 + o.toNat * 0x80000)
  | .ldV t b o => some (32, 0xE000001B + t.val * 0x80 + b.val * 0x2000 + o.toNat * 0x80000)
  | .st8 t b o => some (32, 0x1F + t.val * 0x80 + b.val * 0x2000 + o.toNat * 0x80000)
  | .st16 t b o => some (32, 0x2000001F + t.val * 0x80 + b.val * 0x2000 + o.toNat * 0x80000)
  | .st32 t b o => some (32, 0x4000001F + t.val * 0x80 + b.val * 0x2000 + o.toNat * 0x80000)
  | .st64 t b o => some (32, 0x6000001F + t.val * 0x80 + b.val * 0x2000 + o.toNat * 0x80000)
  | .stV t b o => some (32, 0x8000001F + t.val * 0x80 + b.val * 0x2000 + o.toNat * 0x80000)
  | .amoSwap t b o c z => some (32, 0x23 + t.val * 0x80 + b.val * 0x2000 + o.code * 0x1000000 + c.code * 0x8000000 + z.toNat * 0x80000000)
  | .amoAdd t b o c z => some (32, 0x80023 + t.val * 0x80 + b.val * 0x2000 + o.code * 0x1000000 + c.code * 0x8000000 + z.toNat * 0x80000000)
  | .amoAnd t b o c z => some (32, 0x100023 + t.val * 0x80 + b.val * 0x2000 + o.code * 0x1000000 + c.code * 0x8000000 + z.toNat * 0x80000000)
  | .amoOr t b o c z => some (32, 0x180023 + t.val * 0x80 + b.val * 0x2000 + o.code * 0x1000000 + c.code * 0x8000000 + z.toNat * 0x80000000)
  | .amoXor t b o c z => some (32, 0x200023 + t.val * 0x80 + b.val * 0x2000 + o.code * 0x1000000 + c.code * 0x8000000 + z.toNat * 0x80000000)
  | .amoMin t b o c z => some (32, 0x280023 + t.val * 0x80 + b.val * 0x2000 + o.code * 0x1000000 + c.code * 0x8000000 + z.toNat * 0x80000000)
  | .amoMax t b o c z => some (32, 0x300023 + t.val * 0x80 + b.val * 0x2000 + o.code * 0x1000000 + c.code * 0x8000000 + z.toNat * 0x80000000)
  | .amoMinu t b o c z => some (32, 0x380023 + t.val * 0x80 + b.val * 0x2000 + o.code * 0x1000000 + c.code * 0x8000000 + z.toNat * 0x80000000)
  | .amoMaxu t b o c z => some (32, 0x400023 + t.val * 0x80 + b.val * 0x2000 + o.code * 0x1000000 + c.code * 0x8000000 + z.toNat * 0x80000000)
  | .amoFadd t b o c z => some (32, 0x480023 + t.val * 0x80 + b.val * 0x2000 + o.code * 0x1000000 + c.code * 0x8000000 + z.toNat * 0x80000000)
  | .cas t b o c z => some (32, 0x500023 + t.val * 0x80 + b.val * 0x2000 + o.code * 0x1000000 + c.code * 0x8000000 + z.toNat * 0x80000000)
  | .fence s o => some (32, 0x27 + s.code * 0x2000 + o.code * 0x80000)
  | .cwb s a b => some (32, 0x2000027 + s.code * 0x80 + a.val * 0x2000 + b.val * 0x80000)
  | .cinv s a b => some (32, 0x4000027 + s.code * 0x80 + a.val * 0x2000 + b.val * 0x80000)
  | .pf a h => some (32, 0x6000027 + a.val * 0x2000 + h.toNat * 0x80000)
  | .lds d a i => some (32, 0x8000027 + d.val * 0x80 + a.val * 0x2000 + i.toNat * 0x80000)
  | .sts t a i => some (32, 0xA000027 + t.val * 0x80 + a.val * 0x2000 + i.toNat * 0x80000)
  | .wait d s c l => some (32, 0xC000027 + d.toNat * 0x80 + s.toNat * 0x800 + c.toNat * 0x8000 + l.toNat * 0x80000)
  | .vaddF t d a b => some (32, 0x2B + d.val * 0x80 + a.val * 0x2000 + b.val * 0x80000 + t.code3 * 0x20000000)
  | .vsubF t d a b => some (32, 0x200002B + d.val * 0x80 + a.val * 0x2000 + b.val * 0x80000 + t.code3 * 0x20000000)
  | .vmulF t d a b => some (32, 0x400002B + d.val * 0x80 + a.val * 0x2000 + b.val * 0x80000 + t.code3 * 0x20000000)
  | .vdivF t d a b => some (32, 0x600002B + d.val * 0x80 + a.val * 0x2000 + b.val * 0x80000 + t.code3 * 0x20000000)
  | .vminF t d a b => some (32, 0x800002B + d.val * 0x80 + a.val * 0x2000 + b.val * 0x80000 + t.code3 * 0x20000000)
  | .vmaxF t d a b => some (32, 0xA00002B + d.val * 0x80 + a.val * 0x2000 + b.val * 0x80000 + t.code3 * 0x20000000)
  | .vabsF t d a => some (32, 0xC00002B + d.val * 0x80 + a.val * 0x2000 + t.code3 * 0x20000000)
  | .vnegF t d a => some (32, 0xE00002B + d.val * 0x80 + a.val * 0x2000 + t.code3 * 0x20000000)
  | .vceqF t d a b => some (32, 0x1000002B + d.val * 0x80 + a.val * 0x2000 + b.val * 0x80000 + t.code3 * 0x20000000)
  | .vcltF t d a b => some (32, 0x1200002B + d.val * 0x80 + a.val * 0x2000 + b.val * 0x80000 + t.code3 * 0x20000000)
  | .vcleF t d a b => some (32, 0x1400002B + d.val * 0x80 + a.val * 0x2000 + b.val * 0x80000 + t.code3 * 0x20000000)
  | .vcunF t d a b => some (32, 0x1600002B + d.val * 0x80 + a.val * 0x2000 + b.val * 0x80000 + t.code3 * 0x20000000)
  | .vrsumF t d a => some (32, 0x1800002B + d.val * 0x80 + a.val * 0x2000 + t.code3 * 0x20000000)
  | .vrmaxF t d a => some (32, 0x1A00002B + d.val * 0x80 + a.val * 0x2000 + t.code3 * 0x20000000)
  | .vrminF t d a => some (32, 0x1C00002B + d.val * 0x80 + a.val * 0x2000 + t.code3 * 0x20000000)
  | .vaddI t d a b => some (32, 0x2F + d.val * 0x80 + a.val * 0x2000 + b.val * 0x80000 + t.code * 0x20000000)
  | .vsubI t d a b => some (32, 0x200002F + d.val * 0x80 + a.val * 0x2000 + b.val * 0x80000 + t.code * 0x20000000)
  | .vadds t d a b => some (32, 0x400002F + d.val * 0x80 + a.val * 0x2000 + b.val * 0x80000 + t.code * 0x20000000)
  | .vsubs t d a b => some (32, 0x600002F + d.val * 0x80 + a.val * 0x2000 + b.val * 0x80000 + t.code * 0x20000000)
  | .vmulI t d a b => some (32, 0x800002F + d.val * 0x80 + a.val * 0x2000 + b.val * 0x80000 + t.code * 0x20000000)
  | .vminI t d a b => some (32, 0xA00002F + d.val * 0x80 + a.val * 0x2000 + b.val * 0x80000 + t.code * 0x20000000)
  | .vmaxI t d a b => some (32, 0xC00002F + d.val * 0x80 + a.val * 0x2000 + b.val * 0x80000 + t.code * 0x20000000)
  | .vand t d a b => some (32, 0xE00002F + d.val * 0x80 + a.val * 0x2000 + b.val * 0x80000 + t.code * 0x20000000)
  | .vor t d a b => some (32, 0x1000002F + d.val * 0x80 + a.val * 0x2000 + b.val * 0x80000 + t.code * 0x20000000)
  | .vxor t d a b => some (32, 0x1200002F + d.val * 0x80 + a.val * 0x2000 + b.val * 0x80000 + t.code * 0x20000000)
  | .vshl t d a b => some (32, 0x1400002F + d.val * 0x80 + a.val * 0x2000 + b.val * 0x80000 + t.code * 0x20000000)
  | .vshr t d a b => some (32, 0x1600002F + d.val * 0x80 + a.val * 0x2000 + b.val * 0x80000 + t.code * 0x20000000)
  | .vceqI t d a b => some (32, 0x1800002F + d.val * 0x80 + a.val * 0x2000 + b.val * 0x80000 + t.code * 0x20000000)
  | .vcltI t d a b => some (32, 0x1A00002F + d.val * 0x80 + a.val * 0x2000 + b.val * 0x80000 + t.code * 0x20000000)
  | .vsel t d a b => some (32, 0x1C00002F + d.val * 0x80 + a.val * 0x2000 + b.val * 0x80000 + t.code * 0x20000000)
  | .vrsumI t d a => some (32, 0x1E00002F + d.val * 0x80 + a.val * 0x2000 + t.code * 0x20000000)
  | .vshuf d a b => some (32, 0x33 + d.val * 0x80 + a.val * 0x2000 + b.val * 0x80000)
  | .vzlo d a b => some (32, 0x2000033 + d.val * 0x80 + a.val * 0x2000 + b.val * 0x80000)
  | .vzhi d a b => some (32, 0x4000033 + d.val * 0x80 + a.val * 0x2000 + b.val * 0x80000)
  | .vuev d a b => some (32, 0x6000033 + d.val * 0x80 + a.val * 0x2000 + b.val * 0x80000)
  | .vuod d a b => some (32, 0x8000033 + d.val * 0x80 + a.val * 0x2000 + b.val * 0x80000)
  | .vbcst d a n w => some (32, 0xA000033 + d.val * 0x80 + a.val * 0x2000 + n.toNat * 0x80000 + w.toNat * 0x800000)
  | .vext d a n w => some (32, 0xC000033 + d.val * 0x80 + a.val * 0x2000 + n.toNat * 0x80000 + w.toNat * 0x800000)
  | .vins d a n w => some (32, 0xE000033 + d.val * 0x80 + a.val * 0x2000 + n.toNat * 0x80000 + w.toNat * 0x800000)
  | .vexl d a b => some (32, 0x10000033 + d.val * 0x80 + a.val * 0x2000 + b.val * 0x80000)
  | .vrev d a => some (32, 0x12000033 + d.val * 0x80 + a.val * 0x2000)
  | .xqSnd a b => some (32, 0x20000033 + a.val * 0x2000 + b.val * 0x80000)
  | .xqTry d n k => some (32, 0x22000033 + d.val * 0x80 + n.toNat * 0x80000 + k.val * 0x400000)
  | .xqRcv d n => some (32, 0x24000033 + d.val * 0x80 + n.toNat * 0x80000)
  | .vfma t d a b => some (32, 0x37 + d.val * 0x80 + a.val * 0x2000 + b.val * 0x80000 + t.code3 * 0x20000000)
  | .vfms t d a b => some (32, 0x2000037 + d.val * 0x80 + a.val * 0x2000 + b.val * 0x80000 + t.code3 * 0x20000000)
  | .vfnma t d a b => some (32, 0x4000037 + d.val * 0x80 + a.val * 0x2000 + b.val * 0x80000 + t.code3 * 0x20000000)
  | .vfnms t d a b => some (32, 0x6000037 + d.val * 0x80 + a.val * 0x2000 + b.val * 0x80000 + t.code3 * 0x20000000)
  | .vdot t d a b => some (32, 0x8000037 + d.val * 0x80 + a.val * 0x2000 + b.val * 0x80000 + t.code3 * 0x20000000)
  | .vdoti t d a b => some (32, 0xA000037 + d.val * 0x80 + a.val * 0x2000 + b.val * 0x80000 + t.code * 0x20000000)
  | .vrcp t d a => some (32, 0x3B + d.val * 0x80 + a.val * 0x2000 + t.code3 * 0x20000000)
  | .vrsqrt t d a => some (32, 0x200003B + d.val * 0x80 + a.val * 0x2000 + t.code3 * 0x20000000)
  | .vsqrt t d a => some (32, 0x400003B + d.val * 0x80 + a.val * 0x2000 + t.code3 * 0x20000000)
  | .vexp2 t d a => some (32, 0x600003B + d.val * 0x80 + a.val * 0x2000 + t.code3 * 0x20000000)
  | .vlog2 t d a => some (32, 0x800003B + d.val * 0x80 + a.val * 0x2000 + t.code3 * 0x20000000)
  | .vsin t d a => some (32, 0xA00003B + d.val * 0x80 + a.val * 0x2000 + t.code3 * 0x20000000)
  | .vcos t d a => some (32, 0xC00003B + d.val * 0x80 + a.val * 0x2000 + t.code3 * 0x20000000)
  | .vtanh t d a => some (32, 0xE00003B + d.val * 0x80 + a.val * 0x2000 + t.code3 * 0x20000000)
  | .vsigm t d a => some (32, 0x1000003B + d.val * 0x80 + a.val * 0x2000 + t.code3 * 0x20000000)
  | .verf t d a => some (32, 0x1200003B + d.val * 0x80 + a.val * 0x2000 + t.code3 * 0x20000000)
  | .cvt t s d a => some (32, 0x3F + d.val * 0x80 + a.val * 0x2000 + s.code4 * 0x80000 + t.code4 * 0x2000000)
  | .cvti t s d a => some (32, 0x2000003F + d.val * 0x80 + a.val * 0x2000 + s.code4 * 0x80000 + t.code * 0x2000000)
  | .cvtf t s d a => some (32, 0x4000003F + d.val * 0x80 + a.val * 0x2000 + s.code * 0x80000 + t.code4 * 0x2000000)
  | .qnt t s d a => some (32, 0x6000003F + d.val * 0x80 + a.val * 0x2000 + s.code4 * 0x80000 + t.code4 * 0x2000000)
  | .dqnt t s d a => some (32, 0x8000003F + d.val * 0x80 + a.val * 0x2000 + s.code4 * 0x80000 + t.code4 * 0x2000000)
  | .fclass s d a => some (32, 0xA000003F + d.val * 0x80 + a.val * 0x2000 + s.code4 * 0x80000)
  | .pack d a w => some (32, 0xC000003F + d.val * 0x80 + a.val * 0x2000 + w.toNat * 0x2000000)
  | .unpack d a w => some (32, 0xE000003F + d.val * 0x80 + a.val * 0x2000 + w.toNat * 0x2000000)
  | .mx d a i => some (32, 0x43 + d.val * 0x80 + a.val * 0x2000 + i.toNat * 0x2000000)
  | .mxs d a i => some (32, 0x80043 + d.val * 0x80 + a.val * 0x2000 + i.toNat * 0x2000000)
  | .mxDrn d a i => some (32, 0x100043 + d.val * 0x80 + a.val * 0x2000 + i.toNat * 0x2000000)
  | .mxClr d a i => some (32, 0x180043 + d.val * 0x80 + a.val * 0x2000 + i.toNat * 0x2000000)
  | .cp d a i => some (32, 0x47 + d.val * 0x80 + a.val * 0x2000 + i.toNat * 0x2000000)
  | .cpT d a i => some (32, 0x80047 + d.val * 0x80 + a.val * 0x2000 + i.toNat * 0x2000000)
  | .cpRed d a i => some (32, 0x100047 + d.val * 0x80 + a.val * 0x2000 + i.toNat * 0x2000000)
  | .cpCls d a i => some (32, 0x180047 + d.val * 0x80 + a.val * 0x2000 + i.toNat * 0x2000000)
  | .strmA d a i => some (32, 0x200047 + d.val * 0x80 + a.val * 0x2000 + i.toNat * 0x2000000)
  | .strmB d a i => some (32, 0x280047 + d.val * 0x80 + a.val * 0x2000 + i.toNat * 0x2000000)
  | .cpGat d a i => some (32, 0x300047 + d.val * 0x80 + a.val * 0x2000 + i.toNat * 0x2000000)
  | .cpSca d a i => some (32, 0x380047 + d.val * 0x80 + a.val * 0x2000 + i.toNat * 0x2000000)
  | .colAr d a i => some (32, 0x4B + d.val * 0x80 + a.val * 0x2000 + i.toNat * 0x2000000)
  | .colAg d a i => some (32, 0x8004B + d.val * 0x80 + a.val * 0x2000 + i.toNat * 0x2000000)
  | .colRs d a i => some (32, 0x10004B + d.val * 0x80 + a.val * 0x2000 + i.toNat * 0x2000000)
  | .colBc d a i => some (32, 0x18004B + d.val * 0x80 + a.val * 0x2000 + i.toNat * 0x2000000)
  | .colA2a d a i => some (32, 0x20004B + d.val * 0x80 + a.val * 0x2000 + i.toNat * 0x2000000)
  | .tokWait d a => some (32, 0x4F + d.val * 0x80 + a.val * 0x2000)
  | .tokTest d a k => some (32, 0x200004F + d.val * 0x80 + a.val * 0x2000 + k.val * 0x80000)
  | .tokDet a => some (32, 0x400004F + a.val * 0x2000)
  | .tokAdop a => some (32, 0x600004F + a.val * 0x2000)
  | .tokDep a b => some (32, 0x800004F + a.val * 0x2000 + b.val * 0x80000)
  | .tokDepGo a b => some (32, 0x80000CF + a.val * 0x2000 + b.val * 0x80000)
  | .tokCan a => some (32, 0xA00004F + a.val * 0x2000)
  | .tokCanR a => some (32, 0xA0000CF + a.val * 0x2000)
  | .tokPri a b => some (32, 0xC00004F + a.val * 0x2000 + b.val * 0x80000)
  | .tokRec d a n => some (32, 0xE00004F + d.val * 0x80 + a.val * 0x2000 + n.toNat * 0x80000)
  | .tokPost a b => some (32, 0x1000004F + a.val * 0x2000 + b.val * 0x80000)
  | .rowGat d a i => some (32, 0x53 + d.val * 0x80 + a.val * 0x2000 + i.toNat * 0x2000000)
  | .rowSca d a i => some (32, 0x80053 + d.val * 0x80 + a.val * 0x2000 + i.toNat * 0x2000000)
  | .rowPin d a i => some (32, 0x100053 + d.val * 0x80 + a.val * 0x2000 + i.toNat * 0x2000000)
  | .rowUnp d a i => some (32, 0x180053 + d.val * 0x80 + a.val * 0x2000 + i.toNat * 0x2000000)
  | .rowHint d a i => some (32, 0x200053 + d.val * 0x80 + a.val * 0x2000 + i.toNat * 0x2000000)
  | .spawn a b => some (32, 0x57 + a.val * 0x2000 + b.val * 0x80000)
  | .spawnO d a b => some (32, 0x2000057 + d.val * 0x80 + a.val * 0x2000 + b.val * 0x80000)
  | .spawnD a b => some (32, 0x4000057 + a.val * 0x2000 + b.val * 0x80000)
  | .susp => some (32, 0x6000057)
  | .done => some (32, 0x8000057)
  | .yield => some (32, 0xA000057)
  | .tsGet d => some (32, 0xC000057 + d.val * 0x80)
  | .abort => some (32, 0xE000057)
  | .spt n => some (32, 0x10000057 + n.toNat * 0x2000)
  | .launch d a => some (32, 0x12000057 + d.val * 0x80 + a.val * 0x2000)
  | .kinfo d a => some (32, 0x14000057 + d.val * 0x80 + a.val * 0x2000)
  | .snd a b => some (32, 0x5B + a.val * 0x2000 + b.val * 0x80000)
  | .sndC a b => some (32, 0x200005B + a.val * 0x2000 + b.val * 0x80000)
  | .rpl a => some (32, 0x400005B + a.val * 0x2000)
  | .tagBind a b => some (32, 0x600005B + a.val * 0x2000 + b.val * 0x80000)
  | .rq d a b => some (32, 0x800005B + d.val * 0x80 + a.val * 0x2000 + b.val * 0x80000)
  | .patBind a b => some (32, 0x5F + a.val * 0x2000 + b.val * 0x80000)
  | .patDrop a => some (32, 0x200005F + a.val * 0x2000)
  | .portCfg a b => some (32, 0x400005F + a.val * 0x2000 + b.val * 0x80000)
  | .portGive a b => some (32, 0x600005F + a.val * 0x2000 + b.val * 0x80000)
  | .portSt d a w => some (32, 0x800005F + d.val * 0x80 + a.val * 0x2000 + w.toNat * 0x80000)
  | .portTake d a k => some (32, 0xA00005F + d.val * 0x80 + a.val * 0x2000 + k.val * 0x100000)
  | .portTakeW d a => some (32, 0xA08005F + d.val * 0x80 + a.val * 0x2000)
  | .portClr d a => some (32, 0xC00005F + d.val * 0x80 + a.val * 0x2000)
  | .sigAdd d a b => some (32, 0x63 + d.val * 0x80 + a.val * 0x2000 + b.val * 0x80000)
  | .sigSet d a b => some (32, 0x2000063 + d.val * 0x80 + a.val * 0x2000 + b.val * 0x80000)
  | .sigRd d a => some (32, 0x4000063 + d.val * 0x80 + a.val * 0x2000)
  | .sigWait d a b => some (32, 0x6000063 + d.val * 0x80 + a.val * 0x2000 + b.val * 0x80000)
  | .sigCas d a b => some (32, 0x8000063 + d.val * 0x80 + a.val * 0x2000 + b.val * 0x80000)
  | .grpNew d a => some (32, 0x67 + d.val * 0x80 + a.val * 0x2000)
  | .grpEnd a k => some (32, 0x2000067 + a.val * 0x2000 + k.toNat * 0x80000)
  | .grpRd d a n => some (32, 0x4000067 + d.val * 0x80 + a.val * 0x2000 + n.toNat * 0x80000)
  | .grpSet n a b => some (32, 0x6000067 + n.toNat * 0x80 + a.val * 0x2000 + b.val * 0x80000)
  | .ebudSet a b => some (32, 0x8000067 + a.val * 0x2000 + b.val * 0x80000)
  | .ebudRd d a => some (32, 0xA000067 + d.val * 0x80 + a.val * 0x2000)
  | .mfs d s => some (32, 0x6B + d.val * 0x80 + s.toNat * 0x80000)
  | .mts a s => some (32, 0x200006B + a.val * 0x2000 + s.toNat * 0x80000)
  | .trap a => some (32, 0x400006B + a.val * 0x2000)
  | .tlbWr a b => some (32, 0x600006B + a.val * 0x2000 + b.val * 0x80000)
  | .tlbInvPage a b => some (32, 0x800006B + a.val * 0x2000 + b.val * 0x80000)
  | .tlbInvContext a b => some (32, 0x800006B + a.val * 0x2000 + b.val * 0x80000)
  | .tlbInvAll a b => some (32, 0x800006B + a.val * 0x2000 + b.val * 0x80000)
  | .tlbPrb d a b => some (32, 0xA00006B + d.val * 0x80 + a.val * 0x2000 + b.val * 0x80000)
  | .pgWake d a b => some (32, 0xC00006B + d.val * 0x80 + a.val * 0x2000 + b.val * 0x80000)
  | .dlHv d a b => some (32, 0xE00006B + d.val * 0x80 + a.val * 0x2000 + b.val * 0x80000)
  | .errInj a b => some (32, 0x1000006B + a.val * 0x2000 + b.val * 0x80000)
  | .clsQ d a => some (32, 0x1200006B + d.val * 0x80 + a.val * 0x2000)
  | .ctxSv d a b => some (32, 0x1400006B + d.val * 0x80 + a.val * 0x2000 + b.val * 0x80000)
  | .ctxLdCreate a b => some (32, 0x1600006B + a.val * 0x2000 + b.val * 0x80000)
  | .ctxLdUpdate a b => some (32, 0x1600006B + a.val * 0x2000 + b.val * 0x80000)
  | .ctxLdDestroy a b => some (32, 0x1600006B + a.val * 0x2000 + b.val * 0x80000)
  | .queSubRegister d a b => some (32, 0x6F + d.val * 0x80 + a.val * 0x2000 + b.val * 0x80000)
  | .queSubUnregister d a b => some (32, 0x6F + d.val * 0x80 + a.val * 0x2000 + b.val * 0x80000)
  | .queSubResume d a b => some (32, 0x6F + d.val * 0x80 + a.val * 0x2000 + b.val * 0x80000)
  | .slotMap a b => some (32, 0x200006F + a.val * 0x2000 + b.val * 0x80000)
  | .slotUnm a b => some (32, 0x400006F + a.val * 0x2000 + b.val * 0x80000)
  | .slotRd d a => some (32, 0x600006F + d.val * 0x80 + a.val * 0x2000)
  | .dlogWr a b => some (32, 0x800006F + a.val * 0x2000 + b.val * 0x80000)
  | .dlogRd d a => some (32, 0xA00006F + d.val * 0x80 + a.val * 0x2000)
  | .dbgBrk k => some (32, 0x73 + k.toNat * 0x80000)
  | .dbgMark a => some (32, 0x2000073 + a.val * 0x2000)
  | .profRd d a => some (32, 0x4000073 + d.val * 0x80 + a.val * 0x2000)
  | .dbgStopStop a b => some (32, 0x6000073 + a.val * 0x2000 + b.val * 0x80000)
  | .dbgStopGo a b => some (32, 0x6000073 + a.val * 0x2000 + b.val * 0x80000)
  | .dbgStopStep a b => some (32, 0x6000073 + a.val * 0x2000 + b.val * 0x80000)
  | .xld n a o => some (32, 0x77 + n.val * 0x80 + a.val * 0x2000 + o.toNat * 0x80000)
  | .xld4 a o => some (32, 0x2000077 + a.val * 0x2000 + o.toNat * 0x80000)
  | .xmv n a => some (32, 0x4000077 + n.val * 0x80 + a.val * 0x2000)
  | .xrd d n => some (32, 0x6000077 + d.val * 0x80 + n.val * 0x2000)
  | .xst n a o => some (32, 0x8000077 + n.val * 0x80 + a.val * 0x2000 + o.toNat * 0x80000)
  | .xst4 a o => some (32, 0xA000077 + a.val * 0x2000 + o.toNat * 0x80000)
  | .cAdd w b a d => some (16, 0x0 + w.toNat * 0x4 + b.val * 0x10 + a.val * 0x80 + d.val * 0x400)
  | .cSub w b a d => some (16, 0x2000 + w.toNat * 0x4 + b.val * 0x10 + a.val * 0x80 + d.val * 0x400)
  | .cMov r m d => some (16, 0x4000 + r.toNat * 0x4 + m.val * 0x10 + d.val * 0x400)
  | .cAddi i a d => some (16, 0x6000 + i.toNat * 0x4 + a.val * 0x80 + d.val * 0x400)
  | .cLi i d => some (16, 0x8000 + i.toNat * 0x4 + d.val * 0x400)
  | .cLd z o b t => some (16, 0xA000 + z.toNat * 0x4 + o.toNat * 0x8 + b.val * 0x80 + t.val * 0x400)
  | .cSt z o b t => some (16, 0xC000 + z.toNat * 0x4 + o.toNat * 0x8 + b.val * 0x80 + t.val * 0x400)
  | .cCmp c b a p => some (16, 0xE000 + c.toNat * 0x4 + b.val * 0x10 + a.val * 0x80 + p.val * 0x400)
  | .cBr o n p => some (16, 0x1 + o.toNat * 0x4 + n.toNat * 0x200 + p.val * 0x400)
  | .cJmp o => some (16, 0x2001 + o.toNat * 0x4)
  | .cVadd t b a d => some (16, 0x4001 + t.toNat * 0x4 + b.val * 0x10 + a.val * 0x80 + d.val * 0x400)
  | .cVfma t b a d => some (16, 0x6001 + t.toNat * 0x4 + b.val * 0x10 + a.val * 0x80 + d.val * 0x400)
  | .cXmv m x => some (16, 0x8001 + m.val * 0x20 + x.val * 0x800)
  | .cWait n s => some (16, 0xA001 + n.toNat * 0x80 + s.toNat * 0x800)
  | .cSpt n => some (16, 0xC001 + n.toNat * 0x4)
  | .cSusp => some (16, 0x2)
  | .cDone => some (16, 0x2002)
  | .cIf n p => some (16, 0x4002 + n.toNat * 0x200 + p.val * 0x400)
  | .cNop => some (16, 0x6002)
  | .instructionFetch _ => none
  | .inboxRecordArrival _ => none
  | .taskUnitRecordArrival _ => none
  | .portArrival _ => none
  | .admission _ => none
  | .sendStallTimeout _ => none
  | .xqEntryArrival _ => none
  | .loadValueReturn _ => none
  | .storePerformed _ => none
  | .homeRequest _ => none
  | .engineClaim _ _ => none
  | .engineRelease _ _ => none
  | .scrubRead _ => none
  | .clsBlkWrite _ _ => none
  | .classClearDone => none
  | .tlbMiss _ => none
  | .walkReply _ => none
  | .preemptionRequest _ => none
  | .noSafePointTimeout _ => none
  | .contextSuspended _ => none
  | .contextResume _ => none
  | .contextAreasResident _ => none
  | .contextDiscardComplete _ => none
  | .freeze _ _ => none
  | .thaw _ => none
  | .weirSample => none
  | .weirDieReduction => none
  | .weirDeviceReduction => none
  | .weirFrontierApply => none
  | .weirCommit => none
  | .spillFullAbort _ => none
  | .tokenStart _ _ => none
  | .streamGroupFetch _ => none
  | .tileGroupStep _ => none
  | .tileDrain _ => none
  | .copyLineStep _ => none
  | .collectiveTimeout _ => none
  | .drainBoundExceeded _ => none
  | .tokenSlotStallTimeout _ => none
  | .tokenDone _ => none
  | .tokenFault _ => none
  | .rowWindow _ => none
  | .rowCombinerUpdate _ _ => none
  | .rowCounterHalving _ => none
  | .rowEntryReread _ _ => none
  | .launchAdmit _ => none
  | .launchCheck _ => none
  | .launchResident _ _ => none
  | .launchWeirSlot _ => none
  | .launchPlace _ _ => none
  | .launchEnd _ => none
  | .groupEnded _ _ => none
  | .sluiceGovernorVisit _ => none
  | .queueWiNotice _ => none
  | .packetHeaderReady _ => none
  | .packetStart _ => none
  | .packetComplete _ _ => none
  | .stageRingHandoff _ _ => none
  | .agingTick _ => none
  | .quantumExpiry _ => none
  | .boundMissed _ => none
  | .trtCtlGo _ => none
  | .turatLoadComplete _ _ _ => none
  | .signalNotify _ => none
  | .signalPollChip _ => none
  | .signalPollRemote _ => none
  | .hostBar2Write _ _ => none
  | .hostBar2Read _ _ => none
  | .dbCmdRegister _ _ _ => none
  | .dbCmdUnregister _ _ _ => none
  | .dbCmdResume _ _ _ => none
  | .hostLinkCompletion _ _ _ => none
  | .hostLinkTimeout _ => none
  | .d2dRetrain _ _ => none
  | .d2dRetrainDone _ _ => none
  | .d2dRetrainTimeout _ _ => none
  | .noturFlitReceive _ _ => none
  | .noturEnable _ => none
  | .noturDisable _ => none
  | .noturTrainingDone _ _ => none
  | .noturTrainingTimeout _ => none
  | .noturRetrainTimeout _ => none
  | .coldReset => none
  | .powerGoodChange _ => none
  | .bootVerifyComplete _ => none
  | .attReqReport _ => none
  | .attReqPubkey _ => none
  | .attReqComplete _ => none
  | .eyeMarginAlert _ _ _ => none
  | .hostIrqWrite _ => none
  | .pwrLimWrite _ => none
  | .throttleChange _ _ _ _ => none
  | .smbusBlockRead _ => none
  | .dbgCtlStop _ => none
  | .dbgCtlGo _ => none
  | .dbgCtlStep _ => none
  | .dbgDatWrite _ _ => none
  | .registerWrite _ _ => none
  | .contextAreasUnbacked _ => none
  | .hostLinkTraining _ _ _ => none
  | .hbmInterfaceRetrainDone _ => none

/-- Rows of the table that share one word differ in an operand's value, not in the word: the decoder answers the first
of them. -/
noncomputable def Instr.canonical : Instr → Instr
  | .tlbInvContext a b => .tlbInvPage a b
  | .tlbInvAll a b => .tlbInvPage a b
  | .ctxLdUpdate a b => .ctxLdCreate a b
  | .ctxLdDestroy a b => .ctxLdCreate a b
  | .queSubUnregister d a b => .queSubRegister d a b
  | .queSubResume d a b => .queSubRegister d a b
  | .dbgStopGo a b => .dbgStopStop a b
  | .dbgStopStep a b => .dbgStopStop a b
  | i => i

end Sys2Proof
end

