-- ==== Sys2Proof/Machine/Tab.lean ====
section
/-! DEFINITION. Sparse tables as plain data: lists of key and value pairs in rising order of key. Registers, tokens, tasks
and every other numbered thing of the machine are held in one; memory has the same form with its own rule for the byte
that an unlisted address reads as (Ops.lean). -/

namespace Sys2Proof.Machine

/-- A table from numbers to values; keys rise strictly. -/
abbrev Tab (α : Type) := List (Nat × α)

/-- The value at key `k`, if the table lists one. -/
def Tab.get? {α : Type} : Tab α → Nat → Option α
  | [], _ => none
  | (j, v) :: t, k => if j = k then some v else Tab.get? t k

/-- The value at key `k`, or `d` where the table lists none. -/
def Tab.getD {α : Type} (t : Tab α) (k : Nat) (d : α) : α := (Tab.get? t k).getD d

/-- The table with `v` at key `k`, keys still rising. -/
def Tab.put {α : Type} : Tab α → Nat → α → Tab α
  | [], k, v => [(k, v)]
  | (j, w) :: t, k, v =>
    if j = k then (k, v) :: t
    else if k < j then (k, v) :: (j, w) :: t
    else (j, w) :: Tab.put t k v

/-- The table without key `k`. -/
def Tab.del {α : Type} : Tab α → Nat → Tab α
  | [], _ => []
  | (j, w) :: t, k => if j = k then t else (j, w) :: Tab.del t k

/-- Every value replaced by `f` of its key and value. -/
def Tab.mapV {α β : Type} (f : Nat → α → β) (t : Tab α) : Tab β := t.map (fun e => (e.1, f e.1 e.2))

/-- The entries whose value meets `p`. -/
def Tab.sel {α : Type} (t : Tab α) (p : Nat → α → Bool) : Tab α := t.filter (fun e => p e.1 e.2)

/-- The least key from `lo` up that the table does not list, among the next `n`. -/
def Tab.freeKey {α : Type} (t : Tab α) : Nat → Nat → Option Nat
  | _, 0 => none
  | lo, n + 1 => if (Tab.get? t lo).isNone then some lo else Tab.freeKey t (lo + 1) n

/-- Keys rise strictly. -/
def Tab.wf {α : Type} : Tab α → Bool
  | [] => true
  | [_] => true
  | (i, _) :: (j, v) :: t => decide (i < j) && Tab.wf ((j, v) :: t)

end Sys2Proof.Machine
end

