-- ==== Sys2Proof/Machine/State.lean ====
section
/-! DEFINITION. The state of the UZ8 as plain data: everything that spec/ gives the machine, grouped as the spec groups it.
Numbers that software never sees as bits are natural numbers; registers and device records that software reads whole are
bit vectors. Places are place ids (R17), cores are place id / 8, clusters are 24 * die + k, lines and granules are named by
their location divided by 32 and by 64. A location is a place in one physical space: tag * 2^64 + offset (Ops.lean). -/

namespace Sys2Proof.Machine

/-- Why the model stops with a fault. Every exception that the spec describes is taken as a next state (R360), so no meaning
raises this one; it stands for a stop outside the model. Safe. -/
inductive Fault where
  /-- Raised by no meaning. Safe. -/
  | outsideModel
  deriving DecidableEq, Repr

/-- Why an instruction has no meaning. -/
inductive Refusal where
  /-- Raised by an arm of exec that gives the instruction no meaning yet. Safe. -/
  | notModelled (mnemonic : String)
  deriving DecidableEq, Repr

/-- How many stores of each place are known: for a place its least order number of a store that is not (R192). -/
abbrev Clock := Tab Nat

/-- A release as a location carries it: who released, for which scope, which location, and the stores that happen before it (R187,
R190, R192). -/
structure Rel where
  place : Nat
  scope : Scope
  loc : Nat
  n : Nat
  clock : Clock
  deriving DecidableEq, Repr

/-- A store to a line as the line's coherence order keeps it: the bytes before and after, its writer, its order number (R184). -/
structure Past where
  old : List Byte
  new : List Byte
  writer : Nat
  num : Nat
  deriving DecidableEq, Repr

/-- A request that the device sends to a pager core, whose firmware takes it (R235, R237, R341). -/
inductive PagerReq where
  /-- A migration wait of the context at a place (R235). -/
  | sleep (place : Nat) (va : Word)
  /-- The harvest request of a core (R237). -/
  | harvest (core : Nat)
  /-- `row.hint` modes 2 and 3: promote or demote the row at an address (R341). -/
  | row (promote : Bool) (ctx va : Nat)
  /-- Residency of the pages that a launch leases (R225). -/
  | reside (launch : Nat)
  deriving DecidableEq, Repr

/-- The states of a thread context (R74). -/
inductive TState where
  | free | dormant | ready | blocked | saving | halted
  deriving DecidableEq, Repr

/-- What a Blocked context waits for, with the operands it read when it first issued (R85). -/
inductive Blk where
  /-- `xq.rcv`: queue number and destination (R150). -/
  | xq (n : Nat) (d : Spec)
  /-- `tok.wait` on a token (R325). -/
  | tok (hdl : Nat) (d : Spec)
  /-- `tok.wait` on the basin at a header address (R325). -/
  | basin (bas : Nat) (d : Spec)
  /-- `sig.wait`: location of the signal, threshold, destination (R401). -/
  | sig (loc : Nat) (va : Word) (thr : Word) (d : Spec)
  /-- `port.take.w`: port address and first destination (R290). -/
  | take (port : Nat) (d : Spec)
  /-- `done` waiting for attached and adopted tokens (R251). -/
  | done
  deriving DecidableEq, Repr

/-- A fault to raise: code of R361, logged address, syndrome, word 7, token handle, class of the memory or array concerned
(R360), and whether finding it is charged (R211, R217). The syndrome of a fault whose rule states none is free (log entry 24). -/
structure Flt where
  code : Nat
  addr : Word := 0
  syn : Word := Config.syndrome 2 code 0
  detail : Nat := 0
  tok : Nat := 0
  mcls : Option Nat := none
  charge : Bool := false
  deriving DecidableEq, Repr

/-- What keeps a Ready context from issuing beyond the instruction's own conditions. -/
inductive Wait where
  | none
  /-- A walk for this address is under way (R228). -/
  | walk (va : Word)
  /-- Asleep on its pager, since when (R235, R236). -/
  | pager (va : Word) (since : Nat)
  /-- A store found the core's dirty log full, since when (R237). -/
  | dirty (since : Nat)
  /-- The walk answered with a fault code to raise at this address (R229). -/
  | answer (code : Nat) (va : Word)
  /-- `launch` waits for the number of this submission, since when, and its destination (R353). -/
  | launch (sub since : Nat) (d : Spec)
  /-- `que.sub` op 1 waits for the started packets of this queue to retire (R384, R390). -/
  | queue (key : Nat) (d : Spec)
  /-- `xld` or `xld.4` waits for the access with this id (R41). -/
  | access (id : Nat)
  /-- `xq.snd` waits for its entry, offered to this core's queue, to be accepted or refused, since when, and the order of the offers
  (R149). -/
  | xq (core n : Nat) (ent : Reg) (desc : Word) (since ord : Nat)
  /-- The task waits for the frontier (R257). -/
  | frontier
  /-- A fault of a speculative ordered task, raised by the instruction at `ipc`, waits for the frontier (R257). -/
  | fault (f : Flt) (ipc : Word)
  /-- A send is held because eight records are unaccepted: its destination's place, and since when (R76). -/
  | send (dest since : Nat)
  /-- An issue is held because the cluster has no free token slot, since when (R298). -/
  | slot (since : Nat)
  deriving DecidableEq, Repr

/-- What runs on a bound context: the task of R73 and R246. -/
structure Task where
  /-- Software context (R365). -/
  ctx : Nat
  /-- Launch number, or none for firmware. -/
  launch : Option Nat
  kind : Nat
  /-- Ordered task: key of its commit entry in the cluster (R245). -/
  entry : Option Nat
  /-- Irrevocable (R257). -/
  irrev : Bool
  /-- Address range of a code message and its 48 bytes, held in the inbox entry (R77). -/
  code : Option (Word × List Byte)
  arrival : Nat
  admitted : Nat
  /-- Save-slot address while Saving (R354), else 0. -/
  slot : Word
  /-- A budget handler, which a Degraded group still admits (R362). -/
  budget : Bool := false
  deriving DecidableEq, Repr

/-- A thread context (R73, R74, R82). -/
structure Thread where
  /-- Registers by specifier: 0 `lt`, 8 to 15 q0 to q7, 16 to 63 v0 to v47 (R35). -/
  regs : Vector Reg 64
  ltStale : Bool
  /-- p0 to p7; bit 0 is always 1 (R39). -/
  preds : BitVec 8
  x : Vector Word 4
  fm : Word
  f : Vector Word 4
  tagbase : Word
  lc : Word
  srs : Word
  pc : Word
  h0 : Word
  h1 : Word
  ts : Word
  seq : Word
  /-- Group slot of the running task (R42). -/
  grp : Nat
  cld : Nat
  cst : Nat
  ccp : Nat
  ctl : Nat
  /-- Address of a `c.if` prefix whose word has not run yet (R33). -/
  pfx : Option Word
  /-- Whether the prefixed word is to run. -/
  pfxRun : Bool
  state : TState
  /-- The state that Halted interrupted (R74). -/
  prev : TState
  /-- Pending pre-emption flag (R73) and the cycle of the request (R86). -/
  pend : Bool
  pendAt : Nat
  task : Option Task
  blk : Option Blk
  wait : Wait
  /-- Region number: accesses of an older number set no bits any more (R196). -/
  region : Nat
  /-- Failed stores not yet reported: order number, address and PC of the earliest, and how many (R216). -/
  failed : Option (Nat × Word × Word)
  nfailed : Nat
  /-- Class of the memory that the earliest failed store addressed (R360). -/
  failedCls : Nat := 0
  /-- Records sent and not yet accepted (R76). -/
  sends : Nat
  /-- Injected damage of registers: specifier and symbol (R224). -/
  dmg : List (Nat × Nat)
  /-- `err.inj` target 3 waits for the next tile instruction (R224). -/
  injTile : Bool
  /-- Operations a speculative ordered task has deferred are held in its commit entry; this is the order number. -/
  nextItem : Nat
  /-- Instructions retired here since cold reset (R422). -/
  retired : Nat
  /-- It runs a save routine, be it Blocked in it (R74). -/
  inSave : Bool := false
  /-- Cycle at which its miss was first offered to the service core (R76, R229). -/
  missAt : Nat := 0
  /-- Stores that happen before the task's next access (R192), and those that a release of too narrow a scope announced (R190). -/
  known : Clock := []
  missed : Clock := []
  /-- Release fences before a later store (R192 case 2), one for each scope. -/
  relF : List (Scope × Clock) := []
  /-- Releases read before an acquire fence (R192 case 2). -/
  heard : List Rel := []
  /-- Latest store to each line that a load of the task has returned (R184). -/
  saw : Tab Nat := []
  deriving DecidableEq, Repr

/-- An operation of the atomic unit (R177, R400). -/
inductive RmwOp where
  | swap | add | and | or | xor | min | max | minu | maxu | fadd | cas
  /-- Saturating add of a signal (R393). -/
  | sadd
  deriving DecidableEq, Repr

/-- What an outstanding access does when it is performed. -/
inductive AccKind where
  /-- Load: sign-extended or not (R170). -/
  | load (signed : Bool)
  | store
  | rmw (op : RmwOp)
  /-- A signal's atomic: sets result as SIG gives (R400). -/
  | sig (op : RmwOp)
  | sigRd
  /-- `cls.q` (R223). -/
  | clsq
  /-- `xld` of `n` registers from `k` (R41). -/
  | xld (k : Nat)
  /-- `err.inj` targets 0 to 2 (R224): target, first symbol, count. -/
  | inj (tgt sym cnt : Nat)
  /-- `cwb`: lines whose write-back the host or a peer has not acknowledged (R181). -/
  | cwb (lines : List Nat)
  /-- `pf` of a line (R182): its hint. -/
  | pf (hint : Nat)
  /-- A 64-byte store: its bytes, and whether the home has taken up its first line. -/
  | wide (bytes : List Byte) (half : Bool)
  deriving DecidableEq, Repr

/-- An outstanding access of a thread context (R82, R172): issued, not yet performed. -/
structure Access where
  place : Nat
  kind : AccKind
  va : Word
  n : Nat
  loc : Nat
  /-- Store data or operand; for `cas` also the new value. -/
  data : BitVec 256
  dst : Option Spec
  /-- The value is still to be written to `lt` (R36). -/
  wlt : Bool
  ord : MOrd
  scope : Scope
  /-- PC of the instruction, or of its prefix (R216). -/
  ipc : Word
  /-- Region number of its context when issued (R196). -/
  region : Nat
  /-- The home has processed the request (R162). -/
  homed : Bool
  /-- The request has left for the host or a peer (R406, R410). -/
  sent : Bool
  launch : Option Nat
  ctx : Nat
  grp : Nat
  /-- Commit entry of the ordered task that issued it. -/
  entry : Option Nat
  /-- The task that issued it has left its context. -/
  loose : Bool
  /-- Cycle of its issue, and whether it was served by a merged burst (R166). -/
  issued : Nat
  merged : Bool
  /-- It has put its line into the undo log of its ordered task (R257). -/
  logged : Bool := false
  /-- Of a `cwb`: for each of its lines the first address of the range in the line's page (R181). -/
  vas : List Word := []
  deriving DecidableEq, Repr

/-- A directory line (R161). -/
inductive DirState where
  | uncached
  | shared (holders : List Nat)
  | overflowed
  | owned (core : Nat) (modified : Bool)
  | engine (tok : Nat) (waiting : List Nat)
  deriving DecidableEq, Repr

/-- Region bits of one context on one line (R165). -/
structure Mark where
  place : Nat
  rd : Bool
  wr : Bool
  /-- Both accesses so far were atomics (R197). -/
  atomicOnly : Bool
  deriving DecidableEq, Repr

/-- Stored check state of a 64-byte granule (R206, R211, R224). -/
structure Gran where
  poison : Bool
  /-- Damaged symbols of the HBM copy, of the L2 copy and of the copy in a near window; memory holds the good data. -/
  hbm : List Nat
  l2 : List Nat
  near : List Nat
  l2Dirty : Bool
  deriving DecidableEq, Repr

/-- A device copy of a host-backed or peer-backed line (R156, R191). -/
structure Copy where
  bytes : List Byte
  dirty : Bool
  deriving DecidableEq, Repr

/-- An entry of a directory overflow table (R163). -/
structure OvfEntry where
  line : Nat
  clus : List Nat
  dpr : List Nat
  deriving DecidableEq, Repr

/-- A TLB entry, in the 128-bit layout of R226. -/
abbrev TlbEntry := BitVec 128

/-- Where a record waits in or travels to (R240). -/
inductive Dest where
  | core (c : Nat)
  | task (cl : Nat)
  | port (cl idx : Nat)
  deriving DecidableEq, Repr

/-- A record with what travels beside its 64 bytes (R239, R242, R243, R284). -/
structure Msg where
  h0 : Word
  h1 : Word
  pay : Vector Reg 3
  /-- Sender place id. -/
  sender : Nat
  /-- Group of the sending task (R284). -/
  sgrp : Nat
  launch : Option Nat
  ctx : Nat
  ts : Word
  seq : Word
  /-- Commit entry (cluster, key) of an ordered parent (R259). -/
  parent : Option (Nat × Nat)
  dest : Dest
  /-- Order number of the send (R273). -/
  ord : Nat
  arrival : Nat
  /-- It counts among its sender's unaccepted records (R76). -/
  counted : Bool
  /-- The earliest weir round in which it may be admitted (R254). -/
  notBefore : Nat
  /-- Messages of a firing (R282): the firing entry. -/
  firing : Option Nat
  /-- Restore routine to start instead of the pc, with v0 as R347 gives. -/
  restore : Bool
  /-- Reserved context: admitted even while its group is Degraded (R362). -/
  budget : Bool
  /-- Sent by a token, not a task. -/
  byTok : Option Nat
  /-- A matrix drain's or copy's wake that waits for the writes (R78). -/
  code : Option (List Byte)
  /-- The send's release: its scope and the stores before it (R192, R193). -/
  scope : Scope := .dev
  clock : Clock := []
  deriving DecidableEq, Repr

/-- A reply slot (R270). -/
structure RSlot where
  handler : Word
  grp : Nat
  tag : Nat
  launch : Option Nat
  deriving DecidableEq, Repr

/-- A receive queue of a core (R147). -/
structure Xq where
  bound : Option Nat
  owner : Option Nat
  launch : Option Nat
  entries : List Reg
  /-- Stores that happen before the sends of its entries (R152, R192). -/
  clock : Clock := []
  deriving DecidableEq, Repr

/-- The Fafen row of one sending cluster (R421). -/
structure Fafen where
  count : Nat
  transit : Nat
  inbox : Nat
  run : Nat
  deriving DecidableEq, Repr

/-- A core beside its thread contexts (R16, R75, R147, R227, R237, R270, R418 to R422). -/
structure Core where
  bf : Vector Word 8
  inbox : List Msg
  slots : Tab RSlot
  tlb : List TlbEntry
  dlog : List Word
  dlogAsked : Bool
  xq : Tab Xq
  /-- Launch that holds each scratchpad bank (R351). -/
  banks : Tab Nat
  /-- Region filter: line and place, oldest first (R165). -/
  filter : List (Nat × Nat)
  /-- Streaming buffer: 256-byte blocks, oldest first (R182). -/
  sb : List Nat
  drops : Nat
  raceLoss : Nat
  misses : Nat
  fafen : Tab Fafen
  /-- DBG_CTL: en, ten, sel, step pending, and the W1S bits stop and go, which no rule clears (R6, R418). -/
  dbgEn : Bool
  trcEn : Bool
  sel : BitVec 3
  step : Bool
  hlt : Bool
  /-- Cycle of the stop (R76, R86: counts pause). -/
  hltAt : Nat
  cause : BitVec 3
  code : BitVec 8
  dbgSel : BitVec 18
  trcBase : Word
  trcCfg : BitVec 5
  trcWi : Word
  /-- Lines whose bits a context's region filter had to drop, for the rest of its region: line and place (R165, R199). -/
  dropped : List (Nat × Nat) := []
  /-- Requests to the pager that runs on this core, oldest first (R235, R237, R341). -/
  asked : List PagerReq := []
  dbgStopSet : Bool := false
  dbgGoSet : Bool := false
  deriving DecidableEq, Repr

/-- An item that a speculative ordered task holds for its commit (R261). -/
inductive Deferred where
  | msg (m : Msg)
  | token (key : Nat)
  /-- The four words of a launch descriptor, the address of the `launch` instruction, the stores that happen before it, its task's
  timestamp. -/
  | launch (desc : Vector Word 4) (pc : Word) (clock : Clock) (ts : Word)
  /-- A PORT instruction: 0 give is a msg; 1 cfg, 2 bind, 3 drop, 4 clr, with its two operands. -/
  | port (op : Nat) (a : Word) (b : Reg)
  | signal (op : RmwOp) (loc : Nat) (va : Word) (b : Reg)
  | dep (a b : Nat) (go : Bool)
  deriving DecidableEq, Repr

/-- States of an ordered task that holds a commit entry (R246). -/
inductive OState where
  | running | finishing | finished
  deriving DecidableEq, Repr

/-- A commit entry (R245, R256, R257). -/
structure Commit where
  ts : Word
  seq : Word
  launch : Nat
  ctx : Nat
  state : OState
  irrev : Bool
  place : Option Nat
  /-- Signature bits that are set (R256) and exact marks (R203). -/
  rdSig : BitVec 2048
  wrSig : BitVec 2048
  rdLines : List Nat
  wrLines : List Nat
  /-- Marked lines that not only atomics have accessed (R197, R203). -/
  plainLines : List Nat
  /-- Undo log: line location and old bytes, latest first (R257). -/
  undo : List (Nat × List Byte)
  items : List Deferred
  /-- Children sent and not yet accepted (R245). -/
  children : Nat
  /-- Bytes of the own core's scratchpad before each store, latest first, for their discard (R202). -/
  scratch : List (Nat × List Byte) := []
  /-- The record, kept for a requeue (R259). -/
  msg : Msg
  parent : Option (Nat × Nat)
  /-- The place where the task runs or has run. -/
  ran : Nat := 0
  deriving DecidableEq, Repr

/-- A message held by a port (R276). -/
structure PMsg where
  pay : Vector Reg 3
  sender : Nat
  h0 : Word
  rtag : BitVec 16
  stime : BitVec 24
  /-- Stores that happen before its give (R192). -/
  clock : Clock := []
  deriving DecidableEq, Repr

/-- A port (R276 to R278). -/
structure Port where
  cap : Nat
  pol : Nat
  ovf : Bool
  owner : Nat
  msgs : List PMsg
  /-- Contexts Blocked in `port.take.w`, oldest first (R274). -/
  takers : List Nat
  deriving DecidableEq, Repr

/-- A bound pattern (R279). -/
structure Pattern where
  ports : List Nat
  pri : Nat
  grp : Nat
  pc : Word
  owner : Nat
  deriving DecidableEq, Repr

/-- A tag of the row cache (R339): the row's address, and the context whose address that is. -/
structure RowTag where
  va : Nat
  ctx : Nat := 0
  counter : Nat
  pin : Option Nat
  /-- Order of last use. -/
  used : Nat
  /-- The owning kernel launch. -/
  launch : Nat
  /-- Location of the map entry that named the row, and the row's lines (R339, R342). -/
  entry : Nat := 0
  lines : List Nat := []
  deriving DecidableEq, Repr

/-- What stands in one cluster beside its cores (R13). -/
structure Cluster where
  tu : List Msg
  spill : List Msg
  commits : Tab Commit
  ports : Tab Port
  patterns : Tab Pattern
  firings : Tab (List PMsg)
  tlb : List TlbEntry
  /-- Token slots freed after a use, the one freed least recently first, and the generation of every slot used so far (R293,
  R296). -/
  freed : List Nat
  gens : Tab Nat
  ovf : List OvfEntry
  rowTags : List RowTag
  /-- Sequence number last assigned for each launch (R243). -/
  seqs : Tab Nat
  merged : Nat
  joinDrops : Nat
  walkErrs : Nat
  aborts : Nat
  discards : Nat
  tuDrops : Nat
  /-- The spill area has been full since this weir round (R244). -/
  fullSince : Option Nat
  /-- Number of the last 65,536-cycle period in which the row counters were halved (R339). -/
  halved : Nat := 0
  deriving DecidableEq, Repr

/-- Token states (R299); the codes of R302 follow the order. -/
inductive TokSt where
  | issued | waiting | running | draining | suspended | done | faulted | cancelled
  deriving DecidableEq, Repr

/-- A distinct row of a gather's window: its address, the cycle in which its map entry was read, and its bytes read so far (R335, R342). -/
structure RowRead where
  va : Nat
  since : Nat
  bytes : List Byte
  deriving DecidableEq, Repr

/-- A token: its record (R302) and what it captured at issue (R296). -/
structure Token where
  hdl : Nat
  st : TokSt
  maj : Nat
  fn : Nat
  pri : Nat
  /-- 0 attached, 1 detached, 2 orphan, 3 adopted (R306). -/
  hold : Nat
  /-- The place of the holding task, while one holds it. -/
  holder : Option Nat
  grp : Nat
  launch : Option Nat
  ctx : Nat
  place : Nat
  ipc : Word
  cur : Nat
  cnt : Nat
  fadr : Word
  fc : Nat
  rpl : Nat
  qr : Nat
  qsat : Bool
  refd : Bool
  flg : BitVec 6
  ack : Bool
  nf : Nat
  carr : Nat
  syn : Word
  tiss : Nat
  tend : Nat
  ntc : Nat
  target : Word
  /-- A notice has been posted. -/
  posted : Bool
  deps : List Nat
  gate : Bool
  /-- Held for the commit of this entry (R261). -/
  defer : Option (Nat × Nat)
  x : Vector Word 4
  fm : Word
  f : Vector Word 4
  srs : Word
  bf : Vector Word 8
  cls : Nat
  scope : Scope
  /-- The engine or unit that runs it, or that its stream is bound to. -/
  engine : Option Nat
  /-- Destination lines it holds (R164). -/
  lines : List Nat
  /-- Elements of the present window whose effects are performed (R335). -/
  mask : List Nat
  /-- Suspended: by a fault, or by pre-emption while Issued or not (R299). -/
  susFault : Bool
  susIssued : Bool
  /-- Groups in the stream's FIFO, as stored: lines of bytes (R310). -/
  fifo : List (List (List Byte))
  fetched : Nat
  claimed : Nat
  /-- Order of issue (R300) and instance number of a collective (R321). -/
  order : Nat
  inst : Nat
  /-- Bytes of the memory descriptor read at the start (R316, R320). -/
  desc : List Byte
  startedColl : Bool
  /-- `err.inj` target 3 applies to its first group step (R224). -/
  inj : Option (Nat × Nat)
  replayed : Bool
  /-- Cycle of the pre-emption request that it drains under (R323). -/
  drainAt : Nat
  /-- Cycles since its issue for which the count of R321 stood still. -/
  paused : Nat
  /-- Indices of the present window of a row operation as step 1 read them, and a gather's rows by index as step 2 reads them (R335). -/
  idx : List Nat := []
  rows : Tab RowRead := []
  /-- Stores that happen before its issue (R192, R194). -/
  clock : Clock := []
  /-- A dependence whose slot was freed after it was Faulted or Cancelled (R299, R301). -/
  lost : Option Nat := none
  /-- Its fault code is from before a restart and goes at the next terminal state (R319). -/
  refault : Bool := false
  /-- Its fault: 0 not yet looked at, 1 looked at, 2 reported to the fault domain (R308). -/
  told : Nat := 0
  /-- Timestamp of the ordered task that issued it, else 0 (R360). -/
  ts : Word := 0
  /-- The commit entry of an ordered task that holds it and has passed its `done`, but not yet retired (R246, R306). -/
  kept : Option (Nat × Nat) := none
  deriving DecidableEq, Repr

/-- A lease of a launch (R343, R345): first byte, length, permission 0 r, 1 rw, 2 rx. -/
structure Lease where
  base : Nat
  size : Nat
  perm : Nat
  deriving DecidableEq, Repr

/-- A safe-point table entry (R346), offsets from H. -/
structure SafePt where
  pc : Nat
  n : Nat
  sv : Nat
  rs : Nat
  sz : Nat
  deriving DecidableEq, Repr

/-- Launch states (R349). -/
inductive LState where
  | checking | residing | awaitWeir | placing | running
  deriving DecidableEq, Repr

/-- The four words of a launch descriptor with what its submitter adds (R348, R353). -/
structure Submit where
  desc : Vector Word 4
  ctx : Nat
  die : Nat
  /-- The submitting task's launch, group, place and `launch` instruction. -/
  from? : Option (Nat × Nat × Nat × Word)
  /-- The queue and the packet that submitted it. -/
  queue : Option (Nat × Nat)
  /-- Number of the submission, by which its submitter waits for it. -/
  num : Nat := 0
  /-- Order of the submitting task's launch, whose number may have gone to another since (R349, R353). -/
  owner : Nat := 0
  /-- Stores that happen before the submission (R193), and the timestamp of an ordered submitter (R360). -/
  clock : Clock := []
  ts : Word := 0
  /-- Serial number of the submitting group, whose slot may have gone to another since (R353, R356). -/
  gser : Nat := 0
  deriving DecidableEq, Repr

/-- A live launch, keyed by its launch number (R349). -/
structure Launch where
  sub : Submit
  /-- Order of submission (R349). -/
  order : Nat
  state : LState
  status : Nat
  /-- What the status word of a failed check carries (R350). -/
  detail : Nat
  /-- The launch is to end with `status` (R349). -/
  ending : Bool
  ord : Bool
  cls : Nat
  sbm : Nat
  nreg : Nat
  len : Nat
  entry : Nat
  fm : Word
  f : Vector Word 4
  bf : Vector Word 8
  leases : List Lease
  nlease : Nat
  safes : List SafePt
  root : Nat
  /-- Cores on which banks were already prepared (R351). -/
  cores : List Nat
  /-- Applied frontier and whether no unfinished key was reported (R255, R263). -/
  front : Nat × Nat
  frontNone : Bool
  /-- Frontier computed in the present round, not yet applied. -/
  next : Option ((Nat × Nat) × Bool)
  /-- Least unfinished key and greatest finished key of the present round, and the greatest reported so far. -/
  least : Option (Nat × Nat)
  fin : Option (Nat × Nat)
  maxFin : Option (Nat × Nat)
  /-- Number of the last 4,096-cycle period in which the sluice governor visited (R363). -/
  visited : Nat
  /-- Writes of its tasks that its completion signal releases: those before the submission, and those of tasks that have ended (R352). -/
  clock : Clock := []
  /-- Cycle since which it waits for cores (R386). -/
  waitAt : Nat := 0
  deriving DecidableEq, Repr

/-- A group: the sixteen words of its control block as the device holds them (R355), keyed launch * 4096 + slot. -/
structure Group where
  addr : Word
  loc : Nat
  gcb : Vector Word 16
  /-- Serial number of its creation: a slot may go to another group later (R353, R356). -/
  ser : Nat := 0
  /-- Words of its block wait to be written (R235). -/
  stale : Bool := false
  deriving DecidableEq, Repr

/-- States of a software context (R365). -/
inductive CState where
  | destroyed | created | idle | running | preempting | suspended | frozen | faulted
  deriving DecidableEq, Repr

/-- A software context's record (R365), save entries (R369) and requeued records (R368). -/
structure Ctx where
  sva : Word
  svs : Nat
  rqn : Nat
  rqa : Word
  bas : Word
  root : Word
  lay : Nat
  nsav : Nat
  st : CState
  pst : CState
  prv : Bool
  /-- Save entries: cluster, offset from sva, restore address, task header and key. -/
  saves : List Msg
  /-- Requeued records with their origin cluster. -/
  requeue : List (Nat × Msg)
  /-- Firings kept for the resume: cluster, record, messages. -/
  firings : List (Nat × Msg × List PMsg)
  /-- Launches whose save has failed and that end once no task of the context is in Saving (R370). -/
  failed : List Nat := []
  deriving DecidableEq, Repr

/-- Queue states (R376). -/
inductive QState where
  | idle | pending | mapped | stopped
  deriving DecidableEq, Repr

/-- A packet of a mapped queue that has started and not retired (R380). -/
structure Pkt where
  idx : Nat
  words : Vector Word 8
  /-- What it waits for: 0 nothing, 1 launch submission, 2 barrier, 3 token, 4 nothing: it is malformed. -/
  kind : Nat
  waitId : Nat
  /-- Completed: none while it runs, then the failure detail or success. -/
  done : Option (Option Nat)
  skip : Bool
  /-- What the write of its completion signal answered, where its launch's end has written it (R352). -/
  wrote : Option Nat
  /-- It has completed: its signal is written and its failure noted (R380, R381). -/
  completed : Bool
  deriving DecidableEq, Repr

/-- A registered queue, keyed by a number of its registration (R376, R384). -/
structure Queue where
  qcb : Word
  loc : Nat
  ctx : Nat
  die : Nat
  base : Word
  lgn : Nat
  pri : Nat
  mode : Nat
  st : QState
  epri : Nat
  es : Nat
  dr : Bool
  slot : Nat
  lst : Nat
  fidx : Nat
  nret : Nat
  nskip : Nat
  nmap : Nat
  npre : Nat
  ri : Nat
  /-- Index of the next packet to start. -/
  si : Nat
  started : List Pkt
  /-- Cycle at which it became Pending, whether the bound was already reported, cycle of its mapping. -/
  pendAt : Nat
  missed : Bool
  mapAt : Nat
  /-- op 1 has been requested and waits for the started packets (R384). -/
  leaving : Bool
  /-- Its slot waits at an entry that is not ready (R379). -/
  waiting : Bool
  /-- It was mapped by privileged software outside the dispatch pair (R387). -/
  bySoft : Bool
  /-- Stores that happen before its next packet: those that the headers and the barriers read so far have released (R379, R397). -/
  clock : Clock := []
  /-- Words of its block wait to be written (R235). -/
  stale : Bool := false
  deriving DecidableEq, Repr

/-- A compute die: Turat, its slots' queues are in `queues`; logs and traces (R385, R388, R423). -/
structure Die where
  img : Word
  err : Nat
  key : Nat
  go : Bool
  dbase : Word
  dlgn : BitVec 5
  dwi : Nat
  qnt : BitVec 32
  age : BitVec 32
  dcnt : Vector Nat 8
  thrBase : Word
  thrCfg : BitVec 5
  thrWi : Nat
  /-- Images loaded so far: it tells the running one from those before (R413). -/
  loads : Nat := 0
  deriving DecidableEq, Repr

/-- A Notur port (R408, R409, R411). -/
structure Notur where
  crc : Nat
  rpl : Nat
  rep : Bool
  bad : Nat
  /-- 0 Disabled, 1 Training, 2 Active, 3 Retraining, 4 Down. -/
  st : Nat
  en : Bool
  /-- Replays in a row, the next sequence numbers to send and to receive, flits kept for replay until they are acknowledged. -/
  row : Nat
  sendSeq : BitVec 12
  recvSeq : BitVec 12
  replay : List (BitVec 12 × NoturBody)
  /-- Cycle at which it entered Training or Retraining (R409). -/
  since : Nat
  deriving DecidableEq, Repr

/-- One entry of the MSI-X table with its pending bit (R416). -/
structure Msix where
  addr : Word
  data : BitVec 32
  mask : BitVec 32
  pend : Bool
  deriving DecidableEq, Repr

/-- A doorbell set (R405). -/
structure Bell where
  qcb : Word
  cmd : Word
  stat : Word
  deriving DecidableEq, Repr

/-- The hub die and the module's edge (R403 to R417). -/
structure Hub where
  hwin : Word
  apt : Word
  ltssm : BitVec 6
  wid : BitVec 5
  rate : BitVec 3
  aop : Bool
  ntr : Tab Notur
  /-- Selected lane and threshold of each stack's eye monitor, and stacks that retrain, with the cycle at which they began (R414). -/
  eyeLane : Tab (BitVec 16)
  eyeThr : Tab (BitVec 8)
  /-- Margins that a lane's alert has shown, keyed 65536 * stack + lane. -/
  eyeSeen : Tab (BitVec 16)
  retrain : Tab Nat
  boot : BitVec 8
  /-- 0 in reset, 1 booting, 2 running, 4 boot failed. -/
  phase : Nat
  pwrgd : Bool
  attReq : Word
  attRun : Bool
  fatal : Word
  pwrLim : BitVec 12
  msix : Tab Msix
  /-- Vectors sent to the host, latest first, and the last answers given outside: BAR 2 and management-bus reads. -/
  raised : List Nat
  answer : Word
  /-- All bytes of the last of those reads. -/
  bytes : List Byte := []
  /-- Flits that have left by a Notur port, latest first (R408). -/
  flits : List (Nat × NoturFlit) := []
  /-- The last access through BAR 2 completed with Unsupported Request (R404). -/
  ur : Bool
  bells : Tab Bell
  /-- Links that retrain, keyed 16 * enda + endb, with the cycle at which they began (R407). -/
  d2d : Tab Nat
  temps : Tab Nat
  frozen : Bool
  /-- Cycle of the freeze (R371: counts pause). -/
  frozenAt : Nat
  errCorr : Nat
  errUncorr : Nat
  sigLost : Nat
  rej : Bool
  busy : List Nat
  deriving DecidableEq, Repr

/-- A walk of a translation service core (R229). -/
structure Walk where
  cl : Nat
  ctx : Nat
  vpn : Nat
  places : List Nat
  /-- Waiting in c16's inbox for a walk context. -/
  queued : Bool
  deriving DecidableEq, Repr

/-- A fault record as R360 lays it out, for statements about faults (the model's own list; log entry 13). -/
structure FltRec where
  code : Nat
  cls : Nat
  place : Nat
  grp : Nat
  pc : Word
  addr : Word
  tok : Nat
  ts : Word
  syn : Word
  cyc : Nat
  detail : Nat
  deriving DecidableEq, Repr

/-- What the schedule names next: a thread context that issues, or a step of the part or of the world outside. -/
inductive Sched where
  | run (place : Nat)
  | ev (i : Instr)
  deriving DecidableEq, Repr

/-- The machine. -/
structure State where
  /-- Reference count since cold reset, one for all cores: R90 lets two counts differ by up to 4, the model by none (log entry 91). -/
  cyc : Nat
  /-- MODEL'S OWN: how many free values have been drawn (log entry 3). -/
  fresh : Nat
  /-- MODEL'S OWN: which steps come next (log entry 1). -/
  agenda : List Sched
  /-- MODEL'S OWN: the place whose context issues when the agenda is empty, and on which exec runs (log entry 1). -/
  cur : Nat
  /-- MODEL'S OWN: next number for accesses, records, submissions and orders. -/
  nextId : Nat
  threads : Tab Thread
  cores : Tab Core
  clus : Tab Cluster
  dies : Tab Die
  hub : Hub
  mem : List Host.Cell
  gran : Tab Gran
  copies : Tab Copy
  dir : Tab DirState
  marks : Tab (List Mark)
  acc : Tab Access
  mesh : Tab Msg
  toks : Tab Token
  /-- Accumulator elements, keyed ((cluster * 2 + engine) * 2 + bank) * 4096 + 64 * i + j; +0 where none (R116). -/
  accum : Tab (BitVec 96)
  launches : Tab Launch
  subs : Tab Submit
  groups : Tab Group
  ctxs : Tab Ctx
  queues : Tab Queue
  walks : Tab Walk
  /-- Class of each frame that a class-block write has set: 0 full, 1 detect, 2 none, 3 unbacked (R209). -/
  frames : Tab Nat
  /-- Collectives issued so far by a place on a set id, keyed place * 2^32 + set (R321). -/
  colls : Tab Nat
  /-- Weir round in progress, and its stage: 0 committed, 1 sampled, 2 reduced on the dies, 3 reduced on the hub, 4 applied
  (R263). -/
  round : Nat
  wstage : Nat
  /-- MODEL'S OWN: fault records written so far, latest first (log entry 13). -/
  faults : List FltRec
  /-- Accesses that wait at the home of a line that an engine has released, in arrival order (R162). -/
  waits : Tab (List Nat) := []
  /-- Latest stores to each line, newest first, and the releases that its locations carry (R184, R192; log entry 100). -/
  past : Tab (List Past) := []
  rels : Tab (List Rel) := []
  /-- Tokens whose slots are free, or whose target has changed, with a notice that still waits for its write (R304, R307). -/
  late : List Token := []
  deriving DecidableEq, Repr

/-- A thread context with no task: Free, or Dormant for t7 (R74). -/
def Thread.idle (p : Nat) : Thread :=
  { regs := Vector.replicate 64 0, ltStale := true, preds := 1, x := Vector.replicate 4 0, fm := 0,
    f := Vector.replicate 4 0, tagbase := 0, lc := 0, srs := 1, pc := 0, h0 := 0, h1 := 0, ts := 0, seq := 0, grp := 0,
    cld := 0, cst := 0, ccp := 0, ctl := 0, pfx := none, pfxRun := true,
    state := if p % 8 = 7 then .dormant else .free, prev := .free, pend := false, pendAt := 0, task := none, blk := none,
    wait := .none, region := 0, failed := none, nfailed := 0, sends := 0, dmg := [], injTile := false, nextItem := 0,
    retired := 0 }

/-- A core after cold reset. -/
def Core.idle : Core :=
  { bf := Vector.replicate 8 0, inbox := [], slots := [], tlb := [], dlog := [], dlogAsked := false, xq := [],
    banks := [], filter := [], sb := [], drops := 0, raceLoss := 0, misses := 0, fafen := [], dbgEn := false,
    trcEn := false, sel := 0, step := false, hlt := false, hltAt := 0, cause := 0, code := 0, dbgSel := 0, trcBase := 0, trcCfg := 0,
    trcWi := 0 }

/-- A cluster after cold reset. -/
def Cluster.idle : Cluster :=
  { tu := [], spill := [], commits := [], ports := [], patterns := [], firings := [], tlb := [], freed := [],
    gens := [], ovf := [], rowTags := [], seqs := [], merged := 0, joinDrops := 0, walkErrs := 0,
    aborts := 0, discards := 0, tuDrops := 0, fullSince := none }

/-- A compute die after cold reset (R385, R423); fields marked "fw" hold 0 (log entry 9). -/
def Die.idle : Die :=
  { img := 0, err := 0, key := 0, go := false, dbase := 0, dlgn := 0, dwi := 0, qnt := 500, age := 50,
    dcnt := Vector.replicate 8 0, thrBase := 0, thrCfg := 0, thrWi := 0 }

/-- A granule with good check bits and no L2 copy. -/
def Gran.clean : Gran := { poison := false, hbm := [], l2 := [], near := [], l2Dirty := false }

/-- A Notur port after cold reset (R411). -/
def Notur.idle : Notur :=
  { crc := 0, rpl := 0, rep := false, bad := 0, st := 0, en := false, row := 0, sendSeq := 0, recvSeq := 0, replay := [], since := 0 }

/-- A software context that is Destroyed: its record holds only its number (R365, R374). -/
def Ctx.empty : Ctx :=
  { sva := 0, svs := 0, rqn := 0, rqa := 0, bas := 0, root := 0, lay := 0, nsav := 0, st := .destroyed, pst := .destroyed,
    prv := false, saves := [], requeue := [], firings := [] }

/-- The firmware context, number 0 (R365), as boot leaves it: privileged and Running. Its record reads 0 at cold reset. -/
def Ctx.firmware : Ctx := { Ctx.empty with st := .running, prv := true }

/-- The hub after cold reset (R403 to R417): power good, boot verification under way. -/
def Hub.reset : Hub :=
  { hwin := 0, apt := 0, ltssm := 0, wid := 0, rate := 0, aop := false, ntr := [], eyeLane := [], eyeThr := [],
    eyeSeen := [], retrain := [], boot := 0, phase := 1, pwrgd := true, attReq := 0, attRun := false, fatal := 0,
    pwrLim := 2800, msix := [], raised := [], answer := 0, ur := false, bells := [], d2d := [], temps := [], frozen := false, frozenAt := 0,
    errCorr := 0, errUncorr := 0, sigLost := 0, rej := false, busy := [] }

/-- The machine right after cold reset (R90, R412): no context bound, nothing in memory, the boot ROM at work. -/
def State.reset : State :=
  { cyc := 0, fresh := 0, agenda := [], cur := 0, nextId := 0, threads := [], cores := [], clus := [], dies := [],
    hub := Hub.reset, mem := [], gran := [], copies := [], dir := [], marks := [], acc := [], mesh := [], toks := [],
    accum := [], launches := [], subs := [], groups := [], ctxs := [], queues := [], walks := [],
    frames := [], colls := [], round := 0, wstage := 0, faults := [], waits := [], past := [], rels := [], late := [] }

end Sys2Proof.Machine
end

