-- ==== Sys2Proof/Machine/Base.lean ====
section
/-! DEFINITION. The named operations on the plain data of the state: bit fields, tables of the state by key, bytes of memory,
registers of a thread context. Everything else goes through these. -/

namespace Sys2Proof.Machine

/-- Bits `lo` up to `lo + n - 1` of a number (R10). -/
def bits (w lo n : Nat) : Nat := w / 2 ^ lo % 2 ^ n

/-- Bits of a 64-bit word as a number. -/
def wbits (w : Word) (lo n : Nat) : Nat := bits w.toNat lo n

/-- A number as a 64-bit word, modulo 2^64. -/
def wd (n : Nat) : Word := BitVec.ofNat 64 n

/-- Word with `n` bits from `lo` replaced by `v`. -/
def setBits (w : Word) (lo n v : Nat) : Word :=
  wd (w.toNat - bits w.toNat lo n * 2 ^ lo + v % 2 ^ n * 2 ^ lo)

/-- Low and high words of a register (R38). -/
def lo64 (r : Reg) : Word := r.setWidth 64
def hi64 (r : Reg) : Word := (r >>> 64).setWidth 64

/-- A register from its two words. -/
def mkReg (lo hi : Word) : Reg := hi.setWidth 128 <<< 64 ||| lo.setWidth 128

/-- A scalar result: bits 127:64 cleared (R38). -/
def scalar (w : Word) : Reg := w.setWidth 128

/-- The lesser of a count and its saturation limit. -/
def satAt (m n : Nat) : Nat := if m < n then m else n

/-! ### Signed numbers -/

/-- A number of `w` bits as a signed one. -/
def toInt (w n : Nat) : Int := if n < 2 ^ (w - 1) then (n : Int) else (n : Int) - 2 ^ w
/-- An integer cut to `w` bits. -/
def ofInt (w : Nat) (i : Int) : Nat := (i % (2 ^ w : Int)).toNat

/-- A signal's saturating sum (R393). -/
def satAdd64 (a b : Nat) : Nat :=
  let x := toInt 64 a + toInt 64 b
  ofInt 64 (max (-(2 ^ 63)) (min (2 ^ 63 - 1) x))

/-! ### Places (R17) -/

/-- The core of a place, the cluster of a core or place, the die. A dispatch pair counts as a cluster of its own, number
192 + die (log entry 27). -/
def coreOf (p : Nat) : Nat := p / 8
def dieOf (p : Nat) : Nat := p / 8192
def cluOfPlace (p : Nat) : Nat := if p / 256 % 32 = 24 then 192 + p / 8192 else 24 * (p / 8192) + p / 256 % 32
def cluOfCore (c : Nat) : Nat := cluOfPlace (c * 8)

/-- Core c0 of a die's dispatch pair, which takes device-side submissions (R353). -/
def dispatchPlace (die : Nat) : Nat := die * 8192 + 24 * 256

/-- The cluster whose c16 serves the misses of a cluster; a dispatch pair's go to cluster k0 of its die (log entry 27). -/
def walkCluster (cl : Nat) : Nat := if 192 ≤ cl then 24 * (cl - 192) else cl

/-- Place id of a core of a cluster. -/
def placeOf (cl c t : Nat) : Nat := cl / 24 * 8192 + cl % 24 * 256 + c * 8 + t

/-- A place id that R17 allows. -/
def validPlace (p : Nat) : Bool :=
  decide (p < 65536) && (let k := p / 256 % 32; let c := p / 8 % 32; (decide (k < 24) && decide (c < 20)) || (k == 24 && decide (c < 2)))

/-- A core of the dispatch pair (R14). -/
def isDispatch (p : Nat) : Bool := p / 256 % 32 == 24

/-- A worker core (R14). -/
def isWorker (p : Nat) : Bool := decide (p / 256 % 32 < 24) && decide (p / 8 % 32 < 16)

/-! ### Parts of the state by key -/

/-- The thread context at a place. -/
def State.thread (s : State) (p : Nat) : Thread := Tab.getD s.threads p (Thread.idle p)
def State.setThread (s : State) (p : Nat) (t : Thread) : State := { s with threads := Tab.put s.threads p t }
/-- The thread context that exec runs on. -/
def State.me (s : State) : Thread := s.thread s.cur
def State.setMe (s : State) (t : Thread) : State := s.setThread s.cur t
def State.core (s : State) (c : Nat) : Core := Tab.getD s.cores c Core.idle
def State.setCore (s : State) (c : Nat) (v : Core) : State := { s with cores := Tab.put s.cores c v }
def State.clu (s : State) (k : Nat) : Cluster := Tab.getD s.clus k Cluster.idle
def State.setClu (s : State) (k : Nat) (v : Cluster) : State := { s with clus := Tab.put s.clus k v }
def State.die (s : State) (d : Nat) : Die := Tab.getD s.dies d Die.idle
def State.setDie (s : State) (d : Nat) (v : Die) : State := { s with dies := Tab.put s.dies d v }
def State.granule (s : State) (g : Nat) : Gran := Tab.getD s.gran g Gran.clean
/-- A granule's check state; the clean state is not listed. -/
def State.setGran (s : State) (g : Nat) (v : Gran) : State :=
  { s with gran := if v = Gran.clean then Tab.del s.gran g else Tab.put s.gran g v }
def State.context (s : State) (n : Nat) : Ctx := Tab.getD s.ctxs n Ctx.empty
def State.setCtx (s : State) (n : Nat) (v : Ctx) : State := { s with ctxs := Tab.put s.ctxs n v }
def State.port? (s : State) (cl i : Nat) : Option Port := Tab.get? (s.clu cl).ports i
def State.setPort (s : State) (cl i : Nat) (p : Port) : State :=
  s.setClu cl { s.clu cl with ports := Tab.put (s.clu cl).ports i p }
def State.tok? (s : State) (k : Nat) : Option Token := Tab.get? s.toks k
def State.setTok (s : State) (k : Nat) (t : Token) : State := { s with toks := Tab.put s.toks k t }
def State.setAcc (s : State) (k : Nat) (a : Access) : State := { s with acc := Tab.put s.acc k a }
def State.delAcc (s : State) (k : Nat) : State := { s with acc := Tab.del s.acc k }
def State.launch? (s : State) (l : Nat) : Option Launch := Tab.get? s.launches l
def State.setLaunch (s : State) (l : Nat) (v : Launch) : State := { s with launches := Tab.put s.launches l v }
def State.setHub (s : State) (h : Hub) : State := { s with hub := h }
/-- The key of a group of a launch. -/
def groupKey (l g : Nat) : Nat := l * 4096 + g
def State.group? (s : State) (l g : Nat) : Option Group := Tab.get? s.groups (groupKey l g)
def State.setGroup (s : State) (l g : Nat) (v : Group) : State := { s with groups := Tab.put s.groups (groupKey l g) v }
/-- A number not used before, for an access, a record or a submission. -/
def State.bump (s : State) : State := { s with nextId := s.nextId + 1 }
/-- A fresh free value has been drawn. -/
def State.draw (s : State) : State := { s with fresh := s.fresh + 1 }

/-! ### Memory (R3, R156)

A location is tag * 2^64 + offset. Tags: 0 HBM by physical address, 1 host memory by bus address, 2 to 17 peer memory by Notur
port, 18 core scratchpads, 19 cluster-shared memory, 20 chip scratchpad, 21 device registers. -/

/-- The location of an offset in a space. -/
def locIn (tag off : Nat) : Nat := tag * 2 ^ 64 + off
def locTag (l : Nat) : Nat := l / 2 ^ 64
def locOff (l : Nat) : Nat := l % 2 ^ 64
def tagScratch : Nat := 18
def tagShared : Nat := 19
def tagChip : Nat := 20
def tagDev : Nat := 21

/-- The byte at a location; one that nothing has written reads 0 (DESIGN CHOICE, log entry 14). -/
def memGet : List Host.Cell → Nat → Byte
  | [], _ => 0
  | (j, b) :: m, a => if j = a then b else memGet m a

/-- Store one byte; the list stays rising, and a byte equal to what an unlisted location reads as is not listed. -/
def memPut : List Host.Cell → Nat → Byte → List Host.Cell
  | [], a, b => if b = 0 then [] else [(a, b)]
  | (j, c) :: m, a, b =>
    if j = a then (if b = 0 then m else (a, b) :: m)
    else if a < j then (if b = 0 then (j, c) :: m else (a, b) :: (j, c) :: m)
    else (j, c) :: memPut m a b

/-- `n` bytes from a location up. -/
def memGetN (m : List Host.Cell) (a : Nat) : Nat → List Byte
  | 0 => []
  | n + 1 => memGet m a :: memGetN m (a + 1) n

/-- Store bytes from a location up. -/
def memPutN (m : List Host.Cell) (a : Nat) : List Byte → List Host.Cell
  | [] => m
  | b :: bs => memPutN (memPut m a b) (a + 1) bs

/-- The canonical form of memory: locations rise strictly and no listed byte is 0. -/
def Memory.wf : List Host.Cell → Bool
  | [] => true
  | [(_, b)] => b != 0
  | (i, b) :: (j, c) :: m => b != 0 && decide (i < j) && Memory.wf ((j, c) :: m)

/-- A location whose lines may have a device copy apart from the host's or the peer's memory (R191). -/
def isRemote (l : Nat) : Bool := decide (1 ≤ locTag l) && decide (locTag l ≤ 17)

/-- One byte as the device sees it: of the device copy of a host- or peer-backed line if there is one (R156). -/
def State.byteAt (s : State) (a : Nat) : Byte :=
  if isRemote a then
    match Tab.get? s.copies (a / 32) with
    | some c => (c.bytes[a % 32]?).getD 0
    | none => memGet s.mem a
  else memGet s.mem a

/-- `n` bytes as the device sees them. -/
def State.bytesAt (s : State) (a : Nat) : Nat → List Byte
  | 0 => []
  | n + 1 => s.byteAt a :: s.bytesAt (a + 1) n

/-- Store one byte where the device keeps it: in the device copy of a host- or peer-backed line, which is made from the
line's memory if there is none (R191), and in memory otherwise. -/
def State.putByte (s : State) (a : Nat) (b : Byte) : State :=
  if isRemote a then
    let c := (Tab.get? s.copies (a / 32)).getD { bytes := memGetN s.mem (a / 32 * 32) 32, dirty := false }
    { s with copies := Tab.put s.copies (a / 32) { bytes := c.bytes.set (a % 32) b, dirty := true } }
  else { s with mem := memPut s.mem a b }

/-- Store bytes from a location up. -/
def State.putBytes (s : State) (a : Nat) : List Byte → State
  | [] => s
  | b :: bs => (s.putByte a b).putBytes (a + 1) bs

/-- The little-endian number that `n` bytes hold (R3). -/
def State.readN (s : State) (a n : Nat) : Nat := leNat (s.bytesAt a n)

/-- Store the low `n` bytes of a number, little-endian (R3). -/
def State.writeN (s : State) (a n v : Nat) : State := s.putBytes a (leBytes n v)

/-! ### Faults and holds -/

/-- Why an instruction does not complete in this step: a fault; nothing yet (not issuable, or held); a hold with effects
of its own; a fault with effects of its own. -/
inductive Stop where
  | flt (f : Flt)
  | wait
  | hold (s : State)
  /-- A fault, with what the checks before it have changed: TLBs, dirty log (R228, R237). -/
  | kept (s : State) (f : Flt)
  deriving DecidableEq, Repr

/-- Result of a meaning. -/
abbrev Res := Except Stop State

/-- The outcomes of a step. -/
abbrev Out := Host.Outcome State Fault Refusal

/-- A fault with no address, whose rule states no syndrome. -/
def fltC (code : Nat) : Stop := .flt { code := code }
/-- A fault that logs an address. -/
def fltA (code : Nat) (a : Word) : Stop := .flt { code := code, addr := a }
/-- A fault with a syndrome and no address. -/
def fltS (code : Nat) (v : Word) : Stop := .flt { code := code, syn := v }

/-! Codes of R361. -/

namespace Code
def illegal : Nat := 0x0001
def privilege : Nat := 0x0002
def staleLatch : Nat := 0x0003
def fetchStraddle : Nat := 0x0004
def branchTarget : Nat := 0x0005
def softTrap : Nat := 0x0006
def sendStall : Nat := 0x0007
def noSafePoint : Nat := 0x0008
def safePointTable : Nat := 0x0009
def addressForm : Nat := 0x0010
def window : Nat := 0x0011
def remoteLoad : Nat := 0x0012
def alignment : Nat := 0x0013
def lease : Nat := 0x0014
def permission : Nat := 0x0015
def pagePoison : Nat := 0x0016
def pageAbsent : Nat := 0x0017
def backing : Nat := 0x0018
def poison : Nat := 0x0019
def storeError : Nat := 0x001A
def race : Nat := 0x001B
def orderMix : Nat := 0x001C
def atomicTarget : Nat := 0x001D
def rangeLength : Nat := 0x001E
def hostLink : Nat := 0x001F
def linkDown : Nat := 0x0020
def orderedUse : Nat := 0x0021
def orderedTimestamp : Nat := 0x0022
def seqExhausted : Nat := 0x0023
def abortUse : Nat := 0x0024
def routeRole : Nat := 0x0025
def routeForm : Nat := 0x0026
def placeRange : Nat := 0x0027
def recordKind : Nat := 0x0028
def groupSlot : Nat := 0x0029
def tag : Nat := 0x002A
def suspTarget : Nat := 0x002B
def xqOwner : Nat := 0x002C
def xqAddress : Nat := 0x002D
def xqTarget : Nat := 0x002E
def arrayError : Nat := 0x002F
def signalPlace : Nat := 0x0030
def portOverflow : Nat := 0x0031
def portAddress : Nat := 0x0032
def portLocality : Nat := 0x0033
def portOwner : Nat := 0x0034
def patternBusy : Nat := 0x0035
def patternForm : Nat := 0x0036
def portConfig : Nat := 0x0037
def portBusy : Nat := 0x0038
def portStore : Nat := 0x0039
def formatValue : Nat := 0x0040
def formatUse : Nat := 0x0041
def formatData : Nat := 0x0042
def bankCursor : Nat := 0x0043
def bankRange : Nat := 0x0044
def bankBudget : Nat := 0x0045
def tokenForm : Nat := 0x0048
def staleToken : Nat := 0x0049
def tokenOwner : Nat := 0x004A
def tokenState : Nat := 0x004B
def descriptor : Nat := 0x004C
def tokenStall : Nat := 0x004D
def copyOverlap : Nat := 0x004E
def tokenFault : Nat := 0x004F
def budgetExhausted : Nat := 0x0050
def launchFailed : Nat := 0x0051
def groupForm : Nat := 0x0058
def groupLimit : Nat := 0x0059
def kinfoItem : Nat := 0x005A
def tlbSelector : Nat := 0x0060
def tlbEntry : Nat := 0x0061
def wakeCode : Nat := 0x0062
def injection : Nat := 0x0063
def contextForm : Nat := 0x0068
def contextState : Nat := 0x0069
def contextNumber : Nat := 0x006A
def queueSelector : Nat := 0x0070
def queueForm : Nat := 0x0071
def queueState : Nat := 0x0072
def queueLimit : Nat := 0x0073
def profileSelector : Nat := 0x0078
def debugSelector : Nat := 0x0079
end Code

/-! ### The running task -/

/-- Software context and launch of the context that runs. -/
def Thread.ctxNo (t : Thread) : Nat := (t.task.map (·.ctx)).getD 0
def Thread.launchNo (t : Thread) : Option Nat := t.task.bind (·.launch)
/-- Commit entry of a running ordered task (R245). -/
def Thread.entry? (t : Thread) : Option Nat := t.task.bind (·.entry)
/-- A speculative ordered task: one that is not Irrevocable (R257). -/
def Thread.speculative (t : Thread) : Bool :=
  match t.task with
  | some k => k.entry.isSome && !k.irrev
  | none => false
/-- An ordered task (R243). -/
def Thread.ordered (t : Thread) : Bool := t.entry?.isSome

/-- The running context is privileged (R365). -/
def State.privileged (s : State) (p : Nat) : Bool := (s.context (s.thread p).ctxNo).prv

/-- The cluster whose units serve the running context: its own, or for a dispatch pair cluster k0 of its die (log entry 27). -/
def State.homeCluster (s : State) : Nat := walkCluster (cluOfPlace s.cur)

/-- The state of a context changes; a Halted one stays so and remembers it (R74). -/
def Thread.become (t : Thread) (st : TState) : Thread :=
  if t.state = .halted then { t with prev := st } else { t with state := st }

/-- The state of R74 a context is in, or was in when it was halted. -/
def Thread.real (t : Thread) : TState := if t.state = .halted then t.prev else t.state

/-- The context runs a save routine, be it Blocked in it (R74, R347). -/
def Thread.saving (t : Thread) : Bool := t.real == .saving || t.inSave

/-- A Blocked context goes on: Ready, or Saving again in a save routine (R74). -/
def Thread.goesOn (t : Thread) : Thread := t.become (if t.inSave then .saving else .ready)

/-- The address that a fault of the instruction logs as its PC: its prefix's, if it has one (R34). -/
def Thread.ipc (t : Thread) : Word := t.pfx.getD t.pc

/-! ### Groups (R355) -/

/-- Fields of a control block. -/
def Group.w (g : Group) (k lo n : Nat) : Nat := bits ((g.gcb[k]?).getD 0).toNat lo n
def Group.pri (g : Group) : Nat := g.w 0 0 4
def Group.clso (g : Group) : Nat := g.w 0 6 3
def Group.dom (g : Group) : Bool := g.w 0 9 1 == 1
def Group.stg (g : Group) : Nat := g.w 0 10 2
def Group.res (g : Group) : Bool := g.w 0 12 1 == 1
def Group.par (g : Group) : Nat := g.w 0 36 12
def Group.slot (g : Group) : Nat := g.w 0 48 12
/-- 1 Live, 2 Degraded, 3 Ending, 4 Ended (R359). -/
def Group.st (g : Group) : Nat := g.w 0 60 4
def Group.tsk (g : Group) : Nat := g.w 1 0 32
def Group.cor (g : Group) : Nat := g.w 1 32 16
def Group.tokb (g : Group) : Nat := g.w 1 48 16
def Group.spm (g : Group) : Nat := g.w 2 0 8
def Group.elim (g : Group) : Nat := g.w 3 0 32
def Group.ecnt (g : Group) : Nat := g.w 3 32 32
def Group.fh (g : Group) : Nat := g.w 4 0 48
def Group.bh (g : Group) : Nat := g.w 5 0 48
def Group.cap (g : Group) : Nat := g.w 8 0 16
def Group.frec (g : Group) : Nat := g.w 11 0 64
/-- Control block with `n` bits of word `k` from `lo` replaced. -/
def Group.put (g : Group) (k lo n v : Nat) : Group :=
  { g with gcb := g.gcb.setIfInBounds k (setBits ((g.gcb[k]?).getD 0) lo n v) }

/-- Group `g` of launch `l` lies in the subtree of `a`: it is `a` or has it among its first `n` ancestors. -/
def State.under (s : State) (l a : Nat) : Nat → Nat → Bool
  | g, 0 => g == a
  | g, n + 1 =>
    if g = a then true
    else match s.group? l g with
      | some b => if b.par = g then false else s.under l a b.par n
      | none => false

/-- Group `g` lies in the subtree of `a` (R357); a launch has at most 4,096 groups. -/
def State.inSubtree (s : State) (l a g : Nat) : Bool := s.under l a g 4096

/-- A group with its ancestors up to the root, among the next `n`. -/
def State.ancestors (s : State) (l : Nat) : Nat → Nat → List Nat
  | 0, g => [g]
  | n + 1, g =>
    match s.group? l g with
    | none => [g]
    | some b => if b.par = g then [g] else g :: s.ancestors l n b.par

/-- The effective class of a task: its group's override, else the class of its kernel (R217); firmware runs in class full. -/
def State.classOf (s : State) (l : Option Nat) (g : Nat) : Nat :=
  match l with
  | none => 0
  | some k =>
    let o := ((s.group? k g).map (·.clso)).getD 0
    if o = 0 then ((s.launch? k).map (·.cls)).getD 0 else o - 1

/-- The effective class of the context at a place (R42). -/
def State.effClass (s : State) (p : Nat) : Nat := s.classOf (s.thread p).launchNo (s.thread p).grp

/-! ### Registers (R35 to R38) -/

/-- Register `r` of the running context waits for the value of an access (R65, R186). -/
def State.busy (s : State) (r : Spec) : Bool :=
  s.acc.any (fun a => a.2.place == s.cur && (a.2.dst == some r || (r == 0 && a.2.wlt)))

/-- Nibbles of a register inverted (R224). -/
def flipSyms (v : Reg) : List Nat → Reg
  | [] => v
  | k :: ks => flipSyms (v ^^^ ((0xF : Reg) <<< (4 * (k % 32)))) ks

/-- Symbols damaged in a register of the running context. -/
def Thread.damage (t : Thread) (r : Spec) : List Nat := (t.dmg.filter (fun e => e.1 == r.val)).map (·.2)

/-- At most one damaged symbol in each 64-bit half, so class full corrects them (R217). -/
def correctable (d : List Nat) : Bool :=
  decide ((d.filter (· < 16)).length ≤ 1) && decide ((d.filter (fun k => 16 ≤ k)).length ≤ 1)

end Sys2Proof.Machine
end

