-- ==== Sys2Proof/Machine/Scope.lean ====
section
/-! DEFINITION. Scopes (R189), which releases and acquires synchronise (R190, R192), the scope of a send (R193), and the stale value
that a release of too narrow a scope leaves a reader free to see (R190, R205; log entry 100).

Every performed store of an unordered task to a checked line has an order number. A clock names, for each place, the stores that
happen before. A release puts its clock on the location that it writes; an acquire that reads it takes the clock over where the two
scopes meet R190, and otherwise only remembers it as missed: a later load may return the value before a store that it missed. -/

namespace Sys2Proof.Machine

/-! ### Parties and scopes (R189) -/

/-- Who takes part in ordering (R183, R189). -/
inductive Party where
  /-- A thread context, by place. -/
  | ctx (p : Nat)
  /-- What stands in a cluster beside its cores: engines, units, L2 slice, shared memory. -/
  | unit (cl : Nat)
  /-- A die's share of the chip scratchpad and the memory-side streamers of the stack beside it. -/
  | side (d : Nat)
  /-- The host-link and Notur agents of the hub die. -/
  | hub
  /-- Host processors and devices behind the host link. -/
  | host
  /-- A module joined by a Notur port, and one reachable through others. -/
  | peer
  | fabric
  deriving DecidableEq, Repr

/-- The compute die of a party of this module, if it stands on one. -/
def Party.die : Party → Option Nat
  | .ctx p => some (dieOf p)
  | .unit cl => some (if 192 ≤ cl then cl - 192 else cl / 24)
  | .side d => some d
  | _ => none

/-- The cluster of a party, if it stands in one; a dispatch pair counts as one of its own (log entry 27). -/
def Party.cluster : Party → Option Nat
  | .ctx p => some (cluOfPlace p)
  | .unit cl => some cl
  | _ => none

/-- The module's own parties. -/
def Party.inside : Party → Bool
  | .host | .peer | .fabric => false
  | _ => true

/-- Two parties agree on something that both have. -/
def agree {α : Type} [BEq α] (a b : Option α) : Bool := a.isSome && a == b

/-- The mesh row of a cluster: six clusters of its die (R12). -/
def rowOf (cl : Nat) : Nat := if 192 ≤ cl then cl else cl / 6

/-- The instance of scope `s` that contains `p` also contains `q` (R189). -/
def inScope (s : Scope) (p q : Party) : Bool :=
  p == q || match s with
  | .task => false
  | .core => match p, q with | .ctx a, .ctx b => coreOf a == coreOf b | _, _ => false
  | .clu => agree p.cluster q.cluster
  | .quad => agree (p.cluster.map rowOf) (q.cluster.map rowOf)
  | .die => agree p.die q.die
  | .half => agree (p.die.map (· / 4)) (q.die.map (· / 4))
  | .dev => p.inside && q.inside
  | .host => (p.inside || p == .host) && (q.inside || q == .host)
  | .link => (p.inside || p == .host || p == .peer) && (q.inside || q == .host || q == .peer)
  | .fab | .sys => true

/-- A release by `p` at scope `s` synchronises with an acquire by `q` at scope `z` (R190). -/
def meets (p : Party) (s : Scope) (q : Party) (z : Scope) : Bool :=
  s != .task && z != .task && inScope s p q && inScope z q p

/-- The smallest scope that holds both (R193). -/
def leastScope (p q : Party) : Scope :=
  (([Scope.core, .clu, .quad, .die, .half, .dev, .host, .link].find? (fun s => inScope s p q))).getD .fab

/-- The scope of the release of a send to a destination; a hash route takes `.dev` (R193). -/
def sendScope (sender : Nat) (hashed : Bool) : Dest → Scope
  | .core c => leastScope (.ctx sender) (.ctx (c * 8))
  | .task cl => if hashed then .dev else leastScope (.ctx sender) (.unit cl)
  | .port cl _ => leastScope (.ctx sender) (.unit cl)

/-! ### Clocks -/

/-- Both know what either knows. -/
def Clock.join (a b : Clock) : Clock :=
  b.foldl (fun c e => if Tab.getD c e.1 0 < e.2 then Tab.put c e.1 e.2 else c) a

/-- The stores that happen before a release by the context at `p` now. -/
def State.clockOf (s : State) (p : Nat) : Clock := Tab.put (s.thread p).known p s.nextId

/-- What a context knows after a receive whose scopes meet R190 (R192). -/
def Thread.hears (t : Thread) (c : Clock) : Thread := { t with known := t.known.join c }

/-- An acquire by the context at `p` of scope `z` reads a release (R190, R192): it takes the clock over, or misses it. -/
def Thread.acquire (t : Thread) (p : Nat) (z : Scope) (r : Rel) : Thread :=
  if r.place = p ∨ meets (.ctx r.place) r.scope (.ctx p) z then t.hears r.clock
  else { t with missed := t.missed.join r.clock }

/-- Releases that a location carries. -/
def State.relsAt (s : State) (loc n : Nat) : List Rel :=
  (Tab.getD s.rels (loc / 32) []).filter (fun r => decide (r.loc < loc + n) && decide (loc < r.loc + r.n))

/-- A store of the context at `p` leaves at a location the releases given; those it overwrites stay only where it is an atomic, which
continues their chain (R192 case 1). -/
def State.putRels (s : State) (loc n : Nat) (atomic : Bool) (rs : List Rel) : State :=
  let old := Tab.getD s.rels (loc / 32) []
  let kept := if atomic then old else old.filter (fun r => !(decide (r.loc < loc + n) && decide (loc < r.loc + r.n)))
  let new := rs ++ kept
  if new.isEmpty then { s with rels := Tab.del s.rels (loc / 32) } else { s with rels := Tab.put s.rels (loc / 32) new }

/-- The releases that a store of the context at `p` to a location carries: its release fences', and its own if it is a release
atomic. -/
def State.ownRels (s : State) (p loc n : Nat) (own : Option Scope) : List Rel :=
  let f := (s.thread p).relF.map (fun e => ({ place := p, scope := e.1, loc, n, clock := e.2 } : Rel))
  match own with
  | some c => { place := p, scope := c, loc, n, clock := s.clockOf p } :: f
  | none => f

/-- The store of an unordered task to a checked line joins the line's coherence order (R184); four stores back are kept. -/
def State.notePast (s : State) (p loc : Nat) (old new : List Byte) : State :=
  let line := loc / 32
  let e : Past := { old, new, writer := p, num := s.nextId }
  { s with past := Tab.put s.past line ((e :: Tab.getD s.past line []).take 4), nextId := s.nextId + 1 }

/-! ### Stale values (R190, R205) -/

/-- A load of the context at `p` may return the value before this store: a release too narrow announced it, nothing that happens before
the load includes it, and no earlier load of the line has returned it or a later one (R184, R190, R192). -/
def Thread.mayMiss (t : Thread) (p line : Nat) (e : Past) : Bool :=
  e.writer != p && decide (e.num < Tab.getD t.missed e.writer 0) && decide (Tab.getD t.known e.writer 0 ≤ e.num) &&
    decide (Tab.getD t.saw line 0 ≤ e.num)

/-- Earlier contents of a line that a load may return, latest first; `cur` is the line as it stands. -/
def Thread.staleLines (t : Thread) (p line : Nat) : List Byte → List Past → List (List Byte)
  | _, [] => []
  | cur, e :: es => if e.new = cur ∧ t.mayMiss p line e then e.old :: t.staleLines p line e.old es else []

/-- The line that a load of the context at `p` returns: the line as it stands unless a release of too narrow a scope was missed; then
which one is open. That holds of checked memory too, by R190 and R205, where R204 asks for R190's scopes only outside it (log entry 130). -/
def State.seenLine (s : State) (p line : Nat) : List Byte × State :=
  let cur := s.bytesAt (line * 32) 32
  let es := Tab.getD s.past line []
  if es.isEmpty then (cur, s)
  else
    let t := s.thread p
    let olds := t.staleLines p line cur es
    let k := if olds.isEmpty then 0 else Config.choice s.fresh % (olds.length + 1)
    let s := if olds.isEmpty then s else s.draw
    let upTo := ((es[k]?).map (·.num + 1)).getD 0
    let s := s.setThread p { t with saw := Tab.put t.saw line (Nat.max upTo (Tab.getD t.saw line 0)) }
    (if k = 0 then cur else (olds[k - 1]?).getD cur, s)

/-- What reading a location of `n` bytes tells the context at `p` of releases: an acquire of scope `acq` takes them (R192 case 1), any
read keeps them for a later acquire fence (case 2). -/
def State.hearAt (s : State) (p loc n : Nat) (acq : Option Scope) : State :=
  match s.relsAt loc n with
  | [] => s
  | r :: rs =>
    let t := s.thread p
    let t : Thread := match acq with
      | some z => (r :: rs).foldl (fun t x => t.acquire p z x) t
      | none => t
    s.setThread p { t with heard := ((r :: rs) ++ t.heard).eraseDups }

/-- A fence of the running context at scope `c` (R179, R187, R192 case 2). -/
def State.fenceAt (s : State) (c : Scope) (acq rel : Bool) : State :=
  let s := if acq then s.setMe (s.me.heard.foldl (fun t r => t.acquire s.cur c r) s.me) else s
  if rel then s.setMe { s.me with relF := (c, s.clockOf s.cur) :: s.me.relF.filter (fun e => e.1 != c) } else s

/-- Ordering that the task which starts from a record has with its sender (R192 case 3, R193). -/
def Thread.starts (t : Thread) (p : Nat) (sender : Nat) (scope : Scope) (clock : Clock) : Thread :=
  ({ t with known := [], missed := [], relF := [], heard := [], saw := [] } : Thread).acquire p scope
    { place := sender, scope, loc := 0, n := 0, clock }

end Sys2Proof.Machine
end

