-- ==== Sys2Proof/Machine/Translate.lean ====
section
/-! DEFINITION. Address windows (R20 to R22), homes (R155), leases, translation buffers, table walks and the checks of an
access (R157 to R159, R226 to R230). -/

namespace Sys2Proof.Machine

/-! ### Windows -/

/-- A window of R21 with the offset in it. -/
inductive Win where
  | translated
  | scratch (off : Nat)
  | remote (core off : Nat)
  | shared (off : Nat)
  | chip (off : Nat)
  | dev (off : Nat)
  deriving DecidableEq, Repr

/-- The first address of the near windows and the end of translated space (R21). -/
def nearBase : Nat := 0x7F0000000000

/-- The window an address of the lower half lies in (R21). -/
def windowOf (a : Nat) : Option Win :=
  if a < nearBase then some .translated
  else if a < nearBase + 0x20000 then some (.scratch (a - nearBase))
  else if a < 0x7F0100000000 then none
  else if a < 0x7F0140000000 then some (.remote ((a - 0x7F0100000000) / 0x20000) (a % 0x20000))
  else if a < 0x7F0200000000 then none
  else if a < 0x7F0200500000 then some (.shared (a - 0x7F0200000000))
  else if a < 0x7F0300000000 then none
  else if a < 0x7F0310000000 then some (.chip (a - 0x7F0300000000))
  else if a < 0x7FFF00000000 then none
  else if a < 0x800000000000 then some (.dev (a - 0x7FFF00000000))
  else none

/-- Two windows are the same region of R21. -/
def Win.same : Win → Win → Bool
  | .translated, .translated => true
  | .scratch _, .scratch _ => true
  | .remote c _, .remote d _ => c == d
  | .shared _, .shared _ => true
  | .chip _, .chip _ => true
  | .dev _, .dev _ => true
  | _, _ => false

/-- What an access does, for its checks (R157, R228). -/
inductive AKind where
  | read | write | rmw | prefetch | fetch
  deriving DecidableEq, Repr

def AKind.writes : AKind → Bool
  | .write | .rmw => true
  | _ => false

/-- The address form of R20: bits 63:47 are 0. -/
def formOk (a : Word) : Bool := decide (a.toNat < 2 ^ 47)

/-- The window faults of R22 for one byte at `a`: window, then remote-load, then privilege. The slot of an invalid core raises the window
fault, as R22 and the last sentence but two of R17 say, not R17's place-range (log entry 119). -/
def windowCheck (priv : Bool) (k : AKind) (a : Nat) (log : Word) : Except Stop Win :=
  match windowOf a with
  | none => .error (fltA Code.window log)
  | some (.remote c o) =>
    if !validPlace (c * 8) || isDispatch (c * 8) then .error (fltA Code.window log)
    else if k = .write then .ok (.remote c o) else .error (fltA Code.remoteLoad log)
  | some (.dev o) => if priv then .ok (.dev o) else .error (fltA Code.privilege log)
  | some w => .ok w

/-- The device-register window takes plain 4- and 8-byte accesses only (R160). -/
def devCheck (plain : Bool) (n : Nat) (w : Win) (a : Word) : Except Stop Win :=
  match w with
  | .dev o => if plain && (n == 4 || n == 8) then .ok (.dev o) else .error (fltA Code.window a)
  | w => .ok w

/-- Address form and window faults of one byte (R159 steps 2 and 3). -/
def byteCheck (priv : Bool) (k : AKind) (a : Nat) (log : Word) : Except Stop Win :=
  if a < 2 ^ 47 then windowCheck priv k a log else .error (fltA Code.addressForm log)

/-- The first byte beyond the end of a window, a multiple of 128 KiB, that an access of `n` bytes straddles (R22). -/
def beyond (a n : Nat) : Option Nat :=
  let last := a + n - 1
  match windowOf a, windowOf last with
  | some v, some w => if v.same w then none else some (last / 0x20000 * 0x20000)
  | some _, none => some (last / 0x20000 * 0x20000)
  | none, _ => none

/-- Address form, window and alignment of an access of `n` bytes aligned to `al` (R157, R159 steps 2 to 4). One that straddles the end
of a window faults as its first byte beyond it (R22). -/
def addrCheck (priv plain : Bool) (k : AKind) (a : Word) (n al : Nat) : Except Stop Win := do
  match beyond a.toNat n with
  | some b => let _ ← byteCheck priv k b a
  | none => pure ()
  let w ← devCheck plain n (← byteCheck priv k a.toNat a) a
  if a.toNat % al ≠ 0 then .error (fltA Code.alignment a)
  pure w

/-- The location of a near window's offset, for the context at place `p` (R167 to R169). -/
def nearLoc (p : Nat) : Win → Nat
  | .translated => 0
  | .scratch o => locIn tagScratch (coreOf p * 0x20000 + o)
  | .remote c o => locIn tagScratch (c * 0x20000 + o)
  | .shared o => locIn tagShared (cluOfPlace p * 0x800000 + o)
  | .chip o => locIn tagChip o
  | .dev o => locIn tagDev o

/-! ### Homes (R155) -/

/-- The home slice, as a cluster number, of a physical address. -/
def homeOf (pa : Nat) : Nat := pa / 256 % 2 ^ 45 % 192

/-- The physical address that a TLB entry yields for a location: a host page's location is its bus address, which the host-window base
moves (R155, R226). -/
def State.physOf (s : State) (loc : Nat) : Nat :=
  if locTag loc = 1 then (locOff loc + (2 ^ 64 - s.hub.hwin.toNat)) % 2 ^ 64 else locOff loc

/-- The home slice of a location, as a cluster number (R155). -/
def State.homeSlice (s : State) (loc : Nat) : Nat := homeOf (s.physOf loc)

/-- The HBM stack of a physical address. -/
def stackOf (pa : Nat) : Nat := (bits pa 8 3 ^^^ bits pa 11 3) ^^^ bits pa 14 3

/-! ### Translation buffers (R226, R227) -/

/-- Fields of an entry. -/
def teCtx (e : TlbEntry) : Nat := bits e.toNat 112 10
def teVpn (e : TlbEntry) : Nat := bits e.toNat 80 32
def tePpn (e : TlbEntry) : Nat := bits e.toNat 16 37
def teTgt (e : TlbEntry) : Nat := bits e.toNat 14 2
def tePort (e : TlbEntry) : Nat := bits e.toNat 10 4
def teBit (e : TlbEntry) (k : Nat) : Bool := bits e.toNat k 1 == 1
def teSz (e : TlbEntry) : Bool := teBit e 9
def teLg (e : TlbEntry) : Bool := teBit e 8
def teMig (e : TlbEntry) : Bool := teBit e 7
def tePsn (e : TlbEntry) : Bool := teBit e 6
def teX (e : TlbEntry) : Bool := teBit e 5
def teW (e : TlbEntry) : Bool := teBit e 4
def teR (e : TlbEntry) : Bool := teBit e 3
def teV (e : TlbEntry) : Bool := teBit e 0

/-- Pages of 64 KiB that an entry's page covers. -/
def tePages (e : TlbEntry) : Nat := if teSz e then 32 else 1

/-- An entry's page holds the 64 KiB page `vpn` of context `ctx`. -/
def teMatch (ctx vpn : Nat) (e : TlbEntry) : Bool :=
  teV e && teCtx e == ctx && decide (teVpn e ≤ vpn) && decide (vpn < teVpn e + tePages e)

/-- Two entries' pages overlap under one context (R232). -/
def teOverlap (e f : TlbEntry) : Bool :=
  teCtx e == teCtx f && decide (teVpn e < teVpn f + tePages f) && decide (teVpn f < teVpn e + tePages e)

/-- Two entries are of one (ctx, vpn, sz), which an entry with v = 0 invalidates (R232). -/
def teSame (e f : TlbEntry) : Bool := teCtx e == teCtx f && teVpn e == teVpn f && teSz e == teSz f

/-- What a TLB holds of an entry given to it: dty and lf read 0 (R226). -/
def teStored (e : TlbEntry) : TlbEntry := e &&& ~~~(6 : TlbEntry)

/-- A core TLB with an entry written: pages that overlap go, and of 64 entries the one written earliest (R227, R232). -/
def coreTlbPut (t : List TlbEntry) (e : TlbEntry) : List TlbEntry :=
  let r := t.filter (fun f => !teOverlap e f)
  if !teV e then t.filter (fun f => !teSame e f) else (if r.length < 64 then r else r.drop 1) ++ [teStored e]

/-- The set of a cluster TLB (R227). -/
def tlbSet (vpn ctx : Nat) : Nat := bits vpn 5 8 ^^^ ctx % 256

/-- Remove the first entry of a set: the least recently used, since the list is in order of use. -/
def dropOldest (set : Nat) : List TlbEntry → List TlbEntry
  | [] => []
  | f :: t => if tlbSet (teVpn f) (teCtx f) = set then t else f :: dropOldest set t

/-- A cluster TLB with an entry written (R227, R232). -/
def cluTlbPut (t : List TlbEntry) (e : TlbEntry) : List TlbEntry :=
  let r := t.filter (fun f => !teOverlap e f)
  if !teV e then t.filter (fun f => !teSame e f) else
  let set := tlbSet (teVpn e) (teCtx e)
  let r := if (r.filter (fun f => tlbSet (teVpn f) (teCtx f) == set)).length < 8 then r else dropOldest set r
  r ++ [teStored e]

/-- A cluster TLB after a hit: the entry becomes the most recently used (R227). -/
def tlbTouch (t : List TlbEntry) (e : TlbEntry) : List TlbEntry := t.filter (fun f => f != e) ++ [e]

/-- A service core (R14). -/
def isService (p : Nat) : Bool := decide (p / 256 % 32 < 24) && decide (16 ≤ p / 8 % 32) && decide (p / 8 % 32 < 20)

/-- The fixed entries that boot firmware writes on every service core for the firmware context's own pages, which no other entry
replaces (R230): one for each page of HBM, at its physical address; `tlb.inv` removes none of them (PRESUMED of the boot firmware, log entry 9). -/
def fixedEntry (c ctx vpn : Nat) : Option TlbEntry :=
  if isService (c * 8) ∧ ctx = 0 ∧ vpn < 294912 * 32 then some (BitVec.ofNat 128 (vpn * 2 ^ 80 + vpn * 2 ^ 16 + 0x139)) else none

/-- The entry of a core's own TLB for a page. -/
def State.coreEntry (s : State) (c ctx vpn : Nat) : Option TlbEntry :=
  fixedEntry c ctx vpn <|> (s.core c).tlb.find? (teMatch ctx vpn)

/-- The entry a core's TLBs hold for a page, with the state after the copy into the core TLB (R228). -/
def State.tlbLookup (s : State) (c ctx vpn : Nat) : Option (TlbEntry × State) :=
  let k := s.core c
  match s.coreEntry c ctx vpn with
  | some e => some (e, s)
  | none =>
    let cl := cluOfCore c
    match (s.clu cl).tlb.find? (teMatch ctx vpn) with
    | none => none
    | some e =>
      let s := s.setClu cl { s.clu cl with tlb := tlbTouch (s.clu cl).tlb e }
      some (e, s.setCore c { k with tlb := coreTlbPut k.tlb e })

/-! ### Frames (R207, R209) -/

/-- Boot firmware reserves the frame; it holds such frames in class full, so they are among those that class full backs (R207; log
entry 9). -/
def fwFrame (n : Nat) : Bool := decide (n < 262144) && Config.reservedFrame n

/-- Class of a frame where no class-block register was written since boot: full for as many as class full backs, unbacked
above them (PRESUMED of the boot firmware, log entry 9). -/
def bootClass (n : Nat) : Nat := if n < 262144 then 0 else 3

def State.frameCls (s : State) (n : Nat) : Nat := if n < 294912 then Tab.getD s.frames n (bootClass n) else 3

/-- Class of the frame of a physical address: 0 full, 1 detect, 2 none, 3 unbacked (R207). -/
def State.frameClass (s : State) (pa : Nat) : Nat :=
  s.frameCls (pa / 0x200000)

/-- The location that an entry gives an address (R226, R406). -/
def State.entryLoc (s : State) (e : TlbEntry) (a : Nat) : Nat :=
  let off := if teSz e then a % 0x200000 else a % 0x10000
  let pa := tePpn e * 0x10000 + off
  if teTgt e = 1 then locIn 1 ((pa + s.hub.hwin.toNat) % 2 ^ 64)
  else if teTgt e = 2 then locIn (2 + tePort e) pa
  else locIn 0 pa

/-- Class of the region a location lies in (R206, R211): HBM by frame, near windows full, host and peer 3. -/
def State.locClass (s : State) (l : Nat) : Nat :=
  if locTag l = 0 then s.frameClass (locOff l) else if isRemote l then 3 else 0

/-! ### Leases (R228, R345) -/

/-- The lease that contains an address, with its index. -/
def findLease (a : Nat) : List Lease → Nat → Option (Nat × Lease)
  | [], _ => none
  | l :: t, i => if l.base ≤ a ∧ a < l.base + l.size then some (i, l) else findLease a t (i + 1)

/-- Does a lease permit the access (R228)? -/
def Lease.permits (l : Lease) (k : AKind) : Bool :=
  match k with
  | .fetch => l.perm == 2
  | .write | .rmw => l.perm == 1
  | _ => true

/-- The lease check for launch `l`; firmware runs under no lease (log entry 15). -/
def State.leaseOk (s : State) (l : Option Nat) (k : AKind) (a : Nat) : Bool :=
  match l with
  | none => true
  | some n =>
    match s.launch? n with
    | none => false
    | some L => match findLease a L.leases 0 with
      | some (_, le) => le.permits k
      | none => false

/-! ### The table walk of layout 0 (R230) -/

/-- The location of a firmware virtual address, through the entries for context 0 of the service core that serves a cluster (R230). -/
def State.fwLoc (s : State) (cl a : Nat) : Option Nat :=
  (s.coreEntry (coreOf (placeOf (walkCluster cl) 16 0)) 0 (a / 0x10000)).map (fun e => s.entryLoc e a)

/-- Word at a firmware virtual address. -/
def State.fwWord (s : State) (cl a : Nat) : Option Nat :=
  (s.fwLoc cl a).map (fun l => s.readN l 8)

/-- A leaf of the table as a TLB entry. -/
def leafEntry (ctx vpn : Nat) (w : Nat) : TlbEntry :=
  teStored (BitVec.ofNat 128 (ctx * 2 ^ 112 + vpn * 2 ^ 80 + w % 2 ^ 53))

/-- A leaf obeys the must-be-0 rules of R226. -/
def leafOk (w : Nat) : Bool :=
  decide (w < 2 ^ 53) && bits w 14 2 != 3 && (bits w 14 2 == 2 || bits w 10 4 == 0) &&
    (bits w 9 1 == 0 || bits w 16 5 == 0)

/-- Index of an address in the table of the level with `lv` levels behind it (R230). -/
def tableIdx (va lv : Nat) : Nat :=
  match lv with
  | 3 => bits va 39 9
  | 2 => bits va 30 9
  | 1 => bits va 21 9
  | _ => bits va 16 5

/-- Alignment of the table of the level with `lv` levels behind it (R230). -/
def tableAlign (lv : Nat) : Nat := if lv = 0 then 256 else 4096

/-- Walk from a level's table: `lv` levels remain. The walk fails on an entry that is not valid, answering false, or on a
malformed one, answering true: a table out of its alignment among them. -/
def State.walkFrom (s : State) (cl ctx va : Nat) : Nat → Nat → Except Bool TlbEntry
  | 0, _ => .error true
  | lv + 1, tab =>
    match s.fwWord cl (tab + 8 * tableIdx va lv) with
    | none => .error true
    | some w =>
      if tab % tableAlign lv ≠ 0 then .error true
      else if bits w 0 1 = 0 then .error false
      else if bits w 1 1 = 1 then
        if lv = 1 ∧ leafOk w ∧ bits w 9 1 = 1 then .ok (leafEntry ctx (va / 0x200000 * 32) w)
        else if lv = 0 ∧ leafOk w ∧ bits w 9 1 = 0 then .ok (leafEntry ctx (va / 0x10000) w)
        else .error true
      else if w % 256 = 1 ∧ w < 2 ^ 53 then s.walkFrom cl ctx va lv (w / 256 * 256)
      else .error true

/-- Locations of the table words that a walk reads, while it finds pointers (R218, R230). -/
def State.walkLocs (s : State) (cl va : Nat) : Nat → Nat → List Nat
  | 0, _ => []
  | lv + 1, tab =>
    let a := tab + 8 * tableIdx va lv
    match s.fwLoc cl a, s.fwWord cl a with
    | some l, some w => l :: (if w % 4 = 1 then s.walkLocs cl va lv (w / 256 * 256) else [])
    | _, _ => []

/-- What the walk of context `ctx`'s tables finds for an address (R229, R230). -/
def State.walkTable (s : State) (cl ctx va : Nat) : Except Bool TlbEntry :=
  s.walkFrom cl ctx va 4 (s.context ctx).root.toNat

/-- The entry of a valid leaf, if the walk finds one. -/
def State.walk (s : State) (cl ctx va : Nat) : Option TlbEntry :=
  match s.walkTable cl ctx va with
  | .ok e => some e
  | .error _ => none

/-! ### Translate (R228) -/

/-- Set `lg` in a TLB's entries for a page (R237). -/
def setLg (ctx vpn : Nat) (t : List TlbEntry) : List TlbEntry :=
  t.map (fun e => if teMatch ctx vpn e then e ||| (256 : TlbEntry) else e)

/-- The pager core that serves a core: c17 for c0 to c7 of its cluster, c18 for the others (R235; log entry 101). -/
def pagerOf (c : Nat) : Nat := coreOf (placeOf (walkCluster (cluOfCore c)) (if c % 32 < 8 then 17 else 18) 0)

/-- A request goes to the pager of a core (R235, R237). -/
def State.askPager (s : State) (c : Nat) (r : PagerReq) : State :=
  let k := s.core (pagerOf c)
  s.setCore (pagerOf c) { k with asked := k.asked ++ [r] }

/-- The pagers have taken the requests that meet a condition. -/
def State.pagerTook (s : State) (f : PagerReq → Bool) : State :=
  { s with cores := Tab.mapV (fun _ (k : Core) => if k.asked.any f then { k with asked := k.asked.filter (fun r => !f r) } else k) s.cores }

/-- A context sleeps on its pager, to which its migration wait goes (R235, R236). -/
def State.sleep (s : State) (p : Nat) (a : Word) : State :=
  let t := s.thread p
  (s.setThread p { t with wait := .pager a s.cyc, pc := t.ipc, pfx := none }).askPager (coreOf p) (.sleep p a)

/-- Append a page to a core's dirty log and set lg in the core and cluster TLBs; at 128 entries one harvest request goes to the core's
pager; none while the log is full (R237). -/
def State.logPage (s : State) (c ctx : Nat) (e : TlbEntry) : Option State :=
  let k := s.core c
  if 256 ≤ k.dlog.length then none
  else
    let ent := wd (2 ^ 63 + ctx * 2 ^ 32 + teVpn e)
    let log := k.dlog ++ [ent]
    let ask := !k.dlogAsked && decide (log.length = 128)
    let k := { k with dlog := log, dlogAsked := k.dlogAsked || ask, tlb := setLg ctx (teVpn e) k.tlb }
    let cl := cluOfCore c
    let s := s.setCore c k
    let s := if ask then s.askPager c (.harvest c) else s
    some (s.setClu cl { s.clu cl with tlb := setLg ctx (teVpn e) (s.clu cl).tlb })

/-- The same for a store at place `p`, which waits while the log is full (R237). -/
def State.logDirty (s : State) (p ctx : Nat) (e : TlbEntry) : Except Stop State :=
  let t := s.thread p
  match s.logPage (coreOf p) ctx e with
  | some s => .ok s
  | none => .error (.hold (s.setThread p { t with wait := .dirty s.cyc, pc := t.ipc, pfx := none }))

/-- The page checks once an entry is found: page-poison, permission, sleep on a migration, dirty log, backing (R207, R228). Page-poison
comes before permission as in the pseudocode of R228; its further rules place it after (log entry 118). -/
def State.useEntry (s : State) (p : Nat) (e : TlbEntry) (k : AKind) (a : Word) : Except Stop (Nat × State) :=
  let t := s.thread p
  if tePsn e then .error (fltA Code.pagePoison a)
  else if (k == .fetch && !teX e) || ((k == .read || k == .prefetch) && !teR e) || (k.writes && !teW e) then
    .error (fltA Code.permission a)
  else if teMig e && k.writes then .error (.hold (s.sleep p a))
  else
    let l := s.entryLoc e a.toNat
    if locTag l = 0 ∧ s.frameClass (locOff l) = 3 then .error (fltA Code.backing a)
    else if k.writes && !teLg e then
      match s.logDirty p t.ctxNo e with
      | .ok s => .ok (l, s)
      | .error x => .error x
    else .ok (l, s)

/-- Translate a translated address for the context at place `p` (R228). A miss holds the instruction while the walk runs; a
walk's answer raises its fault here (R229). -/
def State.translate (s : State) (p : Nat) (k : AKind) (a : Word) : Except Stop (Nat × State) :=
  let t := s.thread p
  if !s.leaseOk t.launchNo k a.toNat then .error (fltA Code.lease a)
  else
    let answered := match t.wait with
      | .answer c v => if v.toNat / 0x10000 = a.toNat / 0x10000 then some c else none
      | _ => none
    match answered with
    | some c => .error (fltA c a)
    | none =>
      match s.tlbLookup (coreOf p) t.ctxNo (a.toNat / 0x10000) with
      | some (e, s) => match s.useEntry p e k a with
        | .error (.flt f) => .error (.kept s f)
        | r => r
      | none =>
        let c := coreOf p
        let s := s.setCore c { s.core c with misses := satAt (2 ^ 64 - 1) ((s.core c).misses + 1) }
        .error (.hold (s.setThread p { s.thread p with wait := .walk a, pc := t.ipc, pfx := none, missAt := s.cyc }))

/-- Bank `b` of the own scratchpad is within the bank budget of the task's group and of every ancestor (R357). -/
def State.bankOpen (s : State) (p b : Nat) : Bool :=
  match (s.thread p).launchNo with
  | none => true
  | some l => (s.ancestors l 4096 (s.thread p).grp).all (fun g => match s.group? l g with
    | some x => x.spm / 2 ^ b % 2 == 1
    | none => true)

/-- The own scratchpad's offset that a window names, through its own window or the core's slot in the remote one (R22). -/
def Win.own (p : Nat) : Win → Option Nat
  | .scratch o => some o
  | .remote c o => if c = coreOf p then some o else none
  | _ => none

/-- The checks of one access of `n` bytes aligned to `al`, and its location. `plain` says that the instruction may reach device
registers (R160). The bank budget of R357 is checked with the window of the own scratchpad. -/
def State.accessAl (s : State) (p : Nat) (k : AKind) (plain : Bool) (a : Word) (n al : Nat) : Except Stop (Nat × State) :=
  match addrCheck (s.privileged p) plain k a n al with
  | .error e => .error e
  | .ok .translated => s.translate p k a
  | .ok w =>
    match w.own p with
    | some o => if s.bankOpen p (o / 16384) then .ok (nearLoc p w, s) else .error (fltA Code.bankBudget a)
    | none => .ok (nearLoc p w, s)

/-- `Access` of R157: an access of `n` bytes, naturally aligned. -/
def State.access (s : State) (p : Nat) (k : AKind) (plain : Bool) (a : Word) (n : Nat) : Except Stop (Nat × State) :=
  s.accessAl p k plain a n n

/-- The location of an address of a context now, where it was `loc` (R233): through the entry that the TLBs or the tables hold. -/
def State.locNow (s : State) (p ctx : Nat) (a : Word) (loc : Nat) : Nat :=
  if windowOf a.toNat ≠ some .translated then loc
  else
    let vpn := a.toNat / 0x10000
    let cl := cluOfPlace p
    match (s.coreEntry (coreOf p) ctx vpn <|> (s.clu cl).tlb.find? (teMatch ctx vpn)) <|> s.walk cl ctx a.toNat with
    | some e => s.entryLoc e a.toNat
    | none => loc

/-! ### Engine accesses (R296, R303) -/

/-- The entry by which an engine translates a page. -/
def State.engEntry (s : State) (cl ctx corePl vpn : Nat) : Option TlbEntry :=
  (fixedEntry (coreOf corePl) ctx vpn <|> (s.clu cl).tlb.find? (teMatch ctx vpn)) <|> s.walk cl ctx (vpn * 0x10000)

/-- Size of the page of an address as an engine translates it (R226). -/
def State.engPage (s : State) (cl ctx corePl : Nat) (a : Word) : Nat :=
  match s.engEntry cl ctx corePl (a.toNat / 0x10000) with
  | some e => if teSz e then 0x200000 else 0x10000
  | none => 0x10000

/-- A translation made for a token: the code of R361 that fails it, or the location. Engines use the cluster's entries and
the walker's answer, and wait for nothing but a migration, which answers code 0. A write through an entry with lg = 0 appends to no dirty log: R237 gives logs to
cores, for their stores and atomics (log entry 132). -/
def State.engLoc (s : State) (cl ctx : Nat) (l : Option Nat) (corePl : Nat) (k : AKind) (a : Word) : Except Nat Nat :=
  if !formOk a then .error Code.addressForm
  else match windowOf a.toNat with
    | none => .error Code.window
    | some .translated =>
      if !s.leaseOk l k a.toNat then .error Code.lease
      else
        match s.engEntry cl ctx corePl (a.toNat / 0x10000) with
        | none => .error Code.pageAbsent
        | some e =>
          if tePsn e then .error Code.pagePoison
          else if (k.writes && !teW e) || (!k.writes && !teR e) then .error Code.permission
          else if teMig e && k.writes then .error 0
          else
            let loc := s.entryLoc e a.toNat
            if locTag loc = 0 ∧ s.frameClass (locOff loc) = 3 then .error Code.backing else .ok loc
    | some (.remote c o) =>
      if k.writes && validPlace (c * 8) && !isDispatch (c * 8) then .ok (nearLoc corePl (.remote c o)) else .error Code.window
    | some (.dev _) => .error Code.window
    | some w => .ok (nearLoc corePl w)

end Sys2Proof.Machine
end

