-- ==== Sys2Proof/Machine/Ops.lean ====
section
/-! DEFINITION. The shared operations of the machine: ending a step, regions, records in flight, tokens that end, groups and
launches that end, charging an error, TAKING A FAULT (R360) and a task's return to Free (R74). -/

namespace Sys2Proof.Machine

/-! ### Completing an instruction -/

/-- The running context goes on behind its word of `len` bytes; the instruction has retired (R80, R422). -/
def Thread.fin (t : Thread) (len : Nat) : Thread :=
  { t with pc := t.pc + wd len, pfx := none, retired := satAt (2 ^ 64 - 1) (t.retired + 1) }

/-- The running context goes on at `target`. -/
def Thread.goto (t : Thread) (target : Word) : Thread :=
  { t with pc := target, pfx := none, retired := satAt (2 ^ 64 - 1) (t.retired + 1) }

/-- A context's registers after a result `v` for destination `d`: the register and `lt` take it, `zero` discards it (R35,
R36). -/
def Thread.result (t : Thread) (d : Spec) (v : Reg) : Thread :=
  if d = 1 then t
  else { t with regs := (t.regs.set d v).set 0 v, ltStale := false,
                dmg := t.dmg.filter (fun e => e.1 != d.val && e.1 != 0) }

def State.fin (s : State) (len : Nat) : State := s.setMe (s.me.fin len)

/-- An instruction that is held runs again from its prefix (R34). -/
def Thread.rewind (t : Thread) : Thread :=
  match t.pfx with
  | some a => { t with pc := a, pfx := none }
  | none => t

def State.rewind (s : State) : State := s.setMe s.me.rewind

/-! ### Regions (R165, R196) -/

/-- Remove a context's marks from every line. -/
def dropMarks (p : Nat) (m : Tab (List Mark)) : Tab (List Mark) :=
  (m.map (fun e => (e.1, e.2.filter (fun k => k.place != p)))).filter (fun e => !e.2.isEmpty)

/-- The directory's step for an eviction by a holder (R162). -/
def DirState.evict (d : DirState) (c : Nat) : DirState :=
  match d with
  | .shared hs =>
    let r := hs.filter (· != c)
    if r.isEmpty then .uncached else .shared r
  | .owned o m => if o = c then .uncached else .owned o m
  | d => d

/-- The home removes core `c` from a line's holders. -/
def State.dropHolder (s : State) (c line : Nat) : State :=
  match Tab.get? s.dir line with
  | some d => { s with dir := Tab.put s.dir line (d.evict c) }
  | none => s

/-- End the synchronisation-free region of the context at `p`: its bits in the L1 and in the region filter go (R196), and with the
filter's last bits of a line the holder record at the line's home (R200); what the filter had to drop lapses no longer (R165). -/
def State.endRegion (s : State) (p : Nat) : State :=
  let s := { s with marks := dropMarks p s.marks }
  let t := s.thread p
  let s := s.setThread p { t with region := t.region + 1 }
  let k := s.core (coreOf p)
  if k.filter.any (fun e => e.2 == p) || k.dropped.any (fun e => e.2 == p) then
    let rest := k.filter.filter (fun e => e.2 != p)
    let gone := ((k.filter.filter (fun e => e.2 == p)).map (·.1)).filter (fun l => !rest.any (fun e => e.1 == l))
    gone.foldl (fun s l => s.dropHolder (coreOf p) l)
      (s.setCore (coreOf p) { k with filter := rest, dropped := k.dropped.filter (fun e => e.2 != p) })
  else s

/-! ### Records (R239 to R242) -/

/-- Fields of a header: word 0 and word 1. -/
def hKind (h0 : Word) : Nat := wbits h0 60 4
def hGrp (h0 : Word) : Nat := wbits h0 48 12
def hPc (h0 : Word) : Nat := wbits h0 0 48
def hRoute (h1 : Word) : Nat := wbits h1 0 24
def hRtag (h1 : Word) : Nat := wbits h1 24 16
def hStime (h1 : Word) : Nat := wbits h1 40 24

/-- Header words from their fields. -/
def mkH0 (kind grp pc : Nat) : Word := wd (kind % 16 * 2 ^ 60 + grp % 4096 * 2 ^ 48 + pc % 2 ^ 48)
def mkH1 (route rtag stime : Nat) : Word := wd (route % 2 ^ 24 + rtag % 2 ^ 16 * 2 ^ 24 + stime % 2 ^ 24 * 2 ^ 40)

/-- Route of mode 10 to a cluster. -/
def clusterRoute (cl : Nat) : Nat := 2 * 2 ^ 22 + cl / 24 * 2 ^ 13 + cl % 24 * 2 ^ 8

/-- Where a route that obeys R240 leads. -/
def routeDest (r : Nat) : Dest :=
  match bits r 22 2 with
  | 0 => .core (bits r 0 16 / 8)
  | 1 => .task (bits r 0 8)
  | 2 => .task (24 * bits r 13 3 + bits r 8 5)
  | _ => .port (24 * bits r 15 3 + bits r 10 5) (bits r 0 10)

/-- A record as its sender makes it. -/
def newMsg (h0 h1 : Word) (pay : Vector Reg 3) (sender : Nat) (dest : Dest) : Msg :=
  { h0, h1, pay, sender, sgrp := 0, launch := none, ctx := 0, ts := 0, seq := 0, parent := none, dest, ord := 0,
    arrival := 0, counted := false, notBefore := 0, firing := none, restore := false, budget := false, byTok := none,
    code := none }

/-- The cluster that a destination lies in. -/
def Dest.cluster : Dest → Nat
  | .core c => cluOfCore c
  | .task cl => cl
  | .port cl _ => cl

/-- A record with its send time (R239). -/
def Msg.stamped (m : Msg) (now : Nat) : Msg := { m with h1 := mkH1 (hRoute m.h1) (hRtag m.h1) (now % 2 ^ 24) }

/-- Put a record into the mesh, with its send time (R239) and its place in the order of sends (R273). -/
def State.post (s : State) (m : Msg) : State :=
  ({ s with mesh := Tab.put s.mesh s.nextId { m.stamped s.cyc with ord := s.nextId } }).bump

/-- A record is accepted where it was sent: its sender has one fewer unaccepted record (R76), its ordered parent one
unaccepted child less (R245). -/
def State.accepted (s : State) (m : Msg) : State :=
  let s := if m.counted then
      let t := s.thread m.sender
      s.setThread m.sender { t with sends := t.sends - 1 }
    else s
  match m.parent with
  | none => s
  | some (cl, e) =>
    match Tab.get? (s.clu cl).commits e with
    | none => s
    | some c =>
      let n := c.children - 1
      let st := if c.state = .finishing ∧ n = 0 then OState.finished else c.state
      s.setClu cl { s.clu cl with commits := Tab.put (s.clu cl).commits e { c with children := n, state := st } }

/-! ### Tokens that end (R299, R302) -/

def TokSt.code : TokSt → Nat
  | .issued => 0 | .waiting => 1 | .running => 2 | .draining => 3 | .suspended => 4 | .done => 5 | .faulted => 6
  | .cancelled => 7

def TokSt.terminal : TokSt → Bool
  | .done | .faulted | .cancelled => true
  | _ => false

/-- The key of a handle's slot: cluster * 1024 + slot (R293). -/
def hdlKey (h : Nat) : Nat := (24 * bits h 29 3 + bits h 24 5) * 1024 + bits h 14 10

/-- The eight words of a token's record (R302). -/
def Token.word (t : Token) : Nat → Word
  | 0 => wd (t.hdl % 2 ^ 32 + t.pri % 8 * 2 ^ 32 + t.hold % 4 * 2 ^ 35 + t.fn % 64 * 2 ^ 37 + t.maj % 32 * 2 ^ 43 +
      t.grp % 4096 * 2 ^ 48 + t.st.code * 2 ^ 60)
  | 1 => wd (satAt (2 ^ 22 - 1) t.carr + t.nf % 128 * 2 ^ 22 + (if t.ack then 2 ^ 29 else 0) + t.flg.toNat * 2 ^ 30 +
      (if t.refd then 2 ^ 36 else 0) + (if t.qsat then 2 ^ 37 else 0) + t.qr % 4 * 2 ^ 38 + satAt 255 t.rpl * 2 ^ 40 +
      t.fc % 2 ^ 16 * 2 ^ 48)
  | 2 => t.fadr
  | 3 => wd t.cnt
  | 4 => wd t.cur
  | 5 => wd (t.ipc.toNat % 2 ^ 48 + t.place % 2 ^ 16 * 2 ^ 48)
  | 6 => wd (t.tiss % 2 ^ 32 + t.tend % 2 ^ 32 * 2 ^ 32)
  | _ => t.syn

/-- The counter of R82 that a token of this major counts in falls by one. -/
def Thread.uncount (t : Thread) (maj : Nat) : Thread :=
  if maj = 0x10 then { t with ctl := t.ctl - 1 } else { t with ccp := t.ccp - 1 }

/-- An engine releases a line: it is Uncached, and the accesses that waited proceed in arrival order (R162, R164). -/
def State.releaseLine (s : State) (l : Nat) : State :=
  let s : State := match Tab.getD s.dir l .uncached with
    | .engine _ w => if w.isEmpty then s else { s with waits := Tab.put s.waits l (Tab.getD s.waits l [] ++ w) }
    | _ => s
  { s with dir := Tab.del s.dir l }

/-- Release every line a token holds (R164). -/
def State.releaseLines (s : State) (ls : List Nat) : State := ls.foldl State.releaseLine s

/-- A stream that a pre-emption stops at its first group that no started tile has claimed (R302, R322). -/
def Token.stopStream (t : Token) (now : Nat) : Token :=
  if t.claimed ≤ t.cur then { t with st := .suspended, tend := now, fetched := t.cur, fifo := [] }
  else { t with st := .draining, fetched := Nat.min t.fetched t.claimed, fifo := t.fifo.take (t.claimed - t.cur) }

/-- Groups that a stream has (R309). -/
def Token.groups (t : Token) : Nat := wbits t.x[1] 32 32

/-- A stream whose tile ended early gives up the groups that the tile had taken, so that the next tile finds its own (R310). -/
def Token.skip (t : Token) (now : Nat) : Token :=
  if t.claimed ≤ t.cur then t
  else
    let u : Token := { t with cur := t.claimed, fifo := t.fifo.drop (t.claimed - t.cur), fetched := Nat.max t.fetched t.claimed }
    if t.st = .draining then u.stopStream now else u

/-- A token becomes terminal: the slot's record is written, its lines go, its holder's counter falls (R82, R299). The
notice is posted by the step TOKEN_DONE (R304). A stream that faults keeps the groups before the one concerned (R310). -/
def State.endOne (s : State) (key : Nat) (st : TokSt) : State :=
  match s.tok? key with
  | none => s
  | some t =>
    if t.st.terminal then s else
    let s := s.releaseLines t.lines
    let s := match t.holder with
      | some p => if t.hold = 0 ∧ t.defer = none then s.setThread p ((s.thread p).uncount t.maj) else s
      | none => s
    let t : Token := if st = .done ∨ t.refault then { t with fc := 0, fadr := 0, syn := 0, refault := false } else t
    s.setTok key { t with st, tend := s.cyc, lines := [], posted := t.ntc == 0, fifo := if st = .faulted then t.fifo else [] }

/-- A token that a pre-emption suspended goes on: Issued if it was held by its gate, else Waiting; a copy that had started
restarts at its cursor (R299, R319, R322). -/
def Token.resume (t : Token) : Token :=
  if t.st ≠ .suspended ∨ t.susFault then t
  else if t.susIssued then { t with st := .issued, susIssued := false }
  else if t.maj = 0x11 ∧ t.fn ≠ 4 ∧ t.fn ≠ 5 ∧ t.engine.isSome then
    { t with st := .waiting, cnt := t.cur, rpl := satAt 255 (t.rpl + 1), engine := none, desc := [], mask := [] }
  else { t with st := .waiting }

/-- Records and tokens of the context are not offered but kept for its resume (R322, R368). -/
def State.suspending (s : State) (n : Nat) : Bool := (s.context n).st == .preempting || (s.context n).st == .suspended

/-- A token that stops only after its context's pre-emption has been given up goes on at once (R322, R370). -/
def State.settleSus (s : State) (key : Nat) : State :=
  match s.tok? key with
  | some t => if s.suspending t.ctx then s else s.setTok key t.resume
  | none => s

/-- A tile that ends before its last group leaves the groups it had taken of a stream; the stream is Done if they were its last (R310). -/
def State.leaveStream (s : State) (h : Nat) : State :=
  match s.tok? (hdlKey h) with
  | some u =>
    if u.hdl = h ∧ (u.st = .running ∨ u.st = .draining) then
      let v := u.skip s.cyc
      if v.cur = u.groups then (s.setTok (hdlKey h) v).endOne (hdlKey h) .done else (s.setTok (hdlKey h) v).settleSus (hdlKey h)
    else s
  | none => s

/-- The same for both streams of a tile that had started. -/
def State.leaveStreams (s : State) (t : Token) : State :=
  if t.maj = 0x10 ∧ t.fn ≤ 1 ∧ (t.st = .running ∨ t.st = .draining) then (s.leaveStream t.x[0].toNat).leaveStream t.x[1].toNat else s

/-- Word `k` of a descriptor that was read. -/
def descWord (bs : List Byte) (k : Nat) : Nat := leNat ((bs.drop (8 * k)).take 8)

/-- Rank of a participant, and the set it takes part in (R320). -/
def Token.rank (t : Token) : Nat := wbits t.x[3] 0 16
def Token.setId (t : Token) : Nat := descWord t.desc 0 % 2 ^ 32
/-- Tokens of one instance of a collective (R321). -/
def sameInst (t u : Token) : Bool :=
  t.maj == 0x12 && u.maj == 0x12 && !t.desc.isEmpty && !u.desc.isEmpty && t.launch == u.launch && t.setId == u.setId && t.inst == u.inst

/-- The other participants of a started collective fault with partner-failed (R303, R321). -/
def State.failMates (s : State) (key : Nat) (t : Token) : State :=
  if t.maj = 0x12 ∧ t.startedColl then
    let ks := (s.toks.filter (fun e => e.1 != key && sameInst t e.2 && e.2.startedColl && !e.2.st.terminal)).map (·.1)
    ks.foldl (fun s k => match s.tok? k with
      | some u => (s.setTok k { u with fc := 0x11, fadr := 0, syn := wd t.rank, refault := false, ack := false }).endOne k .faulted
      | none => s) s
  else s

/-- The count of an instance stands still: the part is frozen, or a participant's context is Halted or pre-empted (R321). -/
def State.instHeld (s : State) (t : Token) : Bool :=
  s.hub.frozen || s.toks.any (fun e => sameInst t e.2 &&
    ((s.thread e.2.place).state == .halted || (s.context e.2.ctx).st == .preempting || (s.context e.2.ctx).st == .suspended))

/-- A collective that has not started. -/
def Token.pendingColl (t : Token) : Bool := t.maj == 0x12 && !t.startedColl && !t.st.terminal

/-- The tokens after `n` more cycles: those of instances whose count stands still note them (R321). -/
def State.heldColls (s : State) (n : Nat) : Tab Token :=
  if s.toks.any (fun e => e.2.pendingColl) then
    Tab.mapV (fun _ t => if t.pendingColl && s.instHeld t then { t with paused := t.paused + n } else t) s.toks
  else s.toks

/-- A token becomes terminal; one that faults or is cancelled takes the partners of a started collective with it (R299, R321). -/
def State.endTok (s : State) (key : Nat) (st : TokSt) : State :=
  match s.tok? key with
  | none => s
  | some t =>
    if t.st.terminal then s
    else if st = .done then s.endOne key st
    else ((s.endOne key st).failMates key t).leaveStreams t

/-- Contexts Blocked in a `tok.wait` on a terminal token complete before its slot goes (R307, R325). -/
def State.wakeTok (s : State) (t : Token) : State :=
  let wake (_ : Nat) (x : Thread) : Thread :=
    match x.blk with
    | some (.tok h d) => if h = t.hdl then ({ (((x.result d (scalar (t.word 0))).hears t.clock).goesOn) with blk := none }).fin 4 else x
    | _ => x
  if t.st.terminal then { s with threads := Tab.mapV wake s.threads } else s

/-- Free a token's slot; its handle becomes stale (R307). Tokens that depend on one that was not Done remember it (R299). -/
def State.freeTok (s : State) (key : Nat) : State :=
  match s.tok? key with
  | none => s
  | some t =>
    let s := s.wakeTok t
    let s := s.releaseLines t.lines
    let cl := key / 1024
    let s := s.setClu cl { s.clu cl with freed := (s.clu cl).freed ++ [key % 1024] }
    let failed := t.st ≠ .done
    let note (_ : Nat) (u : Token) : Token := if failed ∧ u.deps.contains t.hdl ∧ u.lost = none then { u with lost := some t.hdl } else u
    { s with toks := Tab.mapV note (Tab.del s.toks key) }

/-- Tokens of the state that meet a condition. -/
def State.toksWhere (s : State) (p : Token → Bool) : List Nat := (s.toks.filter (fun e => p e.2)).map (·.1)

/-- Tokens that the task at `p` holds: attached, detached or adopted. -/
def State.heldBy (s : State) (p : Nat) : List Nat := s.toksWhere (fun t => t.holder == some p && t.hold != 2)

/-- Every token of the task at `p` becomes an orphan, as by its `susp`, at the end of its save routine and by a fault that ends it
alone (R306); a fault that one has met already is not an orphan's (R308). -/
def State.orphanToks (s : State) (p : Nat) : State :=
  (s.heldBy p).foldl (fun s k => match s.tok? k with
    | some t => s.setTok k { t with hold := 2, holder := none, told := if t.st = .faulted then Nat.max 1 t.told else t.told }
    | none => s) s

/-! ### A context that becomes Free (R74) -/

/-- Fafen's three delays of a record that ends its handler run on a worker core (R421). -/
def State.fafenAdd (s : State) (p : Nat) : State :=
  let t := s.thread p
  match t.task with
  | none => s
  | some k =>
    let from_ := hRoute t.h1 % 2 ^ 16
    if isWorker p && !isDispatch from_ && (decide (k.kind ≤ 6) || k.kind == 8) then
      let h := cluOfPlace from_
      let c := s.core (coreOf p)
      let r := Tab.getD c.fafen h { count := 0, transit := 0, inbox := 0, run := 0 }
      let m := 2 ^ 64 - 1
      let r : Fafen :=
        { count := satAt m (r.count + 1), transit := satAt m (r.transit + (k.arrival + 2 ^ 24 - hStime t.h1) % 2 ^ 24),
          inbox := satAt m (r.inbox + (k.admitted - k.arrival)), run := satAt m (r.run + (s.cyc - k.admitted)) }
      s.setCore (coreOf p) { c with fafen := Tab.put c.fafen h r }
    else s

/-- Queues bound to a context unbind; their entries are discarded and counted (R147). -/
def State.unbindXq (s : State) (p : Nat) : State :=
  let c := s.core (coreOf p)
  let lost := (c.xq.filter (fun e => e.2.bound == some p)).foldl (fun n e => n + e.2.entries.length) 0
  let xq := c.xq.map (fun e => if e.2.bound == some p then (e.1, { bound := none, owner := none, launch := none, entries := [] }) else e)
  if c.xq.any (fun e => e.2.bound == some p) then
    s.setCore (coreOf p) { c with xq, drops := satAt (2 ^ 64 - 1) (c.drops + lost) }
  else s

/-- A context Blocked in a take no longer waits on its port (R290). -/
def State.untake (s : State) (p : Nat) : State :=
  let cl := cluOfPlace p
  let k := s.clu cl
  if k.ports.any (fun e => e.2.takers.contains p) then
    s.setClu cl { k with ports := Tab.mapV (fun _ q => { q with takers := q.takers.filter (· != p) }) k.ports }
  else s

/-- Loads in flight of a context are ignored: their values reach no register any more (R259). Its stores go on without it. -/
def State.ignoreLoads (s : State) (p : Nat) : State :=
  let plain (k : AccKind) : Bool := match k with | .load _ | .xld _ | .clsq | .sigRd => true | _ => false
  { s with acc := (s.acc.filter (fun e => !(e.2.place == p && plain e.2.kind))).map (fun (e : Nat × Access) =>
      if e.2.place == p then (e.1, { e.2 with loose := true, dst := none, wlt := false }) else e) }

/-- The context at `p` loses its task and becomes Free, or Dormant for t7, be it Halted (R74): its region ends, its queues unbind, the
code message's entry is freed. -/
def State.vacate (s : State) (p : Nat) : State :=
  let s := s.endRegion p
  let s := s.unbindXq p
  let s := s.untake p
  let s := s.ignoreLoads p
  let t := s.thread p
  let st := if p % 8 = 7 then TState.dormant else TState.free
  s.setThread p { t with state := st, prev := .free, task := none, blk := none, wait := .none, pfx := none, pend := false,
                         failed := none, nfailed := 0, injTile := false, inSave := false }

/-- The completion signal of a launch will release these writes too (R352). -/
def State.launchHears (s : State) (l : Option Nat) (c : Clock) : State :=
  match l with
  | none => s
  | some n => match s.launch? n with
    | some L => s.setLaunch n { L with clock := L.clock.join c }
    | none => s

/-- The handler run of the task at `p` ends, which Fafen counts, and its context becomes free (R74, R421); its writes are among those that
its launch's end releases (R352). -/
def State.freeThread (s : State) (p : Nat) : State := ((s.launchHears (s.thread p).launchNo (s.clockOf p)).fafenAdd p).vacate p

/-! ### Groups and launches that end (R359, R352) -/

/-- A record starts a handler (R241, R250). -/
def Msg.starts (m : Msg) : Bool :=
  let k := hKind m.h0
  k == 0 || k == 1 || k == 3 || k == 4 || k == 6 || k == 8

/-- A record belongs to the group that its h0 names: it starts a handler of it, or it is a refusal or a reply that has found its slot
(R250, R270, R272). What is sent to a port carries the header of its refusal instead (R288). -/
def Msg.ofGroup (m : Msg) : Bool :=
  match m.dest with
  | .port _ _ => false
  | _ => m.starts || ((hKind m.h0 == 5 || hKind m.h0 == 2) && hPc m.h0 != 0)

/-- `n` records are discarded on a cluster (R359). -/
def State.countLoss (s : State) (cl n : Nat) : State :=
  if n = 0 then s else s.setClu cl { s.clu cl with discards := satAt (2 ^ 64 - 1) ((s.clu cl).discards + n) }

/-- Discard records that meet a condition wherever they wait, counting them on their cluster (R359). -/
def State.dropMsgs (s : State) (f : Msg → Bool) (count : Bool) : State :=
  let lostAt (cl : Nat) (n : Nat) (s : State) : State := if count then s.countLoss cl n else s
  let s := (s.mesh.filter (fun e => f e.2)).foldl (fun s e => lostAt e.2.dest.cluster 1 (s.accepted e.2)) s
  let s := { s with mesh := s.mesh.filter (fun e => !f e.2) }
  let s := (s.cores.filter (fun e => e.2.inbox.any f)).foldl
    (fun s e => lostAt (cluOfCore e.1) (e.2.inbox.filter f).length
      (s.setCore e.1 { e.2 with inbox := e.2.inbox.filter (fun m => !f m) })) s
  (s.clus.filter (fun e => e.2.tu.any f || e.2.spill.any f)).foldl
    (fun s e => lostAt e.1 ((e.2.tu.filter f).length + (e.2.spill.filter f).length)
      (s.setClu e.1 { s.clu e.1 with tu := e.2.tu.filter (fun m => !f m), spill := e.2.spill.filter (fun m => !f m) })) s

/-- The group of a record of a running launch has Ended: the record is discarded (R250, R359). -/
def State.groupGone (s : State) (m : Msg) : Bool :=
  match m.launch with
  | some l => m.ofGroup && (s.launch? l).isSome && (match s.group? l (hGrp m.h0) with | some b => b.st == 4 | none => true)
  | none => false

/-- Clusters on which the requeued records of a context that meet a condition wait, one for each record. -/
def Ctx.requeuedAt (f : Msg → Bool) (c : Ctx) : List Nat :=
  (c.requeue.filter (fun e => f e.2)).map (·.1) ++ (c.firings.filter (fun e => f e.2.1)).map (·.1)

/-- Discard saved tasks and requeued records that meet a condition (R349, R359); the records may be counted on their clusters. -/
def State.dropSaved (s : State) (f : Msg → Bool) (count : Bool) : State :=
  let keep (_ : Nat) (c : Ctx) : Ctx := { c with saves := c.saves.filter (fun m => !f m), requeue := c.requeue.filter (fun e => !f e.2), firings := c.firings.filter (fun e => !f e.2.1) }
  let lost := if count then s.ctxs.flatMap (fun e => e.2.requeuedAt f) else []
  lost.foldl (fun s cl => s.countLoss cl 1) { s with ctxs := Tab.mapV keep s.ctxs }

/-- The end of an owning launch: its ports are emptied and unconfigured, its patterns unbound, its firings not yet started discarded
(R277). -/
def State.dropJoin (s : State) (l : Nat) : State :=
  let fired (m : Msg) : Bool := m.launch == some l && m.firing.isSome
  let s := (s.dropMsgs fired false).dropSaved fired false
  { s with clus := Tab.mapV (fun _ k => { k with
      ports := k.ports.filter (fun e => e.2.owner != l || e.2.cap == 0),
      patterns := k.patterns.filter (fun e => e.2.owner != l) }) s.clus }

/-- Places whose task meets a condition. -/
def State.placesWhere (s : State) (f : Thread → Bool) : List Nat :=
  (s.threads.filter (fun e => e.2.task.isSome && f e.2)).map (·.1)

/-- Commit entries of a launch that meet a condition go, with their undo logs (R359). -/
def State.dropCommits (s : State) (f : Commit → Bool) : State :=
  { s with clus := Tab.mapV (fun _ k => { k with commits := k.commits.filter (fun e => !f e.2) }) s.clus }

/-- Kernel end: the launch's tasks, records and tokens are discarded (R299, R349). Its other resources go at LAUNCH_END. -/
def State.killLaunch (s : State) (l status : Nat) : State :=
  match s.launch? l with
  | none => s
  | some L =>
    if L.ending then s else
    let s := s.setLaunch l { L with ending := true, status }
    let s := ((s.dropMsgs (fun m => m.launch == some l) false).dropSaved (fun m => m.launch == some l) false).dropJoin l
    let s := (s.placesWhere (fun t => t.launchNo == some l)).foldl State.freeThread s
    let s := s.dropCommits (fun c => c.launch == l)
    let s := (s.toksWhere (fun t => t.launch == some l)).foldl State.freeTok s
    let s : State := { s with late := s.late.filter (fun t => t.launch != some l) }
    let c := s.context L.sub.ctx
    if (status = 3 ∨ status = 5) ∧ (c.st = .running ∨ c.st = .preempting) then
      let calm (_ : Nat) (t : Thread) : Thread := if t.task.isSome ∧ t.ctxNo = L.sub.ctx then { t with pend := false } else t
      { s.setCtx L.sub.ctx { c with st := .faulted } with threads := Tab.mapV calm s.threads }
    else s

/-- Groups of a launch in the subtree of `g`. -/
def State.subtree (s : State) (l g : Nat) : List Nat :=
  (s.groups.filter (fun e => e.1 / 4096 == l && s.inSubtree l g (e.1 % 4096))).map (fun e => e.1 % 4096)

/-- A group and its subtree enter Ending (R359). With `k` their records are discarded and counted, their tasks abandoned,
their attached, adopted and orphan tokens cancelled; a detached token becomes an orphan. -/
def State.endGroup (s : State) (l g : Nat) (k : Bool) : State :=
  let gs := s.subtree l g
  let s := gs.foldl (fun s x => match s.group? l x with
    | some b => if b.st = 4 then s else s.setGroup l x (b.put 0 60 4 3)
    | none => s) s
  if !k then s else
  let mine (lo : Option Nat) (x : Nat) : Bool := lo == some l && gs.contains x
  let gone (m : Msg) : Bool := m.ofGroup && mine m.launch (hGrp m.h0)
  let s := (s.dropMsgs gone true).dropSaved gone true
  let ps := s.placesWhere (fun t => mine t.launchNo t.grp)
  let es := ps.filterMap (fun p => (s.thread p).entry?.map (fun e => (cluOfPlace p, e)))
  let s := ps.foldl State.freeThread s
  let s := es.foldl (fun s e => s.setClu e.1 { s.clu e.1 with commits := Tab.del (s.clu e.1).commits e.2 }) s
  let ts := s.toksWhere (fun t => mine t.launch t.grp)
  ts.foldl (fun s key => match s.tok? key with
    | none => s
    | some t =>
      if t.hold = 1 ∧ !t.st.terminal then s.setTok key { t with hold := 2, holder := none, kept := none }
      else
        let s := s.endTok key .cancelled
        match s.tok? key with
        | some t => s.setTok key { t with hold := 2, holder := none, kept := none }
        | none => s) s

/-- The group that a fault of group `g` reaches: up while `dom` is propagate and the group is not the root (R360). -/
def State.faultDomain (s : State) (l : Nat) : Nat → Nat → Nat
  | g, 0 => g
  | g, n + 1 =>
    match s.group? l g with
    | none => g
    | some b => if b.dom || b.par = g then g else s.faultDomain l b.par n

/-- The eight words of a fault record (R360). -/
def FltRec.word (r : FltRec) : Nat → Word
  | 0 => wd (r.code + r.cls % 4 * 2 ^ 16 + r.place % 2 ^ 16 * 2 ^ 32 + r.grp % 4096 * 2 ^ 48)
  | 1 => r.pc
  | 2 => r.addr
  | 3 => wd (r.tok % 2 ^ 32)
  | 4 => r.ts
  | 5 => r.syn
  | 6 => wd r.cyc
  | _ => wd r.detail

/-- Store a fault record at a virtual address of the launch's context; a record that cannot be stored is lost. -/
def State.storeRec (s : State) (l ctx cl p : Nat) (va : Nat) (r : FltRec) : State :=
  match s.engLoc cl ctx (some l) p .write (wd va) with
  | .ok loc => (List.range 8).foldl (fun s k => s.writeN (loc + 8 * k) 8 (r.word k).toNat) s
  | .error _ => s

/-- Route and destination of a record that the part makes for a task that ran at place `p`: the task unit of its cluster; for a dispatch
core, where no task unit places a record (R14), the core's own inbox (log entry 127). -/
def unitOf (p : Nat) : Nat × Dest :=
  if isDispatch p then (p / 8 * 8, .core (coreOf p)) else (clusterRoute (cluOfPlace p), .task (cluOfPlace p))

/-- Report a fault of group `g` of launch `l` (R360): the launch ends with status 3, or the containing group ends, its record
is written and its fault handler starts in the parent. A fault of an Ending group is discarded and counted (R359). -/
def State.report (s : State) (l g : Nat) (r : FltRec) : State :=
  let s := { s with faults := r :: s.faults }
  let cl := cluOfPlace r.place
  match s.group? l g, s.launch? l with
  | some b, some L =>
    if 3 ≤ b.st then s.countLoss cl 1
    else
      let d := s.faultDomain l g 4096
      match s.group? l d with
      | none => s.killLaunch l 3
      | some D =>
        if !D.dom || D.par = d then s.killLaunch l 3
        else
          let s := if D.frec ≠ 0 then s.storeRec l L.sub.ctx cl r.place D.frec r else s
          let s := s.endGroup l d true
          if D.fh = 0 then s
          else
            let pay : Vector Reg 3 := #v[mkReg (r.word 0) (r.word 1), mkReg (r.word 2) (r.word 3), mkReg (r.word 4) (r.word 5)]
            let m := newMsg (mkH0 0 D.par D.fh) (mkH1 (unitOf r.place).1 0 0) pay r.place (unitOf r.place).2
            s.post { m with launch := some l, ctx := L.sub.ctx, sgrp := D.par }
  | _, _ => s.killLaunch l 3

/-- The launch and group of the task whose request the pager core of a place serves: of the first that sleeps on it (R218; log entry
121). -/
def State.servedTask (s : State) (p : Nat) : Option (Nat × Nat) :=
  if !isService p then none
  else (s.core (coreOf p)).asked.findSome? (fun q => match q with
    | .sleep w _ => (match (s.thread w).wait, (s.thread w).launchNo with | .pager _ _, some l => some (l, (s.thread w).grp) | _, _ => none)
    | _ => none)

/-- Charge one error to group `g` of launch `l`, or to the group whose request firmware at `p` serves (R218). The charge that reaches the limit exhausts the budget: the group is
Degraded and its budget handler starts (R219, R362), or it ends as by a fault when it has none. -/
def State.charge (s : State) (l : Option Nat) (g p : Nat) : State :=
  match l.map (·, g) <|> s.servedTask p with
  | none => s.setHub { s.hub with errCorr := satAt (2 ^ 64 - 1) (s.hub.errCorr + 1) }
  | some (n, g) =>
    match s.group? n g, s.launch? n with
    | some b, some L =>
      let e := satAt (2 ^ 32 - 1) (b.ecnt + 1)
      let b := b.put 3 32 32 e
      if b.st = 1 ∧ b.elim ≠ 0 ∧ b.elim ≤ e then
        if b.bh = 0 then
          let s := s.setGroup n g b
          s.report n g { code := Code.budgetExhausted, cls := s.classOf (some n) g, place := p, grp := g, pc := 0, addr := 0, tok := 0,
                         ts := 0, syn := Config.syndrome 2 Code.budgetExhausted 0, cyc := s.cyc, detail := 0 }
        else
          let s := s.setGroup n g (b.put 0 60 4 2)
          let pay : Vector Reg 3 := #v[mkReg b.addr (wd g), scalar (wd (b.elim + e * 2 ^ 32)), 0]
          let m := newMsg (mkH0 0 g b.bh) (mkH1 (unitOf p).1 0 0) pay p (unitOf p).2
          s.post { m with launch := some n, ctx := L.sub.ctx, sgrp := g, budget := true }
      else s.setGroup n g b
    | _, _ => s

/-! ### Saves and requeued records (R368 to R370) -/

/-- A record that has waited in the save or requeue area travels again, its header unchanged. -/
def State.repost (s : State) (m : Msg) : State :=
  ({ s with mesh := Tab.put s.mesh s.nextId { m with ord := s.nextId, counted := false, parent := none } }).bump

/-- A task unit takes a record that the part itself makes, through the mesh when it is full (R244). -/
def State.offer (s : State) (cl : Nat) (m : Msg) : State :=
  if (s.clu cl).tu.length < 1024 then
    (s.setClu cl { s.clu cl with tu := (s.clu cl).tu ++ [{ m with arrival := s.cyc, ord := s.nextId }] }).bump
  else { s with mesh := Tab.put s.mesh s.nextId { m with ord := s.nextId } }.bump

/-- The messages of a requeued firing go back into a firing entry of their cluster, or wait for one under a number above 63,
and the join unit offers the record again (R282, R368). -/
def State.backToFiring (s : State) (cl : Nat) (m : Msg) (ms : List PMsg) : State :=
  let k := s.clu cl
  let i := (Tab.freeKey k.firings 0 64).getD (64 + s.nextId)
  (s.setClu cl { k with firings := Tab.put k.firings i ms }).offer cl { m with firing := some i }

/-- A context's saved tasks and requeued records go back to their clusters and cores as records (R368, R369). -/
def State.resumeRecords (s : State) (n : Nat) : State :=
  let c := s.context n
  let s := s.setCtx n { c with saves := [], requeue := [], firings := [], nsav := 0 }
  let s : State := { s with toks := Tab.mapV (fun _ t => if t.ctx = n then t.resume else t) s.toks }
  let s := c.saves.foldl State.repost s
  let s := c.requeue.foldl (fun s e => s.repost e.2) s
  c.firings.foldl (fun s e => s.backToFiring e.1 e.2.1 e.2.2) s

/-- A task of the context is still in Saving. -/
def State.anySaving (s : State) (n : Nat) : Bool :=
  s.threads.any (fun e => e.2.task.isSome && e.2.ctxNo == n && e.2.saving)

/-- An abandoned pre-emption: once no task of the context is in Saving, the launches whose save failed end with status 4, their entries
and records discarded, and what the others have saved and requeued is resumed (R370). -/
def State.abandoned (s : State) (n : Nat) : State :=
  if s.anySaving n then s
  else
    let ls := (s.context n).failed
    let s := s.setCtx n { s.context n with failed := [] }
    (ls.foldl (fun s l => s.killLaunch l 4) s).resumeRecords n

/-- A save of launch `l` failed: the pre-emption of context `n` is abandoned (R370). -/
def State.saveLost (s : State) (n : Nat) (l : Option Nat) : State :=
  let s := (s.placesWhere (fun t => t.ctxNo == n)).foldl (fun s q => s.setThread q { s.thread q with pend := false }) s
  let c := s.context n
  (s.setCtx n { c with st := .faulted, failed := c.failed ++ l.toList }).abandoned n

/-- The save of the task at `p` failed. -/
def State.saveFail (s : State) (p : Nat) : State :=
  let t := s.thread p
  (s.freeThread p).saveLost t.ctxNo t.launchNo

/-- Entries of a context's requeue area in use (R368). -/
def Ctx.areaUsed (c : Ctx) : Nat := c.requeue.length + (c.firings.map (fun e => 1 + e.2.2.length)).sum

/-- Entries of the requeue area are written; the layout of an entry is not given, so its bytes are free values (R244, R368; log
entry 28). -/
def State.areaWrite (s : State) (ctx cl i n : Nat) : State :=
  let entry (s : State) (j : Nat) : State :=
    match s.engLoc cl ctx none (placeOf cl 0 0) .write ((s.context ctx).rqa + wd (128 * (i + j))) with
    | .ok loc => (List.range 16).foldl (fun s k => s.writeN (loc + 8 * k) 8 (Config.areaWord s.fresh k).toNat) s
    | .error _ => s
  ((List.range n).foldl entry s).draw

/-- A record of a context that is being pre-empted moves to its requeue area, with the messages of a firing, whose entry is
freed; one that does not fit makes the save of its launch fail (R368, R370). -/
def State.requeueMsg (s : State) (cl : Nat) (m : Msg) : State :=
  let c := s.context m.ctx
  let held := m.firing.bind (fun k => Tab.get? (s.clu cl).firings k)
  let n := 1 + (held.getD []).length
  if c.rqn < c.areaUsed + n then s.saveLost m.ctx m.launch
  else
    let s := s.areaWrite m.ctx cl c.areaUsed n
    let c := s.context m.ctx
    match held, m.firing with
    | some ms, some k =>
      let s := s.setCtx m.ctx { c with firings := c.firings ++ [(cl, m, ms)] }
      s.setClu cl { s.clu cl with firings := Tab.del (s.clu cl).firings k }
    | _, _ => s.setCtx m.ctx { c with requeue := c.requeue ++ [(cl, { m with counted := false, parent := none })] }

/-- Charge an error that could not be corrected; with no group the device counts it as such (R211, R218). -/
def State.chargeBad (s : State) (l : Option Nat) (g p : Nat) : State :=
  match l.map (·, g) <|> s.servedTask p with
  | none => s.setHub { s.hub with errUncorr := satAt (2 ^ 64 - 1) (s.hub.errUncorr + 1) }
  | some _ => s.charge l g p

/-! ### Granules (R206, R211) -/

/-- Who reads a granule, for the charge of an error (R218). -/
structure Reader where
  launch : Option Nat
  grp : Nat
  place : Nat
  deriving DecidableEq, Repr

/-- What reading a granule finds (R211): good data; data with symbols inverted; altered data (a miscorrection); poison, with
whether this read found it. -/
inductive GOut where
  | good
  | flipped (syms : List Nat)
  | altered (syms : List Nat)
  | bad (found : Bool)
  deriving DecidableEq, Repr

/-- Damaged symbols lie within 16 consecutive bits, a burst that CRC-16 detects (R206). -/
def isBurst (d : List Nat) : Bool := decide (d.foldl Nat.max 0 < d.foldl Nat.min 1000 + 4)

/-- What a check by class finds in a copy with damaged symbols `d`: nothing to repair, corrected, detected, or damage beyond
the code, whose outcome is open (R206, R211; log entry 7). -/
inductive Found where
  | none | corrected | detected | miscorrected | unseen
  deriving DecidableEq, Repr

def classify (g cls : Nat) (d : List Nat) : Found :=
  if d.isEmpty then .none
  else if cls = 0 then
    if d.length = 1 then .corrected
    else if d.length = 2 then .detected
    else match Config.damageOutcome g d % 3 with
      | 0 => .detected | 1 => .miscorrected | _ => .unseen
  else if cls = 1 then
    if isBurst d then .detected
    else match Config.damageOutcome g d % 3 with
      | 0 => .detected | 1 => .detected | _ => .unseen
  else .unseen

/-- Charge an error, or count it on the device when no group owns the reader (R218). -/
def State.chargeTo (s : State) (w : Reader) : State := s.charge w.launch w.grp w.place

/-- The byte at offset `i` of a granule with inverted symbols (R206: symbol i is bits 4i+3 to 4i). -/
def flipByte (d : List Nat) (i : Nat) (b : Byte) : Byte :=
  (b ^^^ (if d.contains (2 * i) then 0x0F else 0)) ^^^ (if d.contains (2 * i + 1) then 0xF0 else 0)

/-- The bytes that a consumer receives of what is stored from a location up. -/
def GOut.apply (o : GOut) (loc : Nat) (bs : List Byte) : List Byte :=
  match o with
  | .flipped d => bs.zipIdx.map (fun e => flipByte d ((loc + e.2) % 64) e.1)
  | .altered d => bs.zipIdx.map (fun e => Config.miscorrected (loc + e.2) d e.1)
  | _ => bs

/-- An engine holds a line of the granule (R164, R211). -/
def State.engineHolds (s : State) (loc : Nat) : Bool :=
  let held (l : Nat) : Bool := match Tab.getD s.dir l .uncached with | .engine _ _ => true | _ => false
  held (loc / 64 * 2) || held (loc / 64 * 2 + 1)

/-- Symbols of a line in its granule's list. -/
def lineSyms (line : Nat) (d : List Nat) : List Nat := d.filter (fun k => decide (k / 64 = line % 2))

/-- Read the check bits of the granule at a location by class `cls`, with the repairs, poisoning and charges of R211. -/
def State.checkGran (s : State) (loc cls : Nat) (w : Reader) : GOut × State :=
  let g := loc / 64
  let k := s.granule g
  if cls ≤ 1 ∧ k.poison then (.bad false, s)
  else
    let near := decide (tagScratch ≤ locTag loc)
    -- the L2 holds a host- or peer-backed granule by its lines, each with damage of its own
    let mine := if isRemote loc then lineSyms (loc / 32) k.l2 else k.l2
    let rest := k.l2.filter (fun x => !mine.contains x)
    let fromL2 := !near && (k.l2Dirty || !mine.isEmpty)
    -- a damaged clean L2 copy is fetched again from memory and charged 1
    let dirty := k.l2Dirty || (isRemote loc && (match Tab.get? s.copies (loc / 32) with | some c => c.dirty | none => false))
    let refetch := fromL2 && !dirty && (decide (cls ≤ 1) || isRemote loc)
    let s := if refetch then (s.setGran g { k with l2 := rest }).chargeTo w else s
    let k := if refetch then { k with l2 := rest } else k
    let d := if near then k.near else if fromL2 && !refetch then mine else k.hbm
    let fix (k : Gran) : Gran :=
      if near then { k with near := [] } else if fromL2 && !refetch then { k with l2 := rest } else { k with hbm := [] }
    match classify g cls d with
    | .none => (.good, s)
    | .corrected => (.good, (if s.engineHolds loc then s else s.setGran g (fix k)).chargeTo w)
    | .detected => (.bad true, (s.setGran g { fix k with poison := true }).chargeBad w.launch w.grp w.place)
    | .miscorrected =>
      let base := g * 64
      if s.engineHolds loc then (.altered d, s.chargeTo w)
      else (.good, ((s.putBytes base ((GOut.altered d).apply base (s.bytesAt base 64))).setGran g (fix k)).chargeTo w)
    | .unseen => (.flipped d, s)

/-- Symbols of a granule that `n` bytes from a location overwrite are damaged no longer (class none, R215). -/
def healed (loc n : Nat) (d : List Nat) : List Nat :=
  d.filter (fun k => decide (k / 2 < loc % 64) || decide (loc % 64 + n ≤ k / 2))

/-- Store bytes within one granule as its home does (R215): read, check, merge, fresh check bits; a store onto an
uncorrectable or poisoned granule fails. -/
def State.storeGran (s : State) (loc cls : Nat) (bs : List Byte) (w : Reader) : Bool × State :=
  let g := loc / 64
  if cls ≥ 2 then
    let k := s.granule g
    let k := if tagScratch ≤ locTag loc then { k with near := healed loc bs.length k.near }
      else { k with l2 := healed loc bs.length (if k.l2Dirty || !k.l2.isEmpty then k.l2 else k.hbm), l2Dirty := locTag loc == 0 }
    (true, (s.setGran g k).putBytes loc bs)
  else
    match s.checkGran loc cls w with
    | (.bad _, s) => (false, s)
    | (o, s) =>
      let base := loc / 64 * 64
      let s := match o with
        | .flipped _ | .altered _ => s.putBytes base (o.apply base (s.bytesAt base 64))
        | _ => s
      let k := s.granule g
      let s := if locTag loc = 0 then s.setGran g { k with l2 := [], l2Dirty := true } else s.setGran g { k with near := [] }
      (true, s.putBytes loc bs)

/-! ### Records that the part writes into rings (R388, R420, R423) -/

/-- A 16-byte record goes to memory as a class-full store that is never checked for races (R420). -/
def State.putRecord (s : State) (p loc lo hi : Nat) : State :=
  (s.storeGran loc 0 (leBytes 8 lo ++ leBytes 8 hi) { launch := none, grp := 0, place := p }).2

/-- Write a trace record when the core's encoder is on (R420). -/
def State.trace (s : State) (p ev : Nat) (v : Word) : State :=
  let k := s.core (coreOf p)
  let lgn := k.trcCfg.toNat
  if k.trcEn && decide (8 ≤ lgn) && decide (lgn ≤ 20) then
    let at_ := locIn 0 ((k.trcBase.toNat + 16 * (k.trcWi.toNat % 2 ^ lgn)) % 2 ^ 53)
    let s := s.putRecord p at_ v.toNat (s.cyc % 2 ^ 32 * 2 ^ 32 + ev * 2 ^ 28 + p % 8 * 2 ^ 25)
    s.setCore (coreOf p) { s.core (coreOf p) with trcWi := k.trcWi + 1 }
  else s

/-! ### Taking a fault (R257, R360) -/

/-- The record of a fault of the task at place `p`, raised by the instruction at `ipc` (R360). -/
def State.fltRec (s : State) (p : Nat) (ipc : Word) (f : Flt) : FltRec :=
  let t := s.thread p
  { code := f.code, cls := f.mcls.getD (s.effClass p), place := p, grp := t.grp, pc := ipc, addr := f.addr, tok := f.tok,
    ts := t.ts, syn := f.syn, cyc := s.cyc, detail := f.detail }

/-- The key of a running ordered task (R243). -/
def Thread.key (t : Thread) : Nat × Nat := (t.ts.toNat, t.seq.toNat)

/-- Keys are compared first by timestamp (R243). -/
def keyLt (a b : Nat × Nat) : Bool := decide (a.1 < b.1) || (decide (a.1 = b.1) && decide (a.2 < b.2))

/-- The frontier last applied for a launch (R263). -/
def State.frontier (s : State) (l : Option Nat) : Nat × Nat := ((l.bind s.launch?).map (·.front)).getD (0, 0)

/-- The ordered task at `p` becomes Irrevocable: it is not undone any more (R257). -/
def State.makeIrrev (s : State) (p : Nat) : State :=
  let t := s.thread p
  match t.task with
  | none => s
  | some k =>
    match k.entry with
    | none => s
    | some e =>
      let cl := cluOfPlace p
      let s := s.setThread p { t with task := some { k with irrev := true } }
      match Tab.get? (s.clu cl).commits e with
      | none => s
      | some c => s.setClu cl { s.clu cl with commits := Tab.put (s.clu cl).commits e { c with irrev := true } }

/-- A speculative ordered task waits for the frontier; if the applied frontier is its key it goes on at once, Irrevocable (R257). -/
def State.waitFrontier (s : State) (p : Nat) : State :=
  let t := s.thread p
  if s.frontier t.launchNo = t.key then s.makeIrrev p else s.setThread p { t with wait := .frontier }

/-- The same at its present instruction, which runs again. -/
def State.awaitFrontier (s : State) (p : Nat) : State :=
  (s.setThread p { s.thread p with pc := (s.thread p).ipc, pfx := none }).waitFrontier p

/-- A fault of a speculative ordered task waits for the frontier, which makes the task Irrevocable; the charge of an error newly
found does not wait (R213, R257). -/
def State.holdFault (s : State) (p : Nat) (ipc : Word) (f : Flt) : State :=
  let t := s.thread p
  let s := if f.charge then s.chargeBad t.launchNo t.grp p else s
  let s := s.setThread p { s.thread p with wait := .fault { f with charge := false } ipc, pfx := none }
  if s.frontier t.launchNo = t.key then s.makeIrrev p else s

/-- TAKING A FAULT of the task at place `p`, raised by the instruction at `ipc`. A speculative ordered task waits for the frontier first (R257); a fault of a save
routine makes the save fail (R370); otherwise the fault is charged if it is an error newly found (R211, R217), traced (R420),
and reported to the task's group (R360), and the task is abandoned. A task of no launch, firmware's own, is only abandoned
(log entry 16). -/
def State.takeFaultAt (s : State) (p : Nat) (ipc : Word) (f : Flt) : State :=
  let t := s.thread p
  if t.speculative then s.holdFault p ipc f
  else
    let r := s.fltRec p ipc f
    let s := if f.charge then s.chargeBad t.launchNo t.grp p else s
    let s := s.trace p 5 (wd f.code)
    if t.saving then
      ({ s with faults := r :: s.faults }).saveFail p
    else
      let s := match t.launchNo with
        | some l => s.report l t.grp r
        | none => { s with faults := r :: s.faults }
      if (s.thread p).task.isSome then
        let e := (s.thread p).entry?
        let s := (s.orphanToks p).freeThread p
        match e with
        | some k => s.setClu (cluOfPlace p) { s.clu (cluOfPlace p) with commits := Tab.del (s.clu (cluOfPlace p)).commits k }
        | none => s
      else s

/-- Taking a fault of the running instruction. -/
def State.takeFault (s : State) (f : Flt) : State := s.takeFaultAt s.cur s.me.ipc f

/-- The outcome of a meaning that started in `s`: its state; a fault taken; or a hold, after which the instruction runs
again. -/
def settle (s : State) : Res → Out
  | .ok s' => .next s'
  | .error (.flt f) => .next (s.takeFault f)
  | .error .wait => .next s.rewind
  | .error (.hold s') => .next s'
  | .error (.kept s' f) => .next (s'.takeFault f)

/-! ### Register operands (R35 to R38, R65, R217) -/

/-- Reading register `r`: a stale latch faults (R37), a register whose load is outstanding is waited for (R65), injected
damage is corrected, detected or passed by the effective class (R217). -/
def State.readReg (s : State) (r : Spec) : Except Stop Reg :=
  let t := s.me
  if r = 1 then .ok 0
  else if r = 0 ∧ t.ltStale then .error (fltC Code.staleLatch)
  else if s.busy r then .error .wait
  else
    let v := t.regs[r]
    let d := t.damage r
    if d.isEmpty then .ok v
    else
      let c := s.effClass s.cur
      if c = 0 then
        if correctable d then
          let fixed := { t with regs := t.regs.set r (flipSyms v d), dmg := t.dmg.filter (fun e => e.1 != r.val) }
          .error (.hold (((s.setMe fixed).charge t.launchNo t.grp s.cur).rewind))
        else .error (.flt { code := Code.arrayError, mcls := some 0 })
      else if c = 1 then .error (.flt { code := Code.arrayError, mcls := some 1, charge := true })
      else .ok v

/-- The low 64 bits of register `r` (R38). -/
def State.read64 (s : State) (r : Spec) : Except Stop Word :=
  match s.readReg r with
  | .ok v => .ok (lo64 v)
  | .error e => .error e

/-- No outstanding load will still write `lt` of the running context: a later result has (R36). -/
def State.clearWlt (s : State) : State :=
  if s.acc.any (fun e => e.2.place == s.cur && (e.2.wlt || e.2.dst == some 0)) then
    { s with acc := s.acc.map (fun e => if e.2.place == s.cur then
        (e.1, { e.2 with wlt := false, dst := if e.2.dst = some 0 then none else e.2.dst }) else e) }
  else s

/-- Write a result; it waits for an outstanding load of the same register (R65). -/
def State.writeReg (s : State) (d : Spec) (v : Reg) : Res :=
  if d = 1 then .ok s
  else if d != 0 && s.busy d then .error .wait
  else .ok ((s.setMe (s.me.result d v)).clearWlt)

/-- Predicate `p` of a context; p0 reads 1 (R39). -/
def Thread.pred (t : Thread) (p : PredNo) : Bool := if p = 0 then true else t.preds.getLsbD p.val

/-- A context with predicate `p` written; p0 stays 1 (R39). -/
def Thread.setPred (t : Thread) (p : PredNo) (b : Bool) : Thread :=
  if p = 0 then t
  else { t with preds := if b then t.preds ||| ((1 : BitVec 8) <<< p.val) else t.preds &&& ~~~((1 : BitVec 8) <<< p.val) }

/-- Make `lt` stale: a safe point, `susp`, a handler start (R37). -/
def State.stale (s : State) : State := (s.setMe { s.me with ltStale := true }).clearWlt

/-- A register of three, four or two in a row. -/
def specPlus (r : Spec) (k : Nat) : Spec := if r = 1 then 1 else Fin.ofNat 64 (r.val + k)

end Sys2Proof.Machine
end

