-- ==== Sys2Proof/Machine/Flags.lean ====
section
/-! DEFINITION. System registers and the sticky flags of fm: which values are valid formats (R96, R97, R106, R107), what
`mfs` reads and `mts` checks and writes (R42, R43, R88, R89, R100). -/

namespace Sys2Proof.Machine

/-! ### Formats -/

/-- Width in bits of a wid code (R96). -/
def widthOf : Nat → Nat
  | 0 => 4 | 1 => 6 | 2 => 8 | _ => 16

/-- A valid 32-bit element format (R97); 0 names none and is not valid. -/
def fmtValid (v : Nat) : Bool :=
  let kind := bits v 0 2
  let e := bits v 2 4
  let m := bits v 6 4
  let spec := bits v 10 2
  let bias := bits v 12 8
  let wid := bits v 20 3
  let sgn := bits v 23 1
  decide (v < 2 ^ 24) && decide (wid < 4) &&
    match kind with
    | 0 => decide (1 ≤ e) && decide (e ≤ 8) && decide (m ≤ 10) && (1 + e + m == widthOf wid) && decide (spec < 3) &&
        (spec != 0 || decide (2 ≤ e)) && (spec == 2 || decide (1 ≤ m)) && sgn == 0
    | 1 => e == 0 && m == 0 && bias == 0 && spec == 3
    | 2 => v == 2
    | _ => false

/-- Kept values per 48 of a sparsity code (R106). -/
def sparN : Nat → Nat
  | 1 => 12 | 2 => 16 | 3 => 24 | 4 => 32 | _ => 48

/-- Fields of a bank format (R106). -/
def bfElem (v : Nat) : Nat := bits v 0 32
def bfBlk (v : Nat) : Nat := bits v 32 2
def bfSp (v : Nat) : Bool := bits v 34 1 == 1
def bfTso (v : Nat) : Nat := bits v 36 8
def bfSpar (v : Nat) : Nat := bits v 48 3
/-- The element format is i4o. -/
def fmtI4o (e : Nat) : Bool := bits e 0 2 == 2
def fmtInt (e : Nat) : Bool := bits e 0 2 == 1
def fmtWidth (e : Nat) : Nat := widthOf (bits e 20 3)

/-- Elements that share a block (R106, R108); 0 for an unbroken run. -/
def bfBlockLen (v : Nat) : Nat :=
  match bfBlk v with
  | 1 => 16 | 2 => 32 | 3 => 48 | _ => if bfSpar v = 0 then 0 else 48

/-- Bytes of one block, S (R108); 0 for an unbroken run. -/
def bfStride (v : Nat) : Nat :=
  let n := sparN (bfSpar v)
  let len := bfBlockLen v
  if len = 0 then 0 else
  (if bfBlk v ≠ 0 ∧ !bfSp v then 1 else 0) + (if fmtI4o (bfElem v) then 1 else 0) +
    ((if bfSpar v = 0 then len else n) * fmtWidth (bfElem v) + 7) / 8 + (if bfSpar v = 0 then 0 else (n * 6 + 7) / 8)

/-- A bank format value that R107 accepts; 0 means the bank has none. -/
def bfValid (v : Nat) : Bool :=
  v == 0 ||
    (fmtValid (bfElem v) && bits v 51 13 == 0 && bits v 44 4 == 0 && bits v 35 1 == 0 && decide (bfSpar v < 6) &&
      (!fmtI4o (bfElem v) || (bfBlk v == 3 && !bfSp v && bfTso v == 0)) &&
      (bfSpar v == 0 || bfBlk v == 0 || bfBlk v == 3) && (!bfSp v || bfBlk v != 0) &&
      (!bfSp v || decide (64 * bfTso v + 16384 / bfStride v ≤ 16384)))

/-- A value that `mts fm` accepts (R100). -/
def fmValid (v : Nat) : Bool := decide (v < 2 ^ 14) && bits v 3 5 == 0 && decide (bits v 0 3 < 5)

/-! ### Flags -/

/-- Sticky flags (R100), as the six bits 13:8 of fm: nv 0, dz 1, of 2, uf 3, nx 4, sat 5. -/
abbrev Flags := BitVec 6
def fNv : Flags := 1
def fDz : Flags := 2
def fOf : Flags := 4
def fUf : Flags := 8
def fNx : Flags := 16
def fSat : Flags := 32

/-- A context with flags or-ed into fm (R101). -/
def Thread.raise (t : Thread) (f : Flags) : Thread := { t with fm := t.fm ||| (f.setWidth 64 <<< 8) }

/-- The rounding mode of fm (R100). -/
def Thread.rm (t : Thread) : Nat := wbits t.fm 0 3

/-! ### Reading and writing system registers -/

/-- The counters in the layout of cnt (R42). -/
def Thread.cnt (t : Thread) : Word := wd (t.cld % 64 + t.cst % 64 * 2 ^ 6 + t.ccp % 64 * 2 ^ 12 + t.ctl % 64 * 2 ^ 18)

/-- What `mfs` reads in the context at place `p` (R88). -/
def State.sysRead (s : State) (p : Nat) (n : Nat) : Word :=
  let t := s.thread p
  match n with
  | 0 => t.ipc
  | 1 => t.fm
  | 2 => t.f[0] | 3 => t.f[1] | 4 => t.f[2] | 5 => t.f[3]
  | 6 => t.ts
  | 7 => t.seq
  | 8 => wd t.grp
  | 9 => wd t.ctxNo
  | 10 => wd p
  | 11 => wd s.cyc
  | 12 => t.tagbase
  | 13 => t.cnt
  | 14 => t.h0
  | 15 => t.h1
  | 16 => t.lc
  | 17 => t.srs
  | 18 => wd (s.effClass p)
  | 19 => if s.privileged p then 1 else 0
  | n => if 20 ≤ n ∧ n < 28 then ((s.core (coreOf p)).bf[n - 20]?).getD 0 else 0

/-- What `mts` of a writable register checks and writes (R89). -/
def State.sysWrite (s : State) (p : Nat) (n : Nat) (v : Word) : Except Stop State :=
  let t := s.thread p
  let bad : Stop := .flt { code := Code.formatValue, syn := v, detail := n }
  if n = 1 then if fmValid v.toNat then .ok (s.setThread p { t with fm := v }) else .error bad
  else if 2 ≤ n ∧ n ≤ 5 then
    if v = 0 ∨ fmtValid v.toNat then .ok (s.setThread p { t with f := t.f.setIfInBounds (n - 2) v }) else .error bad
  else if n = 12 then
    if !formOk v then .error (fltA Code.addressForm v)
    else if v.toNat % 64 ≠ 0 then .error (fltA Code.alignment v)
    else .ok (s.setThread p { t with tagbase := v })
  else if n = 16 then .ok (s.setThread p { t with lc := v })
  else if n = 17 then .ok (s.setThread p { t with srs := v })
  else if 20 ≤ n ∧ n < 28 then
    if bfValid v.toNat then
      let k := s.core (coreOf p)
      .ok (s.setCore (coreOf p) { k with bf := k.bf.setIfInBounds (n - 20) v })
    else .error bad
  else .error (fltC Code.illegal)

end Sys2Proof.Machine
end

