-- ==== Sys2Proof/Machine/Dev.lean ====
section
/-! DEFINITION. The device-register window (R6, R7, R160): class-block table (R209, R210), context records (R365), Turat's
registers (R385), the hub block (R406, R411 to R416, R423) and the cores' debug blocks (R418). Offsets are from
0x7FFF_0000_0000. A write carries a mask of the bits that the access covers. -/

namespace Sys2Proof.Machine

/-- Old bits outside a mask, new ones inside. -/
def merge (old v mask : Word) : Word := (old &&& ~~~mask) ||| (v &&& mask)

/-! ### Classes of frames (R207, R209, R210) -/

/-- Raw storage of a frame by class, in units of 64 KiB (R207). -/
def rawUnits : Nat → Nat
  | 0 => 36 | 1 => 33 | 2 => 32 | _ => 0

/-- Raw storage in use (R209): what boot leaves, with every frame that was written since. -/
def State.rawUsed (s : State) : Nat :=
  s.frames.foldl (fun n e => n + rawUnits e.2 - rawUnits (bootClass e.1)) (262144 * 36)

/-- A CLS_BLK register's value: two bits for each of 32 frames (R209). -/
def State.clsBlk (s : State) (j : Nat) : Word :=
  wd ((List.range 32).foldl (fun n i => n + s.frameCls (32 * j + i) * 4 ^ i) 0)

/-- Write CLS_BLK_j as one step (R210). -/
def State.clsWrite (s : State) (j : Nat) (v : Word) : State :=
  let new := (List.range 32).map (fun i => (32 * j + i, wbits v (2 * i) 2))
  let chg := new.filter (fun e => s.frameCls e.1 != e.2)
  let fr := chg.foldl (fun f e => Tab.put f e.1 e.2) s.frames
  let s' := { s with frames := fr }
  if 9437184 < s'.rawUsed || chg.any (fun e => fwFrame e.1) then s.setHub { s.hub with rej := true }
  else
    let hit (a : Nat) : Bool := locTag a == 0 && chg.any (fun e => e.1 == a / 0x200000)
    let s := { s' with mem := s'.mem.filter (fun c => !hit c.1), gran := s'.gran.filter (fun g => !hit (g.1 * 64)) }
    s.setHub { s.hub with busy := s.hub.busy ++ (chg.map (·.1)).filter (fun n => !s.hub.busy.contains n) }

/-! ### MSI-X (R416) -/

/-- An entry after reset: masked, as the PCI Express specification resets the mask bit (PRESUMED, log entry 17). -/
def msixReset : Msix := { addr := 0, data := 0, mask := 1, pend := false }

/-- Raise a vector: its message goes to the host, or stays pending while it is masked or the link is down (R416; the PCI Express rules, log
entry 17). -/
def State.raiseMsix (s : State) (v : Nat) : State :=
  let m := Tab.getD s.hub.msix v msixReset
  if m.mask.getLsbD 0 ∨ s.hub.rate = 0 then s.setHub { s.hub with msix := Tab.put s.hub.msix v { m with pend := true } }
  else
    let s := { s with mem := memPutN s.mem (locIn 1 m.addr.toNat) (leBytes 4 m.data.toNat) }
    s.setHub { s.hub with raised := v :: s.hub.raised, msix := Tab.put s.hub.msix v { m with pend := false } }

/-- Vectors that are pending and not masked are raised, as the link comes up. -/
def State.flushMsix (s : State) : State :=
  (s.hub.msix.filter (fun e => e.2.pend && !e.2.mask.getLsbD 0)).foldl (fun s e => s.raiseMsix e.1) s

/-- One word of the MSI-X table: address, then data with vector control. -/
def State.msixWord (s : State) (k : Nat) : Word :=
  let m := Tab.getD s.hub.msix (k / 2) msixReset
  if k % 2 = 0 then m.addr else wd (m.data.toNat + m.mask.toNat % 2 * 2 ^ 32)

def State.msixWrite (s : State) (k : Nat) (v : Word) : State :=
  let m := Tab.getD s.hub.msix (k / 2) msixReset
  if k % 2 = 0 then s.setHub { s.hub with msix := Tab.put s.hub.msix (k / 2) { m with addr := v } }
  else
    let m := { m with data := v.setWidth 32, mask := (v >>> 32).setWidth 32 &&& 1 }
    let s := s.setHub { s.hub with msix := Tab.put s.hub.msix (k / 2) m }
    if m.pend ∧ !m.mask.getLsbD 0 then s.raiseMsix (k / 2) else s

/-! ### Context records (R365) -/

def CState.code : CState → Nat
  | .destroyed => 0 | .created => 1 | .idle => 2 | .running => 3 | .preempting => 4 | .suspended => 5 | .frozen => 6
  | .faulted => 7

/-- The eight words of a context's record; a Destroyed context's holds only its number (R365, R374). -/
def State.ctxWord (s : State) (n k : Nat) : Word :=
  let c := s.context n
  let pst := if c.st = .frozen then c.pst.code else 0
  if c.st = .destroyed then (if k = 0 then wd (n * 2 ^ 32) else 0) else
  match k with
  | 0 => wd ((if c.prv then 1 else 0) + n * 2 ^ 32 + pst * 2 ^ 56 + c.st.code * 2 ^ 60)
  | 1 => wd c.nsav
  | 2 => wd c.lay
  | 3 => c.root
  | 4 => c.bas
  | 5 => c.rqa
  | 6 => wd (c.rqn + c.svs * 2 ^ 32)
  | _ => c.sva

/-! ### Debug block (R418) -/

/-- A stop of the core takes every bound context to Halted (R74, R81). -/
def State.haltCore (s : State) (c : Nat) : State :=
  { s with threads := Tab.mapV (fun p t =>
      if coreOf p = c ∧ t.task.isSome ∧ t.state ≠ .halted then { t with state := .halted, prev := t.state } else t) s.threads }

/-- The last cause is cleared: every Halted context takes up its prior state (R74). -/
def State.unhaltCore (s : State) (c : Nat) : State :=
  { s with threads := Tab.mapV (fun p t =>
      if coreOf p = c ∧ t.state = .halted then { t with state := t.prev } else t) s.threads }

/-- A count that began at `t` and is paused from `start` to `now` goes on as if it had begun so much later. -/
def pauseFrom (now start t : Nat) : Nat := t + (now - Nat.max start t)

/-- Counted bounds of the thread context at `p` that stand still from `a` to `b`: its pre-emption bound if its own core stops, its
send stall if the destination's does: a core's, the dispatch core's of a submission, the service core's of a miss (R76, R81, R86,
R229, R353). -/
def Thread.pauseCounts (p : Nat) (own : Bool) (dest : Nat → Bool) (a b : Nat) (t : Thread) : Thread :=
  { t with
    pendAt := if own then pauseFrom b a t.pendAt else t.pendAt
    wait := match t.wait with
      | .send d n => .send d (if dest (coreOf d) then pauseFrom b a n else n)
      | .xq c q e w n o => .xq c q e w (if dest c then pauseFrom b a n else n) o
      | .slot n => .slot (if own then pauseFrom b a n else n)
      | .launch i n d => .launch i (if dest (coreOf (dispatchPlace (dieOf p))) then pauseFrom b a n else n) d
      | w => w
    missAt := if dest (coreOf (placeOf (walkCluster (cluOfPlace p)) 16 0)) then pauseFrom b a t.missAt else t.missAt }

/-- Counted bounds of cores that stop from `a` to `b` (R76, R81, R86). -/
def State.pauseCounts (s : State) (f : Nat → Bool) (a b : Nat) : State :=
  { s with threads := Tab.mapV (fun p t => t.pauseCounts p (f (coreOf p)) f a b) s.threads }

/-- Stop a core with a cause (R81, R418, R424). -/
def State.dbgStop (s : State) (c : Nat) (cause : BitVec 3) : State :=
  let k := s.core c
  (s.setCore c { k with hlt := true, hltAt := if k.hlt then k.hltAt else s.cyc, cause }).haltCore c

/-- Clear a core's debugger stop; a frozen core stays Halted (R74, R81). Its counted bounds go on. -/
def State.dbgGo (s : State) (c : Nat) : State :=
  let k := s.core c
  let upto := if s.hub.frozen then Nat.max k.hltAt s.hub.frozenAt else s.cyc
  let s := if k.hlt then s.pauseCounts (fun x => x == c) k.hltAt upto else s
  let s := s.setCore c { s.core c with hlt := false, cause := 0 }
  if s.hub.frozen then s else s.unhaltCore c

/-- The place that DBG_SEL chooses (R418). -/
def State.dbgPlace (s : State) (c : Nat) : Nat := c * 8 + (s.core c).dbgSel.toNat % 8

def TState.code : TState → Nat
  | .free => 0 | .dormant => 1 | .ready => 2 | .blocked => 3 | .saving => 4 | .halted => 5

/-- A specifier that R35 reserves. -/
def specReserved (n : Nat) : Bool := decide (2 ≤ n) && decide (n < 8)

/-- The register that DBG_SEL chooses, if it is one of space 0 (R418). -/
def State.dbgReg (s : State) (c : Nat) : Option (Nat × Nat) :=
  let k := s.core c
  let spec := bits k.dbgSel.toNat 8 6
  if k.hlt && bits k.dbgSel.toNat 16 2 == 0 && spec != 1 && !specReserved spec then some (s.dbgPlace c, spec) else none

/-- The debug module reads a register through its check bits, by the effective class of the context's task (R217): damage that can be
corrected is, and the device counts the error, as it counts one that cannot be (R218). -/
def State.dbgCheck (s : State) (c : Nat) : State :=
  match s.dbgReg c with
  | none => s
  | some (p, r) =>
    let t := s.thread p
    let d := (t.dmg.filter (fun e => e.1 == r)).map (·.2)
    if d.isEmpty || s.effClass p == 2 then s
    else if s.effClass p = 0 ∧ correctable d then
      (s.setThread p { t with regs := t.regs.setIfInBounds r (flipSyms ((t.regs[r]?).getD 0) d), dmg := t.dmg.filter (fun e => e.1 != r) }).charge none 0 p
    else s.chargeBad none 0 p

/-- What DBG_DAT reads (R418). -/
def State.dbgDat (s : State) (c : Nat) : Word :=
  let k := s.core c
  if !k.hlt then 0 else
  let t := s.thread (s.dbgPlace c)
  let spec := bits k.dbgSel.toNat 8 6
  match bits k.dbgSel.toNat 16 2 with
  | 0 =>
    if spec = 1 ∨ specReserved spec ∨ (spec = 0 ∧ t.ltStale) then 0
    else
      let v := (t.regs[spec]?).getD 0
      if k.dbgSel.getLsbD 14 then hi64 v else lo64 v
  | 1 =>
    match spec with
    | 0 => wd (t.preds.toNat / 2 * 2 + 1)
    | 1 => t.cnt
    | 2 => wd (t.state.code + (if t.state = .halted then t.prev.code * 16 else 0) + (if t.pend then 256 else 0) +
        (if t.ltStale then 512 else 0))
    | _ => 0
  | 2 => if spec < 4 then (t.x[spec]?).getD 0 else 0
  | _ => if spec < 28 then s.sysRead (s.dbgPlace c) spec else 0

/-- What a write of DBG_DAT does (R418); it stores check bits, as every write does (R217). -/
def State.dbgDatWrite (s : State) (c : Nat) (v : Word) : State :=
  let k := s.core c
  if !k.hlt then s else
  let p := s.dbgPlace c
  let t := s.thread p
  let spec := bits k.dbgSel.toNat 8 6
  match bits k.dbgSel.toNat 16 2 with
  | 0 =>
    if spec = 1 ∨ specReserved spec then s
    else
      let old := (t.regs[spec]?).getD 0
      let new := if k.dbgSel.getLsbD 14 then mkReg (lo64 old) v else mkReg v (hi64 old)
      s.setThread p { t with
        regs := t.regs.setIfInBounds spec new
        ltStale := if spec = 0 then false else t.ltStale
        dmg := t.dmg.filter (fun e => e.1 != spec) }
  | 1 => if spec = 0 then s.setThread p { t with preds := v.setWidth 8 ||| 1 } else s
  | 2 => if spec < 4 then s.setThread p { t with x := t.x.setIfInBounds spec v } else s
  | _ => match s.sysWrite p spec v with | .ok s' => s' | .error _ => s

/-- Debug registers of a core (R418). -/
def State.dbgRead (s : State) (c k : Nat) : Word :=
  let q := s.core c
  match k with
  | 0 => wd ((if q.dbgEn then 1 else 0) + (if q.dbgStopSet then 2 else 0) + (if q.dbgGoSet then 4 else 0) + (if q.step then 8 else 0) + q.sel.toNat * 16 + (if q.trcEn then 128 else 0))
  | 1 => wd ((if q.hlt then 1 else 0) + q.cause.toNat * 2 + q.code.toNat * 256)
  | 2 => (q.dbgSel &&& 0x37F07).setWidth 64
  | 3 => s.dbgDat c
  | 4 => q.trcBase
  | 5 => q.trcCfg.setWidth 64
  | 6 => q.trcWi
  | _ => 0

/-- DBG_CTL.stop written 1: the bit is set, and the core stops (R418). -/
def State.ctlStop (s : State) (c : Nat) : State := (s.setCore c { s.core c with dbgStopSet := true }).dbgStop c 1

/-- DBG_CTL.go written 1: the bit is set, and the debugger's stop is cleared (R418). -/
def State.ctlGo (s : State) (c : Nat) : State := (s.setCore c { s.core c with dbgGoSet := true }).dbgGo c

/-- Write of DBG_CTL: fields RW, then stop, go and step (R418). The W1S bits stop and go stay set, since no rule clears them (R6; log
entry 87); step is clear again when the step ends. -/
def State.dbgCtl (s : State) (c : Nat) (v mask : Word) : State :=
  let q := s.core c
  let rw : Word := merge (wd ((if q.dbgEn then 1 else 0) + q.sel.toNat * 16 + (if q.trcEn then 128 else 0))) v mask
  let w := v &&& mask
  let s := s.setCore c { q with dbgEn := rw.getLsbD 0, sel := (rw >>> 4).setWidth 3, trcEn := rw.getLsbD 7 }
  let s := if w.getLsbD 1 then s.ctlStop c else s
  let s := if w.getLsbD 2 then s.ctlGo c else s
  if w.getLsbD 3 then s.setCore c { s.core c with step := true } else s

def State.dbgWrite (s : State) (c k : Nat) (v mask : Word) : State :=
  let q := s.core c
  match k with
  | 0 => s.dbgCtl c v mask
  | 2 => s.setCore c { q with dbgSel := (merge (q.dbgSel.setWidth 64) v mask).setWidth 18 &&& 0x37F07 }
  | 3 => s.dbgDatWrite c (merge (s.dbgDat c) v mask)
  | 4 => s.setCore c { q with trcBase := merge q.trcBase v mask }
  | 5 => s.setCore c { q with trcCfg := (merge (q.trcCfg.setWidth 64) v mask).setWidth 5 }
  | _ => s

/-! ### Turat's registers (R385) -/

def State.trtRead (s : State) (d k : Nat) : Word :=
  let q := s.die d
  match k with
  | 0 => q.img
  | 1 => wd ((if q.go then 1 else 0) + q.key % 4 * 64 + q.err % 256 * 256)
  | 2 => q.dbase
  | 3 => q.dlgn.setWidth 64
  | 4 => wd q.dwi
  | 5 => wd (q.age.toNat + q.qnt.toNat * 2 ^ 32)
  | _ => 0

/-- The write of go starts a load, while which err reads 4 (R385). -/
def State.trtGo (s : State) (d : Nat) : State :=
  let q := s.die d
  if q.go then s else s.setDie d { q with go := true, err := 4 }

def State.trtWrite (s : State) (d k : Nat) (v mask : Word) : State :=
  let q := s.die d
  match k with
  | 0 => s.setDie d { q with img := merge q.img v mask }
  | 1 => if (v &&& mask).getLsbD 0 then s.trtGo d else s
  | 2 => s.setDie d { q with dbase := merge q.dbase v mask }
  | 3 => s.setDie d { q with dlgn := (merge (q.dlgn.setWidth 64) v mask).setWidth 5 }
  | 5 =>
    let w := merge (s.trtRead d 5) v mask
    s.setDie d { q with age := w.setWidth 32, qnt := (w >>> 32).setWidth 32 }
  | _ => s

/-! ### The hub block (R415) -/

def State.ntr (s : State) (p : Nat) : Notur := Tab.getD s.hub.ntr p Notur.idle
def State.setNtr (s : State) (p : Nat) (n : Notur) : State := s.setHub { s.hub with ntr := Tab.put s.hub.ntr p n }

/-- NTR_p (R411). -/
def Notur.word (n : Notur) : Word :=
  wd ((if n.en then 1 else 0) + n.st * 2 + n.bad * 16 + (if n.rep then 128 else 0) + satAt (2 ^ 20 - 1) n.rpl * 2 ^ 12 +
    satAt (2 ^ 32 - 1) n.crc * 2 ^ 32)

/-- en 0 to 1 starts training, from Disabled or Down (R409). -/
def State.ntrEnable (s : State) (p : Nat) : State :=
  let n := s.ntr p
  if n.st = 0 ∨ n.st = 4 then s.setNtr p { n with en := true, st := 1, row := 0, since := s.cyc } else s.setNtr p { n with en := true }

/-- HBM_EYE_s (R414). That the selected lane reads back in bits 15:0, and that lane and threshold are 0 at reset, is the model's
choice: the rule has no Reset column (log entry 86). -/
def State.eyeWord (s : State) (k : Nat) : Word :=
  let lane := Tab.getD s.hub.eyeLane k 0
  let seen := Tab.getD s.hub.eyeSeen (65536 * k + lane.toNat) (Config.eyeMargin k lane.toNat 0)
  wd (lane.toNat + seen.toNat % 256 * 2 ^ 24 + seen.toNat / 256 * 2 ^ 32 + (Tab.getD s.hub.eyeThr k 0).toNat * 2 ^ 40)

def State.eyeWrite (s : State) (k : Nat) (v mask : Word) : State :=
  let lane := (merge ((Tab.getD s.hub.eyeLane k 0).setWidth 64) v mask).setWidth 16
  let thr := (merge ((Tab.getD s.hub.eyeThr k 0).setWidth 64 <<< 40) v mask >>> 40).setWidth 8
  s.setHub { s.hub with eyeLane := Tab.put s.hub.eyeLane k lane, eyeThr := Tab.put s.hub.eyeThr k thr }

/-- A write of ATT_REQ starts a request, or reads back 1 at once for a request code that names none (R413). -/
def State.attWrite (s : State) (v : Word) : State :=
  if s.hub.attRun then s
  else if v.toNat % 64 ≤ 1 then s.setHub { s.hub with attRun := true, attReq := v }
  else s.setHub { s.hub with attReq := 1 }

/-- What ATT_REQ reads: A while the request runs, then 0 or 1 (R413). -/
def Hub.attRead (h : Hub) : Word := if h.attRun then wd (h.attReq.toNat / 64 * 64) else h.attReq

/-- PWR_LIM takes values from 1,000 to 2,800 (R423). -/
def State.pwrWrite (s : State) (v : Word) : State :=
  let n := v.toNat % 4096
  if 1000 ≤ n ∧ n ≤ 2800 then s.setHub { s.hub with pwrLim := v.setWidth 12 } else s

/-- HOST_IRQ raises vectors 5 to 63 (R416). -/
def State.irqWrite (s : State) (v : Word) : State :=
  if 5 ≤ v.toNat ∧ v.toNat < 64 then s.raiseMsix v.toNat else s

/-- The word of the hub block at an offset (R415); offsets that it does not list read 0. -/
def State.hubRead (s : State) (o : Nat) : Word :=
  let h := s.hub
  if o = 0 then h.hwin
  else if o = 8 then h.apt
  else if o = 16 then wd ((if h.aop then 2 else 0) + h.rate.toNat * 4 + h.wid.toNat * 32 + h.ltssm.toNat * 1024)
  else if 0x100 ≤ o ∧ o < 0x180 then (s.ntr ((o - 0x100) / 8)).word
  else if 0x200 ≤ o ∧ o < 0x240 then s.eyeWord ((o - 0x200) / 8)
  else if o = 0x300 then h.boot.setWidth 64
  else if o = 0x308 then h.attRead
  else if o = 0x310 then h.fatal
  else if 0x400 ≤ o ∧ o < 0x500 then
    let q := s.die ((o - 0x400) / 32)
    match (o - 0x400) / 8 % 4 with
    | 0 => q.thrBase
    | 1 => q.thrCfg.setWidth 64
    | 2 => wd q.thrWi
    | _ => 0
  else if o = 0x500 then h.pwrLim.setWidth 64
  else if 0x1000 ≤ o ∧ o < 0x1400 then s.msixWord ((o - 0x1000) / 8)
  else if o = 0x1400 then wd (h.msix.foldl (fun n e => if e.2.pend then n + 2 ^ e.1 else n) 0)
  else 0

/-- A Down port, or one that is disabled, leaves what it has sent without response (R409, R410): the step's own file fails
those; here the port changes state. -/
def State.ntrDisable (s : State) (p : Nat) : State :=
  s.setNtr p { s.ntr p with en := false, st := 0, row := 0, replay := [] }

def State.ntrWrite (s : State) (p : Nat) (v mask : Word) : State :=
  let n := s.ntr p
  let w := v &&& mask
  let n := { n with crc := if w.toNat / 2 ^ 32 ≠ 0 then satAt (2 ^ 32 - 1) n.crc &&& (2 ^ 32 - 1 - w.toNat / 2 ^ 32) else n.crc,
                    rpl := if bits w.toNat 12 20 ≠ 0 then satAt (2 ^ 20 - 1) n.rpl &&& (2 ^ 20 - 1 - bits w.toNat 12 20) else n.rpl }
  let s := s.setNtr p n
  if mask.getLsbD 0 then (if v.getLsbD 0 then s.ntrEnable p else if n.en then s.ntrDisable p else s) else s

def State.hubWrite (s : State) (o : Nat) (v mask : Word) : State :=
  let h := s.hub
  if o = 0 then s.setHub { h with hwin := merge h.hwin v mask &&& ~~~(0xFFFF : Word) }
  else if o = 8 then s.setHub { h with apt := merge h.apt v mask &&& ~~~(0xFFFF : Word) }
  else if o = 16 then if mask.getLsbD 1 then s.setHub { h with aop := v.getLsbD 1 } else s
  else if 0x100 ≤ o ∧ o < 0x180 then s.ntrWrite ((o - 0x100) / 8) v mask
  else if 0x200 ≤ o ∧ o < 0x240 then s.eyeWrite ((o - 0x200) / 8) v mask
  else if o = 0x308 then s.attWrite (v &&& mask)
  else if o = 0x318 then s.irqWrite (v &&& mask)
  else if 0x400 ≤ o ∧ o < 0x500 then
    let d := (o - 0x400) / 32
    let q := s.die d
    match (o - 0x400) / 8 % 4 with
    | 0 => s.setDie d { q with thrBase := merge q.thrBase v mask }
    | 1 => s.setDie d { q with thrCfg := (merge (q.thrCfg.setWidth 64) v mask).setWidth 5 }
    | _ => s
  else if o = 0x500 then s.pwrWrite (merge (h.pwrLim.setWidth 64) v mask)
  else if 0x1000 ≤ o ∧ o < 0x1400 then s.msixWrite ((o - 0x1000) / 8) (merge (s.msixWord ((o - 0x1000) / 8)) v mask)
  else s

/-! ### The window -/

/-- The aligned 64-bit word of the device-register window at an offset (R209, R365, R385, R415, R418). -/
def State.devWord (s : State) (o : Nat) : Word :=
  if 0x100000 ≤ o ∧ o < 0x112000 then s.clsBlk ((o - 0x100000) / 8)
  else if o = 0x112000 then wd (s.rawUsed)
  else if o = 0x112008 then wd ((if s.hub.rej then 2 else 0) + (if s.hub.busy.isEmpty then 0 else 1))
  else if 0x200000 ≤ o ∧ o < 0x210000 then s.ctxWord ((o - 0x200000) / 64) (o / 8 % 8)
  else if 0x300000 ≤ o ∧ o < 0x300200 then s.trtRead ((o - 0x300000) / 64) (o / 8 % 8)
  else if 0x400000 ≤ o ∧ o < 0x410000 then s.hubRead (o - 0x400000)
  else if 0x500000 ≤ o ∧ o < 0x580000 then
    let c := (o - 0x500000) / 64
    if validPlace (c * 8) then s.dbgRead c (o / 8 % 8) else 0
  else 0

/-- Write the word at an offset under a mask. -/
def State.devWordWrite (s : State) (o : Nat) (v mask : Word) : State :=
  if 0x100000 ≤ o ∧ o < 0x112000 then s.clsWrite ((o - 0x100000) / 8) (merge (s.clsBlk ((o - 0x100000) / 8)) v mask)
  else if o = 0x112008 then if (v &&& mask).getLsbD 1 then s.setHub { s.hub with rej := false } else s
  else if 0x300000 ≤ o ∧ o < 0x300200 then s.trtWrite ((o - 0x300000) / 64) (o / 8 % 8) v mask
  else if 0x400000 ≤ o ∧ o < 0x410000 then s.hubWrite (o - 0x400000) v mask
  else if 0x500000 ≤ o ∧ o < 0x580000 then
    let c := (o - 0x500000) / 64
    if validPlace (c * 8) then s.dbgWrite c (o / 8 % 8) v mask else s
  else s

/-- What reading an offset leaves: DBG_DAT is read through the check bits of the register that it shows (R217). -/
def State.devTouch (s : State) (o : Nat) : State :=
  if 0x500000 ≤ o ∧ o < 0x580000 ∧ o / 8 % 8 = 3 ∧ validPlace ((o - 0x500000) / 64 * 8) then s.dbgCheck ((o - 0x500000) / 64) else s

/-- A 4- or 8-byte read and write at an offset (R160). -/
def State.devRead (s : State) (o n : Nat) : Nat :=
  if n = 8 then (s.devWord o).toNat else bits (s.devWord (o / 8 * 8)).toNat (o % 8 * 8) 32

def State.devWrite (s : State) (o n v : Nat) : State :=
  if n = 8 then s.devWordWrite o (wd v) (wd (2 ^ 64 - 1))
  else s.devWordWrite (o / 8 * 8) (wd (v % 2 ^ 32 * 2 ^ (o % 8 * 8))) (wd ((2 ^ 32 - 1) * 2 ^ (o % 8 * 8)))

end Sys2Proof.Machine
end

