-- ==== Sys2Proof/Machine/Home.lean ====
section
/-! DEFINITION. What happens at a line's home: check bits and poison of a granule (R206, R211 to R217), signatures and the
abort of ordered tasks (R256 to R259), races (R196 to R200, R203), the directory (R161 to R165, R168), and the performing
of an outstanding access (R172, R177, R186, R215). -/

namespace Sys2Proof.Machine

/-! ### Granules at their homes (R211) -/

/-- A dirty L2 copy goes back to memory through its check bits (R211). -/
def State.writeBackL2 (s : State) (loc : Nat) : State :=
  let k := s.granule (loc / 64)
  if !k.l2Dirty then s.setGran (loc / 64) { k with l2 := [] }
  else
    let base := loc / 64 * 64
    let (o, s) := if k.l2.isEmpty then (GOut.good, s) else s.checkGran loc (s.locClass loc) { launch := none, grp := 0, place := 0 }
    let k := s.granule (loc / 64)
    match o with
    | .altered _ => (s.putBytes base (o.apply base (s.bytesAt base 64))).setGran (loc / 64) { k with hbm := [], l2 := [], l2Dirty := false }
    | _ => s.setGran (loc / 64) { k with hbm := k.l2, l2 := [], l2Dirty := false }

/-- Write a whole granule: poison and damage go (R212). -/
def State.storeWhole (s : State) (loc : Nat) (bs : List Byte) : State :=
  let g := loc / 64
  let s := s.setGran g { Gran.clean with l2Dirty := locTag loc == 0 }
  s.putBytes loc bs

/-- Bytes up to the next unit that is checked: a granule, or a line of a host- or peer-backed one. -/
def spanTo (loc : Nat) : Nat := if isRemote loc then 32 - loc % 32 else 64 - loc % 64

/-- Read `n` bytes that may span granules, each checked by its class; an error names the location and whether this read
found it. -/
def State.readSpan (s : State) (cls : Nat) (w : Reader) : Nat → Nat → Nat → Except (Nat × Bool) (List Byte) × State
  | 0, _, _ => (.ok [], s)
  | k + 1, loc, n =>
    if n = 0 then (.ok [], s)
    else
      let m := Nat.min n (spanTo loc)
      match s.checkGran loc cls w with
      | (.bad f, s) => (.error (loc, f), s)
      | (o, s) =>
        match s.readSpan cls w k (loc + m) (n - m) with
        | (.ok bs, t) => (.ok (o.apply loc (s.bytesAt loc m) ++ bs), t)
        | e => e

/-- Write bytes that may span granules; a whole granule loses its poison (R212). The answer is the location that refused. -/
def State.writeSpan (s : State) (cls : Nat) (w : Reader) : Nat → Nat → List Byte → Option Nat × State
  | 0, _, _ => (none, s)
  | k + 1, loc, bs =>
    if bs.isEmpty then (none, s)
    else
      let m := Nat.min bs.length (64 - loc % 64)
      if m = 64 then (s.storeWhole loc (bs.take 64)).writeSpan cls w k (loc + 64) (bs.drop 64)
      else match s.storeGran loc cls (bs.take m) w with
        | (true, s) => s.writeSpan cls w k (loc + m) (bs.drop m)
        | (false, s) => (some loc, s)

/-- Class by which an access of the context at `p` to a location is checked: its own scratchpad by its effective class
(R217), else the class of the region. -/
def State.accClass (s : State) (p loc : Nat) : Nat :=
  if locTag loc = tagScratch then s.effClass p else s.locClass loc

/-! ### Walks (R229, R230) -/

/-- The service core of a cluster answers now. -/
def State.serves (s : State) (cl : Nat) : Bool := !s.hub.frozen && !(s.core (coreOf (placeOf (walkCluster cl) 16 0))).hlt

/-- Walk contexts of a service core in use (R229). -/
def State.busyWalks (s : State) (cl : Nat) : Nat := (s.walks.filter (fun e => e.2.cl == cl && !e.2.queued)).length

/-- Check the granules of the table words that a walk reads: what it finds is charged to the task whose request it serves (R211, R218).
The answer says whether all could be read. -/
def State.checkTables (s : State) (w : Reader) : List Nat → Bool × State
  | [] => (true, s)
  | l :: ls =>
    match s.checkGran l (s.locClass l) w with
    | (.bad _, s) => (false, s)
    | (_, s) => s.checkTables w ls

/-- The walk of a context's tables on behalf of a reader: the words it reads are checked (R211, R218); a malformed table is counted
(R230), and so is one whose words cannot be read (log entry 102). -/
def State.walkFor (s : State) (cl ctx va : Nat) (w : Reader) : Except Bool TlbEntry × State :=
  let (good, s) := s.checkTables w (s.walkLocs cl va 4 (s.context ctx).root.toNat)
  let r := if good then s.walkTable cl ctx va else .error true
  (r, match r with
    | .error true => s.setClu cl { s.clu cl with walkErrs := satAt (2 ^ 64 - 1) ((s.clu cl).walkErrs + 1) }
    | _ => s)

/-- The entry for a page of context `ctx` that a core's TLBs hold or a walk now finds, which goes into both; else a code of R361, with code
0 while no walk context is to be had, and the state. -/
def State.tableEntry (s : State) (p ctx vpn : Nat) (w : Reader) : Except (Nat × State) (TlbEntry × State) :=
  match s.tlbLookup (coreOf p) ctx vpn with
  | some r => .ok r
  | none =>
    let cl := walkCluster (cluOfPlace p)
    if !s.serves cl || decide (8 ≤ s.busyWalks cl) then .error (0, s)
    else match s.walkFor cl ctx (vpn * 0x10000) w with
      | (.error _, s) => .error (Code.pageAbsent, s)
      | (.ok e, s) =>
        let s := s.setCore (coreOf p) { s.core (coreOf p) with tlb := coreTlbPut (s.core (coreOf p)).tlb e }
        .ok (e, s.setClu (cluOfPlace p) { s.clu (cluOfPlace p) with tlb := cluTlbPut (s.clu (cluOfPlace p)).tlb e })

/-- The location now of an address that an earlier step found at `loc`, with the page checks of R228 made again (R233): a code of R361
where one fails, code 0 while the page migrates, the dirty log is full or the entry is not to be had (R235, R237). -/
def State.lateLoc (s : State) (p ctx : Nat) (a : Word) (loc : Nat) (wr : Bool) (w : Reader) : Except (Nat × State) (Nat × State) :=
  if windowOf a.toNat ≠ some .translated then .ok (loc, s)
  else match s.tableEntry p ctx (a.toNat / 0x10000) w with
    | .error x => .error x
    | .ok (e, s) =>
      let now := s.entryLoc e a.toNat
      if tePsn e then .error (Code.pagePoison, s)
      else if (if wr then !teW e else !teR e) then .error (Code.permission, s)
      else if teMig e && wr then .error (0, s)
      else if locTag now = 0 ∧ s.frameClass (locOff now) = 3 then .error (Code.backing, s)
      else if wr && !teLg e then match s.logPage (coreOf p) ctx e with
        | some s => .ok (now, s)
        | none => .error (0, s)
      else .ok (now, s)

/-! ### Signatures (R256) -/

/-- The line number of a location for signatures. -/
def State.sigLine (s : State) (loc : Nat) : Nat :=
  if locTag loc = tagShared then (0x7F0200000000 + locOff loc % 0x800000) / 32 else s.physOf loc % 2 ^ 53 / 32

/-- The eight bits that a line sets. -/
def sigBits (l : Nat) : List Nat :=
  let f := (((bits l 0 11 ^^^ bits l 11 11) ^^^ bits l 22 11) ^^^ bits l 33 11) ^^^ bits l 44 4
  let g := (2 * (((bits l 5 11 ^^^ bits l 16 11) ^^^ bits l 27 11) ^^^ bits l 38 10) + 1) % 2048
  (List.range 8).map (fun i => (f + i * g) % 2048)

def sigAdd (s : BitVec 2048) (l : Nat) : BitVec 2048 := (sigBits l).foldl (fun s b => s ||| (1 <<< b)) s
def sigHas (s : BitVec 2048) (l : Nat) : Bool := (sigBits l).all (fun b => s.getLsbD b)

def Commit.key (c : Commit) : Nat × Nat := (c.ts.toNat, c.seq.toNat)

/-- Uncommitted tasks as (cluster, entry, commit). -/
def State.commits (s : State) : List (Nat × Nat × Commit) :=
  s.clus.flatMap (fun k => k.2.commits.map (fun e => (k.1, e.1, e.2)))

/-- Tasks that an access by key `k` of launch `l` from cluster `cl` to a line aborts (R258). -/
def State.conflicting (s : State) (cl l : Nat) (k : Nat × Nat) (loc : Nat) (wr : Bool) : List (Nat × Nat) :=
  let ln := s.sigLine loc
  let all := s.commits
  let touched (c : Nat) : Bool := c == cl || all.any (fun e => e.1 == c && (e.2.2.rdLines.contains (loc / 32) || e.2.2.wrLines.contains (loc / 32)))
  (all.filter (fun e => e.2.2.launch == l && !e.2.2.irrev && keyLt k e.2.2.key && touched e.1 &&
    (sigHas e.2.2.wrSig ln || (wr && sigHas e.2.2.rdSig ln)))).map (fun e => (e.1, e.2.1))

/-! ### Kinds of records and spilled records (R75, R244) -/

/-- Kinds that are dropped wherever they arrive (R75). -/
def droppedKind (k : Nat) : Bool := k == 7 || decide (9 ≤ k)

/-- The kind by which a record is admitted: a saved task returns as a continuation (R369). -/
def Msg.kind (m : Msg) : Nat := if m.restore then 6 else hKind m.h0

/-- The key of an ordered record. -/
def Msg.key (m : Msg) : Nat × Nat := (m.ts.toNat, m.seq.toNat)

/-- The ordered record with the latest key. -/
def latest (ms : List Msg) : Option Msg :=
  (ms.filter (fun m => m.kind == 1)).foldl (fun (b : Option Msg) m => match b with
    | some x => if keyLt x.key m.key then some m else some x
    | none => some m) none

/-- Entries of the spill area of a die (R244). -/
def State.spilled (s : State) (d : Nat) : Nat :=
  ((s.clus.filter (fun e => e.1 / 24 == d)).map (fun e => e.2.spill.length)).sum

/-- An overfull task unit moves its ordered records with the latest keys to the spill area until it holds 1,024 (R244). -/
def State.spillOver (s : State) (cl : Nat) : Nat → State
  | 0 => s
  | n + 1 =>
    let k := s.clu cl
    if k.tu.length ≤ 1024 ∨ 131072 ≤ s.spilled (cl / 24) then s
    else match latest k.tu with
      | some m => (s.setClu cl { k with tu := k.tu.filter (fun x => x.ord != m.ord), spill := k.spill ++ [m] }).spillOver cl n
      | none => s

/-! ### Aborts (R259) -/

/-- The undo of one line: later tasks whose signature holds it have been aborted before. -/
def State.undoLine (s : State) (e : Nat × List Byte) : State := s.putBytes (e.1 * 32) e.2

/-- Abort the task of an entry, with `gone` when its parent is aborted by the same cause (R259). Children and the later tasks
that its undo meets are aborted first; the count bounds the chain. -/
def State.abortEntry : Nat → State → Nat × Nat → Bool → State
  | 0, s, _, _ => s
  | n + 1, s, (cl, e), gone =>
    match Tab.get? (s.clu cl).commits e with
    | none => s
    | some c =>
      if c.irrev then s else
      let bound := match c.place with | some p => (s.thread p).entry? == some e | none => false
      -- 1: the context is free at once; a record that waits again has not ended its handler run (R421)
      let s := match c.place with
        | some p =>
          if bound then
            let s := s.trace p 7 (s.thread p).pc
            if gone then s.freeThread p else s.vacate p
          else s
        | none => s
      let s := match c.place with
        | some p => { s with acc := s.acc.filter (fun a => !(a.2.place == p && a.2.entry == some e)) }
        | none => s
      -- 2: children
      let kids := (s.commits.filter (fun x => x.2.2.parent == some (cl, e))).map (fun x => (x.1, x.2.1))
      let s := kids.foldl (fun s x => s.abortEntry n x true) s
      let s := s.dropMsgs (fun m => m.parent == some (cl, e)) false
      -- 3: deferred items
      let s := c.items.foldl (fun s i => match i with
        | .token k => if ((s.tok? k).bind (·.defer)) = some (cl, e) then s.freeTok k else s
        | _ => s) s
      -- 4: undo, latest entry first; what the task stored in its core's scratchpad is discarded while it has its context (R202)
      let s := if bound then c.scratch.foldl (fun s u => s.putBytes u.1 u.2) s else s
      let s := c.undo.foldl (fun s u =>
        let later := (s.conflicting cl c.launch c.key (u.1 * 32) true).filter (· != (cl, e))
        let s := later.foldl (fun s x => s.abortEntry n x false) s
        s.undoLine u) s
      -- 5: the entry is freed, the record waits again
      let k := s.clu cl
      let k := { k with commits := Tab.del k.commits e, aborts := satAt (2 ^ 64 - 1) (k.aborts + 1) }
      if gone then s.setClu cl k
      else (s.setClu cl { k with tu := k.tu ++ [{ c.msg with ts := c.ts, seq := c.seq }] }).spillOver cl (k.tu.length + 1)

/-- Abort tasks one after the other. -/
def State.abortAll (s : State) (xs : List (Nat × Nat)) : State :=
  xs.foldl (fun s x => s.abortEntry (s.commits.length + 1) x false) s

/-! ### Races (R196 to R200, R203) -/

/-- Memory that region checking and signatures cover: translated lines and cluster-shared memory (R197, R256). -/
def covered (loc : Nat) : Bool := decide (locTag loc < tagScratch) || locTag loc == tagShared

/-- The first mark of another context that an access conflicts with (R197). -/
def conflictMark (p : Nat) (wr atomic : Bool) (ms : List Mark) : Option Mark :=
  ms.find? (fun m => m.place != p && (m.wr || wr) && !(m.atomicOnly && atomic))

/-- A line's marks with an access of a context added (R165). -/
def addMark (p : Nat) (rd wr atomic : Bool) : List Mark → List Mark
  | [] => [{ place := p, rd, wr, atomicOnly := atomic }]
  | m :: ms =>
    if m.place = p then { place := p, rd := m.rd || rd, wr := m.wr || wr, atomicOnly := m.atomicOnly && atomic } :: ms
    else m :: addMark p rd wr atomic ms

/-- The race fault's syndrome (R198). -/
def raceSyn (m : Mark) : Word := wd (m.place + (if m.rd then 2 ^ 16 else 0) + (if m.wr then 2 ^ 17 else 0))

/-! ### The directory (R161 to R164, R168) -/

/-- Bytes of the bits of an overflow entry for a holder core (R163). -/
def ovfAdd (e : OvfEntry) (c : Nat) : OvfEntry :=
  if isDispatch (c * 8) then (if e.dpr.contains (dieOf (c * 8)) then e else { e with dpr := dieOf (c * 8) :: e.dpr })
  else if e.clus.contains (cluOfCore c) then e else { e with clus := cluOfCore c :: e.clus }

/-- Move a line's holders into its slice's overflow table; when the table is full its oldest entry goes and that line becomes
Uncached (R163). -/
def State.overflow (s : State) (line : Nat) (hs : List Nat) : State :=
  let cl := s.homeSlice (line * 32)
  let k := s.clu cl
  match k.ovf.find? (fun e => e.line == line) with
  | some _ => s.setClu cl { k with ovf := k.ovf.map (fun e => if e.line == line then hs.foldl ovfAdd e else e) }
  | none =>
    let e := hs.foldl ovfAdd { line, clus := [], dpr := [] }
    if k.ovf.length < 8192 then s.setClu cl { k with ovf := k.ovf ++ [e] }
    else
      let old := (k.ovf.head?.map (·.line)).getD line
      let s := { s with dir := Tab.put s.dir old .uncached }
      s.setClu cl { k with ovf := k.ovf.drop 1 ++ [e] }

/-- Other cores than `c` that the home of a line keeps recorded because their region filters hold bits of it, whatever became of their
copies (R200). -/
def State.filterHolders (s : State) (line c : Nat) : List Nat :=
  (s.cores.filter (fun e => e.1 != c && e.2.filter.any (fun x => x.1 == line))).map (·.1)

/-- A line becomes Shared by holders: up to four as pointers, more by an overflow record; shared-memory slices keep the last four
(R162, R168). -/
def State.shareLine (s : State) (line : Nat) (hs : List Nat) : State :=
  let put (d : DirState) (s : State) : State := { s with dir := Tab.put s.dir line d }
  if hs.length ≤ 4 then put (.shared hs) s
  else if locTag (line * 32) = tagShared then put (.shared (hs.drop (hs.length - 4))) s
  else put .overflowed (s.overflow line hs)

/-- The directory's step for an access by core `c` (R162). A hint into a streaming buffer takes its line Shared (R182); so does a read
of a line for which the home has other cores recorded (R200). -/
def State.dirStepAs (s : State) (line c : Nat) (wr shared : Bool) : State :=
  let put (d : DirState) (s : State) : State := { s with dir := Tab.put s.dir line d }
  match Tab.getD s.dir line .uncached with
  | .uncached =>
    let kept := s.filterHolders line c
    if wr || (kept.isEmpty && !shared) then put (.owned c wr) s else s.shareLine line (kept ++ [c])
  | .owned o m =>
    if o = c then put (.owned c (m || wr)) s
    else if wr then put (.owned c true) s
    else s.shareLine line ([o, c] ++ (s.filterHolders line c).filter (· != o))
  | .shared hs =>
    if wr then put (.owned c true) s
    else if hs.contains c then s
    else s.shareLine line (hs ++ [c])
  | .overflowed =>
    if wr then
      let cl := s.homeSlice (line * 32)
      put (.owned c true) (s.setClu cl { s.clu cl with ovf := (s.clu cl).ovf.filter (fun e => e.line != line) })
    else s.overflow line [c]
  | .engine t w => put (.engine t w) s

/-- The step for an access as R162 gives it. -/
def State.dirStep (s : State) (line c : Nat) (wr : Bool) : State := s.dirStepAs line c wr false

/-! ### Requests of accesses -/

def AccKind.writes : AccKind → Bool
  | .store | .wide _ _ | .rmw _ | .sig _ | .inj _ _ _ | .cwb _ => true
  | _ => false
/-- A prefetch: it orders nothing and nothing waits for it (R182). -/
def AccKind.hint : AccKind → Bool
  | .pf _ => true
  | _ => false
def AccKind.reads : AccKind → Bool
  | .load _ | .rmw _ | .xld _ => true
  | _ => false
def AccKind.atomic : AccKind → Bool
  | .rmw _ => true
  | _ => false
/-- Atomics, and the acquire loads and atomics of SIG: what a release and an acquire stand on (R192, R400). -/
def AccKind.sync : AccKind → Bool
  | .rmw _ | .sig _ | .sigRd => true
  | _ => false
/-- Region checking covers these (R197); SIG and `cls.q` are not checked (R223, R400). -/
def AccKind.checked : AccKind → Bool
  | .load _ | .store | .wide _ _ | .rmw _ | .xld _ => true
  | _ => false

/-- The line that the home takes up next for an access: a 64-byte store goes to two. -/
def Access.line (a : Access) : Nat := match a.kind with | .wide _ true => a.loc / 32 + 1 | _ => a.loc / 32

def isAcq : MOrd → Bool
  | .acq | .ar | .sc => true
  | _ => false
def isRel : MOrd → Bool
  | .rel | .ar | .sc => true
  | _ => false

/-- Ranges of two accesses share a location: they are performed in program order, two loads too, which never return values
against the coherence order (R184, R186). -/
def overlaps (a b : Access) : Bool := decide (a.loc < b.loc + b.n) && decide (b.loc < a.loc + a.n)

/-- An access may be performed: no earlier access of its context holds it back (R186). -/
def State.mayPerform (s : State) (id : Nat) (y : Access) : Bool :=
  y.kind.hint || !s.acc.any (fun e => e.1 < id && e.2.place == y.place && !e.2.kind.hint &&
    (overlaps e.2 y || isAcq e.2.ord || (y.kind.writes && isRel y.ord) ||
      (isRel e.2.ord && isAcq y.ord)))

/-- The reader that an access's error is charged to (R218). -/
def Access.reader (a : Access) : Reader := { launch := a.launch, grp := a.grp, place := a.place }

/-- Remove an access; the counter it counted in falls (R82). One that outlived its task is a write that the launch's end releases
(R352). -/
def State.retireAcc (s : State) (id : Nat) (a : Access) : State :=
  let s := s.delAcc id
  if a.loose then s.launchHears a.launch [(a.place, s.nextId)] else
  let t := s.thread a.place
  let t := match a.kind with
    | .load _ | .rmw _ | .sig _ | .sigRd | .clsq => { t with cld := t.cld - 1 }
    | .store | .wide _ _ | .inj _ _ _ | .cwb _ => { t with cst := t.cst - 1 }
    | .xld _ | .pf _ => t
  let t := if t.wait = .access id then { t with wait := .none } else t
  s.setThread a.place t

/-- A fault found when an access is performed: the access is not performed, and the fault is taken; that of a speculative ordered
task waits for the frontier (R213, R257). A task that already holds a fault keeps that one. -/
def State.accFault (s : State) (id : Nat) (a : Access) (f : Flt) : State :=
  let s := s.delAcc id
  if a.loose then s
  else match (s.thread a.place).wait with
    | .fault _ _ => s
    | _ => s.takeFaultAt a.place a.ipc f

/-- The undo log of an ordered task holds a line (R257). -/
def State.undoHas (s : State) (cl e line : Nat) : Bool :=
  match Tab.get? (s.clu cl).commits e with
  | some c => c.undo.any (fun u => u.1 == line)
  | none => false

/-- A store that failed wrote nothing, so its line leaves the undo log unless another store of the task to the line is under way
(R216). -/
def State.unlog (s : State) (cl e line : Nat) (a : Access) : State :=
  let more := s.acc.find? (fun x => x.2.entry == some e && x.2.place == a.place && x.2.kind.writes && x.2.loc / 32 == line)
  match more, Tab.get? (s.clu cl).commits e with
  | some (id, b), _ => s.setAcc id { b with logged := true }
  | none, some c => s.setClu cl { s.clu cl with commits := Tab.put (s.clu cl).commits e { c with undo := c.undo.filter (fun u => u.1 != line) } }
  | none, none => s

/-- Record an ordered task's access in its signatures and marks, copying a line into its undo log before the first write;
the log holds 256 lines, and none once the task is Irrevocable (R203, R256, R257). -/
def State.recordAccess (s : State) (cl e : Nat) (loc : Nat) (rd wr atomic : Bool) : Option State :=
  match Tab.get? (s.clu cl).commits e with
  | none => some s
  | some c =>
    let ln := s.sigLine loc
    let line := loc / 32
    let need := wr && !c.irrev && !c.undo.any (fun u => u.1 == line)
    if need ∧ 256 ≤ c.undo.length then none
    else
      let c := { c with
        rdSig := if rd then sigAdd c.rdSig ln else c.rdSig
        wrSig := if wr then sigAdd c.wrSig ln else c.wrSig
        rdLines := if rd ∧ !c.rdLines.contains line then line :: c.rdLines else c.rdLines
        wrLines := if wr ∧ !c.wrLines.contains line then line :: c.wrLines else c.wrLines
        plainLines := if !atomic ∧ !c.plainLines.contains line then line :: c.plainLines else c.plainLines
        undo := if need then (line, s.bytesAt (line * 32) 32) :: c.undo else c.undo }
      some (s.setClu cl { s.clu cl with commits := Tab.put (s.clu cl).commits e c })

/-- A request waits at its home: the frame is being cleared, the stack's interface retrains, for at most 2^16 cycles, or the device is
frozen (R210, R371, R414). -/
def State.homeWaits (s : State) (loc : Nat) : Bool :=
  s.hub.frozen || (locTag loc == 0 &&
    (s.hub.busy.contains (locOff loc / 0x200000) || (Tab.get? s.hub.retrain (stackOf (locOff loc))).any (fun since => decide (s.cyc < since + 2 ^ 16))))

/-- The die of a location's home, where it may be another than the requester's (R155, R156, R169). -/
def State.homeDie (s : State) (loc : Nat) : Option Nat :=
  if locTag loc = tagScratch then some (dieOf (locOff loc / 0x20000 * 8))
  else if locTag loc = tagChip then some (locOff loc / 2 ^ 25)
  else if locTag loc = 0 then some (s.homeSlice loc / 24)
  else none

/-- Traffic between a place and a location waits: it crosses dies, or to the hub, while a die-to-die link retrains (R407). The spec gives no
routes, so any retraining holds it (log entry 124). -/
def State.linkHeld (s : State) (p loc : Nat) : Bool :=
  !s.hub.d2d.isEmpty && (isRemote loc || (s.homeDie loc).any (fun d => d != dieOf p))

/-- A request from a place waits, at its home or on its way. -/
def State.pathWaits (s : State) (p loc : Nat) : Bool := s.homeWaits loc || s.linkHeld p loc

/-- The home still processes another request for the line: it takes them one at a time (R162). -/
def State.lineBusy (s : State) (id line : Nat) : Bool :=
  s.acc.any (fun e => e.1 != id && e.2.homed && e.2.n != 0 && e.2.loc / 32 == line && covered e.2.loc)

/-- An engine holds the line (R161). -/
def State.engineLine (s : State) (line : Nat) : Bool :=
  match Tab.getD s.dir line .uncached with
  | .engine _ _ => true
  | _ => false

/-- The home core c19 of a line's slice is Halted: what needs an overflow action waits at the home (R163). -/
def State.homeCoreHalted (s : State) (line : Nat) : Bool := (s.core (coreOf (placeOf (s.homeSlice (line * 32)) 19 0))).hlt

/-- An access by core `c` to a line needs an overflow action: a fifth holder, a further one, or a write over an overflow record
(R162, R163). -/
def State.needsOverflow (s : State) (line c : Nat) (wr : Bool) : Bool :=
  locTag (line * 32) != tagShared && (match Tab.getD s.dir line .uncached with
    | .shared hs => !wr && !hs.contains c && decide (4 ≤ hs.length)
    | .overflowed => true
    | .uncached => !wr && decide (4 ≤ (s.filterHolders line c).length)
    | .owned o _ => !wr && o != c && decide (3 ≤ ((s.filterHolders line c).filter (· != o)).length)
    | _ => false)

/-- Accesses that wait at a line's home since its release by an engine and have not been taken up (R162). -/
def State.waiting (s : State) (line : Nat) : List Nat :=
  (Tab.getD s.waits line []).filter (fun i => match Tab.get? s.acc i with | some a => !a.homed | none => false)

/-- Another access has waited longer for the line (R162). -/
def State.notFirst (s : State) (id line : Nat) : Bool :=
  match s.waiting line with
  | [] => false
  | i :: _ => i != id

/-- The home cannot take up a request for a location now that no access has filed: it waits itself, an engine holds the line, it still
processes another request, or earlier ones wait (R162, R164). -/
def State.lineHeld (s : State) (loc : Nat) : Bool :=
  s.homeWaits loc || (covered loc && (s.engineLine (loc / 32) || s.acc.any (fun e => e.2.homed && e.2.n != 0 && e.2.loc / 32 == loc / 32) ||
    !(s.waiting (loc / 32)).isEmpty))

/-- Where a control block that a step found at `loc` lies now (R233), for a write of the device; none while its page migrates or its home
takes no store (R164, R235). -/
def State.blockLoc (s : State) (p ctx : Nat) (va : Word) (loc : Nat) : Option Nat :=
  let free (l : Nat) : Option Nat := if s.homeWaits l || s.engineLine (l / 32) then none else some l
  if windowOf va.toNat ≠ some .translated then free loc
  else
    let vpn := va.toNat / 0x10000
    let cl := cluOfPlace p
    match (s.coreEntry (coreOf p) ctx vpn <|> (s.clu cl).tlb.find? (teMatch ctx vpn)) <|> s.walk cl ctx va.toNat with
    | some e => if teMig e then none else free (s.entryLoc e va.toNat)
    | none => free loc

/-- Lines of `n` bytes from a location up. -/
def lineSpan (loc n : Nat) : List Nat := (List.range (n / 32 + 2)).map (fun i => loc / 32 + i) |>.filter (fun l => decide (l * 32 < loc + n))

/-- The same for some line of `n` bytes. -/
def State.spanHeld (s : State) (loc n : Nat) : Bool := (lineSpan loc n).any (fun l => s.lineHeld (l * 32))

/-- An access to a line leaves the order in which the home takes up those that waited for an engine's release. -/
def State.unqueue (s : State) (id line : Nat) : State :=
  match Tab.get? s.waits line with
  | none => s
  | some _ =>
    let w := (s.waiting line).filter (· != id)
    { s with waits := if w.isEmpty then Tab.del s.waits line else Tab.put s.waits line w }

/-- The region filter has dropped the bits of a context on a line: detection lapses there for the rest of its region (R165, R199). -/
def State.lapsed (s : State) (p line : Nat) : Bool := (s.core (coreOf p)).dropped.contains (line, p)

/-- Set the bits of an access in its active region (R165, R196). -/
def State.mark (s : State) (a : Access) (rd wr : Bool) : State :=
  let t := s.thread a.place
  let line := a.line
  if a.region = t.region ∧ t.task.isSome ∧ !a.loose ∧ !s.lapsed a.place line then
    { s with marks := Tab.put s.marks line (addMark a.place rd wr a.kind.atomic (Tab.getD s.marks line [])) }
  else s

/-- The access takes part in region checks: one of R197's kinds, in a region that is still active. -/
def State.inRegion (s : State) (a : Access) : Bool :=
  a.kind.checked && !a.loose && a.region == (s.thread a.place).region

/-- The home processes the request of an outstanding access (R162): race and order-domain checks (R198, R203), conflicts of
ordered tasks (R258), region bits (R165), the directory. Near windows other than cluster-shared memory have none of these.
A host- or peer-backed line of which the device holds no copy is requested over its link. -/
def State.homeAccess (s : State) (id : Nat) : State :=
  match Tab.get? s.acc id with
  | none => s
  | some a =>
    if a.homed || s.pathWaits a.place a.loc || !s.mayPerform id a || s.lineBusy id a.line || s.notFirst id a.line then s
    else if !covered a.loc then s.setAcc id { a with homed := true }
    else
      let line := a.line
      if s.needsOverflow line (coreOf a.place) a.kind.writes && s.homeCoreHalted line then s
      else match Tab.getD s.dir line .uncached with
      | .engine t w => { s with dir := Tab.put s.dir line (.engine t (if w.contains id then w else w ++ [id])) }
      | _ =>
        let t := s.thread a.place
        let wr := a.kind.writes
        let ms := Tab.getD s.marks line []
        let remote := isRemote a.loc && (Tab.get? s.copies line).isNone
        let goOn (logged : Bool) (s : State) : State :=
          let s := s.unqueue id line
          let s := if a.kind.hint then s else s.dirStep line (coreOf a.place) wr
          match a.kind with
          | .wide bs false => s.setAcc id { a with kind := .wide bs true }
          | .wide _ true => s.setAcc id { a with homed := true, logged }
          | _ => s.setAcc id { a with homed := true, sent := remote, logged }
        match a.entry with
        | some e =>
          let l := a.launch.getD 0
          let bad := a.kind.checked && ms.any (fun m => (m.wr || wr) && !(m.atomicOnly && a.kind.atomic) && (s.thread m.place).launchNo == a.launch && (s.thread m.place).entry?.isNone)
          if bad then s.accFault id a { code := Code.orderMix, addr := a.va }
          else
            let s := s.abortAll (s.conflicting (cluOfPlace a.place) l t.key (line * 32) wr)
            if (Tab.get? s.acc id).isNone then s else
            let logs := wr && !s.undoHas (cluOfPlace a.place) e line
            match s.recordAccess (cluOfPlace a.place) e (line * 32) (a.kind.reads || !wr) wr a.kind.atomic with
            | none => match (s.thread a.place).wait with
              | .fault _ _ => s
              | _ => s.waitFrontier a.place
            | some s => goOn logs s
        | none =>
          if !s.inRegion a then goOn false s
          else
            let mixed := s.commits.any (fun c => some c.2.2.launch == a.launch &&
              (c.2.2.wrLines.contains line || (wr && c.2.2.rdLines.contains line)) && !(a.kind.atomic && !c.2.2.plainLines.contains line))
            match conflictMark a.place wr a.kind.atomic ms with
            | some m => s.accFault id a { code := Code.race, addr := a.va, syn := raceSyn m }
            | none =>
              if mixed then s.accFault id a { code := Code.orderMix, addr := a.va }
              else goOn false (s.mark a (a.kind.reads || !wr) wr)

end Sys2Proof.Machine
end

