-- ==== Sys2Proof/Machine/Num.lean ====
section
/-! DEFINITION. Exact numbers, `Decode`, `Round` and `RoundInt` (R91 to R105), the quantiser (R112 to R115) and the accumulator
(R116 to R118). Values are computed exactly and rounded once. -/

namespace Sys2Proof.Machine

/-! ### Formats (R91, R96) -/

/-- A float format: exponent and mantissa widths, bias, special rule 0 IEEE-like, 1 NaN only, 2 saturating (R93). -/
structure FFmt where
  e : Nat
  m : Nat
  bias : Nat
  spec : Nat
  deriving DecidableEq, Repr

def FFmt.w (f : FFmt) : Nat := 1 + f.e + f.m

def fp32 : FFmt := { e := 8, m := 23, bias := 127, spec := 0 }
def fp64 : FFmt := { e := 11, m := 52, bias := 1023, spec := 0 }
def bf16 : FFmt := { e := 8, m := 7, bias := 127, spec := 0 }
def fp16 : FFmt := { e := 5, m := 10, bias := 15, spec := 0 }
def e4m3 : FFmt := { e := 4, m := 3, bias := 7, spec := 1 }
def e5m2 : FFmt := { e := 5, m := 2, bias := 15, spec := 0 }

/-- The float format that a format value names (R96). -/
def fmtFloat (v : Nat) : FFmt := { e := bits v 2 4, m := bits v 6 4, bias := bits v 12 8, spec := bits v 10 2 }

/-! ### Exact values -/

/-- A value: a NaN, signalling or not; an infinity; or (-1)^neg * n / d * 2^k with d not 0. -/
inductive Val where
  | nan (sig : Bool)
  | inf (neg : Bool)
  | fin (neg : Bool) (n d : Nat) (k : Int)
  deriving DecidableEq, Repr

def Val.zero (neg : Bool) : Val := .fin neg 0 1 0

def Val.isNan : Val → Bool
  | .nan _ => true
  | _ => false
def Val.isSig : Val → Bool
  | .nan s => s
  | _ => false
def Val.isZero : Val → Bool
  | .fin _ n _ _ => n == 0
  | _ => false
def Val.neg : Val → Bool
  | .nan _ => false
  | .inf s => s
  | .fin s _ _ _ => s
def Val.abs : Val → Val
  | .nan s => .nan s
  | .inf _ => .inf false
  | .fin _ n d k => .fin false n d k
def Val.negate : Val → Val
  | .nan s => .nan s
  | .inf s => .inf !s
  | .fin s n d k => .fin (!s) n d k
/-- The value times 2^j. -/
def Val.scale (v : Val) (j : Int) : Val :=
  match v with
  | .fin s n d k => .fin s n d (k + j)
  | v => v
/-- An integer as a value; 0 is +0. -/
def Val.ofInt (i : Int) : Val := .fin (decide (i < 0)) i.natAbs 1 0

/-- The flag of a signalling NaN operand (R101). -/
def Val.sigFlag (v : Val) : Flags := if v.isSig then fNv else 0

/-- A fraction times 2^j as numerator and denominator. -/
def frac (n d : Nat) (j : Int) : Nat × Nat := if 0 ≤ j then (n * 2 ^ j.toNat, d) else (n, d * 2 ^ (-j).toNat)

/-- floor(log2(n / d)) for n and d not 0. -/
def flog2 (n d : Nat) : Int :=
  let a : Int := (Nat.log2 n : Int) - (Nat.log2 d : Int)
  let (x, y) := frac n d (-a)
  if y ≤ x then a else a - 1

/-- floor(log2 |x|) of a finite value that is not 0. -/
def Val.log2 : Val → Int
  | .fin _ n d k => flog2 n d + k
  | _ => 0

/-- Compare magnitudes of finite values: |x| less than |y|. -/
def magLt : Val → Val → Bool
  | .fin _ n d k, .fin _ n' d' k' =>
    let (x, y) := frac n d (k - k')
    decide (x * d' < n' * y)
  | .fin _ _ _ _, .inf _ => true
  | _, _ => false

/-- x less than y as numbers; a NaN is less than nothing. -/
def Val.lt : Val → Val → Bool
  | .nan _, _ => false
  | _, .nan _ => false
  | x, y =>
    if x.isZero && y.isZero then false
    else match x.neg, y.neg with
      | false, false => magLt x y
      | true, true => magLt y x
      | true, false => true
      | false, true => false

/-- x equal to y as numbers. -/
def Val.eqv : Val → Val → Bool
  | .nan _, _ => false
  | _, .nan _ => false
  | x, y => !x.lt y && !y.lt x

/-! ### Decode (R92 to R94) -/

/-- Is the encoding with exponent field all ones special (R93)? -/
def FFmt.special (f : FFmt) (e m : Nat) : Bool :=
  match f.spec with
  | 0 => e == 2 ^ f.e - 1
  | 1 => e == 2 ^ f.e - 1 && m == 2 ^ f.m - 1
  | _ => false

/-- The value of an encoding (R92, R93). -/
def decodeF (f : FFmt) (x : Nat) : Val :=
  let m := bits x 0 f.m
  let e := bits x f.m f.e
  let s := bits x (f.m + f.e) 1 == 1
  if e = 0 then .fin s m 1 (1 - (f.bias : Int) - f.m)
  else if f.special e m then
    if f.spec = 0 ∧ m = 0 then .inf s
    else .nan (f.spec == 0 && decide (2 ≤ f.m) && decide (m < 2 ^ (f.m - 1)))
  else .fin s (2 ^ f.m + m) 1 ((e : Int) - f.bias - f.m)

/-- The canonical NaN (R94). -/
def FFmt.nan (f : FFmt) : Nat :=
  (2 ^ f.e - 1) * 2 ^ f.m + (if f.spec = 1 then 2 ^ f.m - 1 else 2 ^ (f.m - 1))

/-- The largest finite magnitude as mantissa and exponent field (R93). -/
def FFmt.top (f : FFmt) : Nat × Nat :=
  match f.spec with
  | 0 => (2 ^ (f.m + 1) - 1, 2 ^ f.e - 2)
  | 1 => (2 ^ (f.m + 1) - 2, 2 ^ f.e - 1)
  | _ => (2 ^ (f.m + 1) - 1, 2 ^ f.e - 1)

def FFmt.signBit (f : FFmt) (s : Bool) : Nat := if s then 2 ^ (f.e + f.m) else 0

/-- Encodings of the largest finite magnitude and of infinity with a sign. -/
def FFmt.maxEnc (f : FFmt) (s : Bool) : Nat := f.signBit s + f.top.2 * 2 ^ f.m + (f.top.1 - 2 ^ f.m)
def FFmt.infEnc (f : FFmt) (s : Bool) : Nat := f.signBit s + (2 ^ f.e - 1) * 2 ^ f.m

/-- The largest finite magnitude as a value. -/
def FFmt.maxVal (f : FFmt) : Val := .fin false f.top.1 1 ((f.top.2 : Int) - f.bias - f.m)

/-! ### The rounding environment (R100, R104) -/

/-- Rounding mode, state of the generator, flags raised so far. -/
structure Fp where
  rm : Nat
  srs : Word
  fl : Flags
  deriving DecidableEq, Repr

def Fp.raise (p : Fp) (f : Flags) : Fp := { p with fl := p.fl ||| f }

/-- `n` steps of the generator from bit `i`: what has been drawn and the state (R104). -/
def drawBits : Nat → Nat → Word → Nat → Nat × Word
  | 0, _, s, d => (d, s)
  | n + 1, i, s, d =>
    let b := s.toNat % 2
    let t := s >>> 1
    drawBits n (i + 1) (if b = 1 then t ^^^ 0xD800000000000000 else t) (d + b * 2 ^ i)

/-- A 24-bit draw (R104). -/
def lfsrDraw (s : Word) : Nat × Word := drawBits 24 0 (if s = 0 then 0x9E3779B97F4A7C15 else s) 0

/-- Is the truncated fraction num / den, with quotient `t` and remainder `r`, rounded up in magnitude (R102, R104)? -/
def roundUp (p : Fp) (neg : Bool) (t r den : Nat) : Bool × Fp :=
  if r = 0 then (false, p) else
  match p.rm with
  | 0 => (decide (den < 2 * r) || (decide (2 * r = den) && t % 2 == 1), p)
  | 1 => (false, p)
  | 2 => (neg, p)
  | 3 => (!neg, p)
  | _ =>
    let (d, s) := lfsrDraw p.srs
    (decide (d < r * 2 ^ 24 / den), { p with srs := s })

/-- `Round` (R102, R103): the encoding, whether it overflowed, and the environment with the flags raised. -/
def round (f : FFmt) (x : Val) (p : Fp) : Nat × Bool × Fp :=
  match x with
  | .nan _ => if f.spec = 2 then (0, false, p.raise fNv) else (f.nan, false, p)
  | .inf s => if f.spec = 0 then (f.infEnc s, false, p) else (f.maxEnc s, false, p.raise fSat)
  | .fin s n d k =>
    if n = 0 then (f.signBit s, false, p) else
    let emin : Int := 1 - f.bias
    let lg := flog2 n d + k
    let g := max lg emin - f.m
    let (num, den) := frac n d (k - g)
    let t := num / den
    let r := num % den
    let (up, p) := roundUp p s t r den
    let q := if up then t + 1 else t
    let p := if r = 0 then p else p.raise (if lg < emin then fNx ||| fUf else fNx)
    let gx : Int := (f.top.2 : Int) - f.bias - f.m
    let (a, b) := frac q 1 (g - gx)
    if f.top.1 * b < a then
      let p := p.raise (fOf ||| fNx)
      if f.spec = 0 then
        let toInf := match p.rm with
          | 0 => true
          | 1 => false
          | 2 => s
          | 3 => !s
          | _ => up
        (if toInf then f.infEnc s else f.maxEnc s, true, p)
      else (f.maxEnc s, true, p.raise fSat)
    else
      let (q, g) := if q = 2 ^ (f.m + 1) then (2 ^ f.m, g + 1) else (q, g)
      if q < 2 ^ f.m then (f.signBit s + q, false, p)
      else (f.signBit s + (g + f.m + f.bias).toNat * 2 ^ f.m + (q - 2 ^ f.m), false, p)

/-- `Round` without the overflow mark. -/
def roundE (f : FFmt) (x : Val) (p : Fp) : Nat × Fp := ((round f x p).1, (round f x p).2.2)

/-- `RoundInt` within bounds `lo` to `hi` (R105): the integer, whether it went beyond, and the environment. -/
def roundBetween (lo hi : Int) (x : Val) (p : Fp) : Int × Bool × Fp :=
  match x with
  | .nan _ => (0, false, p.raise fNv)
  | .inf s => (if s then lo else hi, false, p.raise (fNv ||| fSat))
  | .fin s n d k =>
    let (num, den) := frac n d k
    let t := num / den
    let r := num % den
    let (up, p) := roundUp p s t r den
    let q : Int := if up then t + 1 else t
    let v := if s then -q else q
    let p := if r = 0 then p else p.raise fNx
    if v < lo then (lo, true, p.raise (fNv ||| fSat))
    else if hi < v then (hi, true, p.raise (fNv ||| fSat))
    else (v, false, p)

/-- The bounds of an integer of `w` bits. -/
def intLo (w : Nat) (signed : Bool) : Int := if signed then -(2 ^ (w - 1) : Int) else 0
def intHi (w : Nat) (signed : Bool) : Int := if signed then 2 ^ (w - 1) - 1 else 2 ^ w - 1

/-- `RoundInt` to an encoding of `w` bits (R105). -/
def roundInt (w : Nat) (signed : Bool) (x : Val) (p : Fp) : Nat × Bool × Fp :=
  let r := roundBetween (intLo w signed) (intHi w signed) x p
  (ofInt w r.1, r.2.1, r.2.2)

/-! ### Arithmetic on exact values (R130, R133, R134) -/

/-- x times y, with its flags. -/
def mulVal (x y : Val) : Val × Flags :=
  match x, y with
  | .nan s, v => (.nan false, (if s then fNv else 0) ||| v.sigFlag)
  | v, .nan s => (.nan false, (if s then fNv else 0) ||| v.sigFlag)
  | .inf s, v => if v.isZero then (.nan false, fNv) else (.inf (s ^^ v.neg), 0)
  | v, .inf s => if v.isZero then (.nan false, fNv) else (.inf (s ^^ v.neg), 0)
  | .fin s n d k, .fin s' n' d' k' => (.fin (s ^^ s') (n * n') (d * d') (k + k'), 0)

/-- Signed numerator of a finite value on a common grid 2^g / den, where den is a multiple of its d. -/
def Val.onGrid (g : Int) (den : Nat) : Val → Int
  | .fin s n d k =>
    let a : Int := (n * 2 ^ (k - g).toNat * (den / d) : Nat)
    if s then -a else a
  | _ => 0

/-- The least exponent among finite values. -/
def minExp : List Val → Int
  | [] => 0
  | [.fin _ _ _ k] => k
  | .fin _ _ _ k :: t => min k (minExp t)
  | _ :: t => minExp t

/-- The exact sum of values with its flags: any NaN gives NaN, opposite infinities NaN with nv; an exact zero keeps a sign
that all share and is else +0, or -0 under RDN (R130, R133, R134). -/
def sumVals (rm : Nat) (vs : List Val) : Val × Flags :=
  if vs.any Val.isNan then (.nan false, if vs.any Val.isSig then fNv else 0)
  else if vs.contains (.inf false) && vs.contains (.inf true) then (.nan false, fNv)
  else if vs.contains (.inf false) then (.inf false, 0)
  else if vs.contains (.inf true) then (.inf true, 0)
  else
    let g := minExp vs
    let den := vs.foldl (fun a v => match v with | .fin _ _ d _ => Nat.lcm a d | _ => a) 1
    let t := vs.foldl (fun (a : Int) v => a + v.onGrid g den) 0
    if t = 0 then (.zero (if vs.all Val.neg then true else if vs.any Val.neg then rm == 2 else false), 0)
    else (.fin (decide (t < 0)) t.natAbs den g, 0)

/-- x divided by y (R130). -/
def divVal (x y : Val) : Val × Flags :=
  match x, y with
  | .nan s, v => (.nan false, (if s then fNv else 0) ||| v.sigFlag)
  | v, .nan s => (.nan false, (if s then fNv else 0) ||| v.sigFlag)
  | .inf _, .inf _ => (.nan false, fNv)
  | .inf s, v => (.inf (s ^^ v.neg), 0)
  | v, .inf s => (.zero (s ^^ v.neg), 0)
  | .fin s n d k, .fin s' n' d' k' =>
    if n' = 0 then (if n = 0 then (.nan false, fNv) else (.inf (s ^^ s'), fDz))
    else (.fin (s ^^ s') (n * d') (d * n') (k - k'), 0)

/-- The greatest natural number whose square is at most `n`, one bit at a time from bit `b` down. -/
def isqrt (n : Nat) : Nat → Nat → Nat
  | 0, r => r
  | b + 1, r => if (r + 2 ^ b) * (r + 2 ^ b) ≤ n then isqrt n b (r + 2 ^ b) else isqrt n b r

/-- The square root of a value as a value that rounds as the exact root does: an inexact root is cut to 96 or more bits with
one more bit set below (R144). -/
def sqrtVal (x : Val) : Val × Flags :=
  match x with
  | .nan s => (.nan false, if s then fNv else 0)
  | .inf s => if s then (.nan false, fNv) else (.inf false, 0)
  | .fin s n d k =>
    if n = 0 then (.zero s, 0)
    else if s then (.nan false, fNv)
    else
      -- d is 1: roots are taken of decoded values
      let k' := if k % 2 = 0 then k else k - 1
      let n := (if k % 2 = 0 then n else 2 * n) * 2 ^ 192 / d
      let r := isqrt n 160 0
      let e := k' / 2 - 96
      if r * r = n then (.fin false r 1 e, 0) else (.fin false (2 * r + 1) 1 (e - 1), 0)

/-! ### Bank formats and blocks (R106 to R111) -/

/-- A bank's element decoding, or a quantiser's target: a float format, an integer, or i4o. -/
inductive EFmt where
  | flt (f : FFmt)
  | int (w : Nat) (signed : Bool)
  | i4o
  deriving DecidableEq, Repr

/-- The element format that a valid format value names (R96, R97). -/
def eFmt (v : Nat) : EFmt :=
  match bits v 0 2 with
  | 0 => .flt (fmtFloat v)
  | 1 => .int (fmtWidth v) (bits v 23 1 == 1)
  | _ => .i4o

def EFmt.w : EFmt → Nat
  | .flt f => f.w
  | .int w _ => w
  | .i4o => 4

/-- The value of an element's encoding; i4o slots are decoded by their block (R92, R111). -/
def EFmt.decode (f : EFmt) (x : Nat) : Val :=
  match f with
  | .flt g => decodeF g x
  | .int w s => Val.ofInt (if s then toInt w (x % 2 ^ w) else (x % 2 ^ w : Nat))
  | .i4o => Val.ofInt (toInt 4 (x % 16))

/-- The values of i4o slots in units of the scale (R111), from slot `i` on; `prev` is the slot before. -/
def i4oVals (oe : Nat) : List Nat → List Val
  | [] => []
  | [c] => [if c = 8 then .zero false else Val.ofInt (toInt 4 c)]
  | c :: n :: t =>
    if c = 8 then .fin (decide (8 ≤ n)) (8 + n % 8) 1 ((oe : Int) - 3) :: .zero false :: i4oVals oe t
    else Val.ofInt (toInt 4 c) :: (if n = 8 then .zero false else Val.ofInt (toInt 4 n)) :: i4oVals oe t

/-- A value times the scale of an E8M0 code; the code 255 is NaN (R108). -/
def e8m0 (c : Nat) (v : Val) : Val := if c = 255 then .nan true else v.scale ((c : Int) - 127)

/-- `n` codes of width `w` from bit `lo` of the number that packed bytes hold (R95). -/
def codesOf (x lo w n : Nat) : List Nat := (List.range n).map (fun i => bits x (lo + w * i) w)

/-- The number that packed codes of width `w` make. -/
def packCodes (w : Nat) : List Nat → Nat
  | [] => 0
  | c :: t => c % 2 ^ w + 2 ^ w * packCodes w t

/-- Indices of a sparse block rise strictly and are at most 47 (R109). -/
def idxOk : List Nat → Bool
  | [] => true
  | [i] => decide (i < 48)
  | i :: j :: t => decide (i < j) && idxOk (j :: t)

/-- A block as stored: scale code (127 where the bank has no scale), outlier exponent, codes, and the indices of a sparse
block (R108 to R111). `v` is the bank format, `byte` the bank's bytes, `off` the block's first byte. -/
structure RawBlock where
  scale : Nat
  oe : Nat
  codes : List Nat
  idx : Option (List Nat)
  deriving DecidableEq, Repr

def rawBlock (v : Nat) (byte : Nat → Nat) (off : Nat) : RawBlock :=
  let el := eFmt (bfElem v)
  let spar := bfSpar v
  let n := if spar = 0 then bfBlockLen v else sparN spar
  let scaleHere := bfBlk v != 0 && !bfSp v
  let c := if bfBlk v = 0 then 127
    else if bfSp v then byte (64 * bfTso v + off / bfStride v) else byte off
  let o1 := off + (if scaleHere then 1 else 0)
  let o2 := o1 + (if el = .i4o then 1 else 0)
  let nb := (n * el.w + 7) / 8
  let num (o k : Nat) : Nat := leNat ((List.range k).map (fun i => BitVec.ofNat 8 (byte (o + i))))
  { scale := c, oe := if el = .i4o then byte o1 % 16 else 0, codes := codesOf (num o2 nb) 0 el.w n,
    idx := if spar = 0 then none else some (codesOf (num (o2 + nb) ((n * 6 + 7) / 8)) 0 6 n) }

/-- Values of a run of codes with their scale applied. -/
def scaledVals (v : Nat) (r : RawBlock) : List Val :=
  let el := eFmt (bfElem v)
  (if el = .i4o then i4oVals r.oe r.codes else r.codes.map el.decode).map (e8m0 r.scale)

/-- The elements of a block, kept values at their indices and zero elsewhere; none for a malformed block (R109). -/
def blockVals (v : Nat) (r : RawBlock) : Option (List Val) :=
  let vals := scaledVals v r
  match r.idx with
  | none => some vals
  | some idx =>
    if idxOk idx then
      some ((List.range 48).map (fun k =>
        match (idx.zip vals).find? (fun e => e.1 == k) with | some e => e.2 | none => Val.zero false))
    else none

/-- The codes of a block's elements, 0 where none is kept. -/
def blockCodes (r : RawBlock) : List Nat :=
  match r.idx with
  | none => r.codes
  | some idx => (List.range 48).map (fun k => match (idx.zip r.codes).find? (fun e => e.1 == k) with | some e => e.2 | none => 0)

/-- The bytes of a dense block without its scale, and with it where the scale is a header (R108, R110). -/
def blockBytes (v : Nat) (scale : Int) (oe : Nat) (codes : List Nat) : List Byte :=
  let el := eFmt (bfElem v)
  (if bfBlk v ≠ 0 ∧ !bfSp v then leBytes 1 (scale + 127).toNat else []) ++ (if el = .i4o then leBytes 1 oe else []) ++
    leBytes ((codes.length * el.w + 7) / 8) (packCodes el.w codes)

/-! ### The quantiser (R112 to R115) -/

/-- Candidates for outliers of an i4o block (R114): `cand` for each slot. An infinity is larger than every number; a NaN is no
candidate. -/
def i4oCands (vs : List Val) : List Bool :=
  let odd := (vs.zipIdx.filter (fun e => e.2 % 2 == 1)).map (·.1)
  let d := odd.foldl (fun a x => if x.isNan then a else if magLt a x then x.abs else a) (.zero false)
  vs.zipIdx.map (fun e => e.2 % 2 == 0 && !e.1.isNan && !e.1.isZero && !magLt e.1 (d.scale 3))

/-- The greatest finite magnitude among values, 0 if none. -/
def maxMag (vs : List Val) : Val :=
  vs.foldl (fun a x => match x with | .fin _ _ _ _ => if magLt a x then x.abs else a | _ => a) (.zero false)

/-- What one encoding of a block gives. -/
structure QEnc where
  codes : List Nat
  oe : Nat
  ovf : Bool
  fp : Fp
  deriving DecidableEq, Repr

/-- Encode one element at a scale (R112); with `sat` an overflowing element takes its largest value (R113). An integer element beyond its
range counts as an overflow like a float's, and the largest value of a negative one is the lower end of its range (log entry 129). -/
def encElem (f : EFmt) (sat : Bool) (s : Int) (x : Val) (p : Fp) : Nat × Bool × Fp :=
  let p := p.raise x.sigFlag
  match f with
  | .flt g =>
    let (c, o, p) := round g (x.scale (-s)) p
    (if o && sat then g.maxEnc x.neg else c, o, p)
  | .int w sg => roundInt w sg (x.scale (-s)) p
  | .i4o =>
    -- in an attempt a slot beyond 7 in magnitude is an overflow of the block and by itself raises neither nv nor sat; the saturated
    -- encoding is RoundInt with bounds 7 (R105, R112, R113; log entry 77)
    let b : Int := match x with | .inf _ => 7 | _ => if sat then 7 else 2 ^ 62
    let r := roundBetween (-b) b (x.scale (-s)) p
    (ofInt 4 (max (-7) (min 7 r.1)), decide (r.1 < -7) || decide (7 < r.1), r.2.2)

/-- Encode the elements in order. -/
def encElems (f : EFmt) (sat : Bool) (s : Int) : List Val → Fp → QEnc
  | [], p => { codes := [], oe := 0, ovf := false, fp := p }
  | x :: t, p =>
    let (c, o, p) := encElem f sat s x p
    let r := encElems f sat s t p
    { r with codes := c :: r.codes, ovf := o || r.ovf }

/-- Encode i4o slots with their candidates at a scale and outlier exponent (R114). -/
def encI4o (sat : Bool) (s : Int) (oe : Nat) : List (Val × Bool) → Fp → QEnc
  | [], p => { codes := [], oe, ovf := false, fp := p }
  | (x, true) :: t, p =>
    -- an outlier takes this slot and the next
    let m := (sumVals 0 [(x.abs).scale (3 - s - oe), .fin true 8 1 0]).1
    let (v, _, p) := roundBetween (-(2 ^ 62)) (2 ^ 62) m p
    let code := (if x.neg then 8 else 0) + (max 0 (min 7 v)).toNat
    match t with
    | [] => { codes := [8], oe, ovf := false, fp := p }
    | _ :: t =>
      let r := encI4o sat s oe t p
      { r with codes := 8 :: code :: r.codes }
  | (x, false) :: t, p =>
    let (c, o, p) := encElem .i4o sat s x p
    let r := encI4o sat s oe t p
    { r with codes := c :: r.codes, ovf := o || r.ovf }

/-- A format of four significant bits with a range beyond any value's, for the outlier exponent (R114). -/
def fourBits : FFmt := { e := 12, m := 3, bias := 2047, spec := 0 }

/-- Encode a block at scale `s`. The largest scaled candidate of an i4o block is rounded to four significant bits by the mode in force,
which under stochastic rounding takes one draw before the elements' (log entry 92); an infinite one overflows (R114). -/
def encBlock (f : EFmt) (sat : Bool) (vs : List Val) (cand : List Bool) (s : Int) (p : Fp) : QEnc :=
  match f with
  | .i4o =>
    let cs := (vs.zip cand).filterMap (fun (e : Val × Bool) => if e.2 then some e.1 else none)
    let y := maxMag cs
    if cs.any (fun x => x.abs == .inf false) then { encI4o sat s 15 (vs.zip cand) p with ovf := true }
    else if y.isZero then encI4o sat s 0 (vs.zip cand) p
    else
      let (c, _, q) := round fourBits (y.scale (-s)) { p with fl := 0 }
      let e : Int := (decodeF fourBits c).log2
      let p := { p with srs := q.srs }
      let oe := e.toNat
      let r := encI4o sat s (min oe 15) (vs.zip cand) p
      { r with ovf := r.ovf || decide (15 < oe) }
  | f => encElems f sat s vs p

/-- The initial scale of a block (R112). -/
def initScale (f : EFmt) (vs : List Val) (cand : List Bool) : Int :=
  let a := match f with
    | .i4o => maxMag ((vs.zip cand).filterMap (fun (e : Val × Bool) => if e.2 then none else some e.1))
    | _ => maxMag vs
  let ef : Int := match f with
    | .flt g => g.maxVal.log2
    | .int w sg => (Val.ofInt (intHi w sg)).log2
    | .i4o => 2
  if a.isZero then 0 else max (-127) (min 127 (a.log2 - ef))

/-- A quantised block: codes, outlier exponent, scale, retries, saturation, environment. -/
structure QBlock where
  codes : List Nat
  oe : Nat
  scale : Int
  retry : Nat
  sat : Bool
  fp : Fp
  deriving DecidableEq, Repr

/-- The attempts of R113: `n` more are left, `retry` were made. Flags of discarded attempts are dropped, except sat. The saturated
encoding that the pseudocode makes after its loop is a further one, with draws of its own (log entry 93). -/
def quantLoop (f : EFmt) (vs : List Val) (cand : List Bool) (fl0 : Flags) : Nat → Nat → Int → Fp → QBlock
  | 0, retry, s, p =>
    let r := encBlock f true vs cand s p
    { codes := r.codes, oe := r.oe, scale := s, retry, sat := true, fp := r.fp.raise fSat }
  | n + 1, retry, s, p =>
    let r := encBlock f false vs cand s p
    if !r.ovf then { codes := r.codes, oe := r.oe, scale := s, retry, sat := false, fp := r.fp }
    else
      let kept := { r.fp with fl := fl0 ||| (r.fp.fl &&& fSat) }
      if retry = 3 ∨ s = 127 then
        let r := encBlock f true vs cand s kept
        { codes := r.codes, oe := r.oe, scale := s, retry, sat := true, fp := r.fp.raise fSat }
      else quantLoop f vs cand fl0 n (retry + 1) (s + 1) kept

/-- `Quantise` (R113), with the initial scale of R112 or one that a descriptor supplies. -/
def quantise (f : EFmt) (vs : List Val) (init : Option Int) (p : Fp) : QBlock :=
  let cand := match f with | .i4o => i4oCands vs | _ => vs.map (fun _ => false)
  quantLoop f vs cand p.fl 4 0 (init.getD (initScale f vs cand)) p

/-! ### The accumulator (R116, R117) -/

/-- The accumulator's format: as an IEEE-like format of 96 bits. -/
def accFmt : FFmt := { e := 15, m := 80, bias := 16383, spec := 0 }

/-- One group of products into an accumulator element (R117): each product is exact. -/
def accGroup (acc : BitVec 96) (ps : List Val) : BitVec 96 × Flags :=
  let a := decodeF accFmt acc.toNat
  let all := a :: ps
  let sig := if ps.any Val.isSig then fNv else 0
  let nan : BitVec 96 := BitVec.ofNat 96 accFmt.nan
  if all.any Val.isNan then (nan, sig)
  else if all.contains (.inf false) && all.contains (.inf true) then (nan, fNv)
  else if all.contains (.inf false) then (BitVec.ofNat 96 (accFmt.infEnc false), 0)
  else if all.contains (.inf true) then (BitVec.ofNat 96 (accFmt.infEnc true), 0)
  else
    let nz := ps.filter (fun p => !p.isZero)
    match nz with
    | [] =>
      let r := round accFmt (sumVals 0 all).1 { rm := 0, srs := 0, fl := 0 }
      (BitVec.ofNat 96 r.1, r.2.2.fl)
    | p :: t =>
      let e : Int := t.foldl (fun (m : Int) (x : Val) => max m x.log2) p.log2
      let cut (x : Val) : Val × Bool := match x with
        | .fin s n d k =>
          let (num, den) := frac n d (k - (e - 100))
          (.fin s (num / den) 1 (e - 100), decide (num % den ≠ 0))
        | v => (v, false)
      let cs := nz.map cut
      let st := cs.any (·.2)
      let x := (sumVals 0 (a :: cs.map (·.1))).1
      let r := round accFmt x { rm := 0, srs := 0, fl := 0 }
      let fl := if st then r.2.2.fl ||| fNx else r.2.2.fl
      if st then
        -- a sum exactly halfway goes to the candidate of larger magnitude
        let dn := round accFmt x { rm := 1, srs := 0, fl := 0 }
        let up := round accFmt x { rm := if x.neg then 2 else 3, srs := 0, fl := 0 }
        let half := match x, decodeF accFmt dn.1, decodeF accFmt up.1 with
          | .fin s n d k, .fin s1 n1 d1 k1, .fin s2 n2 d2 k2 =>
            dn.1 != up.1 && (sumVals 0 [.fin s1 n1 d1 k1, .fin s2 n2 d2 k2]).1.eqv (.fin s n d (k + 1))
          | _, _, _ => false
        if half then (BitVec.ofNat 96 up.1, fl) else (BitVec.ofNat 96 r.1, fl)
      else (BitVec.ofNat 96 r.1, fl)

end Sys2Proof.Machine
end

