-- ==== Sys2Proof/Machine/Operands.lean ====
section
/-! DEFINITION. Operand forms shared by the families: reading sources in the order of R48, lanes (R95, R126), format registers
of type fields (R99, R128), results. -/

namespace Sys2Proof.Machine

/-! ### Sources (R36, R37, R48) -/

/-- The stale-latch check of every source comes before any other operand fault (R37, R48). -/
def State.latch (s : State) (rs : List Spec) : Except Stop Unit :=
  if rs.contains 0 && s.me.ltStale then .error (fltC Code.staleLatch) else .ok ()

/-- Two sources. -/
def State.read2 (s : State) (a b : Spec) : Except Stop (Reg × Reg) := do
  s.latch [a, b]
  let x ← s.readReg a
  let y ← s.readReg b
  pure (x, y)

/-- Three sources. -/
def State.read3 (s : State) (a b c : Spec) : Except Stop (Reg × Reg × Reg) := do
  s.latch [a, b, c]
  let x ← s.readReg a
  let y ← s.readReg b
  let z ← s.readReg c
  pure (x, y, z)

/-- The instruction of `len` bytes completes with a result for `d`. -/
def State.put (s : State) (len : Nat) (d : Spec) (v : Reg) : Res := do
  let s ← s.writeReg d v
  pure (s.fin len)

/-- A scalar operation on one source (R38, R61). -/
def State.alu1 (s : State) (len : Nat) (d a : Spec) (f : Word → Word) : Res := do
  let x ← s.readReg a
  s.put len d (scalar (f (lo64 x)))

/-- A scalar operation on two sources (R38, R61). -/
def State.alu2 (s : State) (len : Nat) (d a b : Spec) (f : Word → Word → Word) : Res := do
  let (x, y) ← s.read2 a b
  s.put len d (scalar (f (lo64 x) (lo64 y)))

/-- A 32-bit operation on words: low halves in, sign-extended result (R61). -/
def on32 (f : BitVec 32 → BitVec 32 → BitVec 32) (x y : Word) : Word :=
  (f (x.setWidth 32) (y.setWidth 32)).signExtend 64
def on32u (f : BitVec 32 → BitVec 32) (x : Word) : Word := (f (x.setWidth 32)).signExtend 64

/-- A predicate result: the instruction completes with `b` in `p` (R66). -/
def State.putPred (s : State) (len : Nat) (p : PredNo) (b : Bool) : State :=
  (s.setMe (s.me.setPred p b)).fin len

/-- A compare of two sources (R67). -/
def State.cmp2 (s : State) (len : Nat) (p : PredNo) (a b : Spec) (f : Word → Word → Bool) : Res := do
  let (x, y) ← s.read2 a b
  pure (s.putPred len p (f (lo64 x) (lo64 y)))

/-! ### Lanes (R95, R126) -/

/-- Lane `i` of width `w`. -/
def lane (w : Nat) (r : Reg) (i : Nat) : Nat := bits r.toNat (w * i) w

/-- A register of lanes of width `w` from lane 0 up; the bits above them are 0. -/
def ofLanes (w : Nat) (xs : List Nat) : Reg := BitVec.ofNat 128 (packCodes w xs)

/-- Lanes of width `w` in a register. -/
def laneCount (w : Nat) : Nat := 128 / w

/-- Every lane from a function of its index. -/
def mkLanes (w n : Nat) (f : Nat → Nat) : Reg := ofLanes w ((List.range n).map f)

/-- Lanes from `i` up for the indices left, in ascending order, with the rounding environment passed on (R104). -/
def lanesFp (f : Nat → Fp → Nat × Fp) : Nat → Nat → Fp → List Nat × Fp
  | 0, _, p => ([], p)
  | n + 1, i, p =>
    let (x, p) := f i p
    let (xs, p) := lanesFp f n (i + 1) p
    (x :: xs, p)

/-! ### Rounding in a context (R101, R104) -/

/-- The environment in which an instruction of the running context rounds. -/
def State.fp (s : State) : Fp := { rm := s.me.rm, srs := s.me.srs, fl := 0 }

/-- The running context takes up the flags raised and the state of its generator. -/
def State.withFp (s : State) (p : Fp) : State :=
  s.setMe { s.me with fm := s.me.fm ||| (p.fl.setWidth 64 <<< 8), srs := p.srs }

/-! ### Types (R31, R99, R128) -/

/-- The float format of a type. -/
def Thread.ffmt (t : Thread) : FTy → FFmt
  | .f32 => fp32
  | .f64 => fp64
  | .b16 => bf16
  | .h16 => fp16
  | .e4 => e4m3
  | .e5 => e5m2
  | .fr n => fmtFloat t.f[n].toNat

/-- Kinds of format that an operand accepts: 0 float, 1 integer, 2 either (R119). -/
def kindOk (k : Nat) (v : Nat) : Bool :=
  match k with
  | 0 => bits v 0 2 == 0
  | 1 => bits v 0 2 == 1
  | _ => bits v 0 2 != 2

/-- Format register `n` does not hold a format of kind `k` with a width of the list (R99). -/
def Thread.frBad (t : Thread) (k : Nat) (ws : List Nat) (n : Fin 4) : Bool :=
  let v := t.f[n].toNat
  v == 0 || !kindOk k v || !ws.contains (fmtWidth v)

/-- Format registers that a float type names and that its operation does not accept. -/
def Thread.ftyBad (t : Thread) (k : Nat) (ws : List Nat) : FTy → List (Fin 4)
  | .fr n => if t.frBad k ws n then [n] else []
  | _ => []

/-- The same for the integer side of `cvti` and `cvtf`. -/
def Thread.cvtBad (t : Thread) : CvtInt → List (Fin 4)
  | .fr n => if t.frBad 1 [4, 6, 8, 16] n then [n] else []
  | _ => []

/-- The format-use fault of the lowest-numbered offending register (R99, R127). -/
def Thread.useCheck (t : Thread) (bad : List (Fin 4)) : Except Stop Unit :=
  match bad with
  | [] => .ok ()
  | n :: ns =>
    let k := ns.foldl (fun a b => if b.val < a.val then b else a) n
    .error (.flt { code := Code.formatUse, syn := t.f[k], detail := 2 + k.val })

/-- Width and signedness of an integer type. -/
def intW : IntTy → Nat
  | .i8 | .n8 => 8
  | .i16 | .n16 => 16
  | .i32 | .n32 => 32
  | .i64 | .n64 => 64
def intSigned : IntTy → Bool
  | .i8 | .i16 | .i32 | .i64 => true
  | _ => false

/-- Widths that the vector float instructions accept (R128). -/
def vecWidths : List Nat := [4, 6, 8, 16]

/-! ### Vector forms (R127) -/

/-- A float instruction on lanes of one source. -/
def State.vecF1 (s : State) (t : FTy) (d a : Spec) (f : FFmt → Nat → Fp → Nat × Fp) : Res := do
  s.latch [a]
  s.me.useCheck (s.me.ftyBad 0 vecWidths t)
  let x ← s.readReg a
  let F := s.me.ffmt t
  let (xs, p) := lanesFp (fun i p => f F (lane F.w x i) p) (laneCount F.w) 0 s.fp
  (s.withFp p).put 4 d (ofLanes F.w xs)

/-- A float instruction on lanes of two sources. -/
def State.vecF2 (s : State) (len : Nat) (t : FTy) (d a b : Spec) (f : FFmt → Nat → Nat → Fp → Nat × Fp) : Res := do
  s.latch [a, b]
  s.me.useCheck (s.me.ftyBad 0 vecWidths t)
  let (x, y) ← s.read2 a b
  let F := s.me.ffmt t
  let (xs, p) := lanesFp (fun i p => f F (lane F.w x i) (lane F.w y i) p) (laneCount F.w) 0 s.fp
  (s.withFp p).put len d (ofLanes F.w xs)

/-- A float instruction on lanes of two sources and of its destination. -/
def State.vecF3 (s : State) (len : Nat) (t : FTy) (d a b : Spec) (f : FFmt → Nat → Nat → Nat → Fp → Nat × Fp) : Res := do
  s.latch [a, b, d]
  s.me.useCheck (s.me.ftyBad 0 vecWidths t)
  let (x, y, z) ← s.read3 a b d
  let F := s.me.ffmt t
  let (xs, p) := lanesFp (fun i p => f F (lane F.w x i) (lane F.w y i) (lane F.w z i) p) (laneCount F.w) 0 s.fp
  (s.withFp p).put len d (ofLanes F.w xs)

/-- A float reduction of one source into lane 0 (R133). -/
def State.vecFR (s : State) (t : FTy) (d a : Spec) (f : FFmt → List Nat → Fp → Nat × Fp) : Res := do
  s.latch [a]
  s.me.useCheck (s.me.ftyBad 0 vecWidths t)
  let x ← s.readReg a
  let F := s.me.ffmt t
  let (r, p) := f F ((List.range (laneCount F.w)).map (lane F.w x)) s.fp
  (s.withFp p).put 4 d (ofLanes F.w [r])

/-- An integer instruction on lanes of two sources; a lane may raise sat (R137). -/
def State.vecI2 (s : State) (len : Nat) (t : IntTy) (d a b : Spec) (f : Nat → Bool → Nat → Nat → Nat) : Res := do
  let (x, y) ← s.read2 a b
  s.put len d (mkLanes (intW t) (laneCount (intW t)) (fun i => f (intW t) (intSigned t) (lane (intW t) x i) (lane (intW t) y i)))

/-- A permute of two sources and of the destination, on whole registers (R141). -/
def State.perm3 (s : State) (d a b : Spec) (f : Reg → Reg → Reg → Reg) : Res := do
  let (x, y, z) ← s.read3 a b d
  s.put 4 d (f x y z)

/-- The same without the destination as a source. -/
def State.perm2 (s : State) (d a b : Spec) (f : Reg → Reg → Reg) : Res := do
  let (x, y) ← s.read2 a b
  s.put 4 d (f x y)

def State.perm1 (s : State) (d a : Spec) (f : Reg → Reg) : Res := do
  let x ← s.readReg a
  s.put 4 d (f x)

end Sys2Proof.Machine
end

