-- ==== Sys2Proof/Machine/Access.lean ====
section
/-! DEFINITION. Issuing an access (R82, R170, R171), what performing it does (R172, R177, R178, R211 to R216), links to the host
and to peers (R406, R410), and the points that order a context's accesses (R186, R192, R196, R216). -/

namespace Sys2Proof.Machine

/-! ### Issue -/

/-- An access of the running context with the fields that every kind shares. -/
def State.newAcc (s : State) (kind : AccKind) (va : Word) (n loc : Nat) : Access :=
  let t := s.me
  { place := s.cur, kind, va, n, loc, data := 0, dst := none, wlt := false, ord := .rlx, scope := .task, ipc := t.ipc,
    region := t.region, homed := false, sent := false, launch := t.launchNo, ctx := t.ctxNo, grp := t.grp,
    entry := t.entry?, loose := false, issued := s.cyc, merged := false }

/-- An access becomes outstanding. -/
def State.file (s : State) (a : Access) : State := (s.setAcc s.nextId a).bump

/-- An access whose value goes to register `t` issues: it counts in cld, and `lt` waits for the value too unless `t` is zero
(R36, R82, R171). -/
def State.issueLoad (s : State) (len : Nat) (t : Spec) (a : Access) : Res :=
  if 63 ≤ s.me.cld then .error .wait
  else if t != 0 && t != 1 && s.busy t then .error .wait
  else
    let s := if t = 1 then s else (s.setMe { s.me with ltStale := false }).clearWlt
    let s := s.file { a with dst := if t = 1 then none else some t, wlt := t != 1 }
    .ok ((s.setMe { s.me with cld := s.me.cld + 1 }).fin len)

/-- A store issues: it counts in cst (R82). -/
def State.issueStore (s : State) (len : Nat) (a : Access) : Res :=
  if 63 ≤ s.me.cst then .error .wait
  else .ok (((s.file a).setMe { s.me with cst := s.me.cst + 1 }).fin len)

/-- An ordered-use fault of a speculative ordered task at a store or atomic to the chip scratchpad or to a remote scratchpad
(R202). A store to the own slot through the remote window, which R22 performs on the own scratchpad, is none (log entry 128). -/
def State.orderedPlace (s : State) (loc : Nat) (va : Word) : Except Stop Unit :=
  let far := locTag loc == tagChip || (locTag loc == tagScratch && locOff loc / 0x20000 != coreOf s.cur)
  if s.me.speculative && far then .error (fltA Code.orderedUse va) else .ok ()

/-! ### Ordering points (R186, R192, R196, R216) -/

/-- An outstanding access of the running context meets a condition. -/
def State.anyAcc (s : State) (f : Access → Bool) : Bool := s.acc.any (fun e => e.2.place == s.cur && !e.2.kind.hint && f e.2)

/-- The deferred store-error fault (R216). -/
def State.storeReport (s : State) : Except Stop Unit :=
  let t := s.me
  match t.failed with
  | none => .ok ()
  | some (_, va, pc) =>
    .error (.flt { code := Code.storeError, addr := va, syn := wd (pc.toNat % 2 ^ 48 + satAt 255 t.nfailed * 2 ^ 48), mcls := some t.failedCls })

/-- A region-ending instruction waits for every earlier access, so that none is performed outside its region (R196, R204; log entry
20), reports a failed store, and ends the region (R216). -/
def State.regionEnd (s : State) : Res := do
  if s.anyAcc (fun _ => true) then .error .wait
  s.storeReport
  pure (s.endRegion s.cur)

/-- The same for an instruction that acts as a release (R186, R192). -/
def State.release (s : State) : Res := s.regionEnd

/-! ### Values -/

/-- What a load of `n` bytes writes to its register (R170). -/
def loadValue (signed : Bool) (n v : Nat) : Reg :=
  if n = 16 then BitVec.ofNat 128 v
  else scalar (if signed then (BitVec.ofNat (8 * n) v).signExtend 64 else wd v)

/-- The value that an access returns reaches its register, and `lt` if no later result has (R36, R82). -/
def Thread.deliver (t : Thread) (dst : Option Spec) (wlt : Bool) (v : Reg) : Thread :=
  let t := match dst with
    | some d => { t with regs := t.regs.set d v, dmg := t.dmg.filter (fun e => e.1 != d.val) }
    | none => t
  if wlt then { t with regs := t.regs.set 0 v, dmg := t.dmg.filter (fun e => e.1 != 0) } else t

def State.deliver (s : State) (a : Access) (v : Reg) : State :=
  s.setThread a.place ((s.thread a.place).deliver a.dst a.wlt v)

/-- New value of a location of `n` bytes from its old one and the operand; for `cas` the operand's high word is the new value
(R177, R400). -/
def rmwNew (op : RmwOp) (n old : Nat) (data : BitVec 256) : Nat :=
  let w := 8 * n
  let x := data.toNat % 2 ^ w
  match op with
  | .swap => x
  | .add => (old + x) % 2 ^ w
  | .and => old &&& x
  | .or => old ||| x
  | .xor => old ^^^ x
  | .min => if toInt w old ≤ toInt w x then old else x
  | .max => if toInt w old < toInt w x then x else old
  | .minu => if old ≤ x then old else x
  | .maxu => if old < x then x else old
  | .fadd =>
    let f := if n = 4 then fp32 else fp64
    (roundE f (sumVals 0 [decodeF f old, decodeF f x]).1 { rm := 0, srs := 0, fl := 0 }).1
  | .cas => if old = x then data.toNat / 2 ^ 64 % 2 ^ w else old
  | .sadd => satAdd64 old x

/-- What an atomic returns: the old value, and for `cas` whether it stored (R30, R177, R400). -/
def rmwResult (op : RmwOp) (n old : Nat) (data : BitVec 256) : Reg :=
  match op with
  | .cas => mkReg (wd old) (if old = data.toNat % 2 ^ (8 * n) then 1 else 0)
  | _ => scalar (wd old)

/-! ### Performing (R172, R177, R211 to R216) -/

/-- A plain read of an unordered task of a line whose stores are kept: it may return an earlier value (R190). -/
def Access.weak (a : Access) : Bool :=
  covered a.loc && a.entry.isNone && !a.loose && (match a.kind with | .load _ | .xld _ => true | _ => false)

/-- The context at `p` has seen the latest store to a line (R184). -/
def State.sawLatest (s : State) (p line : Nat) : State :=
  match Tab.getD s.past line [] with
  | [] => s
  | e :: _ =>
    let t := s.thread p
    s.setThread p { t with saw := Tab.put t.saw line (Nat.max (e.num + 1) (Tab.getD t.saw line 0)) }

/-- The stored bytes that an access reads. -/
def State.accBytes (s : State) (a : Access) : List Byte × State :=
  if a.weak then
    let (l, t) := s.seenLine a.place (a.loc / 32)
    ((l.drop (a.loc % 32)).take a.n, t)
  else (s.bytesAt a.loc a.n, if covered a.loc && a.entry.isNone && !a.loose then s.sawLatest a.place (a.loc / 32) else s)

/-- The releases that an access reads at its location (R192). -/
def State.hear (s : State) (a : Access) : State :=
  if a.entry.isSome || a.loose then s
  else s.hearAt a.place a.loc a.n (if a.kind.sync && isAcq a.ord then some a.scope else none)

/-- What an access reads, after the checks of R211; or its poison fault (R212). -/
def State.readFor (s : State) (a : Access) : Except (Flt × State) (Nat × State) :=
  if locTag a.loc = tagDev then
    let s := s.devTouch (locOff a.loc)
    .ok (s.devRead (locOff a.loc) a.n, s)
  else
    let cls := s.accClass a.place a.loc
    match s.checkGran a.loc cls a.reader with
    | (.bad found, s) =>
      .error ({ code := Code.poison, addr := a.va, syn := wd (cls + if found then 4 else 0), mcls := some cls }, s)
    | (o, s) =>
      let (bs, t) := s.accBytes a
      .ok (leNat (o.apply a.loc bs), t.hear a)

/-- Accesses in flight over a Notur port that is Down or Disabled fail with link-down (R410). -/
def State.failPort (s : State) (p : Nat) : State :=
  if (s.ntr p).st = 1 ∨ (s.ntr p).st = 2 ∨ (s.ntr p).st = 3 then s
  else
    let lost := s.acc.filter (fun e => locTag e.2.loc == 2 + p && e.2.sent)
    lost.foldl (fun s e => s.accFault e.1 e.2 { code := Code.linkDown, addr := e.2.va, syn := wd (p + 256) }) s

def State.failPorts (s : State) : State := (List.range 16).foldl State.failPort s

/-- A store that fails is remembered for its report: the earliest in program order, and how many (R216). -/
def Thread.noteFail (t : Thread) (id : Nat) (a : Access) (cls : Nat) : Thread :=
  let first := match t.failed with
    | some (k, x) => if k < id then (k, x) else (id, a.va, a.ipc)
    | none => (id, a.va, a.ipc)
  { t with failed := some first, nfailed := t.nfailed + 1, failedCls := if first.1 = id then cls else t.failedCls }

/-- The bytes of the own scratchpad before a store of a speculative ordered task are kept, for their discard on abort (R202). -/
def State.keepScratch (s old : State) (p : Nat) (e : Option Nat) (loc n : Nat) : State :=
  let cl := cluOfPlace p
  match e.bind (Tab.get? (s.clu cl).commits ·), e with
  | some c, some k =>
    if locTag loc = tagScratch ∧ !c.irrev then
      s.setClu cl { s.clu cl with commits := Tab.put (s.clu cl).commits k { c with scratch := (loc, old.bytesAt loc n) :: c.scratch } }
    else s
  | _, _ => s

/-- What a store that its home has applied leaves beside the bytes: for an unordered task its place in the line's coherence order and
the releases that it carries (R184, R192); for a speculative ordered task the scratchpad bytes before it (R202). -/
def State.stored (s old : State) (a : Access) : State :=
  let failed := (a.kind = .rmw .cas ∨ a.kind = .sig .cas) ∧ leNat (old.bytesAt a.loc a.n) ≠ a.data.toNat % 2 ^ (8 * a.n)
  let own := if a.kind.sync ∧ isRel a.ord ∧ ¬ failed then some a.scope else none
  match a.entry with
  | some e => s.keepScratch old a.place (some e) a.loc a.n
  | none =>
    let line := a.loc / 32 * 32
    let s := if covered a.loc then s.notePast a.place a.loc (old.bytesAt line 32) (s.bytesAt line 32) else s
    s.putRels a.loc a.n a.kind.sync (s.ownRels a.place a.loc a.n own)

/-- Bytes of an access are written at its home; false if the granule refuses them (R215). -/
def State.writeFor (s : State) (a : Access) (v : Nat) : Bool × State :=
  if locTag a.loc = tagDev then (true, (s.devWrite (locOff a.loc) a.n v).failPorts)
  else
    match s.storeGran a.loc (s.accClass a.place a.loc) (leBytes a.n v) a.reader with
    | (true, t) => (true, t.stored s a)
    | r => r

/-- A scope that reaches the host (R178). -/
def hostScope : Scope → Bool
  | .host | .link | .fab | .sys => true
  | _ => false

/-- The access is performed outside the module: a store or an atomic at a peer's home slice (R172, R178), an atomic at the host for a
scope of `.host` or wider (R178); signals are of scope `.sys` (R393). -/
def Access.outside (a : Access) : Bool :=
  match a.kind with
  | .rmw _ => isRemote a.loc && (locTag a.loc != 1 || hostScope a.scope)
  | .sig _ => isRemote a.loc
  | .store => isRemote a.loc && locTag a.loc != 1
  | _ => false

/-- The request leaves the module whatever copies the device holds: an access performed outside, and the read of a host- or peer-backed
signal, which is read at its home (R394). -/
def Access.leaves (a : Access) : Bool := a.outside || (a.kind == .sigRd && isRemote a.loc)

/-- The bytes of a Modified device copy as they leave the L2, with what damage it has (R211, R224). -/
def State.copyOut (s : State) (line : Nat) (c : Copy) : List Byte :=
  (GOut.flipped (lineSyms line (s.granule (line / 2)).l2)).apply (line * 32) c.bytes

/-- Device copies of a line are written back if dirty and dropped, and the damage of the L2 copy goes with it (R178, R180, R224). -/
def State.dropCopy (s : State) (line : Nat) : State :=
  match Tab.get? s.copies line with
  | none => s
  | some c =>
    let s : State := if c.dirty then { s with mem := memPutN s.mem (line * 32) (s.copyOut line c) } else s
    let k := s.granule (line / 2)
    let lost := lineSyms line k.l2
    let s := if lost.isEmpty then s else s.setGran (line / 2) { k with l2 := k.l2.filter (fun x => !lost.contains x) }
    { s with copies := Tab.del s.copies line, dir := Tab.del s.dir line }

/-- Write a device copy back and keep it (R180). -/
def State.cleanCopy (s : State) (line : Nat) : State :=
  match Tab.get? s.copies line with
  | none => s
  | some c =>
    if c.dirty then { s with mem := memPutN s.mem (line * 32) (s.copyOut line c), copies := Tab.put s.copies line { c with dirty := false } }
    else s

/-- Class, poison, page and level that `cls.q` reports (R223). -/
def State.clsResult (s : State) (a : Access) : Reg × State :=
  let cls := s.accClass a.place a.loc
  let s := (s.checkGran a.loc cls a.reader).2
  let poison := if cls ≤ 1 ∧ (s.granule (a.loc / 64)).poison then 4 else 0
  let tag := locTag a.loc
  let level := if tag = 0 then 0 else if tag = 1 then 1 else if tag ≤ 17 then 2 else tag - 15
  (scalar (wd (cls + poison + level * 16 + (if a.data = 1 then 8 else 0))), s)

/-- Every L1 copy of a line is recalled (R162); a line that an engine holds has none. -/
def State.recall (s : State) (line : Nat) : State :=
  match Tab.getD s.dir line .uncached with
  | .engine _ _ => s
  | .overflowed =>
    let cl := s.homeSlice (line * 32)
    ({ s with dir := Tab.del s.dir line } : State).setClu cl { s.clu cl with ovf := (s.clu cl).ovf.filter (fun e => e.line != line) }
  | _ => { s with dir := Tab.del s.dir line }

/-- Damage is injected into the copy of a granule that the target names, after a recall of the L1 copies of its lines (R224). -/
def State.inject (s : State) (loc tgt sym cnt : Nat) : State :=
  let g := loc / 64
  let s := (s.recall (g * 2)).recall (g * 2 + 1)
  let s := if tgt = 0 then s.writeBackL2 (g * 64) else s
  let cls := s.locClass loc
  let total := if cls = 0 then 144 else if cls = 1 then 132 else 128
  let toggle (d : List Nat) : List Nat :=
    (List.range cnt).foldl (fun d i => let k := (sym + i) % total; if d.contains k then d.filter (· != k) else d ++ [k]) d
  let k := s.granule g
  match tgt with
  | 0 => s.setGran g { k with hbm := toggle k.hbm }
  | 1 => s.setGran g { k with l2 := toggle k.l2 }
  | _ => s.setGran g { k with near := toggle k.near }

/-- The value of an outside atomic or of a line arrives, and the access is performed with it. -/
def State.finishRmw (s : State) (id : Nat) (a : Access) (op : RmwOp) (old : Nat) : State :=
  let (ok, s) := s.writeFor a (rmwNew op a.n old a.data)
  if ok then (s.deliver a (rmwResult op a.n old a.data)).retireAcc id a
  else s.accFault id a { code := Code.poison, addr := a.va, syn := wd (s.accClass a.place a.loc), mcls := some (s.accClass a.place a.loc) }

/-- A store has failed: nothing is written, and its task reports it later (R215, R216). -/
def State.storeFailed (s : State) (id : Nat) (a : Access) : State :=
  let s := match a.entry with
    | some e => if a.logged then s.unlog (cluOfPlace a.place) e (a.loc / 32) a else s
    | none => s
  if a.loose then s else s.setThread a.place ((s.thread a.place).noteFail id a (s.accClass a.place a.loc))

/-- A 256-byte block enters a core's streaming buffer, whose oldest entry of four goes with its holder records (R182). -/
def State.streamIn (s : State) (c block : Nat) : State :=
  let k := s.core c
  if k.sb.contains block then s
  else
    let sb := k.sb ++ [block]
    if sb.length ≤ 4 then s.setCore c { k with sb }
    else
      let old := (sb.head?).getD 0
      let s := s.setCore c { k with sb := sb.drop 1 }
      let lost (l : Nat) : Bool := !k.filter.any (fun e => e.1 == l)
      ((List.range 8).filter (fun i => lost (old * 8 + i))).foldl (fun s i => s.dropHolder c (old * 8 + i)) s

/-- A prefetch is served (R182, R212): its granule is checked, and poison drops it; the L1 or the streaming buffer becomes a holder of
the line. -/
def State.prefetched (s : State) (a : Access) (hint : Nat) : State :=
  match s.checkGran a.loc (s.accClass a.place a.loc) a.reader with
  | (.bad _, s) => s
  | (_, s) =>
    let c := coreOf a.place
    if hint = 0 then s.dirStep (a.loc / 32) c false
    else if hint = 2 then (s.streamIn c (a.loc / 256)).dirStepAs (a.loc / 32) c false true
    else s

/-- A prefetch that needs an overflow action waits while the line's home core is Halted (R163). -/
def State.hintWaits (s : State) (a : Access) (hint : Nat) : Bool :=
  hint != 1 && s.homeCoreHalted (a.loc / 32) && s.needsOverflow (a.loc / 32) (coreOf a.place) false

/-- A store of 64 bytes is performed: the granule is written whole (R212), and each line takes its place in its coherence order. -/
def State.storeWide (s : State) (a : Access) (bs : List Byte) : State :=
  if locTag a.loc = tagDev then s
  else
    let t := s.storeWhole a.loc bs
    (t.stored s { a with n := 32 }).stored s { a with loc := a.loc + 32, n := 32 }

/-- Perform an outstanding access whose request its home has processed. -/
def State.performAcc (s : State) (id : Nat) : State :=
  match Tab.get? s.acc id with
  | none => s
  | some a =>
    if !a.homed || a.sent || s.pathWaits a.place a.loc || !s.mayPerform id a then s
    else match a.kind with
      | .store =>
        let (ok, s) := s.writeFor a a.data.toNat
        let s := s.retireAcc id a
        if ok then s else s.storeFailed id a
      | .wide bs _ => (s.storeWide a bs).retireAcc id a
      | .cwb _ => s
      | .pf h => if s.hintWaits a h then s else (s.prefetched a h).delAcc id
      | .inj t y c => (s.inject a.loc t y c).retireAcc id a
      | .clsq => let (v, s) := s.clsResult a; (s.deliver a v).retireAcc id a
      | .load g => match s.readFor a with
        | .error (f, s) => s.accFault id a f
        | .ok (v, s) => (s.deliver a (loadValue g a.n v)).retireAcc id a
      | .sigRd => match (if isRemote a.loc then s.dropCopy (a.loc / 32) else s).readFor a with
        | .error (f, s) => s.accFault id a f
        | .ok (v, s) => (s.deliver a (scalar (wd v))).retireAcc id a
      | .xld k => match s.readFor a with
        | .error (f, s) => s.accFault id a f
        | .ok (v, s) =>
          let t := s.thread a.place
          let x := (List.range (a.n / 8)).foldl (fun (x : Vector Word 4) i => x.setIfInBounds (k + i) (wd (bits v (64 * i) 64))) t.x
          (s.setThread a.place { t with x }).retireAcc id a
      | .rmw op => match s.readFor a with
        | .error (f, s) => s.accFault id a f
        | .ok (old, s) => s.finishRmw id a op old
      | .sig op => match s.readFor a with
        | .error (f, s) => s.accFault id a f
        | .ok (old, s) => s.finishRmw id a op old

/-- What the home does for an access that a step performs at once, of the running context to the line at a location (R162, R164,
R195): it waits for an engine's release; an ordered task's conflicts are resolved and the access recorded (R256, R258); race and
order-domain checks where the access is one of R197's (R198, R203). -/
def State.homeNow (s : State) (loc : Nat) (va : Word) (wr checked : Bool) : Except Stop State := do
  let line := loc / 32
  if s.lineHeld loc then .error .wait
  if covered loc && s.homeCoreHalted line && s.needsOverflow line (coreOf s.cur) wr then .error .wait
  if !covered loc then pure s
  else
    let ms := Tab.getD s.marks line []
    let p := s.cur
    match s.me.entry? with
    | some e =>
      let mix (m : Mark) : Bool := (m.wr || wr) && (s.thread m.place).launchNo == s.me.launchNo && (s.thread m.place).entry?.isNone
      if checked && ms.any mix then .error (fltA Code.orderMix va)
      let s := s.abortAll (s.conflicting (cluOfPlace p) (s.me.launchNo.getD 0) s.me.key loc wr)
      match s.recordAccess (cluOfPlace p) e loc (!wr) wr false with
      | some s => pure (s.dirStep line (coreOf p) wr)
      | none => .error (.hold (s.awaitFrontier p))
    | none =>
      if checked then
        match conflictMark p wr false ms with
        | some m => .error (.flt { code := Code.race, addr := va, syn := raceSyn m })
        | none =>
          let mixed := s.commits.any (fun c => some c.2.2.launch == s.me.launchNo &&
            (c.2.2.wrLines.contains line || (wr && c.2.2.rdLines.contains line)))
          if mixed then .error (fltA Code.orderMix va)
      pure (s.dirStep line (coreOf p) wr)

/-! ### Links to the host and to peers -/

/-- The peer's home slice applies a store; a device copy of the line holds it too (R172). -/
def State.peerStore (s : State) (a : Access) : State :=
  let bs := leBytes a.n a.data.toNat
  let s : State := { s with mem := memPutN s.mem a.loc bs }
  match Tab.get? s.copies (a.loc / 32) with
  | some c =>
    let new := bs.zipIdx.foldl (fun (l : List Byte) e => l.set (a.loc % 32 + e.2) e.1) c.bytes
    { s with copies := Tab.put s.copies (a.loc / 32) { c with bytes := new } }
  | none => s

/-- The answer to a request that has left the module: for an atomic performed outside the old value, for a store or a write-back the
acknowledgement (R172, R181), else the line, which becomes a device copy (R178, R191, R406). -/
def State.linkAnswer (s : State) (id : Nat) (bytes : List Byte) : State :=
  match Tab.get? s.acc id with
  | none => s
  | some a =>
    if !a.sent then s
    else if a.outside then
      let old := leNat (bytes.take a.n) % 2 ^ (8 * a.n)
      match a.kind with
      | .rmw op | .sig op =>
        let t : State := { s with mem := memPutN s.mem a.loc (leBytes a.n (rmwNew op a.n old a.data)) }
        (((t.hear a).stored s a).deliver a (rmwResult op a.n old a.data)).retireAcc id a
      | .store => ((s.peerStore a).stored s a).retireAcc id a
      | _ => s
    else match a.kind with
    | .cwb ls =>
      let mine (l : Nat) : Bool := locTag (l * 32) == locTag a.loc
      let s := (ls.filter mine).foldl State.cleanCopy s
      match ls.filter (fun l => !mine l) with
      | [] => s.retireAcc id a
      | l :: rest =>
        let vs := ((ls.zip a.vas).filter (fun e => !mine e.1)).map (·.2)
        s.setAcc id { a with kind := .cwb (l :: rest), loc := l * 32, va := vs.headD a.va, vas := vs }
    | _ =>
      let line := a.loc / 32
      let bs := (List.range 32).map (fun i => (bytes[i]?).getD 0)
      let s : State := { s with mem := memPutN s.mem (line * 32) bs }
      let s : State := if (Tab.get? s.copies line).isSome then s else { s with copies := Tab.put s.copies line { bytes := bs, dirty := false } }
      s.setAcc id { a with sent := false }

/-- A request over the host link fails (R406). -/
def State.hostFail (s : State) (id : Nat) : State :=
  match Tab.get? s.acc id with
  | none => s
  | some a =>
    if a.sent && locTag a.loc == 1 then s.accFault id a { code := Code.hostLink, addr := a.va } else s

/-- A request to a peer whose port is Down or Disabled fails before it leaves (R410). -/
def State.portRefuses (s : State) (loc : Nat) : Bool :=
  decide (2 ≤ locTag loc) && decide (locTag loc ≤ 17) &&
    (let st := (s.ntr (locTag loc - 2)).st; st == 0 || st == 4)

/-- A flit goes out on a Notur port (R408). -/
def State.emit (s : State) (p : Nat) (seq : BitVec 12) (b : NoturBody) : State :=
  s.setHub { s.hub with flits := (p, { seq, crcOk := true, body := b }) :: s.hub.flits }

/-- A request or a response leaves by a Notur port and is kept for replay until it is acknowledged (R408). -/
def State.flitOut (s : State) (p : Nat) (b : NoturBody) : State :=
  let n := s.ntr p
  (s.setNtr p { n with sendSeq := n.sendSeq + 1, replay := n.replay ++ [(n.sendSeq, b)] }).emit p n.sendSeq b

/-- The atomics of R177 and R393 as a flit carries them. -/
def RmwOp.number : RmwOp → Fin 12
  | .swap => 0 | .add => 1 | .and => 2 | .or => 3 | .xor => 4 | .min => 5 | .max => 6 | .minu => 7 | .maxu => 8 | .fadd => 9 | .cas => 10
  | .sadd => 11

/-- What a request of an access asks of a peer: the line, or its write-back, unless it is performed outside (R172, R178, R181). -/
def State.request (s : State) (a : Access) : NoturBody :=
  let off := locOff a.loc
  match a.kind with
  | .rmw op | .sig op => .atomic off op.number (a.n == 8) a.data
  | .cwb _ => .write (off / 32 * 32) (((Tab.get? s.copies (a.loc / 32)).map (·.bytes)).getD [])
  | .store => if a.outside then .write off (leBytes a.n a.data.toNat) else .read (off / 32 * 32) 32
  | _ => .read (off / 32 * 32) 32

/-- The replay buffer of a peer's port holds its 512 flits (R408). -/
def State.replayFull (s : State) (loc : Nat) : Bool :=
  decide (2 ≤ locTag loc) && decide (locTag loc ≤ 17) && decide (512 ≤ (s.ntr (locTag loc - 2)).replay.length)

/-- The directory says that core `c` holds the line. -/
def State.holdsLine (s : State) (line c : Nat) : Bool :=
  match Tab.getD s.dir line .uncached with
  | .owned o _ => o == c
  | .shared hs => hs.contains c
  | .overflowed => true
  | _ => false

/-- Two misses that the memory port of their cluster merges into one 256-byte request (R166). -/
def State.burstMates (s : State) (a b : Access) : Bool :=
  cluOfPlace a.place == cluOfPlace b.place && coreOf a.place != coreOf b.place && a.loc / 256 == b.loc / 256 && a.loc / 32 != b.loc / 32 &&
    decide (b.issued ≤ a.issued + 16) && decide (a.issued ≤ b.issued + 16) && !b.homed && !b.merged && !s.holdsLine (b.loc / 32) (coreOf b.place)

/-- A miss taken up by its home counts a merged burst with the misses that travel with it (R166). -/
def State.countBurst (s : State) (id : Nat) : State :=
  match Tab.get? s.acc id with
  | none => s
  | some a =>
    if a.merged || !covered a.loc || locTag a.loc == tagShared || s.holdsLine (a.loc / 32) (coreOf a.place) ||
        !s.acc.any (fun e => s.burstMates a e.2) then s
    else
      let k := s.clu (cluOfPlace a.place)
      let mark (_ : Nat) (b : Access) : Access := if s.burstMates a b then { b with merged := true } else b
      ({ s with acc := Tab.mapV mark s.acc }).setClu (cluOfPlace a.place) { k with merged := satAt (2 ^ 64 - 1) (k.merged + 1) }

/-- The home takes up an access: an outside atomic drops the device's copies and leaves; a request to a port that is Down
fails; the rest as R162 (Home.lean). -/
def State.startAcc (s : State) (id : Nat) : State :=
  match Tab.get? s.acc id with
  | none => s
  | some a =>
    if a.homed || s.pathWaits a.place a.loc || !s.mayPerform id a || s.replayFull a.loc then s
    else if isRemote a.loc && s.portRefuses a.loc && (a.leaves || (Tab.get? s.copies (a.loc / 32)).isNone) then
      s.accFault id a { code := Code.linkDown, addr := a.va, syn := wd (locTag a.loc - 2) }
    else
      let s := (s.countBurst id).homeAccess id
      match Tab.get? s.acc id with
      | none => s
      | some b =>
        let s := if b.homed && a.leaves then
            (if a.kind = .store then s else s.dropCopy (a.loc / 32)).setAcc id { b with sent := true }
          else s
        if 2 ≤ locTag a.loc ∧ locTag a.loc ≤ 17 ∧ ((Tab.get? s.acc id).map (·.sent)) = some true then s.flitOut (locTag a.loc - 2) (s.request a) else s

/-- The model's own continuation of an access when the schedule names none (log entry 1): its home takes it up; a request
that has left is answered from what the model holds of the other side's memory while the link is up; it is performed. -/
def State.advance (s : State) (id : Nat) : State :=
  match Tab.get? s.acc id with
  | none => s
  | some a =>
    if !a.homed then s.startAcc id
    else if a.sent then
      if locTag a.loc = 1 ∧ s.hub.rate = 0 then s.hostFail id
      else if 2 ≤ locTag a.loc ∧ (s.ntr (locTag a.loc - 2)).st ≠ 2 then s
      else if a.outside then s.linkAnswer id (memGetN s.mem a.loc a.n)
      else s.linkAnswer id (memGetN s.mem (a.loc / 32 * 32) 32)
    else s.performAcc id

/-- The oldest outstanding access of a context that can advance, after `n` tries. -/
def State.oldestAcc (s : State) (p : Nat) : Option Nat :=
  ((s.acc.filter (fun e => e.2.place == p && s.mayPerform e.1 e.2)).head?).map (·.1)

end Sys2Proof.Machine
end

