-- ==== Sys2Proof/Machine/SafePoint.lean ====
section
/-! DEFINITION. Safe points: entering Saving (R84 to R86, R346, R347, R369, R370), and the form of a blocking instruction
(R85). -/

namespace Sys2Proof.Machine

/-- The kernel of the task at `p` ends with a fault of its own, whatever its group's domain (R86). -/
def State.kernelFault (s : State) (p code status : Nat) (addr : Word) : State :=
  let t := s.thread p
  let r := s.fltRec p t.ipc { code, addr }
  let s := (s.trace p 5 (wd code))
  let s := { s with faults := r :: s.faults }
  match t.launchNo with
  | some l => s.killLaunch l status
  | none => s.freeThread p

/-- The entry of the safe-point table for the instruction at `p`, by its address and for `spt` by its number (R346); none in a
code message (R77). -/
def State.safeEntry (s : State) (p : Nat) (n : Option Nat) : Option (SafePt × Word) :=
  let t := s.thread p
  let inCode := match t.task.bind (·.code) with
    | some (b, _) => decide (b.toNat ≤ t.ipc.toNat) && decide (t.ipc.toNat < b.toNat + 48)
    | none => false
  if inCode then none
  else match t.launchNo.bind s.launch? with
    | none => none
    | some L =>
      let h := L.sub.desc[0]
      match L.safes.find? (fun e => h + wd e.pc == t.ipc && (match n with | some k => e.n == k | none => true)) with
      | some e => some (e, h)
      | none => none

/-- Write the eight words of a save entry's header (R369). -/
def State.writeHeader (s : State) (loc : Nat) (ws : List Word) : State :=
  (ws.zipIdx).foldl (fun s e => s.writeN (loc + 8 * e.2) 8 e.1.toNat) s

/-- The record that a save entry becomes at the resume: the task's header and key, its slot and safe point for the restore
routine (R347, R369); of a task on a dispatch core it goes to the core's inbox (log entry 127). -/
def Thread.savedMsg (t : Thread) (p : Nat) (slot : Word) : Msg :=
  let pay : Vector Reg 3 := #v[mkReg slot t.ipc, 0, 0]
  let m := newMsg t.h0 t.h1 pay (hRoute t.h1 % 2 ^ 16) (unitOf p).2
  { m with launch := t.launchNo, ctx := t.ctxNo, ts := t.ts, seq := t.seq, sgrp := t.grp, restore := true, budget := (t.task.map (·.budget)).getD false }

/-- The context at `p` enters Saving at a safe point: it starts the save routine of the table's entry; `lt` is stale and no
other register changes (R74, R84, R347, R369). While the page of its save entry migrates it stays at its safe point (R235). -/
def State.enterSaving (s : State) (p : Nat) (n : Option Nat) : State :=
  let t := s.thread p
  match s.safeEntry p n with
  | none => s.kernelFault p Code.safePointTable 3 t.ipc
  | some (e, h) =>
    let c := s.context t.ctxNo
    let len := 64 + (e.sz * 16 + 63) / 64 * 64
    let at_ := c.sva + wd c.nsav
    if 65536 * c.svs < c.nsav + len then s.saveFail p
    else
      let cl := cluOfPlace p
      match s.engLoc cl t.ctxNo none p .write at_ with
      | .error 0 => s.setThread p t.rewind
      | .error _ => s.saveFail p
      | .ok loc =>
        let s := s.writeHeader loc [t.h0, t.h1, t.ts, t.seq, t.ipc, h + wd (2 * e.rs), wd len, wd (t.launchNo.getD 0)]
        let slot := at_ + 64
        let s := s.setCtx t.ctxNo { c with nsav := c.nsav + len, saves := c.saves ++ [t.savedMsg p slot] }
        let s := s.untake p
        let s := s.trace p 4 t.ipc
        let s := { s with acc := s.acc.map (fun (a : Nat × Access) => if a.2.place == p then
          (a.1, { a.2 with wlt := false, dst := if a.2.dst = some 0 then none else a.2.dst }) else a) }
        let cld := match t.blk with | some (.sig _ _ _ _) => t.cld - 1 | _ => t.cld
        s.setThread p { t.become .saving with cld, pc := h + wd (2 * e.sv), pfx := none, blk := none, wait := .none, ltStale := true, inSave := true,
                                              task := t.task.map (fun k => { k with slot }) }

/-- A pre-emption is pending, the task is not saving already, and it is not ordered: no save routine runs for an ordered task
(R84, R85, R262). -/
def Thread.preempted (t : Thread) : Bool := t.pend && !t.saving && !t.ordered

/-- A safe point reached 2^21 cycles or more after the request comes too late (R86). -/
def State.reachSafePoint (s : State) (p : Nat) (n : Option Nat) : State :=
  let t := s.thread p
  if t.pendAt + 2 ^ 21 ≤ s.cyc then
    s.kernelFault p Code.noSafePoint 5 0
  else s.enterSaving p n

/-- The running context goes to Blocked at its instruction (R74, R85). -/
def State.block (s : State) (b : Blk) : State := s.setMe { s.me.become .blocked with blk := some b }

/-- A blocking instruction (R85): it saves if a pre-emption is pending; otherwise it reads its operands, makes `lt` stale, and
acts. -/
def State.blocking (s : State) {α : Type} (operands : State → Except Stop α) (act : State → α → Res) : Res :=
  if s.me.preempted then .error (.hold (s.reachSafePoint s.cur none))
  else do
    let x ← operands s
    act s.stale x

/-- A blocked instruction completes: its result, if it has one, and the context is Ready (R74). -/
def State.unblock (s : State) (d : Spec) (v : Reg) : Res := do
  let s ← s.writeReg d v
  pure ((s.setMe { s.me.goesOn with blk := none }).fin 4)

end Sys2Proof.Machine
end

