-- ==== Sys2Proof/Machine/Counts.lean ====
section
/-! DEFINITION. What the device counts for a group (R355, R357): live tasks, cores, token slots, orphans and children, as they
follow from the rest of the state (log entry 23). -/

namespace Sys2Proof.Machine

/-- Groups of the records that meet a condition, wherever they wait or travel. -/
def State.recordGroups (s : State) (f : Msg → Bool) : List Nat :=
  let pick (ms : List Msg) : List Nat := (ms.filter f).map (fun m => hGrp m.h0)
  pick (s.mesh.map (·.2)) ++ s.cores.flatMap (fun c => pick c.2.inbox) ++ s.clus.flatMap (fun k => pick k.2.tu ++ pick k.2.spill) ++
    s.ctxs.flatMap (fun c => pick c.2.saves ++ pick (c.2.requeue.map (·.2)) ++ pick (c.2.firings.map (·.2.1)))

/-- Groups whose task a record of launch `l` will be. -/
def State.waitingGroups (s : State) (l : Nat) : List Nat :=
  s.recordGroups (fun m => m.launch == some l && (m.starts || m.restore))

/-- Groups of the running tasks of a launch, and of ordered tasks that have left their context and not committed. -/
def State.runningGroups (s : State) (l : Nat) : List Nat :=
  (s.threads.filter (fun e => e.2.task.isSome && e.2.launchNo == some l && !e.2.saving)).map (fun e => e.2.grp) ++
    s.clus.flatMap (fun k => (k.2.commits.filter (fun e => e.2.launch == l && e.2.state != .running)).map (fun e => hGrp e.2.msg.h0))

/-- Groups of the saved tasks of a launch, be they saved still or on their way to a restore routine (R369). -/
def State.savedGroups (s : State) (l : Nat) : List Nat := s.recordGroups (fun m => m.launch == some l && m.restore)

/-- Live tasks of the subtree of a group (R355, R357). -/
def State.liveCount (s : State) (l g : Nat) : Nat :=
  ((s.waitingGroups l ++ s.runningGroups l).filter (s.inSubtree l g)).length

/-- Cores that run tasks of the subtree. -/
def State.coresOf (s : State) (l g : Nat) : List Nat :=
  (((s.threads.filter (fun e => e.2.task.isSome && e.2.launchNo == some l && s.inSubtree l g e.2.grp)).map (fun e => coreOf e.1))).eraseDups

/-- Token slots that the subtree holds (R357). -/
def State.slotCount (s : State) (l g : Nat) : Nat :=
  (s.toks.filter (fun e => e.2.launch == some l && s.inSubtree l g e.2.grp)).length

/-- Orphans of a group that are not terminal, and its children not yet Ended (R355). -/
def State.orphanCount (s : State) (l g : Nat) : Nat :=
  (s.toks.filter (fun e => e.2.launch == some l && e.2.grp == g && e.2.hold == 2 && !e.2.st.terminal)).length
def State.kidCount (s : State) (l g : Nat) : Nat :=
  (s.groups.filter (fun e => e.1 / 4096 == l && e.2.par == g && e.1 % 4096 != g && e.2.st != 4)).length

/-- A new task of group `g` would exceed a live-task budget at some level (R250, R357). -/
def State.tasksFull (s : State) (l : Option Nat) (g : Nat) : Bool :=
  match l with
  | none => false
  | some l => (s.ancestors l 4096 g).any (fun a => match s.group? l a with
    | some b => b.tsk != 0 && decide (b.tsk ≤ s.liveCount l a)
    | none => false)

/-- A token of group `g` would exceed a token-slot budget at some level (R298, R357). -/
def State.slotsFull (s : State) (l : Option Nat) (g : Nat) : Bool :=
  match l with
  | none => false
  | some l => (s.ancestors l 4096 g).any (fun a => match s.group? l a with
    | some b => b.tokb != 0 && decide (b.tokb ≤ s.slotCount l a)
    | none => false)

/-- A record of group `g` may be admitted to core `c`: the core runs a task of the subtree, or the core budget or the stage's
cap has room, at every level (R357). -/
def State.coreOk (s : State) (l : Option Nat) (g c : Nat) : Bool :=
  match l with
  | none => true
  | some l => (s.ancestors l 4096 g).all (fun a => match s.group? l a with
    | some b =>
      let lim := if b.stg ≠ 0 then b.cap else b.cor
      let cs := s.coresOf l a
      lim == 0 || cs.contains c || decide (cs.length < lim)
    | none => true)

/-- The sixteen words of a group's control block with the counts in them (R355). -/
def State.gcbWord (s : State) (l g : Nat) (b : Group) (k : Nat) : Word :=
  let w := (b.gcb[k]?).getD 0
  match k with
  | 8 => setBits (setBits w 16 16 (s.coresOf l g).length) 32 32 (s.liveCount l g)
  | 9 => wd (s.kidCount l g % 2 ^ 16 + s.orphanCount l g % 2 ^ 16 * 2 ^ 16 + s.slotCount l g % 2 ^ 32 * 2 ^ 32)
  | _ => w

end Sys2Proof.Machine
end

