-- ==== Sys2Proof/Machine/Send.lean ====
section
/-! DEFINITION. Sending a record (R239 to R243, R248 to R250, R261, R265): its payload, the checks of its handler, group slot and
route, and the send itself, or its deferral in a speculative ordered task. -/

namespace Sys2Proof.Machine

/-- A register awaits no load (R65). -/
def State.free1 (s : State) (d : Spec) : Except Stop Unit := if d != 1 && s.busy d then .error .wait else .ok ()

/-- The 48 payload bytes of a field `a` (R248). -/
def State.payload (s : State) (a : Spec) : Except Stop (Vector Reg 3) := do
  if a = 1 then pure #v[0, 0, 0]
  else
    let x ← s.readReg a
    let y ← s.readReg (specPlus a 1)
    let z ← s.readReg (specPlus a 2)
    pure #v[x, y, z]

/-- The group slot of a record that starts a handler (R250): a group of the launch that has not Ended, the sender's own or a
descendant of it. Firmware runs under no launch and has no groups (log entry 15). -/
def State.groupCheck (s : State) (g : Nat) : Except Stop Unit :=
  let t := s.me
  match t.launchNo with
  | none => .ok ()
  | some l =>
    match s.group? l g with
    | some b => if b.st ≠ 4 ∧ s.inSubtree l t.grp g then .ok () else .error (fltC Code.groupSlot)
    | none => .error (fltC Code.groupSlot)

/-- A core that a route or another operand names (R15, R17). -/
def State.coreCheck (s : State) (id : Nat) : Except Stop Unit :=
  if !validPlace id then .error (fltC Code.placeRange)
  else if s.privileged s.cur then .ok ()
  else if isDispatch id then .error (fltC Code.privilege)
  else if !isWorker id then .error (fltC Code.routeRole)
  else .ok ()

/-- The route field under R240, with the modes that the instruction accepts. -/
def State.routeCheck (s : State) (r : Nat) (modes : List Nat) : Except Stop Unit :=
  let form : Stop := fltC Code.routeForm
  let m := bits r 22 2
  if !modes.contains m then .error form
  else match m with
    | 0 => if bits r 16 6 ≠ 0 ∨ r % 8 ≠ 0 then .error form else s.coreCheck (bits r 0 16)
    | 1 => if 192 ≤ bits r 0 8 then .error form else .ok ()
    | 2 => if bits r 16 6 ≠ 0 ∨ bits r 0 8 ≠ 0 ∨ 24 ≤ bits r 8 5 then .error form else .ok ()
    | _ => if bits r 18 4 ≠ 0 ∨ 24 ≤ bits r 10 5 then .error form else .ok ()

/-- A handler address must be even (R249). -/
def pcCheck (h0 : Word) : Except Stop Unit :=
  if h0.getLsbD 0 then .error (fltA Code.branchTarget (wd (hPc h0))) else .ok ()

/-- A record as the running task sends it, with the scope of its release (R193). -/
def State.myMsg (s : State) (h0 h1 : Word) (pay : Vector Reg 3) (dest : Dest) : Msg :=
  let t := s.me
  { newMsg h0 h1 pay s.cur dest with launch := t.launchNo, ctx := t.ctxNo, sgrp := t.grp, clock := s.clockOf s.cur,
                                     scope := sendScope s.cur (bits (hRoute h1) 22 2 == 1) dest }

/-- The place that a destination's send-stall fault names, and whose core's Halt pauses its count; for a task unit and a port, where R76
names none, context 0 of core c0 of the cluster (log entry 90). -/
def Dest.place : Dest → Nat
  | .core c => c * 8
  | .task cl => placeOf cl 0 0
  | .port cl _ => placeOf cl 0 0

/-- Eight records of the context are unaccepted: the send is held (R76). -/
def State.holdSend (s : State) (d : Dest) : Res :=
  let t := s.me
  let since := match t.wait with | .send _ n => n | _ => s.cyc
  .error (.hold ((s.setMe { t with wait := .send d.place since }).rewind))

/-- Put a record of the running task into the mesh; it counts until it is accepted (R76). -/
def State.launchMsg (s : State) (m : Msg) : State :=
  (s.post { m with counted := true }).setMe { s.me with sends := s.me.sends + 1, wait := .none }

/-- Add an item to the deferred ones of the running ordered task; a 17th waits for the frontier (R261). -/
def State.defer (s : State) (i : Deferred) : Res :=
  let cl := cluOfPlace s.cur
  match s.me.entry? with
  | none => .ok s
  | some e =>
    match Tab.get? (s.clu cl).commits e with
    | none => .ok s
    | some c =>
      if 16 ≤ c.items.length then .error (.hold (s.awaitFrontier s.cur))
      else .ok (s.setClu cl { s.clu cl with commits := Tab.put (s.clu cl).commits e { c with items := c.items ++ [i] } })

/-- The running ordered task holds sixteen deferred items (R261). -/
def State.deferFull (s : State) : Bool :=
  match s.me.entry?.bind (Tab.get? (s.clu (cluOfPlace s.cur)).commits ·) with
  | some c => decide (16 ≤ c.items.length)
  | none => false

/-- Send a record after its checks (R76, R192, R248, R260): held while eight are unaccepted, deferred in a speculative ordered
task. It acts as a release and ends the region. -/
def State.send (s : State) (m : Msg) : Res := do
  let s ← s.release
  if s.me.speculative then (s.setMe { s.me with wait := .none }).defer (.msg m)
  else if 8 ≤ s.me.sends then s.holdSend m.dest
  else pure (s.launchMsg m)

/-- The instruction is not issuable for a reason that no send-stall count covers; one that ran ends (R76, R250). -/
def State.notYet (s : State) : Res := .error (.hold ((s.setMe { s.me with wait := .none }).rewind))

/-- A spawn is issued only while the live-task budget of the group that it names has room (R250, R357). -/
def State.sendTask (s : State) (m : Msg) : Res :=
  if s.tasksFull m.launch (hGrp m.h0) then s.notYet else s.send m

/-! ### Spawns (R249) -/

/-- The cluster at the home of a named address, from a one-byte read under R159 with no data read (R249). -/
def State.namedCluster (s : State) (va : Word) : Except Stop (Nat × Nat × State) := do
  let (loc, s) ← s.access s.cur .read false va 1
  pure (if tagScratch ≤ locTag loc then (s.homeCluster, 0, s) else (s.homeSlice loc, locOff loc, s))

def execSpawn (a b : Spec) (s : State) : Out :=
  settle s (do
    s.latch [a, b]
    let h ← s.readReg b
    let pay ← s.payload a
    let h0 := lo64 h
    let r := hRoute (hi64 h)
    if hKind h0 ≠ 0 then .error (fltC Code.recordKind)
    pcCheck h0
    s.groupCheck (hGrp h0)
    s.routeCheck r [0, 1, 2]
    let s ← s.sendTask (s.myMsg h0 (hi64 h) pay (routeDest r))
    pure (s.fin 4))

def execSpawnD (a b : Spec) (s : State) : Out :=
  settle s (do
    s.latch [a, b]
    let h ← s.readReg b
    let pay ← s.payload a
    let h0 := lo64 h
    if hKind h0 ≠ 0 then .error (fltC Code.recordKind)
    pcCheck h0
    s.groupCheck (hGrp h0)
    let (cl, pa, s) ← s.namedCluster (hi64 h)
    let s ← s.sendTask (s.myMsg h0 (mkH1 (2 ^ 22 + bits pa 8 14 * 2 ^ 8 + cl) 0 0) pay (.task cl))
    pure (s.fin 4))

/-- The sequence number that a cluster assigns next in a launch (R243); none when none is left below 2^32. -/
def State.nextSeq (s : State) (l : Nat) : Option Nat :=
  let cl := s.homeCluster
  let t := s.me
  let after (x : Nat) : Nat := x + 1
  let lo := Nat.max ((Tab.get? (s.clu cl).seqs l).elim 0 after) (if t.ordered then t.seq.toNat + 1 else 0)
  let q := lo + (cl + 192 - lo % 192) % 192
  if q < 2 ^ 32 then some q else none

/-- The checks of an ordered record's key (R243, R257, R265) and its sequence number. -/
def State.orderKey (s : State) (ts : Word) : Except Stop Nat := do
  let t := s.me
  let l := t.launchNo.getD 0
  let q := s.nextSeq l
  let ord := ((s.launch? l).map (·.ord)).getD false
  if t.ordered then
    if ts.toNat < t.ts.toNat then .error (fltS Code.orderedTimestamp ts)
  else if ord && decide (1 ≤ s.wstage) && decide (s.wstage ≤ 3) then .error .wait
  else if keyLt (ts.toNat, q.getD (2 ^ 32)) (s.frontier t.launchNo) then .error (fltS Code.orderedTimestamp ts)
  match q with
  | none => .error (fltC Code.seqExhausted)
  | some q => if ord then pure q else .error (fltC Code.orderedUse)

/-- `spawn.o` (R249): sent at once, also by a speculative task, whose child it then is (R260). -/
def execSpawnO (d a b : Spec) (s : State) : Out :=
  settle s (do
    s.latch [a, b]
    let h ← s.readReg b
    let pay ← s.payload a
    let ts ← s.read64 a
    let h0 := lo64 h
    if hKind h0 ≠ 0 then .error (fltC Code.recordKind)
    pcCheck h0
    s.groupCheck (hGrp h0)
    let (cl, s) ← if hi64 h = 0 then pure (s.homeCluster, s)
      else do
        let (cl, _, s) ← s.namedCluster (hi64 h)
        pure (cl, s)
    let q ← s.orderKey ts
    if s.tasksFull s.me.launchNo (hGrp h0) ∨ 131072 ≤ s.spilled (cl / 24) then
      let _ ← s.notYet
    if 8 ≤ s.me.sends then
      let _ ← s.holdSend (.task cl)
    let s ← s.release
    let own := s.homeCluster
    let parent := s.me.entry?.map (fun e => (own, e))
    let m := s.myMsg (mkH0 1 (hGrp h0) (hPc h0)) (mkH1 (clusterRoute cl) 0 0) pay (.task cl)
    let s := s.setClu own { s.clu own with seqs := Tab.put (s.clu own).seqs (s.me.launchNo.getD 0) q }
    let s := match s.me.entry? with
      | some e => match Tab.get? (s.clu own).commits e with
        | some c => s.setClu own { s.clu own with commits := Tab.put (s.clu own).commits e { c with children := c.children + 1 } }
        | none => s
      | none => s
    let s := s.launchMsg { m with ts, seq := wd q, parent }
    s.put 4 d (scalar (wd q)))

/-! ### Messages (R266 to R273) -/

/-- The checks of `snd` by kind (R267). -/
def State.sndCheck (s : State) (h0 : Word) (r : Nat) : Except Stop Unit := do
  let k := hKind h0
  if k = 0 ∨ k = 1 ∨ k = 3 ∨ k = 8 then .error (fltC Code.recordKind)
  if k = 2 ∧ h0.toNat % 2 ^ 60 ≠ 0 then .error (fltC Code.recordKind)
  if k = 4 ∨ k = 6 then
    pcCheck h0
    s.groupCheck (hGrp h0)
  s.routeCheck r (if k = 2 then [0] else [0, 1, 2, 3])

def execSnd (a b : Spec) (s : State) : Out :=
  settle s (do
    s.latch [a, b]
    let h ← s.readReg b
    let pay ← s.payload a
    let h0 := lo64 h
    let r := hRoute (hi64 h)
    s.sndCheck h0 r
    let m := s.myMsg h0 (hi64 h) pay (routeDest r)
    let s ← s.send m
    pure (s.fin 4))

/-- R268. -/
def execSndC (a b : Spec) (s : State) : Out :=
  settle s (do
    s.latch [a, b]
    let h ← s.readReg b
    let pay ← s.payload a
    let h0 := lo64 h
    let r := hRoute (hi64 h)
    if hKind h0 ≠ 0 then .error (fltC Code.recordKind)
    if hPc h0 % 64 ≠ 0 then .error (fltA Code.alignment (wd (hPc h0)))
    s.groupCheck (hGrp h0)
    s.routeCheck r [0, 2]
    let s ← s.send (s.myMsg (mkH0 3 (hGrp h0) (hPc h0)) (hi64 h) pay (routeDest r))
    pure (s.fin 4))

/-- R271: a reply to the sender of the running record. -/
def execRpl (a : Spec) (s : State) : Out :=
  settle s (do
    s.latch [a]
    let pay ← s.payload a
    let h1 := s.me.h1
    let s ← s.send (s.myMsg (mkH0 2 0 0) (mkH1 (hRoute h1 % 2 ^ 16) (hRtag h1) 0) pay (.core (hRoute h1 % 2 ^ 16 / 8)))
    pure (s.fin 4))

/-- The address of entry `n` of the tag table (R269). -/
def Thread.tagEntry (t : Thread) (n : Nat) : Word := t.tagbase + wd (16 * n)

/-- `tag.bind` (R269): a 16-byte store of the entry. As a send (R248) it is a release and waits while eight records are unaccepted; later
sends wait for its store, so that it is never one of eight itself; it is held as a send to its own core (log entry 90). -/
def execTagBind (a b : Spec) (s : State) : Out :=
  settle s (do
    let (x, y) ← s.read2 a b
    let n := lo64 x
    let e := lo64 y
    if n.toNat / 1024 ≠ 0 then .error (fltS Code.tag n)
    if hKind e ≠ 0 ∨ e.getLsbD 0 then .error (fltS Code.tag e)
    if s.me.tagbase = 0 then .error (fltS Code.tag 0)
    let va := s.me.tagEntry n.toNat
    let (loc, s) ← s.access s.cur .write false va 16
    s.orderedPlace loc va
    let s ← s.release
    if 8 ≤ s.me.sends then s.holdSend (.core (coreOf s.cur))
    else (s.setMe { s.me with wait := .none }).issueStore 4 { s.newAcc .store va 16 loc with data := (scalar e).setWidth 256 })

/-- The value of a 16-byte location for a step that needs it at once: the home serves it as any load (R195, R197, R258), and the granule
is checked (R212). -/
def State.fetchQuad (s : State) (loc : Nat) (va : Word) : Except Stop (Reg × State) := do
  let s ← s.homeNow loc va false true
  let cls := s.accClass s.cur loc
  match s.checkGran loc cls { launch := s.me.launchNo, grp := s.me.grp, place := s.cur } with
  | (.bad f, s) =>
    .error (.hold (s.takeFault { code := Code.poison, addr := va, syn := wd (cls + if f then 4 else 0), mcls := some cls }))
  | (o, s) => .ok (BitVec.ofNat 128 (leNat (o.apply loc (s.bytesAt loc 16))), s)

/-- `rq` (R270): once it is issuable, with a reply slot free and fewer than eight records unaccepted, the entry is loaded, the request
is sent and the slot taken (log entry 20). -/
def execRq (d a b : Spec) (s : State) : Out :=
  settle s (do
    s.latch [a, b]
    let h ← s.readReg b
    let pay ← s.payload a
    let h0 := lo64 h
    let h1 := hi64 h
    let n := hRtag h1 / 64
    if hKind h0 ≠ 0 then .error (fltC Code.recordKind)
    pcCheck h0
    s.groupCheck (hGrp h0)
    s.routeCheck (hRoute h1) [0, 1, 2, 3]
    if hRtag h1 % 64 ≠ 0 then .error (fltS Code.tag h1)
    if s.me.tagbase = 0 then .error (fltS Code.tag 0)
    let va := s.me.tagEntry n
    let (loc, s) ← s.access s.cur .read false va 16
    s.free1 d
    let s ← s.release
    let c := coreOf s.cur
    match Tab.freeKey (s.core c).slots 0 64 with
    | none => s.holdSend (routeDest (hRoute h1))
    | some k =>
      if !s.me.speculative && decide (8 ≤ s.me.sends) then s.holdSend (routeDest (hRoute h1))
      else
        let (e, s) ← s.fetchQuad loc va
        let w := lo64 e
        if hPc w = 0 then .error (fltS Code.tag w)
        let rtag := n * 64 + k
        let s ← s.send (s.myMsg h0 (mkH1 (hRoute h1) rtag 0) pay (routeDest (hRoute h1)))
        let slot : RSlot := { handler := wd (hPc w), grp := hGrp w, tag := n, launch := s.me.launchNo }
        (s.setCore c { s.core c with slots := Tab.put (s.core c).slots k slot }).put 4 d (scalar (wd rtag)))

end Sys2Proof.Machine
end

