-- ==== Sys2Proof/Machine/Notice.lean ====
section
/-! DEFINITION. Writes of signals by the part itself (R393, R394), appends to a basin (R305), and the notice of a token (R304). -/

namespace Sys2Proof.Machine

/-! ### Signals written by the part (R393, R394) -/

/-- The location of a signal that a token, a launch or a packet writes, or the code of R361 that stops it. -/
def State.sigTarget (s : State) (cl ctx : Nat) (l : Option Nat) (p : Nat) (wr : Bool) (va : Word) : Except Nat Nat :=
  if !formOk va then .error Code.addressForm
  else if va.toNat % 8 ≠ 0 then .error Code.alignment
  else match windowOf va.toNat with
    | none => .error Code.window
    | some .translated =>
      match s.engLoc cl ctx l p (if wr then .rmw else .read) va with
      | .ok loc => if wr && locTag loc == 1 && !s.hub.aop then .error Code.atomicTarget else .ok loc
      | .error c => .error c
    | some (.chip o) => .ok (nearLoc p (.chip o))
    | some _ => .error Code.signalPlace

/-- What the part writes of its own accord: a value with the state, or the code of R361 of a failure with the state that it left, in
which an error newly found is poisoned and charged (R211); code 0 waits, and leaves none. -/
abbrev Part (α : Type) := Except (Nat × State) α

/-- A check of an address alone leaves the state as it is. -/
def State.part {α : Type} (s : State) : Except Nat α → Part α
  | .ok a => .ok a
  | .error c => .error (c, s)

/-- Add to a signal, or set it, at its home: the code of R361 of a failure, or the new state (R393). -/
def State.sigWrite (s : State) (loc : Nat) (op : RmwOp) (v : Reg) (w : Reader) : Part State :=
  if locTag loc == 1 && s.hub.rate == 0 then .error (Code.hostLink, s)
  else if isRemote loc && s.portRefuses loc then .error (Code.linkDown, s)
  else
    let s := if isRemote loc then s.dropCopy (loc / 32) else s
    let cls := s.locClass loc
    match s.checkGran loc cls w with
    | (.bad _, s) => .error (Code.poison, s)
    | (o, s) =>
      let old := leNat (o.apply loc (if isRemote loc then memGetN s.mem loc 8 else s.bytesAt loc 8))
      let new := leBytes 8 (rmwNew op 8 old (v.setWidth 256))
      if isRemote loc then .ok { s with mem := memPutN s.mem loc new }
      else match s.storeGran loc cls new w with
        | (true, s) => .ok s
        | (false, s) => .error (Code.poison, s)

/-- A signal that the part is to write waits: its page migrates, its home takes no request now, or an engine holds its line (R162, R210,
R235, R414). -/
def State.sigHeld (s : State) (cl ctx : Nat) (l : Option Nat) (p : Nat) (va : Word) : Bool :=
  match s.sigTarget cl ctx l p true va with
  | .ok loc => s.lineHeld loc
  | .error c => c == 0

/-- A signal that the part has written for the party at `p` carries its release at `.sys` (R393). -/
def State.sigRel (s : State) (p : Nat) (c : Clock) (loc : Nat) : State :=
  s.putRels loc 8 true [{ place := p, scope := .sys, loc, n := 8, clock := c }]

/-! ### The basin (R305) -/

/-- A word of the basin of a context, read or written as an access of launch `l` from place `p`; code 0 while it waits. -/
def State.basinLoc (s : State) (ctx : Nat) (l : Option Nat) (p : Nat) (wr : Bool) (va : Word) : Except Nat Nat := do
  let loc ← s.engLoc (cluOfPlace p) ctx l p (if wr then .write else .read) va
  if s.lineHeld loc then .error 0 else pure loc

/-- A word read through the check bits of its granule. -/
def State.checkedWord (s : State) (loc : Nat) (w : Reader) : Part (Nat × State) :=
  match s.checkGran loc (s.locClass loc) w with
  | (.bad _, s) => .error (Code.poison, s)
  | (o, s) => .ok (leNat (o.apply loc (s.bytesAt loc 8)), s)

/-- Store bytes within one granule; the code of a failure. -/
def State.checkedStore (s : State) (loc : Nat) (bs : List Byte) (w : Reader) : Part State :=
  match s.storeGran loc (s.locClass loc) bs w with
  | (true, s) => .ok s
  | (false, s) => .error (Code.poison, s)

/-- What a token writes to its basin carries its release (R192 case 5). -/
def State.tokRel (s : State) (t : Token) (loc n : Nat) : State :=
  s.putRels loc n false [{ place := t.place, scope := t.scope, loc, n, clock := t.clock }]

/-- Append a token's record to the basin of its context; the record is lost when the ring is full (R305). -/
def State.basinAppend (s : State) (t : Token) : Part State := do
  let base := (s.context t.ctx).bas
  let w : Reader := { launch := t.launch, grp := t.grp, place := t.place }
  let rd (k : Nat) (s : State) : Part (Nat × State) := do
    let loc ← s.part (s.basinLoc t.ctx t.launch t.place false (base + wd (8 * k)))
    s.checkedWord loc w
  let wr (k v : Nat) (s : State) : Part State := do
    let loc ← s.part (s.basinLoc t.ctx t.launch t.place true (base + wd (8 * k)))
    s.checkedStore loc (leBytes 8 v) w
  if base = 0 then pure s
  else
    let (ring, s) ← rd 0 s
    let (n, s) ← rd 1 s
    let (wi, s) ← rd 2 s
    let (ri, s) ← rd 3 s
    if (wi + 2 ^ 64 - ri) % 2 ^ 64 = n then
      let (lost, s) ← rd 4 s
      wr 4 ((lost + 1) % 2 ^ 64) s
    else
      let loc ← s.part (s.basinLoc t.ctx t.launch t.place true (wd (ring + 64 * (wi % n))))
      let s := s.storeWhole loc ((List.range 8).flatMap (fun k => leBytes 8 (t.word k).toNat))
      let s := (s.tokRel t loc 32).tokRel t (loc + 32) 32
      let s ← wr 2 ((wi + 1) % 2 ^ 64) s
      let loc ← s.part (s.basinLoc t.ctx t.launch t.place true (base + 16))
      pure (s.tokRel t loc 8)

/-! ### The notice (R304) -/

/-- The core that a tile's drain writes to, or the issuing core (R304, R312). -/
def Token.wakeCore (t : Token) : Nat :=
  if t.maj = 0x10 ∧ (t.fn = 2 ∨ (t.fn ≤ 1 ∧ t.x[3].getLsbD 1)) then wbits t.x[2] 0 16 / 8 else t.place / 8

/-- Add to a signal or set it for a token. -/
def State.sigNotice (s : State) (t : Token) (op : RmwOp) : Part State := do
  let loc ← s.part (s.sigTarget (cluOfPlace t.place) t.ctx t.launch t.place true t.target)
  if s.lineHeld loc then .error (0, s)
  let s ← s.sigWrite loc op (scalar (wd (2 ^ 64 - 1))) { launch := t.launch, grp := t.grp, place := t.place }
  pure (s.sigRel t.place t.clock loc)

/-- A record that a token sends. -/
def Token.msg (t : Token) (h0 h1 : Word) (pay : Vector Reg 3) (dest : Dest) : Msg :=
  { newMsg h0 h1 pay t.place dest with launch := t.launch, ctx := t.ctx, sgrp := t.grp, byTok := some t.hdl, clock := t.clock }

/-- What the notice writes or sends. -/
def State.noticeBody (s : State) (t : Token) : Part State :=
  match t.ntc with
  | 1 => s.basinAppend t
  | 2 =>
    let pay : Vector Reg 3 := #v[mkReg (t.word 0) (t.word 1), mkReg (t.word 2) (t.word 3), mkReg (t.word 4) (t.word 5)]
    let r := t.target.toNat
    .ok (s.post { t.msg 0 (mkH1 (3 * 2 ^ 22 + r) 0 0) pay (.port (24 * bits r 15 3 + bits r 10 5) (bits r 0 10)) with ts := t.ts })
  | 3 =>
    let pay : Vector Reg 3 := #v[mkReg (wd t.hdl) (t.word 0), 0, 0]
    .ok (s.post (t.msg (setBits t.target 60 4 4) (mkH1 (t.wakeCore * 8) 0 0) pay (.core t.wakeCore)))
  | 4 =>
    match t.st with
    | .done => s.sigNotice t .sadd
    | .faulted | .cancelled => s.sigNotice t .swap
    | _ => .ok s
  | _ => .ok s

/-- The device counts a signal write that AtomicOp routing leaves undone (R394, R422). -/
def State.countLost (s : State) (code : Nat) : State :=
  if code = Code.atomicTarget then s.setHub { s.hub with sigLost := satAt (2 ^ 64 - 1) (s.hub.sigLost + 1) } else s

/-- Post the notice of a token; a notice whose write faults is dropped and its code noted (R304), one whose write waits is posted
later. -/
def State.postNotice (s : State) (key : Nat) : State :=
  match s.tok? key with
  | none => s
  | some t =>
    match s.noticeBody t with
    | .ok s => match s.tok? key with
      | some t => s.setTok key { t with posted := true }
      | none => s
    | .error (0, _) => s
    | .error (c, s) => match s.tok? key with
      | some t => (s.setTok key { t with posted := true, nf := c }).countLost c
      | none => s.countLost c

/-- Post the notice of a token whose slot is about to go or whose target changes: one whose write waits is kept beside the slots and
posted later (R304, R307, R330). -/
def State.postOrKeep (s : State) (key : Nat) : State :=
  match s.tok? key with
  | none => s
  | some t =>
    let s := (s.setTok key { t with posted := false }).postNotice key
    match s.tok? key with
    | some u => if u.posted then s else ({ s with late := s.late ++ [u] } : State).setTok key { u with posted := true }
    | none => s

/-- The notices kept beside the slots are posted once their writes can be; a fault of one is noted in the slot while that is still the
token's. -/
def State.postLate (s : State) : State :=
  if s.hub.frozen then s
  else s.late.foldl (fun s t => match s.noticeBody t with
    | .ok s => s
    | .error (0, _) => { s with late := s.late ++ [t] }
    | .error (c, s) => (match s.tok? (hdlKey t.hdl) with
      | some u => if u.hdl = t.hdl then s.setTok (hdlKey t.hdl) { u with nf := c } else s
      | none => s).countLost c) { s with late := [] }

end Sys2Proof.Machine
end

