-- ==== Sys2Proof/Machine/Retire.lean ====
section
/-! DEFINITION. How a task ends (R251 to R255), what becomes of its tokens (R306 to R308), and the plain safe points (R84). -/

namespace Sys2Proof.Machine

/-! ### Tokens of a task (R306 to R308) -/

/-- A token waits for an acknowledgement of its fault (R308). -/
def Token.unacked (t : Token) : Bool := t.fc != 0 && !t.ack && t.told != 2 && (t.st == .faulted || (t.st == .suspended && t.susFault))

/-- The fault record of a token's fault (R308, R360). -/
def State.tokRec (s : State) (t : Token) : FltRec :=
  { code := Code.tokenFault, cls := t.cls, place := t.place, grp := t.grp, pc := t.ipc, addr := t.fadr, tok := t.hdl, ts := t.ts,
    syn := wd t.fc, cyc := s.cyc, detail := 0 }

/-- Report a token's fault to the fault domain of its holder's group (R308). -/
def State.reportTok (s : State) (t : Token) : State :=
  match t.launch with
  | some l => s.report l t.grp (s.tokRec t)
  | none => { s with faults := s.tokRec t :: s.faults }

/-- The group of a launch is resumable (R319). -/
def State.resumable (s : State) (l : Option Nat) (g : Nat) : Bool :=
  match l with
  | some n => ((s.group? n g).map (·.res)).getD false
  | none => false

/-- A task's hold on a token ends by its retirement: an unacknowledged fault is reported (a Suspended copy of a resumable group
has its notice alone), a terminal token's slot is freed, be its notice still to be posted, any other becomes an orphan (R306 to R308). -/
def State.loseTok (s : State) (key : Nat) : State :=
  match s.tok? key with
  | none => s
  | some t =>
    let s := if t.unacked && t.st == .faulted then (s.setTok key { t with told := 2 }).reportTok t else s
    match s.tok? key with
    | none => s
    | some t =>
      if t.st.terminal then (if t.posted then s else s.postOrKeep key).freeTok key
      else s.setTok key { t with hold := 2, holder := none, kept := none }

/-- At the `done` of an ordered task its tokens leave its context, and stay with its commit entry until it retires at its commit (R246,
R306). -/
def State.keepToks (s : State) (p : Nat) (e : Nat × Nat) : State :=
  (s.heldBy p).foldl (fun s k => match s.tok? k with
    | some t => s.setTok k { t with holder := none, kept := some e }
    | none => s) s

/-- Tokens of an ordered task that commits. -/
def State.loseKept (s : State) (e : Nat × Nat) : State := (s.toksWhere (fun t => t.kept == some e)).foldl State.loseTok s

/-- Every token of the task at `p` loses its holder by the task's retirement. -/
def State.loseToks (s : State) (p : Nat) : State := (s.heldBy p).foldl State.loseTok s

/-- Groups of a stream that issued tiles claim: those that tiles have taken, and those of the tiles that are still to start (R310). -/
def State.claims (s : State) (t : Token) : Nat :=
  (s.toks.filter (fun e => e.2.maj == 0x10 && decide (e.2.fn ≤ 1) && (e.2.x[0].toNat == t.hdl || e.2.x[1].toNat == t.hdl) &&
    (e.2.st == .issued || e.2.st == .waiting || e.2.st == .suspended))).foldl (fun n e => n + wbits e.2.x[3] 32 16) t.claimed

/-- At `done`, a stream of the task with groups that no tile has claimed is cancelled (R310; log entry 55). -/
def State.cancelStreams (s : State) (p : Nat) : State :=
  (s.heldBy p).foldl (fun s k => match s.tok? k with
    | some t =>
      if t.maj = 0x11 ∧ (t.fn = 4 ∨ t.fn = 5) ∧ !t.st.terminal ∧ s.claims t < t.x[1].toNat / 2 ^ 32
      then s.endTok k .cancelled else s
    | none => s) s

/-- `done` waits for attached and adopted tokens (R251, R306). -/
def State.tokensLeft (s : State) (p : Nat) : Bool :=
  (s.heldBy p).any (fun k => match s.tok? k with
    | some t => (t.hold == 0 || t.hold == 3) && !t.st.terminal
    | none => false)

/-! ### done (R251) -/

/-- The task of the running context has retired. -/
def State.retire (s : State) : State :=
  let p := s.cur
  let s := s.loseToks p
  if s.me.task.isSome then s.freeThread p else s

/-- The `done` of a save routine: the tokens are orphans, the entry stands, and an abandoned pre-emption goes on (R306, R369,
R370). -/
def State.doneSaving (s : State) : State :=
  let p := s.cur
  let n := s.me.ctxNo
  let s := (s.orphanToks p).freeThread p
  if (s.context n).st = .preempting then s else s.abandoned n

/-- The `done` of an ordered task: Finishing, or Finished when no child is unaccepted; the context is freed, and the commit entry keeps
its tokens (R246, R251, R306). -/
def State.doneOrdered (s : State) (e : Nat) : State :=
  let p := s.cur
  let cl := cluOfPlace p
  let s := match Tab.get? (s.clu cl).commits e with
    | some c =>
      let st := if c.irrev ∨ c.children = 0 then OState.finished else .finishing
      s.setClu cl { s.clu cl with commits := Tab.put (s.clu cl).commits e { c with state := st, place := none } }
    | none => s
  (s.keepToks p (cl, e)).freeThread p

/-- `done` completes, or blocks until the tokens are terminal. -/
def State.doneTask (s : State) : State :=
  if s.me.saving then s.doneSaving
  else match s.me.entry? with
    | some e => s.doneOrdered e
    | none =>
      let s := s.cancelStreams s.cur
      if s.tokensLeft s.cur then s.block .done else s.retire

/-- An access that `done` leaves outstanding: a store of an unordered task to memory that no check covers, whose failure is not
reported (R205, R216). -/
def State.mayOutlive (s : State) (a : Access) : Bool :=
  match a.kind with
  | .store => a.entry.isNone && decide (2 ≤ s.locClass a.loc)
  | _ => false

/-- `done` waits for the accesses whose faults it is to raise or report, and ends the region (R205, R212, R216). -/
def State.doneEnd (s : State) : Res := do
  if s.anyAcc (fun a => !s.mayOutlive a) then .error .wait
  s.storeReport
  pure (s.endRegion s.cur)

/-- `done` (R251): the accesses whose fault would be the task's have been performed (R212; log entry 20), the store report, the end of the
region, the trace record, then the end of the task. -/
def State.doDone (s : State) (len : Nat) : Res := do
  let s ← s.doneEnd
  pure ((s.trace s.cur 2 s.me.ipc).fin len).doneTask

def execDone (s : State) : Out := settle s (s.doDone 4)
def execCDone (s : State) : Out := settle s (s.doDone 2)

/-! ### susp and yield (R252, R253) -/

/-- The continuation's record for an instruction of `len` bytes and a route (R252). -/
def State.continuation (s : State) (len route : Nat) : Except Stop (Word × Word × Vector Reg 3) := do
  let t := s.me
  let x ← s.readReg 16
  let y ← s.readReg 17
  let z ← s.readReg 18
  pure (mkH0 6 t.grp (t.pc + wd len).toNat, mkH1 route (hRtag t.h1) 0, #v[x, y, z])

/-- The 64 bytes of a record (R239). -/
def recBytes (h0 h1 : Word) (pay : Vector Reg 3) : List Byte :=
  leBytes 8 h0.toNat ++ leBytes 8 h1.toNat ++ leBytes 16 pay[0].toNat ++ leBytes 16 pay[1].toNat ++ leBytes 16 pay[2].toNat

/-- The home checks of a store that a step performs at once, over `n` lines from a location (R162, R164, R198, R203). -/
def State.syncCheck (s : State) (loc : Nat) (va : Word) : Nat → Except Stop State
  | 0 => .ok s
  | n + 1 => do
    let s ← s.homeNow (loc + 32 * n) va true true
    s.syncCheck loc va n

/-- `susp` (R252): one 64-byte store of the continuation, then the end of the task, whose tokens are all orphans for the continuation to
adopt (R306). -/
def State.doSusp (s : State) (len : Nat) : Res := do
  let t := s.me
  let va := t.x[0]
  let (h0, h1, pay) ← s.continuation len (s.cur / 8 * 8)
  if va = 0 then .error (fltS Code.suspTarget 0)
  if va.toNat % 64 ≠ 0 then .error (fltA Code.alignment va)
  let (loc, s) ← s.access s.cur .write false va 64
  if s.me.ordered then .error (fltC Code.orderedUse)
  let s ← s.release
  if isRemote loc && s.portRefuses loc then .error (.flt { code := Code.linkDown, addr := va, syn := wd (locTag loc - 2) })
  let s ← s.syncCheck loc va 2
  let s := if locTag loc = tagDev then s else s.storeWhole loc (recBytes h0 h1 pay)
  pure (((((s.trace s.cur 3 s.me.ipc).fin len).stale).orphanToks s.cur).freeThread s.cur)

def execSusp (s : State) : Out := settle s (s.doSusp 4)
def execCSusp (s : State) : Out := settle s (s.doSusp 2)

/-- A record is accepted by a task unit: its route is its sender's place id from now on (R242). -/
def Msg.taken (m : Msg) (now : Nat) : Msg :=
  { m with h1 := mkH1 m.sender (hRtag m.h1) (hStime m.h1), arrival := now, counted := false, parent := m.parent }

/-- `yield` (R253): the task retires, with what that makes of its tokens (R306, R307; log entry 108); the continuation goes to the back of the own task unit, through the mesh
when that is full (R244) or earlier records of the context to it still travel (R273), or to the
requeue area of a context that is being pre-empted (R368). No task unit places a record on a dispatch core (R14): from there it goes to
the core's own inbox (log entry 127). -/
def execYield (s : State) : Out :=
  settle s (do
    let cl := cluOfPlace s.cur
    let pair := isDispatch s.cur
    let (h0, h1, pay) ← s.continuation 4 (unitOf s.cur).1
    if s.me.ordered then .error (fltC Code.orderedUse)
    let s ← s.release
    let m := s.myMsg h0 h1 pay (unitOf s.cur).2
    let s := if s.suspending m.ctx then s.requeueMsg cl (m.taken s.cyc)
      else if pair then s.post m
      else if (s.clu cl).tu.length < 1024 ∧ !s.mesh.any (fun e => e.2.sender == s.cur && e.2.byTok.isNone && e.2.dest == .task cl) then
        ({ s with clus := Tab.put s.clus cl { s.clu cl with tu := (s.clu cl).tu ++ [{ m.taken s.cyc with ord := s.nextId }] } }).bump
      else s.post m
    pure (((s.trace s.cur 3 s.me.ipc).fin 4).stale).retire)

/-! ### Reading time, abort, safe points -/

/-- `ts.get` (R255). -/
def execTsGet (d : Spec) (s : State) : Out :=
  settle s (s.put 4 d (
    match s.me.launchNo.bind s.launch? with
    | some L => mkReg (wd L.front.1) (wd (L.front.2 % 2 ^ 32 + (if L.frontNone then 2 ^ 32 else 0)))
    | none => 0))

/-- `abort` (R254): its record waits for the next weir round. -/
def execAbort (s : State) : Out :=
  settle s (
    match s.me.entry? with
    | none => .error (fltC Code.abortUse)
    | some e =>
      if !s.me.speculative then .error (fltC Code.abortUse)
      else
        let cl := cluOfPlace s.cur
        let key := s.me.key
        let l := s.me.launchNo
        let s := s.abortAll [(cl, e)]
        let late (m : Msg) : Msg :=
          if m.launch = l ∧ (m.ts.toNat, m.seq.toNat) = key then { m with notBefore := s.round + 1 } else m
        .ok (s.setClu cl { s.clu cl with tu := (s.clu cl).tu.map late, spill := (s.clu cl).spill.map late }))

/-- A plain safe point (R84). -/
def State.safePoint (s : State) (n len : Nat) : Res :=
  if s.me.preempted then .error (.hold (s.reachSafePoint s.cur (some n)))
  else .ok (s.stale.fin len)

def execSpt (n : BitVec 12) (s : State) : Out := settle s (s.safePoint n.toNat 4)
def execCSpt (n : BitVec 11) (s : State) : Out := settle s (s.safePoint n.toNat 2)

end Sys2Proof.Machine
end

