-- ==== Sys2Proof/Machine/Port.lean ====
section
/-! DEFINITION. The join unit of a cluster: ports, patterns, arrivals and firings (R274 to R284), and the instructions of major
0x17 (R285 to R292). -/

namespace Sys2Proof.Machine

/-! ### Ports and patterns (R275 to R279) -/

/-- Owner number of a task's ports: its launch, and one number beyond every launch for firmware (log entry 15). -/
def ownerNo (l : Option Nat) : Nat := l.getD 65536
def ownerLaunch (o : Nat) : Option Nat := if o = 65536 then none else some o

/-- An unconfigured port (R276). -/
def Port.empty : Port := { cap := 0, pol := 0, ovf := false, owner := 0, msgs := [], takers := [] }

def State.port (s : State) (cl i : Nat) : Port := (s.port? cl i).getD Port.empty

/-- A port is stored while it is configured or a take waits on it. -/
def State.keepPort (s : State) (cl i : Nat) (p : Port) : State :=
  if p.cap = 0 ∧ p.takers.isEmpty then s.setClu cl { s.clu cl with ports := Tab.del (s.clu cl).ports i } else s.setPort cl i p

/-- Patterns bound over a port. -/
def Cluster.listing (k : Cluster) (i : Nat) : List Nat := (k.patterns.filter (fun e => e.2.ports.contains i)).map (·.1)

/-- The state word of a port with window `w` of its mask (R276). -/
def State.portWord (s : State) (cl i w : Nat) : Nat :=
  let p := s.port cl i
  if p.cap = 0 then 0
  else
    let mask := ((s.clu cl).listing i).foldl (fun n q => if q / 16 = w then n + 2 ^ (q % 16) else n) 0
    p.msgs.length + p.cap * 16 + p.pol * 256 + (if p.ovf then 1024 else 0) + mask * 65536

/-- Cluster and index of an address word; pattern indices have eight bits (R275). -/
def portAddr (pat : Bool) (a : Word) : Except Stop (Nat × Nat) :=
  if a.toNat / 2 ^ 18 ≠ 0 ∨ 24 ≤ wbits a 10 5 ∨ (pat ∧ wbits a 8 2 ≠ 0) then .error (fltS Code.portAddress a)
  else .ok (24 * wbits a 15 3 + wbits a 10 5, wbits a 0 10)

/-- The address of a port (R275). -/
def portWordAddr (cl i : Nat) : Word := wd (cl / 24 * 2 ^ 15 + cl % 24 * 2 ^ 10 + i)

/-! ### Firing (R281 to R283) -/

/-- A pattern has a message on every port. -/
def State.ready (s : State) (cl : Nat) (q : Pattern) : Bool := q.ports.all (fun i => !(s.port cl i).msgs.isEmpty)

/-- The first ready pattern: highest priority, then lowest index. -/
def State.firstReady (s : State) (cl : Nat) : Option Pattern :=
  (((s.clu cl).patterns.filter (fun e => s.ready cl e.2)).foldl (fun (b : Option Pattern) e =>
    match b with
    | some q => if q.pri < e.2.pri then some e.2 else some q
    | none => some e.2) none)

/-- `Fire`: take the heads into firing entry `k` and offer the record of kind 8 (R282). -/
def State.fire (s : State) (cl k : Nat) (q : Pattern) : State :=
  let heads := q.ports.filterMap (fun i => (s.port cl i).msgs.head?)
  let s := q.ports.foldl (fun s i => let p := s.port cl i; s.keepPort cl i { p with msgs := p.msgs.drop 1 }) s
  let s := s.setClu cl { s.clu cl with firings := Tab.put (s.clu cl).firings k heads }
  match heads.head? with
  | none => s
  | some h =>
    let l := ownerLaunch q.owner
    let ctx := ((l.bind s.launch?).map (·.sub.ctx)).getD 0
    let m := newMsg (mkH0 8 q.grp q.pc.toNat) (mkH1 h.sender h.rtag.toNat h.stime.toNat) #v[0, 0, 0] h.sender (.task cl)
    let m : Msg := { m with launch := l, ctx, sgrp := q.grp, firing := some k, clock := heads.foldl (fun c h => c.join h.clock) [] }
    if s.groupGone m then s.countLoss cl 1 else if s.suspending ctx then s.requeueMsg cl m else s.offer cl m

/-- Fire ready patterns until none is ready or no firing entry is free (R281, R282). -/
def State.evalPatterns (cl : Nat) : Nat → State → State
  | 0, s => s
  | n + 1, s =>
    match Tab.freeKey (s.clu cl).firings 0 64, s.firstReady cl with
    | some k, some q => (s.fire cl k q).evalPatterns cl n
    | _, _ => s

/-- Every firing takes a message from each of its ports, so there are no more firings than messages. -/
def State.evaluate (s : State) (cl : Nat) : State :=
  s.evalPatterns cl ((s.clu cl).ports.foldl (fun n e => n + e.2.msgs.length) 1)

/-- Messages that came back from a requeue area take a free firing entry (R368). -/
def State.settleFiring (s : State) (cl : Nat) : State :=
  let k := s.clu cl
  match Tab.freeKey k.firings 0 64, k.firings.find? (fun e => 64 ≤ e.1) with
  | some i, some (j, ms) =>
    let moved (m : Msg) : Msg := if m.firing = some j ∧ m.dest = .task cl then { m with firing := some i } else m
    { s with mesh := Tab.mapV (fun _ m => moved m) s.mesh }.setClu cl { k with firings := Tab.put (Tab.del k.firings j) i ms, tu := k.tu.map moved }
  | _, _ => s

/-- A firing entry is freed, and postponed firings go on (R282). -/
def State.freeFiring (s : State) (cl k : Nat) : State :=
  ((s.setClu cl { s.clu cl with firings := Tab.del (s.clu cl).firings k }).settleFiring cl).evaluate cl

/-- A firing entry that no record names any more is freed. -/
def State.sweepFirings (s : State) (cl : Nat) : State :=
  let k := s.clu cl
  let named (i : Nat) : Bool := k.tu.any (fun m => m.firing == some i) || k.spill.any (fun m => m.firing == some i) ||
    s.mesh.any (fun e => e.2.firing == some i && e.2.dest == .task cl)
  match k.firings.find? (fun e => !named e.1) with
  | some (i, _) => s.freeFiring cl i
  | none => s

/-! ### Arrivals (R274, R284) -/

/-- The message that a port keeps of a record (R276). -/
def Msg.held (m : Msg) : PMsg :=
  { pay := m.pay, sender := m.sender, h0 := m.h0, rtag := BitVec.ofNat 16 (hRtag m.h1), stime := BitVec.ofNat 24 (hStime m.h1), clock := m.clock }

/-- Registers of a taken message: three from `d`, and `lt` (R290). -/
def Thread.take (t : Thread) (d : Spec) (m : PMsg) : Thread :=
  if d = 1 then t
  else
    let put (t : Thread) (k : Nat) (v : Reg) : Thread := { t with regs := t.regs.set (specPlus d k) v, dmg := t.dmg.filter (fun e => e.1 != (specPlus d k).val) }
    ((put (put t 1 m.pay[1]) 2 m.pay[2]).result d m.pay[0])

/-- The oldest waiting take receives a message (R274, R290). -/
def State.serveTake (s : State) (p : Nat) (m : PMsg) : State :=
  let t := s.thread p
  match t.blk with
  | some (.take _ d) => s.setThread p (({ ((t.take d m).hears m.clock).goesOn with blk := none }).fin 4)
  | _ => s

/-- The overflow fault of R284. -/
def State.overflowFault (s : State) (cl i : Nat) (m : Msg) : State :=
  let r (l : Option Nat) (g : Nat) : FltRec :=
    { code := Code.portOverflow, cls := s.classOf l g, place := m.sender, grp := g, pc := 0, addr := 0, tok := m.byTok.getD 0, ts := m.ts,
      syn := portWordAddr cl i, cyc := s.cyc, detail := 0 }
  let owner := (s.port cl i).owner
  let live := match m.launch with
    | some l => (match s.group? l m.sgrp with | some b => b.st != 4 | none => false)
    | none => false
  match m.launch with
  | some l =>
    if live then s.report l m.sgrp (r (some l) m.sgrp)
    else match s.launch? owner with
      | some L => s.report owner L.root (r (some owner) L.root)
      | none => { s with faults := r none 0 :: s.faults }
  | none => { s with faults := r none 0 :: s.faults }

/-- The refusal that a full port returns to a task (R272, R274). -/
def State.refuse (s : State) (m : Msg) : State :=
  let core := m.sender / 8
  let x := newMsg (mkH0 5 (hGrp m.h0) (hPc m.h0)) (mkH1 (core * 8) (hRtag m.h1) 0) m.pay m.sender (.core core)
  s.post { x with launch := m.launch, ctx := m.ctx, sgrp := m.sgrp }

def State.joinDrop (s : State) (cl : Nat) : State :=
  s.setClu cl { s.clu cl with joinDrops := satAt (2 ^ 64 - 1) ((s.clu cl).joinDrops + 1) }

/-- The token that posted a message notes the refusal (R274). -/
def State.noteRefused (s : State) (h : Nat) : State :=
  match s.tok? (hdlKey h) with
  | some t => if t.hdl = h then s.setTok (hdlKey h) { t with refd := true } else s
  | none => s

/-- A record reaches port `i` of a cluster (R274, R280, R281). -/
def State.portArrive (s : State) (cl i : Nat) (m : Msg) : State :=
  let p := s.port cl i
  let foreign := match s.launch? p.owner with
    | some L => L.sub.ctx != m.ctx
    | none => m.ctx != 0
  if droppedKind m.kind || p.cap == 0 || foreign then s.joinDrop cl
  else match p.takers with
    | t :: ts => (s.setPort cl i { p with takers := ts }).serveTake t m.held
    | [] =>
      if p.msgs.length < p.cap then (s.setPort cl i { p with msgs := p.msgs ++ [m.held] }).evaluate cl
      else
        let s := s.setPort cl i { p with ovf := true }
        match p.pol with
        | 0 => s.overflowFault cl i m
        | 1 => match m.byTok with
          | some h => (s.noteRefused h).joinDrop cl
          | none => s.refuse m
        | _ => s.joinDrop cl

/-! ### Operations of instructions (R277, R278, R286) -/

/-- Who operates on a join unit: the launch and the group of the task. -/
structure User where
  launch : Option Nat
  grp : Nat
  deriving DecidableEq, Repr

def State.user (s : State) : User := { launch := s.me.launchNo, grp := s.me.grp }

/-- The port is configured by another launch (R286). -/
def State.foreignPort (s : State) (cl i : Nat) (u : User) : Bool :=
  (s.port cl i).cap != 0 && (s.port cl i).owner != ownerNo u.launch

/-- `pat.bind` on a join unit (R279, R283, R286). -/
def State.joinBind (s : State) (cl : Nat) (u : User) (a : Word) (desc : Reg) : Res := do
  let k := s.clu cl
  let i := wbits a 0 8
  let hi := hi64 desc
  let lo := lo64 desc
  if (Tab.get? k.patterns i).isSome then .error (fltS Code.patternBusy a)
  let n := wbits hi 40 2 + 1
  let ports := (List.range n).map (fun j => wbits hi (10 * j) 10)
  let form (v : Word) (w : Nat) : Except Stop Unit := .error (.flt { code := Code.patternForm, syn := v, detail := w })
  if hi.toNat / 2 ^ 45 ≠ 0 ∨ bits hi.toNat (10 * n) (40 - 10 * n) ≠ 0 ∨ ports.eraseDups.length ≠ n then form hi 1
  if ports.any (fun j => (s.port cl j).cap == 0 || s.foreignPort cl j u) then form hi 1
  if hKind lo ≠ 0 then form lo 0
  if lo.getLsbD 0 then .error (.flt { code := Code.branchTarget, addr := wd (hPc lo), syn := wd (hPc lo) })
  match u.launch with
  | none => pure ()
  | some l => match s.group? l (hGrp lo) with
    | some b => if b.st = 4 ∨ !s.inSubtree l u.grp (hGrp lo) then .error (fltS Code.groupSlot (wd (hGrp lo)))
    | none => .error (fltS Code.groupSlot (wd (hGrp lo)))
  let q : Pattern := { ports, pri := wbits hi 42 3, grp := hGrp lo, pc := wd (hPc lo), owner := ownerNo u.launch }
  pure ((s.setClu cl { k with patterns := Tab.put k.patterns i q }).evaluate cl)

/-- `pat.drop` (R283, R286). -/
def State.joinUnbind (s : State) (cl : Nat) (u : User) (a : Word) : Res :=
  let k := s.clu cl
  let i := wbits a 0 8
  match Tab.get? k.patterns i with
  | some q =>
    if q.owner = ownerNo u.launch then .ok (s.setClu cl { k with patterns := Tab.del k.patterns i })
    else .error (fltS Code.patternForm a)
  | none => .error (fltS Code.patternForm a)

/-- Messages that the cluster's ports may hold together (R277). -/
def Cluster.capSum (k : Cluster) : Nat := (k.ports.map (fun e => e.2.cap)).sum

/-- `port.cfg` (R277, R278, R286, R287). -/
def State.joinCfg (s : State) (cl i : Nat) (u : User) (v : Word) : Res := do
  let p := s.port cl i
  let cap := wbits v 4 4
  let pol := wbits v 8 2
  if v.toNat / 2 ^ 10 ≠ 0 ∨ v.toNat % 16 ≠ 0 ∨ pol = 3 ∨ 8 < cap then .error (fltS Code.portConfig v)
  if cap < p.msgs.length ∨ (cap = 0 ∧ (!p.msgs.isEmpty ∨ !((s.clu cl).listing i).isEmpty)) then .error (fltS Code.portBusy v)
  if 2048 < (s.clu cl).capSum - p.cap + cap then .error (fltS Code.portStore v)
  if cap = 0 then pure (s.keepPort cl i { p with cap := 0, pol := 0, ovf := false, owner := 0 })
  else if p.cap = 0 then pure (s.setPort cl i { p with cap, pol, ovf := false, owner := ownerNo u.launch })
  else pure (s.setPort cl i { p with cap, pol })

/-- `port.clr` (R291). -/
def State.joinClr (s : State) (cl i : Nat) : State :=
  let p := s.port cl i
  if p.cap = 0 then s else s.setPort cl i { p with msgs := [], ovf := false }

/-! ### Instructions (R285 to R292) -/

/-- The port or pattern that an address names on the own cluster (R286, R292). Operations of one context on a join unit are
applied in the order of their issue, so its own records to ports of the cluster come first (R280). -/
def State.ownPort (s : State) (pat : Bool) (a : Word) : Except Stop (Nat × Nat) := do
  let (cl, i) ← portAddr pat a
  if cl ≠ cluOfPlace s.cur then .error (fltS Code.portLocality a)
  if !pat && s.foreignPort cl i s.user then .error (fltS Code.portOwner a)
  let own (m : Msg) : Bool := m.sender == s.cur && m.counted && (match m.dest with | .port c _ => c == cl | _ => false)
  if s.mesh.any (fun e => own e.2) then .error .wait
  pure (cl, i)

/-- An operation that a speculative ordered task defers after its check (R260, R261). -/
def State.portOp (s : State) (op : Nat) (a : Word) (b : Reg) (act : State → Res) : Res := do
  let _ ← act s
  let s ← s.regionEnd
  if s.me.speculative then s.defer (.port op a b) else act s

def execPatBind (a b : Spec) (s : State) : Out :=
  settle s (do
    let (x, y) ← s.read2 a b
    let (cl, _) ← s.ownPort true (lo64 y)
    let s ← s.portOp 2 (lo64 y) x (fun s => s.joinBind cl s.user (lo64 y) x)
    pure (s.fin 4))

def execPatDrop (a : Spec) (s : State) : Out :=
  settle s (do
    let x ← s.read64 a
    let (cl, _) ← s.ownPort true x
    let s ← s.portOp 3 x 0 (fun s => s.joinUnbind cl s.user x)
    pure (s.fin 4))

def execPortCfg (a b : Spec) (s : State) : Out :=
  settle s (do
    let (x, y) ← s.read2 a b
    let (cl, i) ← s.ownPort false (lo64 x)
    let s ← s.portOp 1 (lo64 x) y (fun s => s.joinCfg cl i s.user (lo64 y))
    pure (s.fin 4))

/-- `port.give` (R288). -/
def execPortGive (a b : Spec) (s : State) : Out :=
  settle s (do
    s.latch [a, b]
    let h ← s.readReg b
    let pay ← s.payload a
    let (cl, i) ← portAddr false (lo64 h)
    let h0 := hi64 h
    if hKind h0 ≠ 0 then .error (fltC Code.recordKind)
    pcCheck h0
    let m : Msg := { s.myMsg h0 (mkH1 (3 * 2 ^ 22 + (lo64 h).toNat) 0 0) pay (.port cl i) with ts := if s.me.ordered then s.me.ts else 0 }
    let s ← s.send m
    pure (s.fin 4))

/-- `port.st` (R289). -/
def execPortSt (d a : Spec) (w : BitVec 4) (s : State) : Out :=
  settle s (do
    let x ← s.read64 a
    let (cl, i) ← s.ownPort false x
    if s.me.ordered then .error (fltC Code.orderedUse)
    let s ← s.regionEnd
    s.put 4 d (scalar (wd (s.portWord cl i w.toNat))))

/-- Registers `d`, `d + 1`, `d + 2` await no load (R65). -/
def State.free3 (s : State) (d : Spec) : Except Stop Unit :=
  if d != 1 && (s.busy d || s.busy (specPlus d 1) || s.busy (specPlus d 2)) then .error .wait else .ok ()

/-- The three registers of a take are written (R290). -/
def State.takeInto (s : State) (d : Spec) (m : PMsg) : State :=
  if d = 1 then s.setMe (s.me.hears m.clock) else (s.setMe ((s.me.take d m).hears m.clock)).clearWlt

/-- The head of a port's messages, taken. -/
def State.takeHead (s : State) (cl i : Nat) : Option (PMsg × State) :=
  let p := s.port cl i
  match p.msgs with
  | [] => none
  | m :: ms => some (m, s.setPort cl i { p with msgs := ms })

/-- `port.take` without wait (R290). -/
def execPortTake (d a : Spec) (k : PredNo) (s : State) : Out :=
  settle s (do
    let x ← s.read64 a
    let (cl, i) ← s.ownPort false x
    if s.me.ordered then .error (fltC Code.orderedUse)
    s.free3 d
    let s ← s.regionEnd
    pure (match s.takeHead cl i with
      | some (m, s) => ((s.takeInto d m).setMe ((s.takeInto d m).me.setPred k true)).fin 4
      | none =>
        let s := s.takeInto d { pay := #v[0, 0, 0], sender := 0, h0 := 0, rtag := 0, stime := 0 }
        (s.setMe (s.me.setPred k false)).fin 4))

/-- `port.take.w` (R290): a blocking instruction. -/
def execPortTakeW (d a : Spec) (s : State) : Out :=
  settle s (s.blocking (fun s => s.read64 a) (fun s x => do
    let (cl, i) ← s.ownPort false x
    if s.me.ordered then .error (fltC Code.orderedUse)
    s.free3 d
    let s ← s.regionEnd
    pure (match s.takeHead cl i with
      | some (m, s) => (s.takeInto d m).fin 4
      | none =>
        let p := s.port cl i
        (s.setPort cl i { p with takers := p.takers ++ [s.cur] }).block (.take (cl * 1024 + i) d))))

/-- `port.clr` (R291). -/
def execPortClr (d a : Spec) (s : State) : Out :=
  settle s (do
    let x ← s.read64 a
    let (cl, i) ← s.ownPort false x
    let w := if s.me.speculative then 0 else s.portWord cl i 0
    let s ← s.portOp 4 x 0 (fun s => .ok (s.joinClr cl i))
    s.put 4 d (scalar (wd w)))

/-! ### The step of the table (R274, R280) -/

/-- A record may arrive: an earlier one of the same sender to the same place comes first (R273), and between dies none arrives while a link
retrains (R407). -/
def State.inOrder (s : State) (k : Nat) (m : Msg) : Bool :=
  (s.hub.d2d.isEmpty || dieOf m.sender == m.dest.cluster / 24) &&
  !s.mesh.any (fun e => e.1 != k && e.2.sender == m.sender && e.2.dest == m.dest && decide (e.2.ord < m.ord))

/-- PORT_ARRIVAL: a record in the mesh reaches its port (R274). -/
def execPortArrival (msg : Nat) (s : State) : Out :=
  match Tab.get? s.mesh msg with
  | some m =>
    match m.dest with
    | .port cl i =>
      if !s.hub.frozen && s.inOrder msg m then .next ((({ s with mesh := Tab.del s.mesh msg }).accepted m).portArrive cl i m) else .next s
    | _ => .next s
  | none => .next s

end Sys2Proof.Machine
end

