-- ==== Sys2Proof/Machine/Int.lean ====
section
/-! DEFINITION. Integer arithmetic, constants and moves of majors 0x00 to 0x02 (R57 to R64) and their compact forms (R32). -/

namespace Sys2Proof.Machine

/-- Shifts by a count that may reach the width or pass it (R63). -/
def shlBy {w : Nat} (x : BitVec w) (n : Nat) : BitVec w := if n < w then x <<< n else 0
def shrBy {w : Nat} (x : BitVec w) (n : Nat) : BitVec w := if n < w then x >>> n else 0
def sarBy {w : Nat} (x : BitVec w) (n : Nat) : BitVec w := if n < w then x.sshiftRight n else x.sshiftRight (w - 1)

/-- Division rounded towards zero that never faults (R64). -/
def quotS {w : Nat} (x y : BitVec w) : BitVec w := if y = 0 then BitVec.allOnes w else x.sdiv y
def quotU {w : Nat} (x y : BitVec w) : BitVec w := if y = 0 then BitVec.allOnes w else x.udiv y
def remS {w : Nat} (x y : BitVec w) : BitVec w := if y = 0 then x else x.srem y
def remU {w : Nat} (x y : BitVec w) : BitVec w := if y = 0 then x else x.umod y

/-- High halves of the signed and the unsigned product (R62). -/
def mulHigh {w : Nat} (x y : BitVec w) : BitVec w := BitVec.ofInt w (x.toInt * y.toInt / 2 ^ w)
def mulHighU {w : Nat} (x y : BitVec w) : BitVec w := BitVec.ofNat w (x.toNat * y.toNat / 2 ^ w)

def minS {w : Nat} (x y : BitVec w) : BitVec w := if x.slt y then x else y
def maxS {w : Nat} (x y : BitVec w) : BitVec w := if x.slt y then y else x
def minU {w : Nat} (x y : BitVec w) : BitVec w := if x.ult y then x else y
def maxU {w : Nat} (x y : BitVec w) : BitVec w := if x.ult y then y else x

/-- Leading zeros, trailing zeros and ones of a word (R62). -/
def leading (x : Word) : Word := if x = 0 then 64 else wd (63 - Nat.log2 x.toNat)
def trailing (x : Word) : Word := wd ((List.range 64).takeWhile (fun i => !x.getLsbD i)).length
def ones (x : Word) : Word := wd ((List.range 64).filter (fun i => x.getLsbD i)).length

/-- The low `k` bits, sign- and zero-extended (R62). -/
def sextBits (k : Nat) (x : Word) : Word := (x.setWidth k).signExtend 64
def zextBits (k : Nat) (x : Word) : Word := (x.setWidth k).setWidth 64

def execAdd (d a b : Spec) (s : State) : Out := settle s (s.alu2 4 d a b (fun x y => x + y))
def execSub (d a b : Spec) (s : State) : Out := settle s (s.alu2 4 d a b (fun x y => x - y))
def execMul (d a b : Spec) (s : State) : Out := settle s (s.alu2 4 d a b (fun x y => x * y))
def execMulh (d a b : Spec) (s : State) : Out := settle s (s.alu2 4 d a b mulHigh)
def execMulhu (d a b : Spec) (s : State) : Out := settle s (s.alu2 4 d a b mulHighU)
def execDiv (d a b : Spec) (s : State) : Out := settle s (s.alu2 4 d a b quotS)
def execDivu (d a b : Spec) (s : State) : Out := settle s (s.alu2 4 d a b quotU)
def execRem (d a b : Spec) (s : State) : Out := settle s (s.alu2 4 d a b remS)
def execRemu (d a b : Spec) (s : State) : Out := settle s (s.alu2 4 d a b remU)
def execAnd (d a b : Spec) (s : State) : Out := settle s (s.alu2 4 d a b (fun x y => x &&& y))
def execOr (d a b : Spec) (s : State) : Out := settle s (s.alu2 4 d a b (fun x y => x ||| y))
def execXor (d a b : Spec) (s : State) : Out := settle s (s.alu2 4 d a b (fun x y => x ^^^ y))
def execAndn (d a b : Spec) (s : State) : Out := settle s (s.alu2 4 d a b (fun x y => x &&& ~~~y))
def execShl (d a b : Spec) (s : State) : Out := settle s (s.alu2 4 d a b (fun x y => shlBy x y.toNat))
def execShr (d a b : Spec) (s : State) : Out := settle s (s.alu2 4 d a b (fun x y => shrBy x y.toNat))
def execSar (d a b : Spec) (s : State) : Out := settle s (s.alu2 4 d a b (fun x y => sarBy x y.toNat))
def execShli (d a : Spec) (n : BitVec 6) (s : State) : Out := settle s (s.alu1 4 d a (fun x => shlBy x n.toNat))
def execShri (d a : Spec) (n : BitVec 6) (s : State) : Out := settle s (s.alu1 4 d a (fun x => shrBy x n.toNat))
def execSari (d a : Spec) (n : BitVec 6) (s : State) : Out := settle s (s.alu1 4 d a (fun x => sarBy x n.toNat))
def execMin (d a b : Spec) (s : State) : Out := settle s (s.alu2 4 d a b minS)
def execMax (d a b : Spec) (s : State) : Out := settle s (s.alu2 4 d a b maxS)
def execMinu (d a b : Spec) (s : State) : Out := settle s (s.alu2 4 d a b minU)
def execMaxu (d a b : Spec) (s : State) : Out := settle s (s.alu2 4 d a b maxU)
def execClz (d a : Spec) (s : State) : Out := settle s (s.alu1 4 d a leading)
def execCtz (d a : Spec) (s : State) : Out := settle s (s.alu1 4 d a trailing)
def execPopc (d a : Spec) (s : State) : Out := settle s (s.alu1 4 d a ones)
def execLeaS2 (d a b : Spec) (s : State) : Out := settle s (s.alu2 4 d a b (fun x y => x + y <<< 1))
def execLeaS4 (d a b : Spec) (s : State) : Out := settle s (s.alu2 4 d a b (fun x y => x + y <<< 2))
def execLeaS8 (d a b : Spec) (s : State) : Out := settle s (s.alu2 4 d a b (fun x y => x + y <<< 3))
def execLeaS16 (d a b : Spec) (s : State) : Out := settle s (s.alu2 4 d a b (fun x y => x + y <<< 4))
def execSext (d a : Spec) (k : BitVec 6) (s : State) : Out := settle s (s.alu1 4 d a (sextBits k.toNat))
def execZext (d a : Spec) (k : BitVec 6) (s : State) : Out := settle s (s.alu1 4 d a (zextBits k.toNat))

def execAddI32 (d a b : Spec) (s : State) : Out := settle s (s.alu2 4 d a b (on32 (fun x y => x + y)))
def execSubI32 (d a b : Spec) (s : State) : Out := settle s (s.alu2 4 d a b (on32 (fun x y => x - y)))
def execMulI32 (d a b : Spec) (s : State) : Out := settle s (s.alu2 4 d a b (on32 (fun x y => x * y)))
def execMulhI32 (d a b : Spec) (s : State) : Out := settle s (s.alu2 4 d a b (on32 mulHigh))
def execMulhuI32 (d a b : Spec) (s : State) : Out := settle s (s.alu2 4 d a b (on32 mulHighU))
def execDivI32 (d a b : Spec) (s : State) : Out := settle s (s.alu2 4 d a b (on32 quotS))
def execDivuI32 (d a b : Spec) (s : State) : Out := settle s (s.alu2 4 d a b (on32 quotU))
def execRemI32 (d a b : Spec) (s : State) : Out := settle s (s.alu2 4 d a b (on32 remS))
def execRemuI32 (d a b : Spec) (s : State) : Out := settle s (s.alu2 4 d a b (on32 remU))
def execAndI32 (d a b : Spec) (s : State) : Out := settle s (s.alu2 4 d a b (on32 (fun x y => x &&& y)))
def execOrI32 (d a b : Spec) (s : State) : Out := settle s (s.alu2 4 d a b (on32 (fun x y => x ||| y)))
def execXorI32 (d a b : Spec) (s : State) : Out := settle s (s.alu2 4 d a b (on32 (fun x y => x ^^^ y)))
def execAndnI32 (d a b : Spec) (s : State) : Out := settle s (s.alu2 4 d a b (on32 (fun x y => x &&& ~~~y)))
def execShlI32 (d a b : Spec) (s : State) : Out := settle s (s.alu2 4 d a b (on32 (fun x y => shlBy x y.toNat)))
def execShrI32 (d a b : Spec) (s : State) : Out := settle s (s.alu2 4 d a b (on32 (fun x y => shrBy x y.toNat)))
def execSarI32 (d a b : Spec) (s : State) : Out := settle s (s.alu2 4 d a b (on32 (fun x y => sarBy x y.toNat)))
def execShliI32 (d a : Spec) (n : BitVec 5) (s : State) : Out :=
  settle s (s.alu1 4 d a (on32u (fun x => shlBy x n.toNat)))
def execShriI32 (d a : Spec) (n : BitVec 5) (s : State) : Out :=
  settle s (s.alu1 4 d a (on32u (fun x => shrBy x n.toNat)))
def execSariI32 (d a : Spec) (n : BitVec 5) (s : State) : Out :=
  settle s (s.alu1 4 d a (on32u (fun x => sarBy x n.toNat)))
def execMinI32 (d a b : Spec) (s : State) : Out := settle s (s.alu2 4 d a b (on32 minS))
def execMaxI32 (d a b : Spec) (s : State) : Out := settle s (s.alu2 4 d a b (on32 maxS))
def execMinuI32 (d a b : Spec) (s : State) : Out := settle s (s.alu2 4 d a b (on32 minU))
def execMaxuI32 (d a b : Spec) (s : State) : Out := settle s (s.alu2 4 d a b (on32 maxU))

/-- R58. -/
def execAddi (d a : Spec) (i : BitVec 13) (s : State) : Out := settle s (s.alu1 4 d a (fun x => x + i.signExtend 64))
/-- R57. -/
def execLui (d : Spec) (i : BitVec 19) (s : State) : Out := settle s (s.put 4 d (scalar (i.signExtend 64 <<< 13)))

/-- The register that a 3-bit field names (R32). -/
def cReg (r : CReg) : Spec := if r = 7 then 0 else Fin.ofNat 64 (8 + r.val)

def execCAdd (w : Bool) (b a d : CReg) (s : State) : Out :=
  settle s (s.alu2 2 (cReg d) (cReg a) (cReg b) (if w then on32 (fun x y => x + y) else fun x y => x + y))
def execCSub (w : Bool) (b a d : CReg) (s : State) : Out :=
  settle s (s.alu2 2 (cReg d) (cReg a) (cReg b) (if w then on32 (fun x y => x - y) else fun x y => x - y))
/-- All 128 bits move: dir 00 from m to d, dir 01 from d to m (R32, R60). -/
def execCMov (r : Bool) (m : Spec) (d : CReg) (s : State) : Out :=
  settle s (do
    let x ← s.readReg (if r then cReg d else m)
    s.put 2 (if r then m else cReg d) x)
def execCAddi (i : BitVec 5) (a d : CReg) (s : State) : Out :=
  settle s (s.alu1 2 (cReg d) (cReg a) (fun x => x + i.signExtend 64))
def execCLi (i : BitVec 8) (d : CReg) (s : State) : Out := settle s (s.put 2 (cReg d) (scalar (i.signExtend 64)))

end Sys2Proof.Machine
end

