-- ==== Sys2Proof/Machine/LoadStore.lean ====
section
/-! DEFINITION. Loads and stores of majors 0x06 and 0x07 with their compact forms (R170, R171), atomics of major 0x08 (R177,
R178), extension registers of major 0x1D (R41). -/

namespace Sys2Proof.Machine

/-- The address of an M-format word (R171). -/
def mAddr (base : Word) (off : BitVec 10) (n : Nat) : Word := base + off.signExtend 64 * wd n

/-- A load of `n` bytes at an address (R171). -/
def State.load (s : State) (len : Nat) (t : Spec) (signed : Bool) (n : Nat) (va : Word) : Res := do
  let (loc, s') ← s.access s.cur .read true va n
  s'.issueLoad len t (s'.newAcc (.load signed) va n loc)

/-- A load in M format. -/
def State.ld (s : State) (t b : Spec) (off : BitVec 10) (signed : Bool) (n : Nat) : Res := do
  let base ← s.read64 b
  s.load 4 t signed n (mAddr base off n)

/-- A store of the low `n` bytes of a register at an address (R171). -/
def State.store (s : State) (len : Nat) (v : Reg) (n : Nat) (va : Word) : Res := do
  let (loc, s') ← s.access s.cur .write true va n
  s'.orderedPlace loc va
  s'.issueStore len { s'.newAcc .store va n loc with data := v.setWidth 256 }

/-- A store in M format. -/
def State.st (s : State) (t b : Spec) (off : BitVec 10) (n : Nat) : Res := do
  let (v, base) ← s.read2 t b
  s.store 4 v n (mAddr (lo64 base) off n)

def execLdN8 (t b : Spec) (o : BitVec 10) (s : State) : Out := settle s (s.ld t b o false 1)
def execLdN16 (t b : Spec) (o : BitVec 10) (s : State) : Out := settle s (s.ld t b o false 2)
def execLdN32 (t b : Spec) (o : BitVec 10) (s : State) : Out := settle s (s.ld t b o false 4)
def execLd64 (t b : Spec) (o : BitVec 10) (s : State) : Out := settle s (s.ld t b o false 8)
def execLdI8 (t b : Spec) (o : BitVec 10) (s : State) : Out := settle s (s.ld t b o true 1)
def execLdI16 (t b : Spec) (o : BitVec 10) (s : State) : Out := settle s (s.ld t b o true 2)
def execLdI32 (t b : Spec) (o : BitVec 10) (s : State) : Out := settle s (s.ld t b o true 4)
def execLdV (t b : Spec) (o : BitVec 10) (s : State) : Out := settle s (s.ld t b o false 16)
def execSt8 (t b : Spec) (o : BitVec 10) (s : State) : Out := settle s (s.st t b o 1)
def execSt16 (t b : Spec) (o : BitVec 10) (s : State) : Out := settle s (s.st t b o 2)
def execSt32 (t b : Spec) (o : BitVec 10) (s : State) : Out := settle s (s.st t b o 4)
def execSt64 (t b : Spec) (o : BitVec 10) (s : State) : Out := settle s (s.st t b o 8)
def execStV (t b : Spec) (o : BitVec 10) (s : State) : Out := settle s (s.st t b o 16)

/-- `ld.64` or `ld.v` with an unsigned offset scaled by 8 or 16 (R32). -/
def execCLd (z : Bool) (o : BitVec 4) (b t : CReg) (s : State) : Out :=
  settle s (do
    let n := if z then 16 else 8
    let base ← s.read64 (cReg b)
    s.load 2 (cReg t) false n (base + wd (o.toNat * n)))

def execCSt (z : Bool) (o : BitVec 4) (b t : CReg) (s : State) : Out :=
  settle s (do
    let n := if z then 16 else 8
    let (v, base) ← s.read2 (cReg t) (cReg b)
    s.store 2 v n (lo64 base + wd (o.toNat * n)))

/-! ### Atomics -/

/-- An atomic of 4 or 8 bytes (R177): the checks of R159 and of its target (R178); an order other than `.rlx` ends the region
(R196), and the atomic is checked in the region that starts with it (R197; log entry 120). -/
def State.amo (s : State) (op : RmwOp) (t b : Spec) (ord : MOrd) (scope : Scope) (size : Bool) : Res := do
  let (v, base) ← s.read2 t b
  let va := lo64 base
  let n := if size then 8 else 4
  let (loc, s') ← s.access s.cur .rmw false va n
  s'.orderedPlace loc va
  let isHost := locTag loc == 1 && hostScope scope
  let routed := match op with
    | .swap | .add | .cas => s'.hub.aop
    | _ => false
  if isHost && !routed then .error (.kept s' { code := Code.atomicTarget, addr := va })
  let a := { s'.newAcc (.rmw op) va n loc with data := v.setWidth 256, ord, scope }
  if ord = .rlx then s'.issueLoad 4 t a
  else do
    let s' ← s'.regionEnd
    s'.issueLoad 4 t { a with region := s'.me.region }

def execAmoSwap (t b : Spec) (o : MOrd) (c : Scope) (z : Bool) (s : State) : Out := settle s (s.amo .swap t b o c z)
def execAmoAdd (t b : Spec) (o : MOrd) (c : Scope) (z : Bool) (s : State) : Out := settle s (s.amo .add t b o c z)
def execAmoAnd (t b : Spec) (o : MOrd) (c : Scope) (z : Bool) (s : State) : Out := settle s (s.amo .and t b o c z)
def execAmoOr (t b : Spec) (o : MOrd) (c : Scope) (z : Bool) (s : State) : Out := settle s (s.amo .or t b o c z)
def execAmoXor (t b : Spec) (o : MOrd) (c : Scope) (z : Bool) (s : State) : Out := settle s (s.amo .xor t b o c z)
def execAmoMin (t b : Spec) (o : MOrd) (c : Scope) (z : Bool) (s : State) : Out := settle s (s.amo .min t b o c z)
def execAmoMax (t b : Spec) (o : MOrd) (c : Scope) (z : Bool) (s : State) : Out := settle s (s.amo .max t b o c z)
def execAmoMinu (t b : Spec) (o : MOrd) (c : Scope) (z : Bool) (s : State) : Out := settle s (s.amo .minu t b o c z)
def execAmoMaxu (t b : Spec) (o : MOrd) (c : Scope) (z : Bool) (s : State) : Out := settle s (s.amo .maxu t b o c z)
def execAmoFadd (t b : Spec) (o : MOrd) (c : Scope) (z : Bool) (s : State) : Out := settle s (s.amo .fadd t b o c z)
def execCas (t b : Spec) (o : MOrd) (c : Scope) (z : Bool) (s : State) : Out := settle s (s.amo .cas t b o c z)

/-! ### Extension registers (R41) -/

/-- Load `k` extension registers from register `n` on; the context stalls until the data is there. -/
def State.xload (s : State) (n k : Nat) (a : Spec) (off : Nat) : Res := do
  let base ← s.read64 a
  let va := base + wd off
  let (loc, s') ← s.access s.cur .read (k == 1) va (8 * k)
  let id := s'.nextId
  let s' := s'.file (s'.newAcc (.xld n) va (8 * k) loc)
  let s' := s'.fin 4
  pure (s'.setMe { s'.me with wait := .access id })

/-- Store `k` extension registers from register `n` on. -/
def State.xstore (s : State) (n k : Nat) (a : Spec) (off : Nat) : Res := do
  let base ← s.read64 a
  let va := base + wd off
  let (loc, s') ← s.access s.cur .write (k == 1) va (8 * k)
  s'.orderedPlace loc va
  let x := s'.me.x
  let v := (List.range k).foldl (fun (v : Nat) i => v + ((x[n + i]?).getD 0).toNat * 2 ^ (64 * i)) 0
  s'.issueStore 4 { s'.newAcc .store va (8 * k) loc with data := BitVec.ofNat 256 v }

def execXld (n : XNo) (a : Spec) (o : BitVec 6) (s : State) : Out := settle s (s.xload n.val 1 a (8 * o.toNat))
def execXld4 (a : Spec) (o : BitVec 6) (s : State) : Out := settle s (s.xload 0 4 a (32 * o.toNat))
def execXst (n : XNo) (a : Spec) (o : BitVec 6) (s : State) : Out := settle s (s.xstore n.val 1 a (8 * o.toNat))
def execXst4 (a : Spec) (o : BitVec 6) (s : State) : Out := settle s (s.xstore 0 4 a (32 * o.toNat))

/-- A register into an extension register, as a word of `len` bytes. -/
def State.xmove (s : State) (len : Nat) (n : XNo) (a : Spec) : Res := do
  let v ← s.read64 a
  pure ((s.setMe { s.me with x := s.me.x.set n v }).fin len)

def execXmv (n : XNo) (a : Spec) (s : State) : Out := settle s (s.xmove 4 n a)
def execCXmv (m : Spec) (x : XNo) (s : State) : Out := settle s (s.xmove 2 x m)
def execXrd (d : Spec) (n : XNo) (s : State) : Out := settle s (s.put 4 d (scalar s.me.x[n]))

end Sys2Proof.Machine
end

