-- ==== Sys2Proof/Machine/Bank.lean ====
section
/-! DEFINITION. Bank-decoded loads and stores of major 0x09 (R173 to R176). Each is one step with respect to the scratchpad; it
comes after the context's own outstanding accesses to that scratchpad (log entry 22). -/

namespace Sys2Proof.Machine

/-- What lanes of 16 bits hold (R174): copied encodings, BF16, or 16-bit integers. -/
inductive LaneKind where
  | copied | bf | int
  deriving DecidableEq, Repr

def laneKind (v : Nat) : LaneKind :=
  let e := bfElem v
  if fmtI4o e then .bf
  else if fmtInt e then (if bfBlk v = 0 then .int else .bf)
  else if bfBlk v = 0 ∧ (e = 0x37F1E0 ∨ e = 0x30F294) then .copied else .bf

/-- A bank cursor that has passed its checks: bank, its format, the first byte and the length of what holds the eight
elements, and the first element within it (R173, R108). -/
structure Cursor where
  bank : Nat
  v : Nat
  off : Nat
  len : Nat
  first : Nat
  deriving DecidableEq, Repr

/-- The bytes that hold elements 8 * g to 8 * g + 7 under format `v`: offset, length, place of the first element. -/
def elemSpan (v g : Nat) : Nat × Nat × Nat :=
  let bl := bfBlockLen v
  if bl = 0 then (g * fmtWidth (bfElem v), fmtWidth (bfElem v), 0)
  else (8 * g / bl * bfStride v, bfStride v, 8 * g % bl)

/-- The checks of a cursor (R173, R176): the group's banks (R357), bank-cursor, bank-range, format-use. -/
def State.cursor (s : State) (c : Word) : Except Stop Cursor := do
  let bank := wbits c 17 3
  if !s.bankOpen s.cur bank then .error (fltA Code.bankBudget (wd (nearBase + 16384 * bank)))
  if c.toNat / 2 ^ 20 ≠ 0 ∨ c.toNat % 16 ≠ 0 then .error (fltS Code.bankCursor c)
  let v := ((s.core (coreOf s.cur)).bf[bank]?).getD 0
  let (off, len, first) := elemSpan v.toNat (wbits c 4 13)
  if v ≠ 0 ∧ 16384 < off + len then .error (fltS Code.bankRange c)
  if v = 0 then .error (.flt { code := Code.formatUse, syn := v, detail := 20 + bank })
  pure { bank, v := v.toNat, off, len, first }

/-- Location and address of a byte of a bank of the running core. -/
def State.bankLoc (s : State) (bank off : Nat) : Nat := locIn tagScratch (coreOf s.cur * 0x20000 + 16384 * bank + off)
def bankVa (bank off : Nat) : Word := wd (nearBase + 16384 * bank + off)

/-- An own access to the core's scratchpad is outstanding, or an acquire atomic, behind which nothing is performed (R186). -/
def State.scratchBusy (s : State) : Bool := s.anyAcc (fun a => locTag a.loc == tagScratch || isAcq a.ord)

def State.myReader (s : State) : Reader := { launch := s.me.launchNo, grp := s.me.grp, place := s.cur }

/-- Read the bytes of a span of a bank; poison is a precise fault (R212). -/
def State.bankRead (s : State) (bank off n : Nat) : Except Stop (List Byte × State) :=
  let cls := s.effClass s.cur
  match s.readSpan cls s.myReader (n + 1) (s.bankLoc bank off) n with
  | (.ok bs, s) => .ok (bs, s)
  | (.error (_, f), s) =>
    .error (.hold (s.takeFault { code := Code.poison, addr := bankVa bank off, syn := wd (cls + if f then 4 else 0), mcls := some cls }))

/-- The bank's bytes as read, for `rawBlock`: a span, and the scale byte of a table. -/
def spanByte (bs : List Byte) (off : Nat) (sc : List Byte) (o : Nat) : Nat :=
  if off ≤ o ∧ o < off + bs.length then ((bs[o - off]?).getD 0).toNat else ((sc[0]?).getD 0).toNat

/-- Offset of a block's scale byte in the table (R108). -/
def scaleOff (v off : Nat) : Nat := 64 * bfTso v + off / bfStride v

/-- The block or the run at a cursor, as stored. -/
def State.rawAt (s : State) (c : Cursor) : Except Stop (RawBlock × State) := do
  let (bs, s) ← s.bankRead c.bank c.off c.len
  if bfBlockLen c.v = 0 then
    pure ({ scale := 127, oe := 0, codes := codesOf (leNat bs) 0 (fmtWidth (bfElem c.v)) 8, idx := none }, s)
  else if bfBlk c.v ≠ 0 ∧ bfSp c.v then do
    let (sc, s) ← s.bankRead c.bank (scaleOff c.v c.off) 1
    pure (rawBlock c.v (spanByte bs c.off sc) c.off, s)
  else pure (rawBlock c.v (spanByte bs c.off []) c.off, s)

/-- Eight elements from place `k` of a list. -/
def eight {α : Type} (k : Nat) (xs : List α) : List α := (xs.drop k).take 8

/-- One lane of `lds` (R175): a value rounded to BF16; NaNs raise no flag (R115). -/
def ldsLane (x : Val) (p : Fp) : Nat × Fp := roundE bf16 x p

/-- `lds` (R175). -/
def execLds (d a : Spec) (i : BitVec 6) (s : State) : Out :=
  settle s (do
    let base ← s.read64 a
    if 63 ≤ s.me.cld then .error .wait
    let c ← s.cursor (base + wd (16 * i.toNat))
    if s.scratchBusy then .error .wait
    let (r, s) ← s.rawAt c
    match blockVals c.v r with
    | none => .error (.hold (s.takeFault { code := Code.formatData, addr := bankVa c.bank c.off }))
    | some vals =>
      let vs := eight c.first vals
      let s := if r.scale = 255 then s.setMe (s.me.raise fNv) else s
      match laneKind c.v with
      | .copied => s.put 4 d (ofLanes 16 (eight c.first (blockCodes r)))
      | .int =>
        let xs := vs.map (fun v => match v with
          | .fin g n _ k => ofInt 16 ((if g then -1 else 1) * ((n * 2 ^ k.toNat : Nat) : Int))
          | _ => 0)
        s.put 4 d (ofLanes 16 xs)
      | .bf =>
        let (xs, p) := lanesFp (fun j p => ldsLane ((vs[j]?).getD (.zero false)) p) 8 0 s.fp
        (s.withFp p).put 4 d (ofLanes 16 xs))

/-- Values of the lanes that `sts` stores (R174, R176). -/
def stsVals (v : Nat) (x : Reg) : List Val :=
  (List.range 8).map (fun i =>
    let c := lane 16 x i
    match laneKind v with
    | .copied => (eFmt (bfElem v)).decode c
    | .bf => decodeF bf16 c
    | .int => Val.ofInt (if fmtWidth (bfElem v) = 16 ∧ bits (bfElem v) 23 1 = 0 then (c : Int) else toInt 16 c))

/-- Write bytes of a bank; a granule that refuses them makes it a failed store (R176, R216). -/
def State.bankWrite (s : State) (bank off : Nat) (bs : List Byte) (va : Word) : State :=
  let old := s
  match s.writeSpan (s.effClass s.cur) s.myReader (bs.length + 1) (s.bankLoc bank off) bs with
  | (none, s) => s.keepScratch old s.cur s.me.entry? (s.bankLoc bank off) bs.length
  | (some _, s) =>
    let a := s.newAcc .store va 1 0
    (s.setMe (s.me.noteFail s.nextId a (s.effClass s.cur))).bump

/-- `sts` (R176): in place in an unblocked bank; through the quantiser in a blocked one. -/
def execSts (t a : Spec) (i : BitVec 6) (s : State) : Out :=
  settle s (do
    let (x, base) ← s.read2 t a
    if 63 ≤ s.me.cst then .error .wait
    let c ← s.cursor (lo64 base + wd (16 * i.toNat))
    if bfSpar c.v ≠ 0 then .error (.flt { code := Code.formatUse, syn := wd c.v, detail := 20 + c.bank })
    if s.scratchBusy then .error .wait
    let vs := stsVals c.v x
    let el := eFmt (bfElem c.v)
    let va := bankVa c.bank c.off
    if bfBlockLen c.v = 0 then
      let r := encElems el false 0 vs s.fp
      pure (((s.withFp r.fp).bankWrite c.bank c.off (leBytes c.len (packCodes el.w r.codes)) va).fin 4)
    else
      match s.rawAt c with
      | .error _ =>
        -- an uncorrectable or poisoned granule of the block: the store fails (R215)
        let a := s.newAcc .store va 1 0
        let s := (s.readSpan (s.effClass s.cur) s.myReader (c.len + 1) (s.bankLoc c.bank c.off) c.len).2
        pure (((s.setMe (s.me.noteFail s.nextId a (s.effClass s.cur))).bump).fin 4)
      | .ok (r, s) =>
        let old := scaledVals c.v r
        let new := old.take c.first ++ vs ++ old.drop (c.first + 8)
        let q := quantise el new none s.fp
        let s := s.withFp (if q.sat then q.fp.raise fSat else q.fp)
        let s := s.bankWrite c.bank c.off (blockBytes c.v q.scale q.oe q.codes) va
        let s := if bfSp c.v then s.bankWrite c.bank (scaleOff c.v c.off) (leBytes 1 (q.scale + 127).toNat) va else s
        pure (s.fin 4))

end Sys2Proof.Machine
end

