-- ==== Sys2Proof/Machine/Fetch.lean ====
section
/-! DEFINITION. Fetching a word (R26, R27, R47, R48, R77), which instructions need privilege (R44), and telling apart the rows
of the table that share one word (R233, R373, R390, R424). -/

namespace Sys2Proof.Machine

/-- Bytes of a code message at an address of its range (R77). -/
def codeBytes (b : Word) (code : List Byte) (pc : Word) : Option (List Byte) :=
  if b.toNat ≤ pc.toNat ∧ pc.toNat < b.toNat + 48 then some (code.drop (pc.toNat - b.toNat)) else none

/-- The first halfword of a run of bytes opens a 32-bit word (R26). -/
def isLong (bs : List Byte) : Bool := leNat (bs.take 1) % 4 == 3

/-- A line is fetched: the home serves it (R195), and for an ordered task the fetch is checked and recorded as a read (R256, R258). -/
def State.codeLine (s : State) (p loc : Nat) (pc : Word) : Except Stop State :=
  if (s.thread p).ordered || s.engineLine (loc / 32) then
    match ({ s with cur := p } : State).homeNow loc pc false false with
    | .ok t => .ok { t with cur := s.cur }
    | e => e
  else .ok s

/-- Fetch from memory: only translated space is leased for execution (R228). -/
def State.fetchMem (s : State) (p : Nat) (pc : Word) : Except Stop (List Byte × State) := do
  if !formOk pc then .error (fltA Code.addressForm pc)
  if nearBase ≤ pc.toNat then .error (fltA Code.lease pc)
  let (loc, s) ← s.translate p .fetch pc
  if s.pathWaits s.cur loc then .error .wait
  let t := s.thread p
  let s ← s.codeLine p loc pc
  let s ← if loc % 32 = 30 ∧ loc % 64 ≠ 62 ∧ isLong (s.bytesAt loc 2) then s.codeLine p (loc + 2) pc else pure s
  let cls := s.locClass loc
  match s.checkGran loc cls { launch := t.launchNo, grp := t.grp, place := p } with
  | (.bad f, s) =>
    .error (.hold (s.takeFaultAt p t.ipc { code := Code.poison, addr := pc, syn := wd (cls + if f then 4 else 0), mcls := some cls }))
  | (o, s) =>
    let lo := o.apply loc (s.bytesAt loc 2)
    if isLong lo then
      if pc.toNat % 64 = 62 then .error (fltA Code.fetchStraddle pc)
      else pure (o.apply loc (s.bytesAt loc 4), s)
    else pure (lo, s)

/-- Fetch the word at the pc of the context at `p`: from the code message it runs, or from memory (R27, R77). The answer holds
2 or 4 bytes. -/
def State.fetchBytes (s : State) (p : Nat) : Except Stop (List Byte × State) := do
  let t := s.thread p
  let pc := t.pc
  if pc.getLsbD 0 then .error (fltA Code.branchTarget pc)
  match t.task.bind (·.code) with
  | some (b, code) =>
    match codeBytes b code pc with
    | some bs =>
      if isLong bs && decide (pc.toNat = b.toNat + 46) then .error (fltA Code.fetchStraddle pc)
      else pure (bs.take (if isLong bs then 4 else 2), s)
    | none => s.fetchMem p pc
  | none => s.fetchMem p pc

/-- The context at `p` may issue, or take up what it is held on (R74, R80, R81, R371). -/
def State.canRun (s : State) (p : Nat) : Bool :=
  let t := s.thread p
  let k := s.core (coreOf p)
  s.hub.phase == 2 && !s.hub.fatal.getLsbD 63 && !s.hub.frozen && !k.hlt && t.task.isSome &&
    (t.state == .ready || t.state == .saving || t.state == .blocked) &&
    (match t.wait with
      | .none | .answer _ _ | .xq _ _ _ _ _ _ | .send _ _ | .slot _ => true
      | .fault _ _ => !t.speculative
      | .walk _ | .pager _ _ | .dirty _ | .launch _ _ _ | .queue _ _ | .access _ | .frontier => false)

/-- Instructions marked privileged in the map (R44). -/
def privilegedInstr : Instr → Bool
  | .tlbWr _ _ | .tlbInvPage _ _ | .tlbInvContext _ _ | .tlbInvAll _ _ | .tlbPrb _ _ _ | .pgWake _ _ _ | .dlHv _ _ _
  | .errInj _ _ | .ctxSv _ _ _ | .ctxLdCreate _ _ | .ctxLdUpdate _ _ | .ctxLdDestroy _ _
  | .queSubRegister _ _ _ | .queSubUnregister _ _ _ | .queSubResume _ _ _ | .slotMap _ _ | .slotUnm _ _ | .slotRd _ _
  | .dlogWr _ _ | .dlogRd _ _ | .dbgStopStop _ _ | .dbgStopGo _ _ | .dbgStopStep _ _ => true
  | _ => false

/-- Bits of a register operand, if it can be read now. -/
def State.peek (s : State) (r : Spec) (lo n : Nat) : Nat :=
  match s.read64 r with
  | .ok v => wbits v lo n
  | .error _ => 0

/-- The row of the table that a word is, where an operand decides between rows of one word. -/
noncomputable def State.refine (s : State) (i : Instr) : Instr :=
  match i with
  | .tlbInvPage a b => match s.peek b 18 2 with | 1 => .tlbInvContext a b | 2 => .tlbInvAll a b | _ => i
  | .ctxLdCreate a b => match s.peek a 12 2 with | 1 => .ctxLdUpdate a b | 2 => .ctxLdDestroy a b | _ => i
  | .queSubRegister d a b => match s.peek b 12 2 with | 1 => .queSubUnregister d a b | 2 => .queSubResume d a b | _ => i
  | .dbgStopStop a b => match s.peek b 0 2 with | 1 => .dbgStopGo a b | 2 => .dbgStopStep a b | _ => i
  | i => i

/-- Place 0 runs a code message at 0x1000 whose first bytes are given and whose others are 0: bound to the firmware context,
under no launch, boot being over (R77; log entry 19). -/
def State.placeWord (s : State) (bs : List Byte) : State :=
  let t := s.thread 0
  let code := bs ++ List.replicate (48 - bs.length) 0
  let task : Task := { ctx := 0, launch := none, kind := 3, entry := none, irrev := false, code := some (0x1000, code),
                       arrival := s.cyc, admitted := s.cyc, slot := 0 }
  { s with hub := { s.hub with phase := 2 }, cur := 0, agenda := [.run 0], ctxs := Tab.put s.ctxs 0 Ctx.firmware,
           threads := Tab.put s.threads 0 { t with state := .ready, task := some task, pc := 0x1000, h0 := mkH0 3 0 0x1000 } }

end Sys2Proof.Machine
end

