-- ==== Sys2Proof/Machine/Serve.lean ====
section
/-! DEFINITION. Steps of the memory system that have no encoding: requests at a home and their completion (R162, R165, R172), fetch
(R27), scrubbing and class changes (R210, R214), and table walks (R229, R230). -/

namespace Sys2Proof.Machine

/-! ### Fetch -/

/-- INSTRUCTION_FETCH: the fetch of the context's next word, with the faults and the miss of it. -/
def execInstructionFetch (place : Nat) (s : State) : Out :=
  if s.canRun place then
    let s : State := { s with cur := place }
    if s.me.state = .blocked then .next s
    else match s.fetchBytes place with
      | .ok (_, s) => .next s
      | .error e => settle s (.error e)
  else .next s

/-! ### Accesses (R82, R172) -/

/-- The access writes its location and returns no value. -/
def AccKind.mute : AccKind → Bool
  | .store | .wide _ _ | .inj _ _ _ | .cwb _ | .pf _ => true
  | _ => false

/-- LOAD_VALUE_RETURN. -/
def execLoadValueReturn (acc : Nat) (s : State) : Out :=
  match Tab.get? s.acc acc with
  | some a => .next (if a.kind.mute then s else s.performAcc acc)
  | none => .next s

/-- STORE_PERFORMED. -/
def execStorePerformed (acc : Nat) (s : State) : Out :=
  match Tab.get? s.acc acc with
  | some a => .next (if a.kind.mute then s.performAcc acc else s)
  | none => .next s

/-! ### The home (R162, R165) -/

/-- A core's L1 gives up a line whose bits are set: its region filter keeps them, or they are dropped and counted, and detection on
the line lapses for the rest of those regions (R165, R199). -/
def State.keepBits (s : State) (c line : Nat) : State :=
  let ms := (Tab.getD s.marks line []).filter (fun m => coreOf m.place == c)
  if ms.isEmpty then s
  else
    let k := s.core c
    let lines := (k.filter.map (·.1)).eraseDups
    if lines.contains line || decide (lines.length < 64) then
      let new := (ms.map (fun m => (line, m.place))).filter (fun e => !k.filter.contains e)
      s.setCore c { k with filter := k.filter ++ new }
    else
      let rest := (Tab.getD s.marks line []).filter (fun m => coreOf m.place != c)
      let s := s.setCore c { k with raceLoss := satAt (2 ^ 64 - 1) (k.raceLoss + 1), dropped := k.dropped ++ ms.map (fun m => (line, m.place)) }
      { s with marks := if rest.isEmpty then Tab.del s.marks line else Tab.put s.marks line rest }

/-- Core `c` stays recorded as a holder of a line that its L1 gives up: its region filter keeps bits of it (R200), or its streaming
buffer holds its block (R182). -/
def State.stillHolder (s : State) (c line : Nat) : Bool :=
  let k := s.core c
  k.filter.any (fun e => e.1 == line) || k.sb.contains (line / 8)

/-- A core's L1 evicts a line that it holds. -/
def State.evictL1 (s : State) (c line : Nat) : State :=
  if !s.holdsLine line c then s
  else
    let s := s.keepBits c line
    if s.stillHolder c line then s else s.dropHolder c line

/-- A line leaves the L2: every L1 copy is invalidated first, and dirty data goes back (R156, R162). A line that an engine holds
stays until its release (R164). -/
def State.evictL2 (s : State) (line : Nat) : State :=
  match Tab.getD s.dir line .uncached with
  | .engine _ _ => s
  | _ =>
    let cores := ((Tab.getD s.marks line []).map (fun m => coreOf m.place)).eraseDups
    let s := cores.foldl (fun s c => s.keepBits c line) s
    let kept := cores.filter (fun c => (s.core c).filter.any (fun e => e.1 == line))
    let s := s.recall line
    let s := if kept.isEmpty then s else s.shareLine line kept
    if isRemote (line * 32) then s.dropCopy line else if locTag (line * 32) = 0 then s.writeBackL2 (line * 32) else s

/-- A line of a row that has a tag, while the row lines of the slice that homes the line fit in their 1 MiB (R339; log entry 42). -/
def State.rowLine (s : State) (line : Nat) : Bool :=
  let lines := (s.clus.flatMap (fun c => c.2.rowTags.flatMap (fun g => g.lines)))
  let home := s.homeSlice (line * 32)
  lines.contains line && decide ((lines.filter (fun l => s.homeSlice (l * 32) == home)).length ≤ 0x8000)

/-- HOME_REQUEST: one request for a line. Replacement evicts no row line (R339). -/
def execHomeRequest (req : HomeReq) (s : State) : Out :=
  .next (if s.hub.frozen then s else match req with
    | .access id => s.startAcc id
    | .evict c line => s.evictL1 c line
    | .l2Evict line => if covered (line * 32) && locTag (line * 32) != tagShared && !s.rowLine line then s.evictL2 line else s)

/-! ### Scrub and class changes (R210, R214) -/

/-- SCRUB_READ: a granule of a class-full frame is read, corrected or poisoned; the device counts it. -/
def State.scrub (s : State) (pa : Nat) : State :=
  let loc := locIn 0 pa
  let g := loc / 64
  if 2 ^ 64 ≤ pa ∨ s.homeWaits loc ∨ s.frameClass pa ≠ 0 ∨ (s.granule g).poison then s
  else
    let k := s.granule g
    match classify g 0 k.hbm with
    | .corrected => (s.setGran g { k with hbm := [] }).charge none 0 0
    | .miscorrected =>
      let s := if k.l2Dirty then s else s.putBytes (g * 64) ((GOut.altered k.hbm).apply (g * 64) (s.bytesAt (g * 64) 64))
      (s.setGran g { k with hbm := [] }).charge none 0 0
    | .detected => (s.setGran g { k with hbm := [], poison := true }).chargeBad none 0 0
    | _ => s

def execScrubRead (pa : Nat) (s : State) : Out := .next (s.scrub pa)

/-- CLS_BLK_WRITE. -/
def execClsBlkWrite (j : Nat) (v : BitVec 64) (s : State) : Out := .next (if j < 9216 then s.clsWrite j v else s)

/-- CLASS_CLEAR_DONE: the cleared frames may be accessed. -/
def execClassClearDone (s : State) : Out := .next (s.setHub { s.hub with busy := [] })

/-! ### Walks (R229) -/

/-- Inbox entries of a core in use (R75): a running code message holds its own (R77), and at a service core each miss that waits for a
walk context (R229). -/
def State.inboxUsed (s : State) (c : Nat) : Nat :=
  (s.core c).inbox.length + (s.threads.filter (fun e => coreOf e.1 == c && (e.2.task.bind (·.code)).isSome)).length +
    (s.walks.filter (fun e => e.2.queued && coreOf (placeOf (walkCluster e.2.cl) 16 0) == c)).length

/-- The walk that a place waits on. -/
def State.walkOf (s : State) (p : Nat) : Option (Nat × Walk) := s.walks.find? (fun e => e.2.places.contains p)

/-- TLB_MISS: a miss joins a walk of its page, takes one of eight walk contexts, or waits for one in the service core's inbox; while that
is full it is held at its sender (R76). -/
def State.tlbMiss (s : State) (p : Nat) : State :=
  let t := s.thread p
  match t.wait, s.walkOf p with
  | .walk va, none =>
    let cl := walkCluster (cluOfPlace p)
    let vpn := va.toNat / 0x10000
    if !s.serves cl then s
    else match s.walks.find? (fun e => e.2.cl == cl && e.2.ctx == t.ctxNo && e.2.vpn == vpn && !e.2.queued) with
      | some (k, w) => { s with walks := Tab.put s.walks k { w with places := w.places ++ [p] } }
      | none =>
        let busy := s.busyWalks cl
        if 8 ≤ busy ∧ 32 ≤ s.inboxUsed (coreOf (placeOf cl 16 0)) then s else
        ({ s with walks := Tab.put s.walks s.nextId { cl, ctx := t.ctxNo, vpn, places := [p], queued := decide (8 ≤ busy) } }).bump
  | _, _ => s

def execTlbMiss (place : Nat) (s : State) : Out := .next (s.tlbMiss place)

/-- The misses of a service core's queue, in arrival order: each joins a walk of its page in progress, or takes a walk context that is
free (R229). -/
def State.takeMisses (cl : Nat) : List (Nat × Walk) → State → State
  | [], s => s
  | (j, w) :: rest, s =>
    match s.walks.find? (fun e => e.2.cl == cl && e.2.ctx == w.ctx && e.2.vpn == w.vpn && !e.2.queued) with
    | some (k, x) => State.takeMisses cl rest { s with walks := Tab.put (Tab.del s.walks j) k { x with places := x.places ++ w.places } }
    | none =>
      if s.busyWalks cl < 8 then State.takeMisses cl rest { s with walks := Tab.put s.walks j { w with queued := false } } else s

/-- A walk ends and misses in the queue of its service core take its place. -/
def State.endWalk (s : State) (k cl : Nat) : State :=
  let s : State := { s with walks := Tab.del s.walks k }
  State.takeMisses cl (s.walks.filter (fun e => e.2.cl == cl && e.2.queued)) s

/-- The answer to one requester: it proceeds with the entry in its TLBs, or its access faults. -/
def State.answer (s : State) (vpn : Nat) (r : Except Bool TlbEntry) (p : Nat) : State :=
  let t := s.thread p
  match t.wait with
  | .walk va =>
    if va.toNat / 0x10000 ≠ vpn then s
    else match r with
      | .ok e =>
        let s := s.setCore (coreOf p) { s.core (coreOf p) with tlb := coreTlbPut (s.core (coreOf p)).tlb e }
        let s := s.setClu (cluOfPlace p) { s.clu (cluOfPlace p) with tlb := cluTlbPut (s.clu (cluOfPlace p)).tlb e }
        s.setThread p { t with wait := .none }
      | .error _ => s.setThread p { t with wait := .answer Code.pageAbsent va }
  | _ => s

/-- WALK_REPLY: the walk that `p` waits on ends; a malformed table is counted (R230), and so is one whose words cannot be read (log entry
102). -/
def State.walkReply (s : State) (p : Nat) : State :=
  match s.walkOf p with
  | some (k, w) =>
    if w.queued || !s.serves w.cl then s
    else
      let t := s.thread p
      let (r, s) := s.walkFor w.cl w.ctx (w.vpn * 0x10000) { launch := t.launchNo, grp := t.grp, place := p }
      (w.places.foldl (fun s q => s.answer w.vpn r q) s).endWalk k w.cl
  | none => s

def execWalkReply (place : Nat) (s : State) : Out := .next (s.walkReply place)

end Sys2Proof.Machine
end

