-- ==== Sys2Proof/Machine/Arrive.lean ====
section
/-! DEFINITION. Records that reach an inbox or a task unit (R75, R77, R242, R244, R271, R368), admission and the handler start (R73,
R78, R79, R245, R351), and the send stall (R76, R149, R353). -/

namespace Sys2Proof.Machine

/-! ### Arrival -/

def State.dropAtCore (s : State) (c : Nat) : State :=
  s.setCore c { s.core c with drops := satAt (2 ^ 64 - 1) ((s.core c).drops + 1) }

/-- A record leaves the mesh, accepted. -/
def State.leaveMesh (s : State) (id : Nat) (m : Msg) : State := ({ s with mesh := Tab.del s.mesh id }).accepted m

/-- A record joins an inbox. -/
def State.intoInbox (s : State) (c : Nat) (m : Msg) : State := s.setCore c { s.core c with inbox := (s.core c).inbox ++ [m] }

/-- A reply finds its slot, whose handler and group it takes, or is dropped (R271); one whose group has Ended is discarded (R250). -/
def State.reply (s : State) (c : Nat) (m : Msg) : State :=
  let k := s.core c
  let i := hRtag m.h1 % 64
  match Tab.get? k.slots i with
  | some r =>
    if r.tag = hRtag m.h1 / 64 then
      let s := s.setCore c { k with slots := Tab.del k.slots i }
      let m := { m with h0 := mkH0 2 r.grp r.handler.toNat, launch := r.launch }
      if s.groupGone m then s.countLoss (cluOfCore c) 1 else s.intoInbox c m
    else s.dropAtCore c
  | none => s.dropAtCore c

/-- INBOX_RECORD_ARRIVAL: a record of the mesh reaches its core. A refusal with handler address 0 is dropped (R272); a reply that found its
slot before it was requeued keeps its handler (R369). -/
def State.inboxArrive (s : State) (id : Nat) (m : Msg) (c : Nat) : State :=
  if droppedKind m.kind ∨ (m.kind = 5 ∧ hPc m.h0 = 0) then (s.leaveMesh id m).dropAtCore c
  else if s.suspending m.ctx then (s.leaveMesh id m).requeueMsg (cluOfCore c) (m.taken s.cyc)
  else if 32 ≤ s.inboxUsed c then s
  else
    let s := s.leaveMesh id m
    let m := m.taken s.cyc
    if m.kind = 3 ∧ hPc m.h0 % 64 ≠ 0 then s.dropAtCore c
    else if m.kind = 2 ∧ hPc m.h0 = 0 then s.reply c m
    else s.intoInbox c m

def execInboxRecordArrival (msg : Nat) (s : State) : Out :=
  match Tab.get? s.mesh msg with
  | some m =>
    match m.dest with
    | .core c => .next (if !s.inOrder msg m then s else s.inboxArrive msg m c)
    | _ => .next s
  | none => .next s

/-- The ordered record with the earliest key. -/
def earliest (ms : List Msg) : Option Msg :=
  (ms.filter (fun m => m.kind == 1)).foldl (fun (b : Option Msg) m => match b with
    | some x => if keyLt m.key x.key then some m else some x
    | none => some m) none

/-- A task unit with fewer than 768 records takes spilled ones back, earliest key first (R244). -/
def State.refill (s : State) (cl : Nat) : Nat → State
  | 0 => s
  | n + 1 =>
    let k := s.clu cl
    if 768 ≤ k.tu.length then s
    else match earliest k.spill with
      | some m => (s.setClu cl { k with tu := k.tu ++ [m], spill := k.spill.filter (fun x => x.ord != m.ord), fullSince := none }).refill cl n
      | none => s

/-- TASK_UNIT_RECORD_ARRIVAL; a firing that moves to a requeue area gives up its entry to a postponed one (R282). -/
def State.unitArrive (s : State) (id : Nat) (m : Msg) (cl : Nat) : State :=
  if droppedKind m.kind then
    let s := s.leaveMesh id m
    s.setClu cl { s.clu cl with tuDrops := satAt (2 ^ 64 - 1) ((s.clu cl).tuDrops + 1) }
  else if s.suspending m.ctx then
    let s := (s.leaveMesh id m).requeueMsg cl (m.taken s.cyc)
    if m.firing.isSome then (s.settleFiring cl).evaluate cl else s
  else if m.kind ≠ 1 ∧ 1024 ≤ (s.clu cl).tu.length then s
  else
    let s := s.leaveMesh id m
    let k := s.clu cl
    (s.setClu cl { k with tu := k.tu ++ [m.taken s.cyc] }).spillOver cl (k.tu.length + 1)

def execTaskUnitRecordArrival (msg : Nat) (s : State) : Out :=
  match Tab.get? s.mesh msg with
  | some m =>
    match m.dest with
    | .task cl => .next (if !s.inOrder msg m then s else s.unitArrive msg m cl)
    | _ => .next s
  | none => .next s

/-! ### Which record is admitted (R79, R245, R250, R351, R357, R362) -/

/-- The part runs: boot is over, nothing is fatal or frozen. -/
def State.live (s : State) : Bool := s.hub.phase == 2 && !s.hub.fatal.getLsbD 63 && !s.hub.frozen

/-- The group of a record lets it start: a Degraded group admits its budget handler alone, an Ending one only tasks that have
started before (R359, R362). -/
def State.groupOpen (s : State) (m : Msg) : Bool :=
  match m.launch with
  | none => true
  | some l =>
    match s.group? l (hGrp m.h0) with
    | some b => b.st == 1 || (b.st == 2 && m.budget) || (b.st == 3 && m.restore)
    | none => false

/-- The banks of the record's kernel are free on the core or its own (R351). -/
def State.banksOk (s : State) (l : Option Nat) (c : Nat) : Bool :=
  match l with
  | none => true
  | some n =>
    let m := ((s.launch? n).map (·.sbm)).getD 0
    (s.core c).banks.all (fun e => m / 2 ^ e.1 % 2 == 0 || e.2 == n)

/-- The commit entry with the latest key of a cluster. -/
def Cluster.latestEntry (k : Cluster) : Option (Nat × Commit) :=
  k.commits.foldl (fun (b : Option (Nat × Commit)) e => match b with
    | some x => if keyLt x.2.key e.2.key then some e else some x
    | none => some e) none

/-- A commit entry is free for an ordered record, or the latest key gives one up to the earliest record (R245). -/
def State.entryFor (s : State) (cl : Nat) (m : Msg) : Bool :=
  let k := s.clu cl
  if m.kind ≠ 1 ∨ k.commits.length < 256 then true
  else match earliest k.tu, k.latestEntry with
    | some x, some (_, c) => x.ord == m.ord && keyLt m.key c.key && !c.irrev
    | _, _ => false

/-- A record can be admitted to the context at `p`. -/
def State.admissible (s : State) (p : Nat) (m : Msg) : Bool :=
  let c := coreOf p
  s.groupOpen m && s.banksOk m.launch c && s.coreOk m.launch (hGrp m.h0) c && decide (m.notBefore ≤ s.round) &&
    s.entryFor (cluOfPlace p) m && (match m.firing with | some k => decide (k < 64) | none => true)

/-- The oldest record by arrival; the first in the list among equals. -/
def oldest (ms : List Msg) : Option Msg :=
  ms.foldl (fun (b : Option Msg) m => match b with
    | some x => if m.arrival < x.arrival then some m else some x
    | none => some m) none

/-- The first class of R79 that holds a record, for a context other than a Dormant t7. -/
def pickClass (now : Nat) (wakes : Bool) (ms : List Msg) : Option Msg :=
  let rest := ms.filter (fun m => m.kind != 4)
  let plain (k : Nat) : Bool := k == 0 || k == 2 || k == 3 || k == 5 || k == 6
  let w := if wakes then oldest (ms.filter (fun m => m.kind == 4)) else none
  (((w <|> oldest (rest.filter (fun m => decide (m.arrival + 8192 ≤ now)))) <|> earliest rest) <|>
    oldest (rest.filter (fun m => plain m.kind))) <|> oldest (rest.filter (fun m => m.kind == 8))

/-- The lowest-numbered Free context of a core. -/
def State.lowestFree (s : State) (c : Nat) : Option Nat :=
  ((List.range 8).map (fun t => c * 8 + t)).find? (fun p => (s.thread p).state == .free)

/-- The record that the context at `p` admits next. The task unit hands records to worker cores alone (R14), and a record that it hands
over takes an inbox entry, so it needs a free one (R75). -/
def State.nextRecord (s : State) (p : Nat) : Option Msg :=
  let c := coreOf p
  let unit := if isWorker p && decide (s.inboxUsed c < 32) then (s.clu (cluOfPlace p)).tu else []
  let ms := ((s.core c).inbox ++ unit).filter (s.admissible p)
  match (s.thread p).state with
  | .dormant => oldest (ms.filter (fun m => m.kind == 4))
  | .free =>
    let t7 := (s.thread (c * 8 + 7)).state == .dormant
    pickClass s.cyc (!t7 && s.lowestFree c == some p) ms
  | _ => none

/-! ### The handler start (R73) -/

/-- The draw of the core's entropy source, never zero. -/
def nonzero (w : Word) : Word := if w = 0 then 1 else w

/-- Registers with the payloads of a record or of a firing's messages from v0 up (R73, R282). -/
def handlerRegs (pays : List (Vector Reg 3)) : Vector Reg 64 :=
  pays.zipIdx.foldl (fun (r : Vector Reg 64) e =>
    ((r.setIfInBounds (16 + 3 * e.2) e.1[0]).setIfInBounds (17 + 3 * e.2) e.1[1]).setIfInBounds (18 + 3 * e.2) e.1[2]) (Vector.replicate 64 0)

/-- The handler's address: the restore routine for a saved task (R347), else the header's. -/
def State.handlerPc (s : State) (m : Msg) : Word :=
  if m.restore then
    match m.launch.bind s.launch? with
    | some L =>
      let h := L.sub.desc[0]
      match L.safes.find? (fun e => h + wd e.pc == hi64 m.pay[0]) with
      | some e => h + wd (2 * e.rs)
      | none => 0
    | none => 0
  else wd (hPc m.h0)

/-- The context at `p` starts the handler of a record (R73). -/
def State.startHandler (s : State) (p : Nat) (m : Msg) (entry : Option Nat) : State :=
  let t := s.thread p
  let L := m.launch.bind s.launch?
  let pays := match m.firing with
    | some k => ((Tab.getD (s.clu (cluOfPlace p)).firings k []).map (·.pay))
    | none => [m.pay]
  let bytes := leBytes 16 m.pay[0].toNat ++ leBytes 16 m.pay[1].toNat ++ leBytes 16 m.pay[2].toNat
  let task : Task := { ctx := m.ctx, launch := m.launch, kind := m.kind, entry, irrev := false,
                       code := if m.kind = 3 then some (wd (hPc m.h0), bytes) else none, arrival := m.arrival, admitted := s.cyc, slot := 0, budget := m.budget }
  let u : Thread := { t with
    regs := handlerRegs pays, ltStale := true, preds := 1, x := Vector.replicate 4 0, fm := (L.map (·.fm)).getD 0,
    f := (L.map (·.f)).getD (Vector.replicate 4 0), tagbase := 0, lc := 0, srs := nonzero (Config.entropy s.fresh), pc := s.handlerPc m,
    h0 := m.h0, h1 := m.h1, ts := m.ts, seq := m.seq, grp := hGrp m.h0, cld := 0, cst := 0, ccp := 0, ctl := 0, pfx := none, pfxRun := true,
    state := .ready, prev := .free, pend := (s.context m.ctx).st == .preempting, pendAt := s.cyc, task := some task, blk := none,
    wait := .none, failed := none, nfailed := 0, dmg := [], injTile := false, nextItem := 0, inSave := false }
  (s.setThread p (u.starts p m.sender m.scope m.clock)).draw

/-- The first time a task of a launch comes to a core, the banks of its kernel are zeroed and their formats written (R351). -/
def State.prepareCore (s : State) (c : Nat) (l : Option Nat) : State :=
  match l with
  | none => s
  | some n =>
    match s.launch? n with
    | none => s
    | some L =>
      if L.cores.contains c then s
      else
        let mine := (List.range 8).filter (fun b => L.sbm / 2 ^ b % 2 == 1)
        let inBank (a : Nat) : Bool := locTag a == tagScratch && locOff a / 0x20000 == c && mine.contains (locOff a % 0x20000 / 16384)
        let s : State := { s with mem := s.mem.filter (fun e => !inBank e.1), gran := s.gran.filter (fun e => !inBank (e.1 * 64)) }
        let k := s.core c
        let bf := mine.foldl (fun (v : Vector Word 8) b => v.setIfInBounds b ((L.bf[b]?).getD 0)) k.bf
        let s := s.setCore c { k with bf, banks := mine.foldl (fun t b => Tab.put t b n) k.banks }
        s.setLaunch n { L with cores := c :: L.cores }

/-- A record leaves the inbox or the task unit that holds it. -/
def State.takeRecord (s : State) (p : Nat) (m : Msg) : State :=
  let c := coreOf p
  let cl := cluOfPlace p
  let k := s.core c
  if k.inbox.any (fun x => x.ord == m.ord) then s.setCore c { k with inbox := k.inbox.filter (fun x => x.ord != m.ord) }
  else
    let q := s.clu cl
    s.setClu cl { q with tu := q.tu.filter (fun x => x.ord != m.ord) }

/-- An ordered record takes a commit entry, from the latest key if none is free (R245). -/
def State.takeEntry (s : State) (p : Nat) (m : Msg) : Option Nat × State :=
  if m.kind ≠ 1 then (none, s)
  else
    let cl := cluOfPlace p
    let s := match (s.clu cl).latestEntry with
      | some (e, _) => if 256 ≤ (s.clu cl).commits.length then s.abortAll [(cl, e)] else s
      | none => s
    let c : Commit := { ts := m.ts, seq := m.seq, launch := m.launch.getD 0, ctx := m.ctx, state := .running, irrev := false, place := some p,
                        rdSig := 0, wrSig := 0, rdLines := [], wrLines := [], plainLines := [], undo := [], items := [], children := 0, msg := m, parent := m.parent, ran := p }
    (some s.nextId, (s.setClu cl { s.clu cl with commits := Tab.put (s.clu cl).commits s.nextId c }).bump)

/-- The context at `p` admits a record; a refusal with handler address 0 is dropped instead (R272). -/
def State.admitTask (s : State) (p : Nat) (m : Msg) : State :=
  let s := s.takeRecord p m
  if m.kind = 5 ∧ hPc m.h0 = 0 then s.dropAtCore (coreOf p)
  else
    let s := s.prepareCore (coreOf p) m.launch
    let (e, s) := s.takeEntry p m
    let s := s.startHandler p m e
    let s := s.trace p 0 m.h0
    match m.firing with
    | some k => s.freeFiring (cluOfPlace p) k
    | none => s

/-- ADMISSION. -/
def execAdmission (place : Nat) (s : State) : Out :=
  if !s.live || !validPlace place || (s.core (coreOf place)).hlt then .next s
  else match s.nextRecord place with
    | some m => .next (s.admitTask place m)
    | none => .next s

/-! ### The send stall (R76, R149, R353) -/

/-- The send-stall count of the context at `p` towards a place has run out; it stands still while the part is frozen, a die-to-die link
retrains or the destination is Halted. -/
def State.stalls (s : State) (p dest since : Nat) : Bool :=
  let held := !s.hub.d2d.isEmpty && dieOf p != dieOf dest
  !(s.hub.frozen || held || (s.core (coreOf dest)).hlt || decide (s.cyc < since + 2 ^ 24))

/-- A held send of the context at `p` gives up: the destination's place stands in the syndrome. -/
def State.stallFault (s : State) (p dest since : Nat) : State :=
  if !s.stalls p dest since then s
  else (s.setThread p { s.thread p with wait := .none }).takeFaultAt p (s.thread p).ipc { code := Code.sendStall, syn := wd dest }

/-- SEND_STALL_TIMEOUT. -/
def execSendStallTimeout (place : Nat) (s : State) : Out :=
  match (s.thread place).wait with
  | .send dest since => .next (s.stallFault place dest since)
  | .xq c _ _ _ since _ => .next (s.stallFault place (c * 8) since)
  | .walk _ =>
    .next (if (s.walkOf place).isSome then s else s.stallFault place (placeOf (walkCluster (cluOfPlace place)) 16 0) (s.thread place).missAt)
  | .launch sub since _ =>
    if s.stalls place (dispatchPlace (dieOf place)) since then
      .next (({ s with subs := Tab.del s.subs sub }).stallFault place (dispatchPlace (dieOf place)) since)
    else .next s
  | _ => .next s

end Sys2Proof.Machine
end

