-- ==== Sys2Proof/Machine/Branch.lean ====
section
/-! DEFINITION. Branches, the counted loop, calls (R70 to R72), the predicate prefix (R33, R34) and `c.nop` (R32). -/

namespace Sys2Proof.Machine

/-- Go on at a target; a taken branch is traced (R420). -/
def State.jump (s : State) (target : Word) : State := (s.setMe (s.me.goto target)).trace s.cur 1 target

/-- A branch of `len` bytes by `o` halfwords from its own word (R70). -/
def State.branch (s : State) (len : Nat) (o : Word) (taken : Bool) : State :=
  let t := s.me
  if taken then s.jump (t.pc + (o <<< 1)) else s.fin len

def execBr (p : PredNo) (o : BitVec 19) (s : State) : Out := .next (s.branch 4 (o.signExtend 64) (s.me.pred p))
def execBrNot (p : PredNo) (o : BitVec 19) (s : State) : Out := .next (s.branch 4 (o.signExtend 64) (!s.me.pred p))
def execCBr (o : BitVec 7) (n : Bool) (p : PredNo) (s : State) : Out :=
  .next (s.branch 2 (o.signExtend 64) (s.me.pred p ^^ n))
def execCJmp (o : BitVec 11) (s : State) : Out := .next (s.branch 2 (o.signExtend 64) true)

/-- R71. -/
def execLpe (p : PredNo) (n : Bool) (o : BitVec 19) (s : State) : Out :=
  let t := s.me
  if (t.pred p ^^ n) ∧ t.lc ≠ 0 then
    let s := s.setMe { t with lc := t.lc - 1 }
    .next (s.branch 4 (o.signExtend 64) (t.lc - 1 != 0))
  else .next (s.fin 4)

/-- R72. -/
def execCall (d a : Spec) (i : BitVec 13) (s : State) : Out :=
  settle s (do
    let base ← if a = 1 then pure s.me.pc else s.read64 a
    let target := base + (i.signExtend 64 <<< 1)
    if target.getLsbD 0 then .error (fltA Code.branchTarget target)
    else if !formOk target then .error (fltA Code.addressForm target)
    else
      let s' ← s.writeReg d (scalar (s.me.pc + 4))
      pure (s'.jump target))

/-- The prefix: the pair's word follows within the same step; a prefix behind a prefix is illegal (R33, R34, R47) and
logs its own word (log entry 89). -/
def execCIf (n : Bool) (p : PredNo) (s : State) : Out :=
  let t := s.me
  if t.pfx.isSome then .next (s.takeFault { code := Code.illegal, syn := wd (2 + p.val * 2 ^ 10 + (if n then 2 ^ 9 else 0) + 2 ^ 14) })
  else .next (s.setMe { t with pfx := some t.pc, pfxRun := t.pred p ^^ n, pc := t.pc + 2 })

def execCNop (s : State) : Out := .next (s.fin 2)

end Sys2Proof.Machine
end

