-- ==== Sys2Proof/Machine/Cmp.lean ====
section
/-! DEFINITION. Compares and predicate logic of major 0x03 (R66 to R69). -/

namespace Sys2Proof.Machine

/-- Relations on the low 32 bits. -/
def rel32 (f : BitVec 32 → BitVec 32 → Bool) (x y : Word) : Bool := f (x.setWidth 32) (y.setWidth 32)

def execCmpEq (p : PredNo) (a b : Spec) (s : State) : Out := settle s (s.cmp2 4 p a b (fun x y => x == y))
def execCmpNe (p : PredNo) (a b : Spec) (s : State) : Out := settle s (s.cmp2 4 p a b (fun x y => x != y))
def execCmpLt (p : PredNo) (a b : Spec) (s : State) : Out := settle s (s.cmp2 4 p a b (fun x y => x.slt y))
def execCmpLe (p : PredNo) (a b : Spec) (s : State) : Out := settle s (s.cmp2 4 p a b (fun x y => x.sle y))
def execCmpLtu (p : PredNo) (a b : Spec) (s : State) : Out := settle s (s.cmp2 4 p a b (fun x y => x.ult y))
def execCmpLeu (p : PredNo) (a b : Spec) (s : State) : Out := settle s (s.cmp2 4 p a b (fun x y => x.ule y))
def execCmpEqI32 (p : PredNo) (a b : Spec) (s : State) : Out := settle s (s.cmp2 4 p a b (rel32 (fun x y => x == y)))
def execCmpNeI32 (p : PredNo) (a b : Spec) (s : State) : Out := settle s (s.cmp2 4 p a b (rel32 (fun x y => x != y)))
def execCmpLtI32 (p : PredNo) (a b : Spec) (s : State) : Out := settle s (s.cmp2 4 p a b (rel32 (fun x y => x.slt y)))
def execCmpLeI32 (p : PredNo) (a b : Spec) (s : State) : Out := settle s (s.cmp2 4 p a b (rel32 (fun x y => x.sle y)))
def execCmpLtuI32 (p : PredNo) (a b : Spec) (s : State) : Out := settle s (s.cmp2 4 p a b (rel32 (fun x y => x.ult y)))
def execCmpLeuI32 (p : PredNo) (a b : Spec) (s : State) : Out := settle s (s.cmp2 4 p a b (rel32 (fun x y => x.ule y)))

/-- The four float relations of R68 and R132: whether the relation holds and whether it is invalid. -/
def fcmpRel (k : Nat) (x y : Val) : Bool × Bool :=
  let un := x.isNan || y.isNan
  let sig := x.isSig || y.isSig
  match k with
  | 0 => (x.eqv y, sig)
  | 1 => (x.lt y, un)
  | 2 => (!un && !y.lt x, un)
  | _ => (un, sig)

/-- A float compare of scalars into a predicate (R68). -/
def State.fcmp (s : State) (f : FFmt) (k : Nat) (p : PredNo) (a b : Spec) : Res := do
  let (x, y) ← s.read2 a b
  let (h, nv) := fcmpRel k (decodeF f (lane f.w x 0)) (decodeF f (lane f.w y 0))
  let s := if nv then s.setMe (s.me.raise fNv) else s
  pure (s.putPred 4 p h)

def execFcmpEq (p : PredNo) (a b : Spec) (s : State) : Out := settle s (s.fcmp fp32 0 p a b)
def execFcmpLt (p : PredNo) (a b : Spec) (s : State) : Out := settle s (s.fcmp fp32 1 p a b)
def execFcmpLe (p : PredNo) (a b : Spec) (s : State) : Out := settle s (s.fcmp fp32 2 p a b)
def execFcmpUn (p : PredNo) (a b : Spec) (s : State) : Out := settle s (s.fcmp fp32 3 p a b)
def execFcmpEqF64 (p : PredNo) (a b : Spec) (s : State) : Out := settle s (s.fcmp fp64 0 p a b)
def execFcmpLtF64 (p : PredNo) (a b : Spec) (s : State) : Out := settle s (s.fcmp fp64 1 p a b)
def execFcmpLeF64 (p : PredNo) (a b : Spec) (s : State) : Out := settle s (s.fcmp fp64 2 p a b)
def execFcmpUnF64 (p : PredNo) (a b : Spec) (s : State) : Out := settle s (s.fcmp fp64 3 p a b)

def execPand (p a b : PredNo) (s : State) : Out := .next (s.putPred 4 p (s.me.pred a && s.me.pred b))
def execPor (p a b : PredNo) (s : State) : Out := .next (s.putPred 4 p (s.me.pred a || s.me.pred b))
def execPxor (p a b : PredNo) (s : State) : Out := .next (s.putPred 4 p (s.me.pred a ^^ s.me.pred b))
def execPnot (p a : PredNo) (s : State) : Out := .next (s.putPred 4 p (!s.me.pred a))
def execPmov (p a : PredNo) (s : State) : Out := .next (s.putPred 4 p (s.me.pred a))
def execPset (p : PredNo) (k : Bool) (s : State) : Out := .next (s.putPred 4 p k)

/-- cc 00 eq, 01 ne, 10 lt, 11 ltu (R32). -/
def execCCmp (c : BitVec 2) (b a : CReg) (p : PredNo) (s : State) : Out :=
  settle s (s.cmp2 2 p (cReg a) (cReg b) (match c.toNat with
    | 0 => fun x y => x == y
    | 1 => fun x y => x != y
    | 2 => fun x y => x.slt y
    | _ => fun x y => x.ult y))

end Sys2Proof.Machine
end

