-- ==== Sys2Proof/Machine/Signal.lean ====
section
/-! DEFINITION. Signals (R392 to R395) and the instructions of major 0x18 (R399 to R402); writes of signals by the part itself
(R393, R394). -/

namespace Sys2Proof.Machine

/-- The location of a signal that an instruction names, after the checks of R402 in their order: the device registers raise
signal-place at any privilege (R392). -/
def State.sigLoc (s : State) (wr : Bool) (va : Word) : Except Stop (Nat × State) := do
  let w ← addrCheck true true .write va 8 8
  let (loc, s) ← match w with
    | .translated => s.translate s.cur (if wr then .rmw else .read) va
    | .chip o => pure (nearLoc s.cur (.chip o), s)
    | _ => .error (fltA Code.signalPlace va)
  if wr && locTag loc == 1 && !s.hub.aop then .error (.kept s { code := Code.atomicTarget, addr := va })
  pure (loc, s)

/-- A SIG instruction that returns a value: an access of order `.ar`, or `.acq` for a read, at `.sys` (R393, R400). -/
def State.sigAccess (s : State) (d : Spec) (kind : AccKind) (va : Word) (loc : Nat) (data : Reg) : Res := do
  let a := { s.newAcc kind va 8 loc with data := data.setWidth 256, ord := if kind = .sigRd then .acq else .ar, scope := .sys }
  let s ← s.regionEnd
  s.issueLoad 4 d a

/-- `sig.add`, `sig.set`, `sig.cas`: deferred in a speculative ordered task, whose `d` receives 0 (R400). -/
def State.sigOp (s : State) (op : RmwOp) (d a b : Spec) : Res := do
  let (x, y) ← s.read2 a b
  let va := lo64 x
  let (loc, s) ← s.sigLoc true va
  if s.me.speculative then
    let s ← s.regionEnd
    let s ← s.defer (.signal op loc va y)
    s.put 4 d 0
  else s.sigAccess d (.sig op) va loc y

def execSigAdd (d a b : Spec) (s : State) : Out := settle s (s.sigOp .sadd d a b)
def execSigSet (d a b : Spec) (s : State) : Out := settle s (s.sigOp .swap d a b)
def execSigCas (d a b : Spec) (s : State) : Out := settle s (s.sigOp .cas d a b)

def execSigRd (d a : Spec) (s : State) : Out :=
  settle s (do
    let va ← s.read64 a
    let (loc, s) ← s.sigLoc false va
    if s.me.speculative then .error (fltA Code.orderedUse va)
    s.sigAccess d .sigRd va loc 0)

/-- A signal's value as a wait of the running context reads it, or the fault of the read (R212, R406, R410); `none` while its
home does not answer. -/
def State.sigValue (s : State) (loc : Nat) (va : Word) : Except Stop (Option Nat × State) :=
  if s.lineHeld loc then .ok (none, s)
  else if isRemote loc && s.portRefuses loc then .error (.flt { code := Code.linkDown, addr := va, syn := wd (locTag loc - 2) })
  else if locTag loc == 1 && s.hub.rate == 0 then .error (fltA Code.hostLink va)
  else
    let s := if isRemote loc then s.dropCopy (loc / 32) else s
    let cls := s.accClass s.cur loc
    match s.checkGran loc cls s.myReader with
    | (.bad f, s) =>
      .error (.hold (s.takeFault { code := Code.poison, addr := va, syn := wd (cls + if f then 4 else 0), mcls := some cls }))
    | (o, s) => .ok (some (leNat (o.apply loc (s.bytesAt loc 8))), s)

/-- The signal reads at or below the threshold, as signed values (R401). -/
def sigMet (v : Nat) (thr : Word) : Bool := decide (toInt 64 v ≤ thr.toInt)

/-- A `sig.wait` blocks; it counts in cld until its value is written (R82, R400). -/
def State.blockSig (s : State) (b : Blk) : State := (s.setMe { s.me with cld := s.me.cld + 1 }).block b

/-- A Blocked `sig.wait` completes with the signal's value. -/
def State.unblockSig (s : State) (d : Spec) (v : Reg) : Res := do
  let s ← s.unblock d v
  pure (s.setMe { s.me with cld := s.me.cld - 1 })

/-- A Blocked `sig.wait` reads its signal again, where its address lies now and through the checks of its page (R225); one that completes is an acquire at `.sys` (R233, R400,
R401). -/
def State.sigPoll (s : State) (loc : Nat) (va thr : Word) (d : Spec) : Res := do
  match s.lateLoc s.cur s.me.ctxNo va loc false s.myReader with
  | .error (0, _) => pure s
  | .error (c, s) => .error (.kept s { code := c, addr := va })
  | .ok (loc, s) =>
    let (v, s) ← s.sigValue loc va
    match v with
    | some v => if sigMet v thr then (s.hearAt s.cur loc 8 (some .sys)).unblockSig d (scalar (wd v)) else pure s
    | none => pure s

/-- `sig.wait` (R401): a blocking instruction. -/
def execSigWait (d a b : Spec) (s : State) : Out :=
  settle s (s.blocking (fun s => s.read2 a b) (fun s xy => do
    let va := lo64 xy.1
    let thr := lo64 xy.2
    let (loc, s) ← s.sigLoc false va
    if s.me.speculative then .error (fltA Code.orderedUse va)
    if 63 ≤ s.me.cld then .error .wait
    let s ← s.regionEnd
    let (v, s) ← s.sigValue loc va
    match v with
    | some v => if sigMet v thr then (s.hearAt s.cur loc 8 (some .sys)).put 4 d (scalar (wd v)) else pure (s.blockSig (.sig loc va thr d))
    | none => pure (s.blockSig (.sig loc va thr d))))

end Sys2Proof.Machine
end

