-- ==== Sys2Proof/Machine/Grp.lean ====
section
/-! DEFINITION. Groups: the checks of a control block (R355, R356, R364) and the instructions of major 0x19. -/

namespace Sys2Proof.Machine

/-- A field of a word must be 0. -/
def zeroAt (w : Word) (lo n : Nat) : Bool := wbits w lo n == 0

/-- Word `k` of a control block obeys R355 and R364: must-be-0 fields, reserved codes, even handlers, the thresholds of a stage
group, and `res` only where it is allowed. -/
def gcbWordOk (stage pager : Bool) (k : Nat) (w : Word) : Bool :=
  match k with
  | 0 => zeroAt w 4 2 && zeroAt w 13 16 && decide (wbits w 6 3 < 4) && (!w.getLsbD 12 || pager)
  | 2 => zeroAt w 8 56
  | 4 | 5 => zeroAt w 48 16 && !w.getLsbD 0
  | 6 => zeroAt w 0 16 && (!stage || (decide (wbits w 16 8 < wbits w 24 8) && decide (1 ≤ wbits w 32 16) &&
      decide (wbits w 32 16 ≤ wbits w 48 16) && decide (wbits w 48 16 ≤ 3072)))
  | 7 => zeroAt w 32 32
  | 10 | 12 | 13 | 14 | 15 => w == 0
  | 11 => zeroAt w 0 6
  | _ => true

/-- The first word of a control block that breaks R364. -/
def gcbBreach (pager : Bool) (g : Vector Word 16) : Option Nat :=
  (List.range 16).find? (fun k => !gcbWordOk (wbits g[0] 10 2 != 0) pager k ((g[k]?).getD 0))

/-- A bit of the inherit mask (R355). -/
def inhBit (g : Vector Word 16) (k : Nat) : Bool := g[0].getLsbD k

/-- A control block with the fields that its inherit mask names taken from `par` (R356), the mask cleared. -/
def inherit (g par : Vector Word 16) : Vector Word 16 :=
  let w0 := g[0]
  let w0 := if inhBit g 29 then setBits w0 0 4 (wbits par[0] 0 4) else w0
  let w0 := if inhBit g 30 then setBits w0 9 1 (wbits par[0] 9 1) else w0
  let w0 := if inhBit g 31 then setBits w0 6 3 (wbits par[0] 6 3) else w0
  let r := g.set 0 (setBits w0 29 7 0)
  let r := if inhBit g 32 then (r.set 1 par[1]).set 2 par[2] else r
  let r := if inhBit g 33 then r.set 3 (setBits g[3] 0 32 (wbits par[3] 0 32)) else r
  let r := if inhBit g 34 then r.set 4 par[4] else r
  if inhBit g 35 then r.set 5 par[5] else r

/-- A new group from the words read: inherited fields, the banks limited by `spm`, the Reset values of R355. -/
def newGroup (g par : Vector Word 16) (spm slot parent : Nat) (addr : Word) (loc : Nat) : Group :=
  let r := inherit g par
  let w0 := setBits (setBits (setBits r[0] 36 12 parent) 48 12 slot) 60 4 1
  let r := r.set 0 w0
  let r := r.set 2 (setBits r[2] 0 8 (wbits r[2] 0 8 &&& spm))
  let r := r.set 3 (setBits r[3] 32 32 0)
  let cap := if wbits w0 10 2 ≠ 0 then wbits r[6] 48 16 else wbits r[1] 32 16
  { addr, loc, gcb := (r.set 8 (wd cap)).set 9 0 }

/-- Slots of a launch that no group holds. -/
def State.freeSlots (s : State) (l : Nat) : List Nat := (List.range 4096).filter (fun g => (s.group? l g).isNone)

/-- A child of a group in Ending is in Ending too (R359). -/
def Group.under (b : Group) (parent : Option Group) : Group := if (parent.map (·.st)) = some 3 then b.put 0 60 4 3 else b

/-- A group with a slot that the part picks among the free ones (log entry 12); the root, the first group of a launch, has slot 0, as
the example of R441 shows it. -/
def State.addGroup (s : State) (l : Nat) (mk : Nat → Group) : Option (Nat × State) :=
  match s.freeSlots l with
  | [] => none
  | f :: fs =>
    let g := if f = 0 then 0 else ((f :: fs)[Config.choice s.fresh % (fs.length + 1)]?).getD f
    some (g, (s.draw.setGroup l g { mk g with ser := s.nextId }).bump)

/-- A pager core or a privileged context (R14, R356). -/
def State.mayRes (s : State) : Bool :=
  s.privileged s.cur || (let c := s.cur / 8 % 32; !isDispatch s.cur && (c == 17 || c == 18))

/-- The launch of the running task; firmware has no groups (log entry 15). -/
def State.myLaunch (s : State) : Except Stop Nat :=
  match s.me.launchNo with
  | some l => .ok l
  | none => .error (fltC Code.groupSlot)

/-- A slot operand (R364). -/
def State.slotOperand (s : State) (v : Word) : Except Stop (Nat × Nat × Group) := do
  let l ← s.myLaunch
  if v.toNat / 4096 ≠ 0 then .error (fltC Code.groupSlot)
  s.groupCheck v.toNat
  match s.group? l v.toNat with
  | some g => pure (l, v.toNat, g)
  | none => .error (fltC Code.groupSlot)

/-- These raise ordered-use in a speculative ordered task (R364). -/
def State.noSpec (s : State) : Except Stop Unit := if s.me.speculative then .error (fltC Code.orderedUse) else .ok ()

/-- Words of memory from bytes. -/
def wordsOf (n : Nat) (bs : List Byte) : List Word := (List.range n).map (fun k => wd (leNat ((bs.drop (8 * k)).take 8)))

/-- Read `n` words at once for an instruction, after the context's earlier accesses (log entry 20). -/
def State.readWords (s : State) (loc : Nat) (va : Word) (n : Nat) : Except Stop (List Word × State) := do
  if s.anyAcc (fun _ => true) then .error .wait
  if s.spanHeld loc (8 * n) then .error .wait
  let cls := s.accClass s.cur loc
  match s.readSpan cls s.myReader (n + 1) loc (8 * n) with
  | (.ok bs, s) => pure (wordsOf n bs, s)
  | (.error (at_, f), s) =>
    .error (.hold (s.takeFault { code := Code.poison, addr := va + wd (at_ - loc), syn := wd (cls + if f then 4 else 0), mcls := some cls }))

/-- A vector of `n` words from a list. -/
def vec16 (ws : List Word) : Vector Word 16 := Vector.ofFn (fun i => (ws[i.val]?).getD 0)

/-- `grp.new` (R355, R356, R364). -/
def execGrpNew (d a : Spec) (s : State) : Out :=
  settle s (do
    let va ← s.read64 a
    let (loc, s) ← s.access s.cur .read false va 128
    let (_, s) ← s.access s.cur .write false va 128
    s.noSpec
    let l ← s.myLaunch
    let (ws, s) ← s.readWords loc va 16
    let g := vec16 ws
    match gcbBreach s.mayRes g with
    | some k => .error (fltS Code.groupForm (wd k))
    | none =>
      let own := s.me.grp
      let par := ((s.group? l own).map (·.gcb)).getD (Vector.replicate 16 0)
      match s.addGroup l (fun slot => (newGroup g par (wbits par[2] 0 8) slot own va loc).under (s.group? l own)) with
      | none => .error (fltC Code.groupLimit)
      | some (slot, s) => s.put 4 d (scalar (wd slot)))

/-- `grp.end` (R359, R364). -/
def execGrpEnd (a : Spec) (k : Bool) (s : State) : Out :=
  settle s (do
    let v ← s.read64 a
    let (l, g, _) ← s.slotOperand v
    s.noSpec
    pure ((s.fin 4).endGroup l g k))

/-- `grp.rd` (R364): an acquire at `.dev`. -/
def execGrpRd (d a : Spec) (n : BitVec 4) (s : State) : Out :=
  settle s (do
    let v ← s.read64 a
    let (l, g, b) ← s.slotOperand v
    let w := s.gcbWord l g b n.toNat
    (s.hearAt s.cur b.loc 128 (some .dev)).put 4 d (scalar w))

/-- `grp.set` (R364): one RW word, checked as `grp.new` checks it; spm stays within the parent's, the root's within the
banks of its kernel (R356). -/
def execGrpSet (n : BitVec 4) (a b : Spec) (s : State) : Out :=
  settle s (do
    let (x, y) ← s.read2 a b
    let (l, g, q) ← s.slotOperand (lo64 x)
    let k := n.toNat
    let w := lo64 y
    if !(k == 1 || k == 2 || (4 ≤ k && k ≤ 7) || k == 11) then .error (fltC Code.illegal)
    if !gcbWordOk (q.stg != 0) s.mayRes k w then .error (fltS Code.groupForm (wd k))
    s.noSpec
    let lim := if q.par = g then ((s.launch? l).map (·.sbm)).getD 255 else ((s.group? l q.par).map (·.spm)).getD 255
    let w := if k = 2 then setBits w 0 8 (wbits w 0 8 &&& lim) else w
    let q : Group := { q with gcb := q.gcb.setIfInBounds k w }
    let q : Group := if k = 1 ∧ q.stg = 0 then q.put 8 0 16 q.cor else q
    pure ((s.setGroup l g q).fin 4))

/-- `ebud.set` (R359, R364): a release; a Degraded group is Live again. -/
def execEbudSet (a b : Spec) (s : State) : Out :=
  settle s (do
    let (x, y) ← s.read2 a b
    let (l, g, q) ← s.slotOperand (lo64 x)
    let w := lo64 y
    if w.toNat / 2 ^ 33 ≠ 0 then .error (fltS Code.groupForm 3)
    s.noSpec
    if s.anyAcc (fun _ => true) then .error .wait
    let q := q.put 3 0 32 (wbits w 0 32)
    let q := if w.getLsbD 32 then q.put 3 32 32 0 else q
    let q := if q.st = 2 then q.put 0 60 4 1 else q
    let r : Rel := { place := s.cur, scope := .dev, loc := q.loc, n := 8, clock := s.clockOf s.cur }
    pure (((s.setGroup l g q).putRels q.loc 8 true [r]).fin 4))

/-- `ebud.rd` (R364): an acquire at `.dev`. -/
def execEbudRd (d a : Spec) (s : State) : Out :=
  settle s (do
    let v ← s.read64 a
    let (_, _, q) ← s.slotOperand v
    (s.hearAt s.cur q.loc 128 (some .dev)).put 4 d (mkReg (wd (q.elim + q.ecnt * 2 ^ 32)) (if q.st = 2 then 1 else 0)))

/-! ### GROUP_ENDED (R307, R359) -/

/-- Where the control block of a group lies now; none while the device cannot write it (R233, R235). -/
def State.gcbLoc (s : State) (l : Nat) (b : Group) : Option Nat :=
  match s.launch? l with
  | some L => s.blockLoc (dispatchPlace L.sub.die) L.sub.ctx b.addr b.loc
  | none => some b.loc

/-- A group in Ending with nothing left ends, once its block can be written: its slot is free, held records go, be they requeued or not, and its terminal orphans' slots
are freed. A saved task has started and keeps the group in Ending (log entry 23). -/
def State.groupEnded (s : State) (l g : Nat) : State :=
  match s.group? l g with
  | some b =>
    let at_ := s.gcbLoc l b
    if b.st = 3 ∧ s.kidCount l g = 0 ∧ s.orphanCount l g = 0 ∧
        (s.runningGroups l ++ s.savedGroups l).all (fun x => !s.inSubtree l g x) ∧ at_.isSome then
      let loc := at_.getD b.loc
      let held (m : Msg) : Bool := m.ofGroup && m.launch == some l && hGrp m.h0 == g
      let s := (s.dropMsgs held true).dropSaved held true
      let s := (s.toksWhere (fun t => t.launch == some l && t.grp == g && t.hold == 2 && t.st.terminal)).foldl State.freeTok s
      let s := s.setGroup l g (b.put 0 60 4 4)
      let s := (List.range 16).foldl (fun s k => s.writeN (loc + 8 * k) 8 (s.gcbWord l g (b.put 0 60 4 4) k).toNat) s
      { s with groups := if b.par = g then s.groups else Tab.del s.groups (groupKey l g) }
    else s
  | none => s

def execGroupEnded (launch slot : Nat) (s : State) : Out := .next (s.groupEnded launch slot)

end Sys2Proof.Machine
end

