-- ==== Sys2Proof/Machine/Issue.lean ====
section
/-! DEFINITION. Issue of child operations (R293 to R298): the option register, the descriptors of majors 0x10, 0x11, 0x12 and
0x14 (R309, R311, R312, R314 to R318, R320, R334), and the token that an issue makes. -/

namespace Sys2Proof.Machine

/-! ### Handles (R293, R294) -/

def mkHdl (cl slot gen : Nat) : Nat := cl / 24 * 2 ^ 29 + cl % 24 * 2 ^ 24 + slot * 2 ^ 14 + gen

/-- The token that a handle names: its form and generation (R294). -/
def State.liveTok (s : State) (h : Word) : Except Stop (Nat × Token) :=
  if h.toNat / 2 ^ 32 ≠ 0 ∨ 24 ≤ wbits h 24 5 ∨ wbits h 0 14 = 0 then .error (fltS Code.tokenForm h)
  else match s.tok? (hdlKey h.toNat) with
    | some t => if t.hdl = h.toNat then .ok (hdlKey h.toNat, t) else .error (fltS Code.staleToken h)
    | none => .error (fltS Code.staleToken h)

/-- The same for a token of the running launch, or of any launch if `any` (R294). -/
def State.handle (s : State) (any : Bool) (h : Word) : Except Stop (Nat × Token) := do
  let (k, t) ← s.liveTok h
  if !any && t.launch != s.me.launchNo then .error (fltS Code.tokenOwner h)
  pure (k, t)

/-! ### Descriptor checks (R297) -/

/-- A descriptor fault for word `i` of R297 if `bad`. -/
def descr (bad : Bool) (v : Word) (i : Nat) : Except Stop Unit :=
  if bad then .error (.flt { code := Code.descriptor, syn := v, detail := i }) else .ok ()

/-- An address is aligned to a power of two or another unit. -/
def aligned (a : Word) (n : Nat) : Bool := a.toNat % n == 0

/-- Address form and window of a base address (R20, R22, R297). -/
def State.baseCheck (s : State) (k : AKind) (a : Word) : Except Stop Unit := do
  if !formOk a then .error (fltA Code.addressForm a)
  let _ ← windowCheck (s.privileged s.cur) k a.toNat a

/-- A core that a drain names: a worker (R15, R17, R312), for a privileged context too (log entry 88). -/
def State.workerCheck (s : State) (id : Nat) : Except Stop Unit :=
  if !validPlace id then .error (fltC Code.placeRange)
  else if isDispatch id && !s.privileged s.cur then .error (fltC Code.privilege)
  else if !isWorker id then .error (fltC Code.routeRole)
  else .ok ()

/-- The option register of an issue: what a token takes from it (R295). -/
structure Opts where
  dep : Nat
  target : Word
  ntc : Nat
  gate : Bool
  pri : Nat
  deriving DecidableEq, Repr

def mkOpts (imm : BitVec 7) (o : Reg) : Opts :=
  { dep := wbits (lo64 o) 0 32, target := hi64 o, ntc := bits imm.toNat 4 3, gate := imm.getLsbD 3, pri := imm.toNat % 8 }

/-- The descriptor checks of a notice choice (R295). -/
def targetCheck (ntc : Nat) (v : Word) : Except Stop Unit :=
  match ntc with
  | 0 | 1 => descr (v != 0) v 5
  | 2 => descr (v.toNat / 2 ^ 18 != 0 || decide (24 ≤ wbits v 10 5)) v 5
  | 3 => descr (hKind v != 0) v 5
  | _ => descr (!aligned v 8) v 5

/-- The faults of a wake header (R250, R297). -/
def State.wakeCheck (s : State) (ntc : Nat) (v : Word) : Except Stop Unit := do
  if ntc = 3 then
    pcCheck v
    s.groupCheck (hGrp v)

/-! ### Formats of streams and drains (R106 to R109, R309, R312) -/

/-- Blocks of a group of 48 elements, and the bytes of `n` groups under a bank format (R108, R309). -/
def groupBytes (v : Nat) : Nat :=
  let bl := bfBlockLen v
  if bl = 0 then 6 * fmtWidth (bfElem v) else (48 + bl - 1) / bl * bfStride v

/-- Element formats of a stream: floats of 4, 6, 8 or 16 bits, signed integers of 4 or 8, i4o (R309). -/
def streamElem (e : Nat) : Bool :=
  match bits e 0 2 with
  | 0 => vecWidths.contains (fmtWidth e)
  | 1 => bits e 23 1 == 1 && (fmtWidth e == 4 || fmtWidth e == 8)
  | 2 => true
  | _ => false

/-- The own core scratchpad's offset of an address. -/
def ownScratch (a : Word) : Option Nat :=
  match windowOf a.toNat with
  | some (.scratch o) => if formOk a then some o else none
  | _ => none

/-- What an issue's checks decide: the bank formats captured, the scope. -/
structure Checked where
  bf : Vector Word 8
  scope : Scope
  /-- The check of a named core, after those of the option register (R297). -/
  core : Except Stop Unit
  /-- Address checks and later ones, in their order (R297). -/
  after : Except Stop Unit
  desc : List Byte
  inst : Nat

def State.plainChecked (s : State) (after : Except Stop Unit) : Checked :=
  { bf := (s.core (coreOf s.cur)).bf, scope := .dev, core := .ok (), after, desc := [], inst := 0 }

/-- The checks of a stream (R309). The captured format stands in bf0. -/
def State.checkStream (s : State) (x : Vector Word 4) : Except Stop Checked := do
  let own := ownScratch x[0]
  let bank := (own.getD 0) / 16384
  let regs := (s.core (coreOf s.cur)).bf
  let v := match own with
    | some _ => (regs[bank]?).getD 0
    | none => x[3]
  let g := wbits x[1] 32 32
  let stride := wbits x[1] 0 32
  let lines := wbits x[2] 0 7
  let n := v.toNat
  let usable := n != 0 && bfValid n && streamElem (bfElem n)
  let len := g * groupBytes n
  descr (!aligned x[0] 16 || (own.isSome && usable && bfSp n && (own.getD 0) % 16384 % bfStride n != 0)) x[0] 0
  descr (g == 0 || decide (1048576 < g) || stride % 16 != 0 || (usable && decide (stride < len)) ||
    (own.isSome && usable && bfSp n && stride % bfStride n != 0)) x[1] 1
  descr (x[2].toNat / 2 ^ 7 != 0 || lines == 0 || decide (64 < lines)) x[2] 2
  descr (own.isSome && x[3] != 0) x[3] 3
  descr (own.isNone && (bfSp n || bfTso n != 0) && bfValid n) x[3] 3
  if own.isSome ∧ n = 0 then .error (.flt { code := Code.formatUse, syn := 0, detail := 20 + bank })
  if own.isNone ∧ (n = 0 ∨ !bfValid n) then .error (.flt { code := Code.formatValue, syn := x[3] })
  if !streamElem (bfElem n) then
    .error (.flt { code := Code.formatUse, syn := v, detail := if own.isSome then 20 + bank else 0 })
  let past : Bool := match own with
    | some o => decide (16384 < o % 16384 + (lines - 1) * stride + len)
    | none => false
  pure { s.plainChecked (do
      s.baseCheck .read x[0]
      if past then .error (fltS Code.bankRange x[0])) with bf := (Vector.replicate 8 (0 : Word)).set 0 v }

/-- The stream token that a handle in x0 or x1 names (R311). -/
def State.streamTok (s : State) (h : Word) (fn : Nat) : Option Token :=
  match s.handle false h with
  | .ok (k, t) => if t.maj = 0x11 ∧ t.fn = fn ∧ k / 1024 = s.homeCluster then some t else none
  | .error _ => none

/-- Fields of a drain descriptor (R312). -/
def dCols (w : Word) : Nat := wbits w 46 6 + 1
def dRows (w : Word) : Nat := wbits w 40 6 + 1
def dRaw (w : Word) : Bool := w.getLsbD 36
def dSel (w : Word) : Nat := wbits w 33 3
def dOff (w : Word) : Nat := wbits w 16 17
def dCore (w : Word) : Nat := wbits w 0 16

/-- Bytes from one row of a drain to the next (R312). -/
def drainStride (w : Word) (v : Nat) : Nat :=
  if dRaw w then 16 * dCols w
  else
    let bl := bfBlockLen v
    let n := if bl = 0 then (dCols w * fmtWidth (bfElem v) + 7) / 8 else dCols w / bl * bfStride v
    (n + 15) / 16 * 16

/-- A format that a drain converts to (R312). -/
def drainFmt (v : Nat) : Bool :=
  v != 0 && bfSpar v == 0 && !bfSp v && (bits (bfElem v) 0 2 == 2 || [4, 6, 8, 16].contains (fmtWidth (bfElem v)))

/-- The checks of a drain descriptor in x2 (R312). -/
def drainCheck (regs : Vector Word 8) (w : Word) : Except Stop Unit :=
  let v := ((regs[dSel w]?).getD 0).toNat
  let bl := bfBlockLen v
  descr (wbits w 52 12 != 0 || wbits w 37 3 != 0 || dOff w % 16 != 0 || dCore w % 8 != 0 ||
    (!dRaw w && (!drainFmt v || (bl != 0 && dCols w % bl != 0))) ||
    decide (131072 < dOff w + dRows w * drainStride w v)) w 2

/-- A tile: `mx` or `mxs` (R311). -/
def State.checkTile (s : State) (sparse : Bool) (x : Vector Word 4) : Except Stop Checked := do
  let regs := (s.core (coreOf s.cur)).bf
  let a := if x[0].toNat / 2 ^ 32 = 0 then s.streamTok x[0] 4 else none
  let b := if x[1].toNat / 2 ^ 32 = 0 then s.streamTok x[1] 5 else none
  let spar (t : Option Token) : Nat := match t with | some t => bfSpar t.bf[0].toNat | none => 0
  descr a.isNone x[0] 0
  descr b.isNone x[1] 1
  let drn := x[3].getLsbD 1
  if drn then drainCheck regs x[2] else descr (x[2] != 0) x[2] 2
  let g := wbits x[3] 32 16
  let code := wbits x[3] 16 3
  let eng := wbits x[3] 3 2
  descr (wbits x[3] 48 16 != 0 || g == 0 || decide (4096 < g) || wbits x[3] 19 13 != 0 || wbits x[3] 5 11 != 0 || eng == 2 ||
    (eng == 3 && !(x[3].getLsbD 0 && drn)) || (if sparse then code == 0 || decide (5 < code) || code != spar a else code != 0)) x[3] 3
  descr (!sparse && spar a != 0) x[0] 0
  descr (spar b != 0) x[1] 1
  pure { s.plainChecked (.ok ()) with core := if drn then s.workerCheck (dCore x[2]) else .ok () }

/-- `mx.drn` and `mx.clr` (R314). -/
def State.checkBank (s : State) (drain : Bool) (x : Vector Word 4) : Except Stop Checked := do
  let regs := (s.core (coreOf s.cur)).bf
  if drain then drainCheck regs x[2] else descr (x[2] != 0) x[2] 2
  descr (x[3].toNat / 2 ^ 5 != 0 || x[3].toNat % 4 != 0 || decide (2 ≤ wbits x[3] 3 2)) x[3] 3
  pure { s.plainChecked (.ok ()) with core := if drain then s.workerCheck (dCore x[2]) else .ok () }

/-- Two byte ranges share a location. -/
def rangesMeet (a n b m : Nat) : Bool := n != 0 && m != 0 && decide (a < b + m) && decide (b < a + n)

/-- `cp` and `cp.cls` (R315). -/
def State.checkCopy (s : State) (cls : Bool) (x : Vector Word 4) : Except Stop Checked := do
  let n := x[2].toNat
  descr (cls && !aligned x[0] 64) x[0] 0
  descr (cls && !aligned x[1] 64) x[1] 1
  descr (n == 0 || decide (2 ^ 40 < n) || (cls && n % 64 != 0)) x[2] 2
  descr (if cls then x[3].toNat / 2 != 0 else x[3] != 0) x[3] 3
  pure (s.plainChecked (do
    s.baseCheck .read x[0]
    s.baseCheck .write x[1]
    if rangesMeet x[0].toNat n x[1].toNat n then .error (fltC Code.copyOverlap)))

/-- Bytes that an engine would read for a descriptor of a token of the running task; none where a check fails. -/
def State.peekBytes (s : State) (va : Word) (n : Nat) : List Byte :=
  match s.engLoc (cluOfPlace s.cur) s.me.ctxNo s.me.launchNo s.cur .read va with
  | .ok loc => s.bytesAt loc n
  | .error _ => []

/-- Bytes of a row of `n` elements in format `v`; 0 stands for bytes (R316). -/
def rowBytes (v n : Nat) : Nat :=
  if v = 0 then n
  else
    let bl := bfBlockLen v
    if bl = 0 then (n * fmtWidth (bfElem v) + 7) / 8 else n / bl * bfStride v

/-- The bounding range of a tensor's side from its base: strides are signed. -/
def boundOf (base : Nat) (rs ps : Nat) (n1 n2 row : Nat) : Nat × Nat :=
  let r := toInt 64 rs * (n1 - 1 : Nat)
  let p := toInt 64 ps * (n2 - 1 : Nat)
  let lo := min r 0 + min p 0
  let hi := max r 0 + max p 0
  (((base : Int) + lo).toNat, (hi - lo).toNat + row)

/-- The bounding ranges of a tensor copy overlap (R316). -/
def tensorOverlap (src dst : Nat) (bs : List Byte) : Bool :=
  let w := descWord bs
  let n0 := w 0 % 2 ^ 32
  let n1 := w 0 / 2 ^ 32
  let n2 := w 1 % 2 ^ 32
  let a := boundOf src (w 2) (w 3) n1 n2 (rowBytes (w 6) n0)
  let b := boundOf dst (w 4) (w 5) n1 n2 (rowBytes (w 7) n0)
  bs.length == 64 && n0 != 0 && n1 != 0 && n2 != 0 && rangesMeet a.1 a.2 b.1 b.2

/-- `cp.t` (R316): the bounding ranges are computed from the descriptor as it stands at issue. -/
def State.checkTensor (s : State) (x : Vector Word 4) : Except Stop Checked := do
  descr (!aligned x[2] 64) x[2] 2
  descr (x[3] != 0) x[3] 3
  pure (s.plainChecked (do
    s.baseCheck .read x[0]
    s.baseCheck .write x[1]
    s.baseCheck .read x[2]
    if tensorOverlap x[0].toNat x[1].toNat (s.peekBytes x[2] 64) then .error (fltC Code.copyOverlap)))

/-- Types of reductions (R317): bytes of an element; none where the code is reserved. -/
def redBytes (ty : Nat) : Option Nat :=
  match ty with
  | 0 => some 4 | 1 => some 8 | 2 => some 2 | 3 => some 2 | 4 => some 1 | 5 => some 1
  | 8 => some 1 | 9 => some 2 | 10 => some 4 | 11 => some 8 | 12 => some 1 | 13 => some 2 | 14 => some 4 | 15 => some 8
  | _ => none

/-- `cp.red` (R317). -/
def State.checkRed (s : State) (x : Vector Word 4) : Except Stop Checked := do
  let e := (redBytes (wbits x[3] 24 4)).getD 1
  descr (!aligned x[0] e) x[0] 0
  descr (!aligned x[1] e) x[1] 1
  descr (x[2] == 0 || decide (2 ^ 36 < x[2].toNat)) x[2] 2
  descr (x[3].toNat / 2 ^ 32 != 0 || wbits x[3] 0 24 != 0 || (redBytes (wbits x[3] 24 4)).isNone || decide (3 ≤ wbits x[3] 28 4)) x[3] 3
  pure (s.plainChecked (do
    s.baseCheck .read x[0]
    s.baseCheck .write x[1]))

/-- `cp.gat` and `cp.sca` (R318). -/
def State.checkIndexed (s : State) (x : Vector Word 4) : Except Stop Checked := do
  let e := wbits x[3] 32 16
  descr (!aligned x[2] (if x[3].getLsbD 48 then 8 else 4)) x[2] 2
  descr (x[3].toNat / 2 ^ 49 != 0 || e == 0 || e % 4 != 0 || decide (4096 < e) || wbits x[3] 0 32 == 0) x[3] 3
  pure (s.plainChecked (do
    s.baseCheck .read x[0]
    s.baseCheck .write x[1]
    s.baseCheck .read x[2]))

/-- Set id and participant count of a collective's descriptor, and whether an entry of its table names a linked module. -/
def State.peekColl (s : State) (x : Vector Word 4) : List Byte × Bool :=
  let bs := s.peekBytes x[2] 16
  let p := bits (descWord bs 0) 32 16
  (bs, (List.range p).any (fun r => bits (descWord (s.peekBytes (wd (descWord bs 1 + 8 * r)) 8) 0) 16 5 != 0))

/-- A collective (R320): `red` for `col.ar` and `col.rs`. Its instance is the next of the issuing core on its set (R321). -/
def State.checkColl (s : State) (red : Bool) (x : Vector Word 4) : Except Stop Checked := do
  let e := (redBytes (wbits x[3] 24 4)).getD 1
  let op := wbits x[3] 28 4
  descr (!aligned x[0] e) x[0] 0
  descr (!aligned x[1] e) x[1] 1
  descr (!aligned x[2] 64) x[2] 2
  descr (wbits x[3] 32 32 == 0 || (if red then decide (2 < op) else op != 3) || (redBytes (wbits x[3] 24 4)).isNone ||
    wbits x[3] 16 8 != 0) x[3] 3
  let (bs, far) := s.peekColl x
  let k := coreOf s.cur * 2 ^ 32 + descWord bs 0 % 2 ^ 32
  pure { s.plainChecked (do
      s.baseCheck .read x[0]
      s.baseCheck .write x[1]
      s.baseCheck .read x[2]) with desc := bs, inst := Tab.getD s.colls k 0 + 1, scope := if far then .fab else .dev }

/-- A row instruction (R334). -/
def State.checkRow (s : State) (fn : Nat) (x : Vector Word 4) : Except Stop Checked := do
  let op := wbits x[3] 54 3
  let ty := wbits x[3] 50 4
  let base := decide (fn ≤ 1)
  descr (!aligned x[0] 8) x[0] 0
  descr (if base then !aligned x[1] 32 else x[1] != 0) x[1] 1
  descr (!aligned x[2] (if x[3].getLsbD 57 then 8 else 4)) x[2] 2
  descr (wbits x[3] 58 6 != 0 || (if fn = 1 then decide (3 < op) || (if op = 3 then ty != 0 else (redBytes ty).isNone) else op != 0 || ty != 0) ||
    (fn != 4 && wbits x[3] 48 2 != 0) || wbits x[3] 32 8 != 0 || wbits x[3] 0 32 == 0) x[3] 3
  pure (s.plainChecked (do
    s.baseCheck .read x[0]
    if base then s.baseCheck (if fn = 0 then .write else .read) x[1]
    s.baseCheck .read x[2]))

/-! ### The issue (R295 to R298) -/

/-- The slot that a cluster's scheduler allocates: of those never used any (log entry 12), then the one freed least recently. -/
def State.takeSlot (s : State) (cl : Nat) : Option (Nat × State) :=
  let k := s.clu cl
  let unused := (List.range 1024).filter (fun n => (Tab.get? k.gens n).isNone)
  let bump (n : Nat) (s : State) (fr : List Nat) : Nat × State :=
    (n, s.setClu cl { k with freed := fr, gens := Tab.put k.gens n (Tab.getD k.gens n 0 % 16383 + 1) })
  match unused with
  | u :: us => some (bump (((u :: us)[Config.choice s.fresh % (us.length + 1)]?).getD u) s.draw k.freed)
  | [] => match k.freed with
    | n :: fr => some (bump n s fr)
    | [] => none

/-- The token of an issue as it is filed (R296). -/
def State.newToken (s : State) (maj fn hdl : Nat) (o : Opts) (c : Checked) (spec : Option (Nat × Nat)) : Token :=
  let t := s.me
  { hdl, st := if o.gate || spec.isSome then .issued else .waiting, maj, fn, pri := o.pri, hold := 0, holder := some s.cur, grp := t.grp,
    launch := t.launchNo, ctx := t.ctxNo, place := s.cur, ipc := t.ipc, cur := 0, cnt := 0, fadr := 0, fc := 0, rpl := 0, qr := 0,
    qsat := false, refd := false, flg := 0, ack := false, nf := 0, carr := 0, syn := 0, tiss := s.cyc, tend := 0, ntc := o.ntc,
    target := o.target, posted := false, deps := if o.dep = 0 then [] else [o.dep], gate := o.gate, defer := spec, x := t.x,
    fm := t.fm, f := t.f, srs := t.srs, bf := c.bf, cls := s.effClass s.cur, scope := c.scope, engine := none, lines := [], mask := [],
    susFault := false, susIssued := false, fifo := [], fetched := 0, claimed := 0, order := s.nextId, inst := c.inst, desc := c.desc,
    startedColl := false, inj := if maj = 0x10 ∧ fn ≤ 1 ∧ t.injTile then some (0, 0) else none, replayed := false, drainAt := 0, paused := 0,
    clock := s.clockOf s.cur, ts := if t.ordered then t.ts else 0 }

/-- A context counts a token of a major (R82). -/
def Thread.count (t : Thread) (maj : Nat) : Thread :=
  if maj = 0x10 then { t with ctl := t.ctl + 1 } else { t with ccp := t.ccp + 1 }

/-- The counter of R82 of a major is full. -/
def Thread.countFull (t : Thread) (maj : Nat) : Bool := if maj = 0x10 then decide (63 ≤ t.ctl) else decide (63 ≤ t.ccp)

/-- An issue waits for a token slot (R298). -/
def State.holdSlot (s : State) : Res :=
  let t := s.me
  let since := match t.wait with | .slot n => n | _ => s.cyc
  .error (.hold ((s.setMe { t with wait := .slot since }).rewind))

/-- Issue of a child operation: the checks in the order of R297, then the token (R295, R296), whose slot a dispatch core takes in the
cluster that serves it (log entry 27). The context's earlier accesses are performed first: the issue is a release (R186, R194; log
entry 20). -/
def State.issue (s : State) (maj fn : Nat) (d a : Spec) (imm : BitVec 7) (chk : Vector Word 4 → Except Stop Checked) : Res := do
  let o := mkOpts imm (← s.readReg a)
  let low := lo64 (← s.readReg a)
  if 5 ≤ o.ntc then .error (fltC Code.illegal)
  let c ← chk s.me.x
  descr (low.toNat / 2 ^ 32 != 0) low 4
  targetCheck o.ntc o.target
  if o.dep ≠ 0 then
    let _ ← s.handle false (wd o.dep)
  s.wakeCheck o.ntc o.target
  c.core
  c.after
  if o.ntc = 4 then s.baseCheck .write o.target
  s.free1 d
  if s.anyAcc (fun _ => true) then .error .wait
  let spec := s.me.speculative
  if !spec && s.me.countFull maj then .error .wait
  if spec && s.deferFull then .error (.hold (s.awaitFrontier s.cur))
  if s.slotsFull s.me.launchNo s.me.grp then s.holdSlot
  else
    let cl := s.homeCluster
    match s.takeSlot cl with
    | none => s.holdSlot
    | some (slot, s) =>
      let key := cl * 1024 + slot
      let s ← if spec then s.defer (.token key) else pure s
      let hdl := mkHdl cl slot (Tab.getD (s.clu cl).gens slot 1)
      let t := s.newToken maj fn hdl o c (if spec then s.me.entry?.map (fun e => (cl, e)) else none)
      let s := (s.setTok key t).bump
      let s := if spec then s else s.setMe (s.me.count maj)
      let s := s.setMe { s.me with wait := .none, injTile := if maj = 0x10 ∧ fn ≤ 1 then false else s.me.injTile }
      let s := if maj = 0x12 ∧ !c.desc.isEmpty then
          let k := coreOf s.cur * 2 ^ 32 + descWord c.desc 0 % 2 ^ 32
          { s with colls := Tab.put s.colls k c.inst }
        else s
      s.put 4 d (scalar (wd hdl))

def execMx (d a : Spec) (i : BitVec 7) (s : State) : Out := settle s (s.issue 0x10 0 d a i (s.checkTile false))
def execMxs (d a : Spec) (i : BitVec 7) (s : State) : Out := settle s (s.issue 0x10 1 d a i (s.checkTile true))
def execMxDrn (d a : Spec) (i : BitVec 7) (s : State) : Out := settle s (s.issue 0x10 2 d a i (s.checkBank true))
def execMxClr (d a : Spec) (i : BitVec 7) (s : State) : Out := settle s (s.issue 0x10 3 d a i (s.checkBank false))
def execCp (d a : Spec) (i : BitVec 7) (s : State) : Out := settle s (s.issue 0x11 0 d a i (s.checkCopy false))
def execCpT (d a : Spec) (i : BitVec 7) (s : State) : Out := settle s (s.issue 0x11 1 d a i s.checkTensor)
def execCpRed (d a : Spec) (i : BitVec 7) (s : State) : Out := settle s (s.issue 0x11 2 d a i s.checkRed)
def execCpCls (d a : Spec) (i : BitVec 7) (s : State) : Out := settle s (s.issue 0x11 3 d a i (s.checkCopy true))
def execStrmA (d a : Spec) (i : BitVec 7) (s : State) : Out := settle s (s.issue 0x11 4 d a i s.checkStream)
def execStrmB (d a : Spec) (i : BitVec 7) (s : State) : Out := settle s (s.issue 0x11 5 d a i s.checkStream)
def execCpGat (d a : Spec) (i : BitVec 7) (s : State) : Out := settle s (s.issue 0x11 6 d a i s.checkIndexed)
def execCpSca (d a : Spec) (i : BitVec 7) (s : State) : Out := settle s (s.issue 0x11 7 d a i s.checkIndexed)
def execColAr (d a : Spec) (i : BitVec 7) (s : State) : Out := settle s (s.issue 0x12 0 d a i (s.checkColl true))
def execColAg (d a : Spec) (i : BitVec 7) (s : State) : Out := settle s (s.issue 0x12 1 d a i (s.checkColl false))
def execColRs (d a : Spec) (i : BitVec 7) (s : State) : Out := settle s (s.issue 0x12 2 d a i (s.checkColl true))
def execColBc (d a : Spec) (i : BitVec 7) (s : State) : Out := settle s (s.issue 0x12 3 d a i (s.checkColl false))
def execColA2a (d a : Spec) (i : BitVec 7) (s : State) : Out := settle s (s.issue 0x12 4 d a i (s.checkColl false))
def execRowGat (d a : Spec) (i : BitVec 7) (s : State) : Out := settle s (s.issue 0x14 0 d a i (s.checkRow 0))
def execRowSca (d a : Spec) (i : BitVec 7) (s : State) : Out := settle s (s.issue 0x14 1 d a i (s.checkRow 1))
def execRowPin (d a : Spec) (i : BitVec 7) (s : State) : Out := settle s (s.issue 0x14 2 d a i (s.checkRow 2))
def execRowUnp (d a : Spec) (i : BitVec 7) (s : State) : Out := settle s (s.issue 0x14 3 d a i (s.checkRow 3))
def execRowHint (d a : Spec) (i : BitVec 7) (s : State) : Out := settle s (s.issue 0x14 4 d a i (s.checkRow 4))

end Sys2Proof.Machine
end

