-- ==== Sys2Proof/Machine/VecF.lean ====
section
/-! DEFINITION. Float lanes: element-wise operations of major 0x0A (R130 to R133), fused and dot forms of major 0x0D (R134 to
R136). -/

namespace Sys2Proof.Machine

/-- A lane whose exact result is rounded once (R130). -/
def arithLane (op : Nat → Val → Val → Val × Flags) (f : FFmt) (x y : Nat) (p : Fp) : Nat × Fp :=
  let r := op p.rm (decodeF f x) (decodeF f y)
  roundE f r.1 (p.raise r.2)

def execVaddF (t : FTy) (d a b : Spec) (s : State) : Out :=
  settle s (s.vecF2 4 t d a b (arithLane (fun rm x y => sumVals rm [x, y])))
def execVsubF (t : FTy) (d a b : Spec) (s : State) : Out :=
  settle s (s.vecF2 4 t d a b (arithLane (fun rm x y => sumVals rm [x, y.negate])))
def execVmulF (t : FTy) (d a b : Spec) (s : State) : Out :=
  settle s (s.vecF2 4 t d a b (arithLane (fun _ x y => mulVal x y)))
def execVdivF (t : FTy) (d a b : Spec) (s : State) : Out :=
  settle s (s.vecF2 4 t d a b (arithLane (fun _ x y => divVal x y)))

/-- Smaller of two values that are no NaNs, with -0 below +0 (R131). -/
def below (x y : Val) : Bool := x.lt y || (x.isZero && y.isZero && x.neg && !y.neg)

/-- `vmin` and `vmax` of two encodings: a NaN yields the other operand, two NaNs the canonical NaN (R131). -/
def pickLane (hi : Bool) (f : FFmt) (x y : Nat) (p : Fp) : Nat × Fp :=
  let u := decodeF f x
  let v := decodeF f y
  let p := p.raise (u.sigFlag ||| v.sigFlag)
  if u.isNan ∧ v.isNan then (f.nan, p)
  else if u.isNan then (y, p)
  else if v.isNan then (x, p)
  else if below u v then (if hi then y else x, p)
  else if below v u then (if hi then x else y, p)
  else (x, p)

def execVminF (t : FTy) (d a b : Spec) (s : State) : Out := settle s (s.vecF2 4 t d a b (pickLane false))
def execVmaxF (t : FTy) (d a b : Spec) (s : State) : Out := settle s (s.vecF2 4 t d a b (pickLane true))

/-- `vabs` and `vneg` of an encoding; of a NaN the canonical NaN (R131). -/
def signLane (g : Nat → Nat) (f : FFmt) (x : Nat) (p : Fp) : Nat × Fp :=
  let v := decodeF f x
  let top := 2 ^ (f.e + f.m)
  if v.isNan then (f.nan, p.raise v.sigFlag) else (x % top + g (x / top % 2) * top, p)

def execVabsF (t : FTy) (d a : Spec) (s : State) : Out := settle s (s.vecF1 t d a (signLane (fun _ => 0)))
def execVnegF (t : FTy) (d a : Spec) (s : State) : Out := settle s (s.vecF1 t d a (signLane (fun k => 1 - k)))

/-- A lane mask of a relation (R132). -/
def maskLane (k : Nat) (f : FFmt) (x y : Nat) (p : Fp) : Nat × Fp :=
  let (h, nv) := fcmpRel k (decodeF f x) (decodeF f y)
  (if h then 2 ^ f.w - 1 else 0, p.raise (if nv then fNv else 0))

def execVceqF (t : FTy) (d a b : Spec) (s : State) : Out := settle s (s.vecF2 4 t d a b (maskLane 0))
def execVcltF (t : FTy) (d a b : Spec) (s : State) : Out := settle s (s.vecF2 4 t d a b (maskLane 1))
def execVcleF (t : FTy) (d a b : Spec) (s : State) : Out := settle s (s.vecF2 4 t d a b (maskLane 2))
def execVcunF (t : FTy) (d a b : Spec) (s : State) : Out := settle s (s.vecF2 4 t d a b (maskLane 3))

/-- The sum of all lanes, rounded once; lanes that hold both infinities raise nv even beside a NaN (R133). -/
def sumLanes (f : FFmt) (xs : List Nat) (p : Fp) : Nat × Fp :=
  let vs := xs.map (decodeF f)
  let r := sumVals p.rm vs
  roundE f r.1 (p.raise (r.2 ||| (if vs.contains (.inf false) && vs.contains (.inf true) then fNv else 0)))

/-- `vmin` or `vmax` across all lanes (R133). -/
def pickLanes (hi : Bool) (f : FFmt) : List Nat → Fp → Nat × Fp
  | [], p => (0, p)
  | [x], p => if (decodeF f x).isNan then (f.nan, p.raise (decodeF f x).sigFlag) else (x, p)
  | x :: y :: t, p =>
    let r := pickLanes hi f (y :: t) p
    pickLane hi f x r.1 r.2

def execVrsumF (t : FTy) (d a : Spec) (s : State) : Out := settle s (s.vecFR t d a sumLanes)
def execVrmaxF (t : FTy) (d a : Spec) (s : State) : Out := settle s (s.vecFR t d a (pickLanes true))
def execVrminF (t : FTy) (d a : Spec) (s : State) : Out := settle s (s.vecFR t d a (pickLanes false))

/-- ±x*y ± w rounded once: a product of 0 and infinity is invalid whatever w is (R134). -/
def fmaLane (np nw : Bool) (f : FFmt) (x y w : Nat) (p : Fp) : Nat × Fp :=
  let q := mulVal (decodeF f x) (decodeF f y)
  let pr := if np then q.1.negate else q.1
  let wv := decodeF f w
  let r := sumVals p.rm [pr, if nw then wv.negate else wv]
  roundE f r.1 (p.raise (q.2 ||| r.2))

def execVfma (t : FTy) (d a b : Spec) (s : State) : Out := settle s (s.vecF3 4 t d a b (fmaLane false false))
def execVfms (t : FTy) (d a b : Spec) (s : State) : Out := settle s (s.vecF3 4 t d a b (fmaLane false true))
def execVfnma (t : FTy) (d a b : Spec) (s : State) : Out := settle s (s.vecF3 4 t d a b (fmaLane true true))
def execVfnms (t : FTy) (d a b : Spec) (s : State) : Out := settle s (s.vecF3 4 t d a b (fmaLane true false))

/-- Compact types: 0 f32, 1 b16, 2 h16 for `c.vfma` (R32). -/
def cFmaTy (t : BitVec 2) : FTy := match t.toNat with | 0 => .f32 | 1 => .b16 | _ => .h16

def execCVfma (t : BitVec 2) (b a d : CReg) (s : State) : Out :=
  settle s (s.vecF3 2 (cFmaTy t) (cReg d) (cReg a) (cReg b) (fmaLane false false))

/-- One FP32 lane of `vdot`: the products of `g` pairs added exactly to the lane (R135). All terms
are summed at once: a quiet NaN among them wins over infinities of both signs and raises no nv (log entry 95). -/
def dotLane (f : FFmt) (xs ys : List Nat) (w : Nat) (p : Fp) : Nat × Fp :=
  let ps := (xs.zip ys).map (fun e => mulVal (decodeF f e.1) (decodeF f e.2))
  let r := sumVals p.rm (decodeF fp32 w :: ps.map (·.1))
  roundE fp32 r.1 (p.raise (ps.foldl (fun a e => a ||| e.2) r.2))

def execVdot (t : FTy) (d a b : Spec) (s : State) : Out :=
  settle s (do
    s.latch [a, b, d]
    s.me.useCheck (s.me.ftyBad 0 [4, 8, 16] t)
    let (x, y, z) ← s.read3 a b d
    let f := s.me.ffmt t
    let g := 32 / f.w
    let els (r : Reg) (j : Nat) : List Nat := (List.range g).map (fun k => lane f.w r (g * j + k))
    let (xs, p) := lanesFp (fun j p => dotLane f (els x j) (els y j) (lane 32 z j) p) 4 0 s.fp
    (s.withFp p).put 4 d (ofLanes 32 xs))

/-- R136. -/
def execVdoti (t : IntTy) (d a b : Spec) (s : State) : Out :=
  settle s (do
    let (x, y, z) ← s.read3 a b d
    let w := intW t
    let g := 32 / w
    let val (r : Reg) (i : Nat) : Int := if intSigned t then toInt w (lane w r i) else (lane w r i : Nat)
    let sum (j : Nat) : Int := (List.range g).foldl (fun (n : Int) k => n + val x (g * j + k) * val y (g * j + k)) (lane 32 z j : Nat)
    s.put 4 d (mkLanes 32 4 (fun j => ofInt 32 (sum j))))

end Sys2Proof.Machine
end

