-- ==== Sys2Proof/Machine/Engine.lean ====
section
/-! DEFINITION. The engines that run tokens: accesses and claims (R164, R195, R296, R303), starts (R299 to R301), streams, tiles
and drains (R309 to R314), copies (R315 to R319), faults of tokens and their ends (R299, R304). -/

namespace Sys2Proof.Machine

/-! ### Engine accesses (R164, R303) -/

/-- Why an engine's step does nothing now, or what faults its token, in the state that the step left. -/
inductive EngErr where
  | wait
  | fault (s : State) (fc : Nat) (fadr syn : Word)
  /-- Another token, a participant of the same collective, was faulted. -/
  | ended (s : State)

abbrev Eng (α : Type) := Except EngErr α

/-- The code of R303 of a failed translation. An address outside every window of R21 lies in no lease. -/
def fcOf (code : Nat) : Nat :=
  if code = Code.permission then 2
  else if code = Code.pagePoison then 3
  else if code = Code.pageAbsent then 4
  else if code = Code.backing then 5
  else 1

/-- What a failed lease check logs: the index of the lease that holds the address; where none does, the spec states none
(log entry 24). -/
def State.leaseSyn (s : State) (t : Token) (va : Word) : Word :=
  match (t.launch.bind s.launch?).bind (fun L => findLease va.toNat L.leases 0) with
  | some (i, _) => wd i
  | none => Config.syndrome 1 s.fresh 0

/-- The link that a line of host or peer memory needs does not carry it: the device holds no copy (R406, R410). -/
def State.linkRefuses (s : State) (loc : Nat) : Bool :=
  isRemote loc && (Tab.get? s.copies (loc / 32)).isNone && (s.portRefuses loc || (locTag loc == 1 && s.hub.rate == 0))

/-- What that faults a token with (R303, R406, R410). -/
def State.linkFault (s : State) (t : Token) (loc : Nat) (va : Word) : EngErr :=
  let port : Word := if locTag loc = 1 then 0 else wd (locTag loc - 2)
  if t.maj = 0x12 then .fault s 0x11 0 port else .fault s 0x14 va port

/-- The location of an address for a token (R296). -/
def State.engAt (s : State) (t : Token) (k : AKind) (va : Word) : Eng Nat :=
  match s.engLoc (cluOfPlace t.place) t.ctx t.launch t.place k va with
  | .ok loc => if s.pathWaits t.place loc then .error .wait else if s.linkRefuses loc then .error (s.linkFault t loc va) else .ok loc
  | .error 0 => .error .wait
  | .error c => .error (.fault s (fcOf c) va (if fcOf c = 1 then s.leaseSyn t va else 0))

/-- Addresses that the present step of a running token may access: of a copy its source and destination at the cursor, of any other the
addresses in its registers (log entry 125). -/
def Token.vas (t : Token) : List Word :=
  if t.maj = 0x11 ∧ t.fn ≤ 1 then [t.x[0] + wd t.cur, t.x[1] + wd t.cur]
  else if t.maj = 0x11 ∨ t.maj = 0x14 then [t.x[0], t.x[1]]
  else if t.maj = 0x10 ∧ 2 ≤ t.fn then [t.x[0]]
  else []

/-- The first of those that lies in the memory of tag `tag`, outside the device's copies, while the token runs. -/
def State.tokenAt (s : State) (t : Token) (tag : Nat) : Option Word :=
  if t.st ≠ .running ∧ t.st ≠ .draining then none
  else t.vas.find? (fun va => match s.engLoc (cluOfPlace t.place) t.ctx t.launch t.place .read va with
    | .ok loc => locTag loc == tag && (Tab.get? s.copies (loc / 32)).isNone
    | .error _ => false)

def Token.reader (t : Token) : Reader := { launch := t.launch, grp := t.grp, place := t.place }

/-- An engine's miss is served as R229 gives: by a walk of the service core, which its Halted or frozen state and eight busy walk
contexts hold up; the table words it reads are checked and charged to the token's group (R218), and the entry found goes into the
cluster TLB. -/
def State.engMiss (s : State) (t : Token) (va : Word) : Eng State :=
  let cl := cluOfPlace t.place
  let vpn := va.toNat / 0x10000
  if windowOf va.toNat ≠ some .translated ∨ !s.leaseOk t.launch .read va.toNat ∨ (fixedEntry (coreOf t.place) t.ctx vpn).isSome ∨
      (s.clu cl).tlb.any (teMatch t.ctx vpn) then .ok s
  else if !s.serves cl || decide (8 ≤ s.busyWalks (walkCluster cl)) then .error .wait
  else match s.walkFor (walkCluster cl) t.ctx (vpn * 0x10000) t.reader with
    | (.ok e, s) => .ok (s.setClu cl { s.clu cl with tlb := cluTlbPut (s.clu cl).tlb e })
    | (.error _, s) => .error (.fault s 4 va 0)

/-- An access of a token: the miss, if its page is in no TLB, then the location (R229, R296). -/
def State.engGo (s : State) (t : Token) (k : AKind) (va : Word) : Eng (Nat × State) := do
  let s ← s.engMiss t va
  let loc ← s.engAt t k va
  pure (loc, s)

/-- The class by which an engine's access is checked: the captured one for a core scratchpad (R217). -/
def State.engClass (s : State) (t : Token) (loc : Nat) : Nat := if locTag loc = tagScratch then t.cls else s.locClass loc

/-- The wider of two scopes of a token (R296). -/
def wider (a b : Scope) : Scope :=
  let rank : Scope → Nat | .host => 1 | .link => 2 | .fab => 3 | _ => 0
  if rank a < rank b then b else a

/-- A token's scope is widened as it meets a host-backed or a peer-backed page (R296). -/
def State.widen (s : State) (t : Token) (loc : Nat) : State :=
  if !isRemote loc || t.maj == 0x12 then s
  else match s.tok? (hdlKey t.hdl) with
    | some u => s.setTok (hdlKey t.hdl) { u with scope := wider u.scope (if locTag loc = 1 then .host else .link) }
    | none => s

/-- Read bytes for a token, granule by granule (R212). -/
def State.engRead (t : Token) : Nat → State → Nat → Nat → Eng (List Byte × State)
  | 0, s, _, _ => .ok ([], s)
  | k + 1, s, a, n =>
    if n = 0 then .ok ([], s)
    else
      let m := Nat.min n (64 - a % 64)
      match s.engGo t .read (wd a) with
      | .error e => .error e
      | .ok (loc, s) =>
        let s := s.widen t loc
        let cls := s.engClass t loc
        match s.checkGran loc cls t.reader with
        | (.bad f, s) => .error (.fault s 6 (wd (a / 64 * 64)) (wd (cls + if f then 4 else 0)))
        | (o, s) =>
          match State.engRead t k s (a + m) (n - m) with
          | .ok (bs, s') => .ok (o.apply loc (s.bytesAt loc m) ++ bs, s')
          | e => e

def State.rd (s : State) (t : Token) (a n : Nat) : Eng (List Byte × State) := State.engRead t (n / 64 + 2) s a n

/-- Write bytes for a token, granule by granule (R212, R215, R216). -/
def State.engWrite (t : Token) : Nat → State → Nat → List Byte → Eng State
  | 0, s, _, _ => .ok s
  | k + 1, s, a, bs =>
    if bs.isEmpty then .ok s
    else
      let m := Nat.min bs.length (64 - a % 64)
      match s.engGo t .write (wd a) with
      | .error e => .error e
      | .ok (loc, s) =>
        let s := s.widen t loc
        if m = 64 then State.engWrite t k (s.storeWhole loc (bs.take 64)) (a + 64) (bs.drop 64)
        else match s.storeGran loc (s.engClass t loc) (bs.take m) t.reader with
          | (true, s) => State.engWrite t k s (a + m) (bs.drop m)
          | (false, s) => .error (.fault s 7 (wd a) 0)

/-- Claim a line for the token at `key`: none while another engine holds it (R164, R195), its home processes an access to it, or
accesses that waited for its release have not been taken up (R162). -/
def State.claim (s : State) (key line : Nat) : Option State :=
  if !covered (line * 32) then some s
  else match Tab.getD s.dir line .uncached with
    | .engine k _ => if k = key then some s else none
    | d =>
      if s.acc.any (fun e => e.2.homed && e.2.n != 0 && e.2.loc / 32 == line) || !(s.waiting line).isEmpty || (d == .overflowed && s.homeCoreHalted line) then none else
      let s := if d = .overflowed then
          let cl := s.homeSlice (line * 32)
          s.setClu cl { s.clu cl with ovf := (s.clu cl).ovf.filter (fun e => e.line != line) }
        else s
      let s := { s with dir := Tab.put s.dir line (.engine key []) }
      match s.tok? key with
      | some t => some (s.setTok key { t with lines := t.lines ++ [line] })
      | none => some s

/-- Release a line of a token; the accesses that waited proceed (R164). -/
def State.unclaim (s : State) (key line : Nat) : State :=
  match s.tok? key with
  | some t =>
    if t.lines.contains line then
      (s.setTok key { t with lines := t.lines.filter (· != line), mask := t.mask.filter (· != line) }).releaseLine line
    else s
  | none => s

/-- Claim the lines of a destination range, one address of each line at a time. -/
def State.claimFrom (t : Token) (key : Nat) : Nat → State → Nat → Nat → Eng State
  | 0, s, _, _ => .ok s
  | k + 1, s, a, n =>
    if n = 0 then .ok s
    else
      let m := Nat.min n (32 - a % 32)
      match s.engGo t .write (wd a) with
      | .error e => .error e
      | .ok (loc, s) => match s.claim key (loc / 32) with
        | some s => State.claimFrom t key k s (a + m) (n - m)
        | none => .error .wait

/-- Lines of a destination range. -/
def State.linesOf (s : State) (t : Token) (a n : Nat) : List Nat :=
  ((List.range (n / 32 + 2)).map (fun i => a / 32 * 32 + 32 * i)).filterMap (fun x =>
    if x < a + n then (match s.engAt t .write (wd (Nat.max x a)) with | .ok loc => some (loc / 32) | .error _ => none) else none)

/-- Lines just written that one of the copy's later writes goes to as well, so that none is released half written (R164, R195; log entry
109). -/
def State.keptLines (s : State) (t : Token) (ls : List Nat) (later : List (Nat × Nat)) : List Nat :=
  ls.filter (fun l => later.any (fun r => (s.linesOf t r.1 r.2).contains l))

/-- One write of a copy, with the ranges of its later ones: release the lines of the write before, claim, write; the lines written stay
until the next step or ENGINE_RELEASE, or until the last write to them (R164, R195). -/
def State.engPut (s : State) (key : Nat) (t : Token) (a : Nat) (bs : List Byte) (later : List (Nat × Nat)) : Eng State := do
  let s := t.mask.foldl (fun s l => s.unclaim key l) s
  let s ← State.claimFrom t key (bs.length / 32 + 2) s a bs.length
  let s ← State.engWrite t (bs.length / 64 + 2) s a bs
  let ls := s.linesOf t a bs.length
  let kept := s.keptLines t ls later
  match s.tok? key with
  | some t => pure (s.setTok key { t with mask := ls.filter (fun l => t.lines.contains l && !kept.contains l) })
  | none => pure s

/-- Pages of a source and a destination must agree in class (R220); the logged address is the first of the copy in the
destination's page: its base in the page where it begins, else the page's first. -/
def State.classCheck (s : State) (t : Token) (src dst base : Nat) : Eng Unit := do
  let a ← s.engAt t .read (wd src)
  let b ← s.engAt t .write (wd dst)
  if locTag a = 0 ∧ locTag b = 0 ∧ s.locClass a ≠ s.locClass b then
    let size := s.engPage (cluOfPlace t.place) t.ctx t.place (wd dst)
    .error (.fault s 8 (wd (if base / size = dst / size then base else dst / size * size)) (Config.syndrome 0 (s.locClass a) (s.locClass b)))

/-- Offsets in `n` bytes from `a` at which a further page begins. -/
def pageOffs (a n : Nat) : List Nat :=
  (List.range ((a % 0x10000 + n - 1) / 0x10000)).map (fun i => (i + 1) * 0x10000 - a % 0x10000)

/-- The same for every page of `n` source bytes with the page that the `m` destination bytes made of it go to. -/
def State.classSpan (s : State) (t : Token) (src n dst m base : Nat) : Eng Unit := do
  s.classCheck t src dst base
  (pageOffs dst m).forM (fun o => s.classCheck t (src + o * n / Nat.max 1 m) (dst + o) base)
  (pageOffs src n).forM (fun o => s.classCheck t (src + o) (dst + o * m / Nat.max 1 n) base)

/-! ### Faults and ends of tokens (R299, R319) -/

/-- A token of the copy family (R329). -/
def Token.copy (t : Token) : Bool := t.maj == 0x11 && (decide (t.fn ≤ 3) || t.fn == 6 || t.fn == 7)
def Token.stream (t : Token) : Bool := t.maj == 0x11 && (t.fn == 4 || t.fn == 5)
def Token.tile (t : Token) : Bool := t.maj == 0x10 && decide (t.fn ≤ 1)
def Token.active (t : Token) : Bool := t.st == .running || t.st == .draining

/-- The cursor's unit that fills 4 KiB (R319). -/
def Token.chunk (t : Token) : Nat :=
  if t.fn = 6 ∨ t.fn = 7 then Nat.max 1 (4096 / Nat.max 1 (wbits t.x[3] 32 16)) else 4096

/-- Where a stopped copy restarts: whole, from the last 4 KiB boundary for a resumable group, or at its count (R319); a row
operation keeps its window (R338). -/
def Token.stopAt (t : Token) (res : Bool) : Nat :=
  if t.maj = 0x11 ∧ t.fn = 2 then t.cnt
  else if t.copy then (if res then t.cnt / t.chunk * t.chunk else 0)
  else t.cur

/-- A fault of a row token counts what its present window has performed; one before the window's first effect counts none of it (R338). -/
def Token.rowCut (t : Token) : Token :=
  if t.maj = 0x14 then { t with cnt := if t.claimed = 1 then t.cur + t.mask.length else t.cur } else t

/-- A token faults, or is Suspended by the fault (R299, R319). -/
def State.faultTok (s : State) (key fc : Nat) (fadr syn : Word) : State :=
  match s.tok? key with
  | none => s
  | some t =>
    if t.st.terminal then s
    else
      let res := s.resumable t.launch t.grp
      let t' := { t.rowCut with fc, fadr, syn, cur := t.stopAt res, refault := false, ack := false }
      if res && t.copy && t.fn != 2 then
        let s := s.releaseLines t.lines
        s.setTok key { t' with st := .suspended, susFault := true, tend := s.cyc, lines := [], mask := [], posted := t.ntc == 0 }
      else (s.setTok key t').endTok key .faulted

/-- A step of an engine that may fail: nothing happens, the token faults, or its state. -/
def State.engStep (s : State) (key : Nat) (r : Eng State) : State :=
  match r with
  | .ok s' => s'
  | .error .wait => s
  | .error (.fault s' fc a y) => s'.faultTok key fc a y
  | .error (.ended s') => s'

/-- The environment in which an engine rounds: the captured mode; draws of its own generator (R104, log entry 5). -/
def State.engFp (s : State) (t : Token) : Fp × State :=
  ({ rm := wbits t.fm 0 3, srs := Config.engineDraw s.fresh, fl := 0 }, s.draw)

/-! ### Starts (R299 to R301, R310, R314) -/

/-- Engine and bank that a tile operation names; engine 3 is any (R311, R314). -/
def Token.eng (t : Token) : Nat := wbits t.x[3] 3 2
def Token.bank (t : Token) : Nat := wbits t.x[3] 2 1

/-- Every dependence is Done; a freed slot's token was unless the dependent has noted otherwise (R301, R307). -/
def State.depsDone (s : State) (t : Token) : Bool :=
  t.lost.isNone && t.deps.all (fun h => match s.tok? (hdlKey h) with | some d => d.hdl != h || d.st == .done | none => true)

/-- A dependence that is Faulted or Cancelled (R299). -/
def State.depFailed (s : State) (t : Token) : Option Nat :=
  t.lost <|> t.deps.find? (fun h => match s.tok? (hdlKey h) with | some d => d.hdl == h && (d.st == .faulted || d.st == .cancelled) | none => false)

/-- Priority of a token's group (R358). -/
def State.tokGroupPri (s : State) (t : Token) : Nat := ((t.launch.bind (fun l => s.group? l t.grp)).map (·.pri)).getD 0

/-- `u` goes before `t` where both compete (R300). -/
def State.ahead (s : State) (u t : Token) : Bool :=
  let a := s.tokGroupPri u
  let b := s.tokGroupPri t
  decide (b < a) || (a == b && (decide (t.pri < u.pri) || (u.pri == t.pri && decide (u.order < t.order))))

/-- The cluster whose units run a token: that of its slot (R293). -/
def Token.cluster (t : Token) : Nat := hdlKey t.hdl / 1024

/-- Two tokens compete for one unit of a cluster, its streamers and its link agent among them (R300; log entry 110). -/
def rivals (t u : Token) (e : Nat) : Bool :=
  t.cluster == u.cluster &&
    ((t.stream && u.stream) || (t.maj == 0x12 && u.maj == 0x12) ||
    ((t.copy && u.copy) || (t.maj == 0x14 && u.maj == 0x14) ||
      (t.maj == 0x10 && u.maj == 0x10 && (u.engine.getD u.eng == e || (u.engine.isNone && u.eng == 3)) && (t.bank == u.bank || (t.tile && u.tile)))))

/-- A unit that is busy with one token takes no other: the streamers and the link agents serve several at once (log entry 110). -/
def Token.alone (t : Token) : Bool := !t.stream && t.maj != 0x12

/-- The stream token of a handle while its slot still is that token's. -/
def State.streamOf (s : State) (h : Nat) : Option (Nat × Token) :=
  match s.tok? (hdlKey h) with
  | some t => if t.hdl = h then some (hdlKey h, t) else none
  | none => none

def Token.tileGroups (t : Token) : Nat := wbits t.x[3] 32 16

/-- A tile takes its groups of one stream, on engine `e`; those of a faulted stream up to the group concerned (R310). -/
def State.bindStream (s : State) (h need e : Nat) : Eng State :=
  match s.streamOf h with
  | none => .error (.fault s 0x0C 0 (wd h))
  | some (k, t) =>
    if t.st.terminal ∧ t.st ≠ .done ∧ ¬ (t.st = .faulted ∧ t.claimed ≤ t.fetched) then .error (.fault s 0x0C 0 (wd h))
    else if t.st ≠ .running ∧ !t.st.terminal then .error .wait
    else if t.engine.isSome ∧ t.engine ≠ some e then .error (.fault s 0x0C 0 (wd h))
    else if t.groups < t.claimed + need then .error (.fault s 0x0D 0 (wd h))
    else .ok (s.setTok k { t with engine := some e, claimed := t.claimed + need })

/-- A tile takes its groups of both its streams, or of neither where one of them faults it (R310). -/
def State.bindBoth (s : State) (t : Token) (e : Nat) : Eng State := do
  let u ← s.bindStream t.x[0].toNat t.tileGroups e
  match u.bindStream t.x[1].toNat t.tileGroups e with
  | .error (.fault _ fc a y) => .error (.fault s fc a y)
  | r => r

/-- Key of an accumulator element (R116). -/
def accKey (cl e b i j : Nat) : Nat := ((cl * 2 + e) * 2 + b) * 4096 + 64 * i + j

/-- Every element of a bank +0 (R314). -/
def State.clearBank (s : State) (cl e b : Nat) : State :=
  let k := accKey cl e b 0 0
  { s with accum := s.accum.filter (fun x => decide (x.1 < k) || decide (k + 4096 ≤ x.1)) }

/-- The engine that a tile of engine 3 goes to: the one that a stream of it is bound to, or any (R310, R311; log entry 55). -/
def State.boundTo (s : State) (t : Token) : Option Nat :=
  let e (h : Nat) : Option Nat := (s.streamOf h).bind (fun x => x.2.engine)
  if t.tile then (e t.x[0].toNat).or (e t.x[1].toNat) else none

/-- An earlier tile that is still to start names one of the same streams (R301). -/
def State.earlierTile (s : State) (t : Token) : Bool :=
  t.tile && s.toks.any (fun e => e.2.tile && !e.2.st.terminal && !e.2.active && decide (e.2.order < t.order) &&
    (e.2.x[0] == t.x[0] || e.2.x[1] == t.x[1]))

/-- A Waiting token could start but for its unit: its dependences are Done and its operand sources are ready (R299, R301). -/
def State.startable (s : State) (t : Token) : Bool :=
  let source (h : Nat) : Bool := match s.streamOf h with | some (_, u) => u.st == .running || u.st.terminal | none => true
  t.st == .waiting && s.depsDone t && !s.earlierTile t && (!t.tile || (source t.x[0].toNat && source t.x[1].toNat))

/-- A collective's participant table entry. -/
def State.participant (s : State) (t : Token) (r : Nat) : Option Nat :=
  match s.engAt t .read (wd (descWord t.desc 1 + 8 * r)) with
  | .ok loc => some (s.readN loc 8)
  | .error _ => none

def Token.parties (t : Token) : Nat := bits (descWord t.desc 0) 32 16

/-- The port of a linked module that stands at rank `r`, where it is Down or Disabled (R320, R410). -/
def State.downParty (s : State) (t : Token) (r : Nat) : Option Nat :=
  match s.participant t r with
  | some e =>
    let p := bits e 16 5
    if p = 0 ∨ 16 < p then none
    else let st := (s.ntr (p - 1)).st; if st = 0 ∨ st = 4 then some (p - 1) else none
  | none => none

/-- The token that rank `r` has issued for the instance of `t`. -/
def State.mate (s : State) (t : Token) (r : Nat) : Option (Nat × Token) :=
  match s.participant t r with
  | some e => s.toks.find? (fun x => sameInst t x.2 && coreOf x.2.place == bits e 0 16 / 8 && bits e 16 5 == 0)
  | none => none

/-- Participants agree on instruction, count, type, op, number and root, and stand at their ranks (R321). -/
def agrees (t u : Token) (r : Nat) : Bool :=
  t.fn == u.fn && wbits t.x[3] 24 40 == wbits u.x[3] 24 40 && t.parties == u.parties && descWord t.desc 0 / 2 ^ 48 == descWord u.desc 0 / 2 ^ 48 &&
    u.rank == r

/-- What fails for the token at `k` faults that one (R321). -/
def blame {α : Type} (k : Nat) (r : Eng α) : Eng α :=
  match r with
  | .error (.fault s fc a y) => .error (.ended (s.faultTok k fc a y))
  | r => r

/-- The descriptor of a collective and its participant table obey R320, as the link agent reads them at the start. -/
def State.collDesc (s : State) (t : Token) : Eng State := do
  let (bs, s) ← s.rd t t.x[2].toNat 64
  let p := bits (descWord bs 0) 32 16
  if p < 2 ∨ 4096 < p then .error (.fault s 0x0B t.x[2] (wd (descWord bs 0)))
  match [2, 3, 4, 5, 6, 7].find? (fun k => descWord bs k != 0) with
  | some k => .error (.fault s 0x0B (t.x[2] + wd (8 * k)) (wd (descWord bs k)))
  | none =>
    let (tab, s) ← s.rd t (descWord bs 1) (8 * p)
    match (List.range p).find? (fun r => descWord tab r / 2 ^ 21 != 0 || decide (16 < bits (descWord tab r) 16 5)) with
    | some r => .error (.fault s 0x0B (wd (descWord bs 1 + 8 * r)) (wd (descWord tab r)))
    | none => pure s

/-- A collective whose descriptor could not be read at its issue joins the next instance of its set once it can be (R321; log entry
122). -/
def State.rekey (s : State) (key : Nat) (t : Token) : Eng State := do
  let (bs, s) ← s.rd t t.x[2].toNat 16
  let k := coreOf t.place * 2 ^ 32 + descWord bs 0 % 2 ^ 32
  let n := Tab.getD s.colls k 0 + 1
  pure (({ s with colls := Tab.put s.colls k n } : State).setTok key { t with desc := bs, inst := n })

/-- A collective starts when every participant has issued (R321); each one's descriptor is read by the start (R320). Where two disagree
every token of the instance faults. -/
def State.startColl (s : State) (key : Nat) (t : Token) : Eng State := do
  let s ← s.collDesc t
  if t.desc.isEmpty then s.rekey key t else
  match (List.range t.parties).findSome? (s.downParty t) with
  | some p => pure ((s.toks.filter (fun e => sameInst t e.2)).foldl (fun s e => s.faultTok e.1 0x11 0 (wd p)) s)
  | none =>
  let ms := (List.range t.parties).map (s.mate t)
  if ms.any (fun m => match m with | some (_, u) => u.st != .waiting || !s.depsDone u | none => true) then .error .wait
  let us := ms.filterMap id
  if !us.any (fun u => u.1 == key) then .error .wait
  let s ← us.foldlM (fun s u => if u.1 = key then pure s else blame u.1 (s.collDesc u.2)) s
  match us.zipIdx.find? (fun e => !agrees t e.1.2 e.2) with
  | some (_, r) => pure ((s.toks.filter (fun e => sameInst t e.2)).foldl (fun s e => s.faultTok e.1 0x0F 0 (wd r)) s)
  | none => pure (us.foldl (fun s u => s.setTok u.1 { u.2 with st := .running, startedColl := true }) s)

/-- TOKEN_START: a Waiting token whose dependences are Done is taken by its engine if no other goes before it (R299 to R301). -/
def State.tokenStart (s : State) (key e : Nat) : State :=
  match s.tok? key with
  | none => s
  | some t =>
    if t.st ≠ .waiting ∨ s.hub.frozen then s
    else match s.depFailed t with
      | some h => (s.setTok key { t with fc := 0x0E, fadr := 0, syn := wd h, refault := false }).endTok key .cancelled
      | none =>
        let others := s.toks.filter (fun x => x.1 != key && rivals t x.2 e)
        let taken := t.alone && others.any (fun x => x.2.active)
        let first := !others.any (fun x => s.startable x.2 && s.ahead x.2 t && (x.2.eng != 3 || (s.boundTo x.2).getD e == e))
        let wrong := t.maj == 0x10 && (decide (2 ≤ e) || (if t.eng = 3 then (s.boundTo t).getD e != e else t.eng != e))
        if !s.depsDone t || taken || !first || wrong || s.earlierTile t || (s.context t.ctx).st == .suspended then s
        else if t.maj = 0x12 then s.engStep key (s.startColl key t)
        else if t.tile then
          s.engStep key (do
            let s ← s.bindBoth t e
            let s := if t.x[3].getLsbD 0 then s.clearBank t.cluster e t.bank else s
            pure (s.setTok key { t with st := .running, engine := some e }))
        else if t.maj = 0x10 ∧ t.fn = 3 then
          (s.clearBank t.cluster e t.bank).setTok key { t with st := .running, engine := some e, startedColl := true }
        else s.setTok key { t with st := .running, engine := if t.stream then t.engine else some e, mask := if t.maj = 0x14 then t.mask else [] }

def execTokenStart (tok engine : Nat) (s : State) : Out := .next (s.tokenStart tok engine)

/-! ### Streams (R309, R310) -/

/-- Elements of one line of a group, `none` where a sparse line keeps nothing; none for a malformed block (R109, R309). -/
def groupVals (v : Nat) (bs : List Byte) (scales : List Byte) : Option (List (Option Val)) :=
  let bl := bfBlockLen v
  let el := eFmt (bfElem v)
  if bl = 0 then some ((codesOf (leNat bs) 0 el.w 48).map (fun c => some (el.decode c)))
  else
    let byte (k : Nat) : Nat := ((bs[k]?).getD 0).toNat
    let blocks := (List.range ((48 + bl - 1) / bl)).map (fun b =>
      let r := rawBlock v byte (b * bfStride v)
      if bfSp v then { r with scale := ((scales[b]?).getD 0).toNat } else r)
    if blocks.any (fun r => (blockVals v r).isNone) then none
    else some ((blocks.flatMap (fun r =>
      let vs := (blockVals v r).getD []
      match r.idx with
      | some idx => vs.zipIdx.map (fun e => if idx.contains e.2 then some e.1 else none)
      | none => vs.map some)).take 48)

/-- Fetch one line's part of a group, and its scales from the bank's table where they stand there (R108, R309). -/
def State.fetchLine (s : State) (t : Token) (i g : Nat) : Eng (List Byte × State) := do
  let v := t.bf[0].toNat
  let n := groupBytes v
  let a := t.x[0].toNat + i * wbits t.x[1] 0 32 + g * n
  let (bs, s) ← s.rd t a n
  if bfSp v then
    let base := (a - nearBase) / 16384 * 16384
    let blk := (a - nearBase) % 16384 / bfStride v
    let (sc, s) ← s.rd t (nearBase + base + 64 * bfTso v + blk) ((48 + bfBlockLen v - 1) / bfBlockLen v)
    if (groupVals v bs sc).isNone then .error (.fault s 0x0A (wd a) 0)
    pure (bs ++ sc, s)
  else
    if (groupVals v bs []).isNone then .error (.fault s 0x0A (wd a) 0)
    pure (bs, s)

def State.fetchLines (t : Token) (g : Nat) : Nat → Nat → State → Eng (List (List Byte) × State)
  | 0, _, s => .ok ([], s)
  | n + 1, i, s => do
    let (b, s) ← s.fetchLine t i g
    let (bs, s) ← State.fetchLines t g n (i + 1) s
    pure (b :: bs, s)

/-- STREAM_GROUP_FETCH: the next group goes into the FIFO, at most eight ahead of consumption (R310). -/
def State.streamFetch (s : State) (key : Nat) : State :=
  match s.tok? key with
  | none => s
  | some t =>
    let due := t.st == .running || (t.st == .draining && decide (t.fetched < t.claimed))
    if !t.stream || !due || t.engine.isNone || decide (t.groups ≤ t.fetched) || decide (t.cur + 8 ≤ t.fetched) || s.hub.frozen then s
    else s.engStep key (do
      let (ls, s) ← State.fetchLines t t.fetched (wbits t.x[2] 0 7) 0 s
      pure (match s.tok? key with
        | some t => s.setTok key { t with fifo := t.fifo ++ [ls], fetched := t.fetched + 1 }
        | none => s))

def execStreamGroupFetch (tok : Nat) (s : State) : Out := .next (s.streamFetch tok)

/-! ### Tiles (R313) -/

/-- The 64 lines of a group; lines that are not present are zero. -/
def groupLines (t : Token) (ls : List (List Byte)) : List (List (Option Val)) :=
  let v := t.bf[0].toNat
  let n := groupBytes v
  (List.range 64).map (fun i => match ls[i]? with
    | some b => (groupVals v (b.take n) (b.drop n)).getD []
    | none => (List.range 48).map (fun _ => some (Val.zero false)))

/-- Products of two lines, over the elements that the first keeps, with the flags that they raise. -/
def lineProducts (a b : List (Option Val)) : List Val × Flags :=
  (a.zip b).foldl (fun (r : List Val × Flags) e =>
    match e.1, e.2 with
    | some x, some y => let p := mulVal x y; (r.1 ++ [p.1], r.2 ||| p.2)
    | _, _ => r) ([], 0)

/-- Accumulate one group into an engine's bank (R117, R313). -/
def State.accumulate (s : State) (cl e b : Nat) (as bs : List (List (Option Val))) : State × Flags :=
  (as.zipIdx).foldl (fun (r : State × Flags) x =>
    (bs.zipIdx).foldl (fun (r : State × Flags) y =>
      let k := accKey cl e b x.2 y.2
      let p := lineProducts x.1 y.1
      let q := accGroup (Tab.getD r.1.accum k 0) p.1
      ({ r.1 with accum := if q.1 = 0 then Tab.del r.1.accum k else Tab.put r.1.accum k q.1 }, r.2 ||| p.2 ||| q.2)) r) (s, 0)

/-- A stream gives up the group at its head; it is Done with its last (R310). -/
def State.consume (s : State) (key : Nat) (t : Token) : State :=
  let u : Token := { t with cur := t.cur + 1, fifo := t.fifo.drop 1 }
  if t.cur + 1 = t.groups then (s.setTok key u).endTok key .done
  else if t.st = .draining then (s.setTok key (u.stopStream s.cyc)).settleSus key
  else s.setTok key u

/-- TILE_GROUP_STEP: one group step, with the residue check of R217 and what `err.inj` does to it (R224). -/
def State.tileStep (s : State) (key : Nat) : State :=
  match s.tok? key with
  | none => s
  | some t =>
    if !t.tile || !t.active || decide (t.tileGroups ≤ t.cur) || s.hub.frozen then s
    else match s.streamOf t.x[0].toNat, s.streamOf t.x[1].toNat with
      | some (ka, a), some (kb, b) =>
        let failed (u : Token) : Bool := (u.st == .faulted && u.fifo.isEmpty) || u.st == .cancelled
        if failed a then (if a.st = .faulted then s.faultTok key a.fc a.fadr a.syn else s.faultTok key 0x0C 0 (wd a.hdl))
        else if failed b then (if b.st = .faulted then s.faultTok key b.fc b.fadr b.syn else s.faultTok key 0x0C 0 (wd b.hdl))
        else match a.fifo.head?, b.fifo.head? with
          | some ga, some gb =>
            let cl := t.cluster
            let e := t.engine.getD 0
            if t.inj.isSome ∧ t.cls = 1 then (s.chargeTo t.reader).faultTok key 9 0 (wd t.cur)
            else
              let s := if t.inj.isSome ∧ t.cls = 0 then s.chargeTo t.reader else s
              let (s, fl) := s.accumulate cl e t.bank (groupLines a ga) (groupLines b gb)
              let k := accKey cl e t.bank 0 0
              let s := if t.inj.isSome ∧ 2 ≤ t.cls then { s with accum := Tab.put s.accum k (Tab.getD s.accum k 0 ^^^ (1 <<< 79)) } else s
              let s := (s.consume ka a).consume kb b
              s.setTok key { t with cur := t.cur + 1, flg := t.flg ||| fl, inj := none, replayed := t.replayed || (t.inj.isSome && t.cls == 0) }
          | _, _ => s
      | none, _ => s.faultTok key 0x0C 0 t.x[0]
      | _, none => s.faultTok key 0x0C 0 t.x[1]

def execTileGroupStep (tok : Nat) (s : State) : Out := .next (s.tileStep tok)

/-! ### Drains (R118, R312) -/

/-- Encode one element for a format without blocks (R102, R105). -/
def encodeElem (f : EFmt) (x : Val) (p : Fp) : Nat × Fp :=
  match f with
  | .flt g => roundE g x p
  | .int w s => let r := roundInt w s x p; (r.1, r.2.2)
  | .i4o => let r := roundInt 4 true x p; (r.1, r.2.2)

/-- What encoding a run or blocks of values gives: bytes, retries, saturation, environment. -/
structure Encoded where
  bytes : List Byte
  scales : List Byte
  qr : Nat
  qsat : Bool
  fp : Fp

/-- Encode a row of values in a bank format: block by block through the quantiser, or as one run (R113, R118). -/
def encodeBlocks (v : Nat) (init : Option Int) : Nat → List Val → Encoded → Encoded
  | 0, _, r => r
  | n + 1, vs, r =>
    if vs.isEmpty then r
    else
      let bl := bfBlockLen v
      let q := quantise (eFmt (bfElem v)) (vs.take bl) init r.fp
      encodeBlocks v init n (vs.drop bl)
        { bytes := r.bytes ++ blockBytes v q.scale q.oe q.codes, scales := r.scales ++ leBytes 1 (q.scale + 127).toNat,
          qr := Nat.max r.qr q.retry, qsat := r.qsat || q.sat, fp := q.fp }

def encodeRow (v : Nat) (init : Option Int) (vs : List Val) (p : Fp) : Encoded :=
  let el := eFmt (bfElem v)
  if bfBlockLen v = 0 then
    let (cs, p) := lanesFp (fun i p => encodeElem el ((vs[i]?).getD (Val.zero false)) p) vs.length 0 p
    { bytes := leBytes ((vs.length * el.w + 7) / 8) (packCodes el.w cs), scales := [], qr := 0, qsat := false, fp := p }
  else encodeBlocks v init (vs.length + 1) vs { bytes := [], scales := [], qr := 0, qsat := false, fp := p }

/-- Bytes of one row of a drain. -/
def State.drainRow (s : State) (t : Token) (i : Nat) (p : Fp) : Encoded :=
  let w := t.x[2]
  let cl := t.cluster
  let acc (j : Nat) : BitVec 96 := Tab.getD s.accum (accKey cl (t.engine.getD 0) t.bank i j) 0
  if dRaw w then { bytes := (List.range (dCols w)).flatMap (fun j => leBytes 16 (acc j).toNat), scales := [], qr := 0, qsat := false, fp := p }
  else encodeRow ((t.bf[dSel w]?).getD 0).toNat none ((List.range (dCols w)).map (fun j => decodeF accFmt (acc j).toNat)) p

/-- Drain row by row through the remote window of the target core (R312). -/
def State.drainRows (t : Token) : Nat → Nat → State → Encoded → Eng (State × Encoded)
  | 0, _, s, r => .ok (s, r)
  | n + 1, i, s, r => do
    let w := t.x[2]
    let e := s.drainRow t i r.fp
    let st := drainStride w ((t.bf[dSel w]?).getD 0).toNat
    let k := hdlKey t.hdl
    let s := match s.tok? k with
      | some u => s.setTok k { u with flg := u.flg ||| e.fp.fl, qr := Nat.max u.qr e.qr, qsat := u.qsat || e.qsat }
      | none => s
    let s ← State.engWrite t (e.bytes.length / 64 + 2) s (0x7F0100000000 + dCore w / 8 * 0x20000 + dOff w + i * st) e.bytes
    let s := match s.tok? k with
      | some u => s.setTok k { u with cnt := (i + 1) * dCols w }
      | none => s
    State.drainRows t n (i + 1) s { e with qr := Nat.max r.qr e.qr, qsat := r.qsat || e.qsat }

/-- TILE_DRAIN: a tile that has accumulated its last group, or `mx.drn`, writes its window (R312, R313). -/
def State.tileDrain (s : State) (key : Nat) : State :=
  match s.tok? key with
  | none => s
  | some t =>
    let due := t.maj == 0x10 && (t.fn == 2 || (t.tile && t.x[3].getLsbD 1 && t.cur == t.tileGroups))
    if !t.active || !due || t.startedColl || s.hub.frozen then s
    else s.engStep key (do
      let (p, s) := s.engFp t
      let (s, _) ← State.drainRows t (dRows t.x[2]) 0 s { bytes := [], scales := [], qr := 0, qsat := false, fp := p }
      pure (match s.tok? key with
        | some u => s.setTok key { u with startedColl := true }
        | none => s))

def execTileDrain (tok : Nat) (s : State) : Out := .next (s.tileDrain tok)

end Sys2Proof.Machine
end

