-- ==== Sys2Proof/Machine/Copy.lean ====
section
/-! DEFINITION. Copies step by step (R220, R221, R315 to R319), collectives (R320, R321), claims ahead (R164), and the steps that
end a token or fault it (R299, R304, R308, R323). -/

namespace Sys2Proof.Machine

/-! ### Linear copies (R315, R221) -/

/-- Progress of a copy: `n` more bytes or elements are done. -/
def Token.advance (t : Token) (n : Nat) : Token := { t with cur := t.cur + n, cnt := t.cur + n }

/-- Progress, kept in the slot of a token that has written meanwhile. -/
def State.progress (s : State) (key n : Nat) (f : Token → Token) : State :=
  match s.tok? key with
  | some t => s.setTok key (f (t.advance n))
  | none => s

/-- `n` source bytes of a step of `cp`, after the class rule of R220. -/
def State.cpRead (s : State) (t : Token) (a d n : Nat) : Eng (List Byte × State) := do
  s.classSpan t a n d n t.x[1].toNat
  s.rd t a n

/-- The source bytes of a step of `cp`; where those of a whole granule cannot all be read, those of its first line, which still
receives new data (R319). -/
def State.cpBytes (s : State) (t : Token) (a d n : Nat) : Eng (List Byte × State) :=
  match s.cpRead t a d n with
  | .error (.fault s' fc fadr syn) => if n = 64 then s.cpRead t a d 32 else .error (.fault s' fc fadr syn)
  | r => r

/-- `cp`: the bytes up to the end of a destination line, or the two lines of a granule that is copied whole, so that it is written
whole (R212, R315). -/
def State.stepCp (s : State) (key : Nat) (t : Token) : Eng State := do
  let d := t.x[1].toNat + t.cur
  let left := t.x[2].toNat - t.cur
  let n := if d % 64 = 0 ∧ 64 ≤ left then 64 else Nat.min left (32 - d % 32)
  let a := t.x[0].toNat + t.cur
  let (bs, s) ← s.cpBytes t a d n
  let s ← s.engPut key t d bs []
  pure (s.progress key bs.length id)

/-- `cp.cls`: one granule between any classes (R221). -/
def State.stepCls (s : State) (key : Nat) (t : Token) : Eng State := do
  let a := t.x[0].toNat + t.cur
  let d := t.x[1].toNat + t.cur
  let (src, s) ← s.engGo t .read (wd a)
  let s := s.widen t src
  let cls := s.engClass t src
  match s.checkGran src cls t.reader with
  | (.bad f, s) =>
    if !t.x[3].getLsbD 0 then .error (.fault s 6 (wd a) (wd (cls + if f then 4 else 0)))
    else
      let s ← s.engPut key t d (List.replicate 64 0) []
      let dst ← s.engAt t .write (wd d)
      let s := if s.locClass dst ≤ 1 then s.setGran (dst / 64) { s.granule (dst / 64) with poison := true } else s
      pure (s.progress key 64 (fun t => { t with carr := satAt (2 ^ 22 - 1) (t.carr + 1) }))
  | (o, s) =>
    let s ← s.engPut key t d (o.apply src (s.bytesAt src 64)) []
    pure (s.progress key 64 id)

/-! ### Tensors (R316) -/

/-- The eight words of a tensor descriptor that a token has read. -/
def Token.tw (t : Token) (k : Nat) : Nat := descWord t.desc k

/-- A side's format keeps to R316; `dst` for the destination. -/
def tensorFmt (v n0 : Nat) : Bool :=
  v == 0 || (bfValid v && (bfBlockLen v == 0 || n0 % bfBlockLen v == 0))

/-- Every row of a side with sp = 1 begins a block of its bank (R108, R316). Rows repeat modulo a bank's 16,384 bytes. -/
def rowsBegin (w : Nat → Nat) (v base rs ps : Nat) : Bool :=
  !bfSp v || (List.range (Nat.min (w 0 / 2 ^ 32) 16384)).all (fun i => (List.range (Nat.min (w 1 % 2 ^ 32) 16384)).all (fun j =>
    (base + rs * i + ps * j) % 16384 % bfStride v == 0))

/-- The word of a tensor descriptor that breaks R316; `src` and `dst` say whether a side with sp = 1 may stand there: in a near window,
each row beginning a block. -/
def tensorBreach (w : Nat → Nat) (src dst : Bool) : Option Nat :=
  let n0 := w 0 % 2 ^ 32
  if n0 = 0 ∨ w 0 / 2 ^ 32 = 0 then some 0
  else if w 1 / 2 ^ 49 ≠ 0 ∨ bits (w 1) 32 8 ≠ 0 ∨ w 1 % 2 ^ 32 = 0 then some 1
  else if (w 6 = 0 ∧ w 7 ≠ 0) ∨ !tensorFmt (w 6) n0 ∨ (bfSp (w 6) ∧ !src) then some 6
  else if (w 7 = 0 ∧ w 6 ≠ 0) ∨ !tensorFmt (w 7) n0 ∨ (bfSp (w 7) ∧ !dst) ∨ (bfSpar (w 7) ≠ 0 ∧ w 6 ≠ w 7) then some 7
  else none

/-- An address lies in a near window. -/
def inNear (a : Word) : Bool :=
  match windowOf a.toNat with
  | some .translated => false
  | some _ => true
  | none => false

/-- Values of a row as stored in format `v`; none for a malformed block (R108, R109). -/
def decodeRow (v n0 : Nat) (bs scales : List Byte) : Option (List Val) :=
  let bl := bfBlockLen v
  let el := eFmt (bfElem v)
  if bl = 0 then some ((codesOf (leNat bs) 0 el.w n0).map el.decode)
  else
    let byte (k : Nat) : Nat := ((bs[k]?).getD 0).toNat
    let blocks := (List.range (n0 / bl)).map (fun b =>
      let r := rawBlock v byte (b * bfStride v)
      blockVals v (if bfSp v then { r with scale := ((scales[b]?).getD 0).toNat } else r))
    if blocks.any Option.isNone then none else some (blocks.flatMap (fun b => b.getD []))

/-- A row raises nv where it is rounded to a format without blocks: an unblocked source with a signalling NaN, a block with scale code
255 (R101, R108, R115). -/
def rowInvalid (v n0 : Nat) (bs scales : List Byte) : Bool :=
  let bl := bfBlockLen v
  if bl = 0 then (codesOf (leNat bs) 0 (eFmt (bfElem v)).w n0).any (fun c => ((eFmt (bfElem v)).decode c).isSig)
  else
    let byte (k : Nat) : Nat := ((bs[k]?).getD 0).toNat
    (List.range (n0 / bl)).any (fun b => (if bfSp v then ((scales[b]?).getD 0).toNat else (rawBlock v byte (b * bfStride v)).scale) == 255)

/-- The table address of the scales of a row that starts at `a` in a near bank (R106, R108). -/
def scaleAddr (v a : Nat) : Nat := a / 16384 * 16384 + 64 * bfTso v + a % 16384 / bfStride v

/-- Address of row `i` of a tensor side with its strides, `n1` rows to a plane (R316). -/
def rowAt (base : Word) (rs ps n1 i : Nat) : Nat :=
  (((base.toNat : Int) + toInt 64 rs * (i % n1 : Nat) + toInt 64 ps * (i / n1 : Nat)) % (2 ^ 64 : Int)).toNat

/-- Bytes or elements of a whole copy. -/
def Token.total (t : Token) : Nat :=
  match t.fn with
  | 0 | 2 | 3 => t.x[2].toNat
  | 1 => if t.desc.isEmpty then 1 else rowBytes (t.tw 7) (t.tw 0 % 2 ^ 32) * (t.tw 0 / 2 ^ 32) * (t.tw 1 % 2 ^ 32)
  | _ => wbits t.x[3] 0 32

/-- `cp.t`: one row, converted (R316; log entry 25). An initial scale code of 255, which stands for no scale, begins at the limit 127 of
R112 (log entry 99). -/
def State.stepTensor (s : State) (key : Nat) (t : Token) : Eng State := do
  if t.desc.isEmpty then
    let (bs, s) ← s.rd t t.x[2].toNat 64
    let w := descWord bs
    let src := inNear t.x[0] && rowsBegin w (w 6) t.x[0].toNat (w 2) (w 3)
    let dst := inNear t.x[1] && rowsBegin w (w 7) t.x[1].toNat (w 4) (w 5)
    match tensorBreach w src dst with
    | some k => .error (.fault s 0x0B (t.x[2] + wd (8 * k)) (wd (descWord bs k)))
    | none => pure (match s.tok? key with
      | some t => s.setTok key { t with desc := bs }
      | none => s)
  else
    let w := t.tw
    let n0 := w 0 % 2 ^ 32
    let n1 := w 0 / 2 ^ 32
    let row := rowBytes (w 7) n0
    let i := t.cur / row
    let a := rowAt t.x[0] (w 2) (w 3) n1 i
    let d := rowAt t.x[1] (w 4) (w 5) n1 i
    let later := (List.range (t.total / Nat.max 1 row - (i + 1))).map (fun k => (rowAt t.x[1] (w 4) (w 5) n1 (i + 1 + k), row))
    s.classSpan t a (rowBytes (w 6) n0) d row t.x[1].toNat
    let (bs, s) ← s.rd t a (rowBytes (w 6) n0)
    let (sc, s) ← if bfSp (w 6) then s.rd t (scaleAddr (w 6) a) (n0 / bfBlockLen (w 6)) else pure ([], s)
    if w 6 = w 7 then
      let s ← s.engPut key t d bs later
      let s ← if bfSp (w 7) then State.engWrite t (sc.length / 64 + 2) s (scaleAddr (w 7) d) sc else pure s
      pure (s.progress key ((i + 1) * row - t.cur) id)
    else
      match decodeRow (w 6) n0 bs sc with
      | none => .error (.fault s 0x0A (wd a) 0)
      | some vs =>
        let (p, s) := s.engFp t
        let init : Option Int := if bits (w 1) 48 1 = 1 then some (min 127 ((bits (w 1) 40 8 : Int) - 127)) else none
        let r := encodeRow (w 7) init vs (if bfBlockLen (w 7) = 0 ∧ rowInvalid (w 6) n0 bs sc then p.raise fNv else p)
        let s ← s.engPut key t d r.bytes later
        let s ← if bfSp (w 7) then State.engWrite t (r.scales.length / 64 + 2) s (scaleAddr (w 7) d) r.scales else pure s
        pure (s.progress key ((i + 1) * row - t.cur) (fun t =>
          { t with flg := t.flg ||| r.fp.fl, qr := Nat.max t.qr r.qr, qsat := t.qsat || r.qsat }))

/-! ### Reductions (R317) -/

/-- One element of a reduction: `dst op src` (R131, R317). -/
def redElem (ty op : Nat) (dst src : Nat) (p : Fp) : Nat × Fp :=
  let flt (f : FFmt) : Nat × Fp :=
    match op with
    | 0 => let r := sumVals p.rm [decodeF f dst, decodeF f src]; roundE f r.1 (p.raise r.2)
    | 1 => pickLane false f dst src p
    | _ => pickLane true f dst src p
  let int (w : Nat) (signed : Bool) : Nat × Fp :=
    let lt := if signed then decide (toInt w src < toInt w dst) else decide (src < dst)
    match op with
    | 0 => ((dst + src) % 2 ^ w, p)
    | 1 => (if lt then src else dst, p)
    | _ => (if lt then dst else src, p)
  match ty with
  | 0 => flt fp32 | 1 => flt fp64 | 2 => flt bf16 | 3 => flt fp16 | 4 => flt e4m3 | 5 => flt e5m2
  | 8 => int 8 true | 9 => int 16 true | 10 => int 32 true | 11 => int 64 true
  | 12 => int 8 false | 13 => int 16 false | 14 => int 32 false | _ => int 64 false

/-- Elements of `e` bytes of a run of bytes. -/
def elemsOf (e : Nat) (bs : List Byte) : List Nat := (List.range (bs.length / e)).map (fun i => leNat ((bs.drop (e * i)).take e))

/-- Combine two runs of elements. -/
def combine (ty op e : Nat) (dst src : List Byte) (p : Fp) : List Byte × Fp :=
  let ds := elemsOf e dst
  let ss := elemsOf e src
  let (rs, p) := lanesFp (fun i p => redElem ty op ((ds[i]?).getD 0) ((ss[i]?).getD 0) p) ds.length 0 p
  (rs.flatMap (leBytes e), p)

/-- `cp.red`: the elements of one destination line (R317). -/
def State.stepRed (s : State) (key : Nat) (t : Token) : Eng State := do
  let ty := wbits t.x[3] 24 4
  let e := (redBytes ty).getD 1
  let d := t.x[1].toNat + e * t.cur
  let a := t.x[0].toNat + e * t.cur
  let k := Nat.min (t.x[2].toNat - t.cur) ((32 - d % 32) / e)
  s.classSpan t a (e * k) d (e * k) t.x[1].toNat
  let (src, s) ← s.rd t a (e * k)
  let (dst, s) ← s.rd t d (e * k)
  let (p, s) := s.engFp t
  let (bs, p) := combine ty (wbits t.x[3] 28 4) e dst src p
  let s ← s.engPut key t d bs []
  pure (s.progress key k (fun t => { t with flg := t.flg ||| p.fl }))

/-! ### Index arrays (R318) -/

/-- Index `i` of a gather or a scatter (R318). -/
def State.indexAt (s : State) (t : Token) (i : Nat) : Eng (Nat × State) := do
  let w := if t.x[3].getLsbD 48 then 8 else 4
  let (ib, s) ← s.rd t (t.x[2].toNat + w * i) w
  pure (leNat ib, s)

/-- Destination of element `i`, whose index is `j` (R318). -/
def Token.elemDst (t : Token) (i j : Nat) : Nat := (t.x[1].toNat + wbits t.x[3] 32 16 * (if t.fn = 6 then i else j)) % 2 ^ 64

/-- The ranges of the elements that a gather or a scatter has still to write: of a gather, whose writes ascend, the next; of a scatter
all, as the index array names them now (R195, R318). -/
def State.laterElems (s : State) (t : Token) : List (Nat × Nat) :=
  let n := t.total - (t.cur + 1)
  ((List.range (if t.fn = 6 then Nat.min 1 n else n)).map (fun k => t.cur + 1 + k)).filterMap (fun i => match s.indexAt t i with
    | .ok (j, _) => some (t.elemDst i j, wbits t.x[3] 32 16)
    | .error _ => none)

/-- `cp.gat` and `cp.sca`: one element (R318). -/
def State.stepIndexed (s : State) (key : Nat) (t : Token) : Eng State := do
  let e := wbits t.x[3] 32 16
  let (j, s) ← s.indexAt t t.cur
  let a := (t.x[0].toNat + e * (if t.fn = 6 then j else t.cur)) % 2 ^ 64
  let d := t.elemDst t.cur j
  s.classSpan t a e d e t.x[1].toNat
  let (bs, s) ← s.rd t a e
  let s ← s.engPut key t d bs (s.laterElems t)
  pure (s.progress key 1 id)

/-! ### Collectives (R320) -/

/-- A permutation of a list drawn from free values: the order in which a reduction combines (R320; log entry 12). -/
def shuffle : Nat → Nat → List Nat → List Nat
  | 0, _, xs => xs
  | _, _, [] => []
  | n + 1, f, x :: xs =>
    let i := Config.choice f % (xs.length + 1)
    (((x :: xs)[i]?).getD x) :: shuffle n (f + 1) ((x :: xs).eraseIdx i)

/-- Sources of an instance, rank by rank. -/
def State.collSources (bytes : Token → Nat) : State → List (Nat × Token) → Eng (List (List Byte) × State)
  | s, [] => .ok ([], s)
  | s, (k, u) :: rest => do
    let (b, s) ← blame k (s.rd u u.x[0].toNat (bytes u))
    let (bs, s) ← State.collSources bytes s rest
    pure (b :: bs, s)

/-- Bytes that rank `r` receives, and the flags that its reduction raises (R320). -/
def State.collResult (s : State) (t : Token) (r e c : Nat) (srcs : List (List Byte)) (p : Fp) : List Byte × Fp :=
  let block (q k : Nat) : List Byte := (((srcs[q]?).getD []).drop (k * e * c)).take (e * c)
  let red (k : Nat) : List Byte × Fp :=
    match shuffle srcs.length s.fresh (List.range srcs.length) with
    | [] => ([], p)
    | q :: qs => qs.foldl (fun (a : List Byte × Fp) x => combine (wbits t.x[3] 24 4) (wbits t.x[3] 28 4) e a.1 (block x k) a.2) (block q k, p)
  match t.fn with
  | 0 => red 0
  | 1 => (srcs.flatMap (fun b => b.take (e * c)), p)
  | 2 => red r
  | 3 => (block (descWord t.desc 0 / 2 ^ 48) 0, p)
  | _ => ((List.range srcs.length).flatMap (fun q => block q r), p)

/-- Write every rank's result. -/
def State.collWrite (e c : Nat) (srcs : List (List Byte)) : State → List (Nat × Token) → Eng State
  | s, [] => .ok s
  | s, (k, u) :: rest => do
    let (p, s) := s.engFp u
    let (bs, p) := s.collResult u u.rank e c srcs p
    let s := { s with fresh := s.fresh + srcs.length }
    let s ← blame k (State.claimFrom u k (bs.length / 32 + 2) s u.x[1].toNat bs.length)
    let s ← blame k (State.engWrite u (bs.length / 64 + 2) s u.x[1].toNat bs)
    let s := match s.tok? k with
      | some u => (s.releaseLines u.lines).setTok k { u with lines := [], cnt := bs.length, cur := bs.length, claimed := 1, flg := u.flg ||| p.fl }
      | none => s
    State.collWrite e c srcs s rest

/-- A started collective: every participant's part in one step; a buffer that fails faults its own participant's token, and that the
others (R320, R321; log entry 25). -/
def State.stepColl (s : State) (_key : Nat) (t : Token) : Eng State := do
  let us := (List.range t.parties).filterMap (s.mate t)
  if us.length ≠ t.parties ∨ us.any (fun u => !u.2.active || u.2.claimed == 1) then .error .wait
  let e := (redBytes (wbits t.x[3] 24 4)).getD 1
  let c := wbits t.x[3] 32 32
  let n := if t.fn = 2 ∨ t.fn = 4 then t.parties * e * c else e * c
  let root := descWord t.desc 0 / 2 ^ 48
  let (srcs, s) ← State.collSources (fun u => if t.fn = 3 ∧ u.rank ≠ root then 0 else n) s us
  State.collWrite e c srcs s us

/-! ### COPY_LINE_STEP -/

/-- A copy that drains stops at the next 4 KiB boundary that it has reached (R319, R322). -/
def State.stopCopy (s : State) (key old : Nat) : State :=
  match s.tok? key with
  | some t =>
    if t.st = .draining ∧ old / t.chunk < t.cnt / t.chunk ∧ t.cur < t.total then
      ((s.releaseLines t.lines).setTok key { t with st := .suspended, tend := s.cyc, cur := t.cnt / t.chunk * t.chunk, lines := [], mask := [] }).settleSus key
    else s
  | none => s

/-- One step of a copy or of a collective. -/
def State.copyStep (s : State) (key : Nat) : State :=
  match s.tok? key with
  | none => s
  | some t =>
    if !t.active || s.hub.frozen then s
    else if t.maj = 0x12 then (if t.startedColl && t.claimed != 1 then s.engStep key (s.stepColl key t) else s)
    else if !t.copy || decide (t.total ≤ t.cur) then s
    else (s.engStep key (match t.fn with
      | 0 => s.stepCp key t
      | 1 => s.stepTensor key t
      | 2 => s.stepRed key t
      | 3 => s.stepCls key t
      | _ => s.stepIndexed key t)).stopCopy key t.cnt

def execCopyLineStep (tok : Nat) (s : State) : Out := .next (s.copyStep tok)

/-! ### Claims ahead (R164) -/

/-- The next line that a linear copy claims, within 4 KiB of its next write. -/
def State.nextClaim (s : State) (t : Token) : Option Nat :=
  let e := if t.fn = 2 then (redBytes (wbits t.x[3] 24 4)).getD 1 else 1
  let a := t.x[1].toNat + e * t.cur
  let n := Nat.min 4096 (t.x[2].toNat * e - e * t.cur)
  if t.fn = 0 ∨ t.fn = 2 ∨ t.fn = 3 then
    (s.linesOf t a n).find? (fun l => covered (l * 32) && !t.lines.contains l)
  else none

/-- ENGINE_CLAIM: a Running copy claims its next line (R164). -/
def execEngineClaim (tok line : Nat) (s : State) : Out :=
  match s.tok? tok with
  | some t =>
    if t.active && t.copy && !s.hub.frozen && s.nextClaim t == some line then .next ((s.claim tok line).getD s) else .next s
  | none => .next s

/-- ENGINE_RELEASE: a line that has been written is released (R164). -/
def execEngineRelease (tok line : Nat) (s : State) : Out :=
  match s.tok? tok with
  | some t => if t.mask.contains line && t.maj == 0x11 && !s.hub.frozen then .next (s.unclaim tok line) else .next s
  | none => .next s

/-! ### Ends (R299, R304, R308) -/

/-- A running token has performed its last write. -/
def Token.complete (t : Token) : Bool :=
  match t.maj with
  | 0x10 => if t.tile then t.cur == t.tileGroups && (!t.x[3].getLsbD 1 || t.startedColl) else t.startedColl
  | 0x11 => t.copy && decide (t.total ≤ t.cur)
  | 0x12 => t.claimed == 1
  | _ => t.cur == wbits t.x[3] 0 32

/-- TOKEN_DONE: an operation that is complete becomes Done; the notice of a token that is Done or Cancelled is posted (R299,
R304). -/
def State.tokenDone (s : State) (key : Nat) : State :=
  if s.hub.frozen then s else
  let s := match s.tok? key with
    | some t => if t.active && t.complete then s.endTok key .done else s
    | none => s
  match s.tok? key with
  | some t => if (t.st == .done || t.st == .cancelled) && !t.posted then s.postNotice key else s
  | none => s

def execTokenDone (tok : Nat) (s : State) : Out := .next (s.tokenDone tok)

/-- TOKEN_FAULT: the notice of a token that faulted is posted; an orphan's fault is reported (R304, R308). -/
def State.tokenFault (s : State) (key : Nat) : State :=
  match s.tok? key with
  | some t =>
    if !s.hub.frozen && (t.st == .faulted || (t.st == .suspended && t.susFault)) then
      let s := if t.posted then s else s.postNotice key
      match s.tok? key with
      | some t =>
        if t.told ≠ 0 then s
        else if t.hold = 2 ∧ t.st = .faulted ∧ !t.ack then (s.setTok key { t with told := 2 }).reportTok t
        else s.setTok key { t with told := 1 }
      | none => s
    else s
  | none => s

def execTokenFault (tok : Nat) (s : State) : Out := .next (s.tokenFault tok)

/-! ### Bounds (R298, R321, R323) -/

/-- COLLECTIVE_TIMEOUT: an instance that has not started 2^28 cycles after its first issue, pauses apart (R321). -/
def State.collTimeout (s : State) (key : Nat) : State :=
  match s.tok? key with
  | none => s
  | some t =>
    let us := s.toks.filter (fun e => e.1 == key || sameInst t e.2)
    let first := us.foldl (fun n e => Nat.min n e.2.tiss) t.tiss
    let held := us.foldl (fun n e => Nat.max n e.2.paused) 0
    if !t.pendingColl ∨ s.instHeld t ∨ s.cyc < first + held + 2 ^ 28 then s
    else
      let missing := ((List.range t.parties).filter (fun r => (s.mate t r).isNone)).getLastD 0
      us.foldl (fun s e => s.faultTok e.1 0x10 0 (wd missing)) s

def execCollectiveTimeout (tok : Nat) (s : State) : Out := .next (s.collTimeout tok)

/-- DRAIN_BOUND_EXCEEDED: a started collective that drains longer than R323 allows. -/
def State.drainBound (s : State) (key : Nat) : State :=
  match s.tok? key with
  | none => s
  | some t =>
    let e := (redBytes (wbits t.x[3] 24 4)).getD 1
    let c := wbits t.x[3] 32 32 * e
    let most := if t.fn = 0 ∨ t.fn = 3 then c else c * t.parties
    let bound := 65536 + 4096 * ((most + 65535) / 65536)
    if !s.hub.frozen ∧ t.maj = 0x12 ∧ t.st = .draining ∧ t.startedColl ∧ t.drainAt + bound < s.cyc then s.faultTok key 0x10 0 (wd t.rank) else s

def execDrainBoundExceeded (tok : Nat) (s : State) : Out := .next (s.drainBound tok)

/-- TOKEN_SLOT_STALL_TIMEOUT (R298). -/
def execTokenSlotStallTimeout (place : Nat) (s : State) : Out :=
  let t := s.thread place
  match t.wait with
  | .slot since =>
    if since + 2 ^ 24 ≤ s.cyc ∧ t.state ≠ .halted ∧ !s.hub.frozen then
      .next ((s.setThread place { t with wait := .none }).takeFaultAt place t.ipc { code := Code.tokenStall })
    else .next s
  | _ => .next s

end Sys2Proof.Machine
end

