-- ==== Sys2Proof/Machine/TokCtl.lean ====
section
/-! DEFINITION. The token control instructions of major 0x13 (R324 to R332). -/

namespace Sys2Proof.Machine

/-- The issuing task holds the token (R306). -/
def State.holds (s : State) (t : Token) : Bool := t.holder == some s.cur && t.hold != 2

/-- A token-state fault logs the handle. -/
def tokState (t : Token) : Stop := fltS Code.tokenState (wd t.hdl)

/-- Words wi and ri of the basin of the running context, read as its loads (R305, R325). -/
def State.basinIdx (s : State) : Except Stop (Word × Word × State) := do
  let base := (s.context s.me.ctxNo).bas
  let (l, s) ← s.access s.cur .read false (base + 16) 8
  let (m, s) ← s.access s.cur .read false (base + 24) 8
  let (ws, s) ← s.readWords l (base + 16) 1
  let s := s.hearAt s.cur l 8 (some .sys)
  let (rs, s) ← s.readWords m (base + 24) 1
  pure ((ws[0]?).getD 0, (rs[0]?).getD 0, s)

/-- What a `tok.wait` waits for, looked at: the value that ends the wait, which is an acquire (R192 case 5, R325). -/
def State.tokLook (s : State) (h : Nat) : Option (Word × State) :=
  match s.tok? (hdlKey h) with
  | some t => if t.hdl = h ∧ t.st.terminal then some (t.word 0, s.setMe (s.me.hears t.clock)) else none
  | none => none

def State.tokPoll (s : State) (h : Nat) (d : Spec) : Res :=
  match s.tokLook h with
  | some (w, s) => s.unblock d (scalar w)
  | none => .ok s

def State.basinPoll (s : State) (d : Spec) : Res := do
  let (wi, ri, s) ← s.basinIdx
  if wi = ri then pure s else s.unblock d (scalar wi)

/-- `tok.wait` (R325): a blocking instruction. -/
def execTokWait (d a : Spec) (s : State) : Out :=
  settle s (s.blocking (fun s => s.read64 a) (fun s h => do
    let k ← if h = 0 ∧ (s.context s.me.ctxNo).bas ≠ 0 then pure 0 else do
      let (_, t) ← s.handle false h
      pure t.hdl
    if s.me.ordered then .error (fltC Code.orderedUse)
    s.free1 d
    let s ← s.regionEnd
    if k = 0 then
      let (wi, ri, s) ← s.basinIdx
      if wi = ri then pure (s.block (.basin (s.context s.me.ctxNo).bas.toNat d)) else s.put 4 d (scalar wi)
    else match s.tokLook k with
      | some (w, s) => s.put 4 d (scalar w)
      | none => pure (s.block (.tok k d))))

/-- `tok.test` (R326); of a terminal token it is an acquire of what its notice releases (R192 case 5). -/
def execTokTest (d a : Spec) (k : PredNo) (s : State) : Out :=
  settle s (do
    let h ← s.read64 a
    let (_, t) ← s.handle false h
    let me := if t.st.terminal then s.me.hears t.clock else s.me
    (s.setMe (me.setPred k t.st.terminal)).put 4 d (scalar (t.word 0)))

/-- `tok.det` (R306, R327). -/
def execTokDet (a : Spec) (s : State) : Out :=
  settle s (do
    let h ← s.read64 a
    let (k, t) ← s.handle false h
    if !(s.holds t && t.hold == 0) then .error (tokState t)
    if s.me.ordered then .error (fltC Code.orderedUse)
    let s := if t.st.terminal then s else s.setMe (s.me.uncount t.maj)
    pure ((s.setTok k { t with hold := 1 }).fin 4))

/-- `tok.adop` (R306, R327). -/
def execTokAdop (a : Spec) (s : State) : Out :=
  settle s (do
    let h ← s.read64 a
    let (k, t) ← s.handle false h
    if t.hold = 2 ∧ t.grp ≠ s.me.grp then .error (fltS Code.tokenOwner h)
    if t.hold ≠ 2 then .error (tokState t)
    if s.me.ordered then .error (fltC Code.orderedUse)
    pure ((s.setTok k { t with hold := 3, holder := some s.cur, ts := 0 }).fin 4))

/-- A dependence is added to a token, which is then released if `go` (R328). -/
def State.addDep (s : State) (k : Nat) (dep : Nat) (go : Bool) : State :=
  match s.tok? k with
  | some t =>
    let t := if dep = 0 then t else { t with deps := t.deps ++ [dep] }
    s.setTok k (if go ∧ t.st = .issued then { t with st := if t.defer.isSome then .issued else .waiting, gate := false } else t)
  | none => s

/-- `tok.dep` and `tok.dep.go` (R328). In a speculative ordered task they are deferred with the token: the dependence counts at once, and
does nothing before the token is released (R261). -/
def State.tokDep (s : State) (a b : Spec) (go : Bool) : Res := do
  let (x, y) ← s.read2 a b
  let (k, t) ← s.handle false (lo64 x)
  let dep := lo64 y
  let other ← if dep = 0 then pure none else do
    let (_, u) ← s.handle false dep
    pure (some u)
  if !s.holds t || t.st != .issued || !t.gate || (dep != 0 && decide (4 ≤ t.deps.length)) then .error (tokState t)
  if s.me.speculative then
    match other with
    | some u => if !s.holds u then .error (fltC Code.orderedUse)
    | none => pure ()
    let s ← s.defer (.dep (lo64 x).toNat 0 go)
    pure ((s.addDep k dep.toNat false).fin 4)
  else pure ((s.addDep k dep.toNat go).fin 4)

def execTokDep (a b : Spec) (s : State) : Out := settle s (s.tokDep a b false)
def execTokDepGo (a b : Spec) (s : State) : Out := settle s (s.tokDep a b true)

/-- `tok.can` (R299, R329). -/
def execTokCan (a : Spec) (s : State) : Out :=
  settle s (do
    let h ← s.read64 a
    let (k, t) ← s.handle false h
    if !s.holds t then .error (tokState t)
    let s := match t.st with
      | .done | .cancelled => s
      | .faulted => s.setTok k { t with st := .cancelled, ack := true, mask := [] }
      | .suspended => (s.setTok k { t with ack := t.ack || t.susFault, mask := [] }).endTok k .cancelled
      | _ => s.endTok k .cancelled
    pure (s.fin 4))

/-- A token restarts at its cursor (R319, R329, R338). -/
def Token.restart (t : Token) : Token :=
  { t with st := .waiting, cnt := t.cur, rpl := satAt 255 (t.rpl + 1), susFault := false, posted := false, refault := true, told := 0, engine := none,
           desc := if t.copy then [] else t.desc, mask := if t.maj = 0x14 then t.mask else [], claimed := 0, fetched := 0, idx := [], rows := [] }

/-- `tok.can.r` (R319, R329, R338). -/
def execTokCanR (a : Spec) (s : State) : Out :=
  settle s (do
    let h ← s.read64 a
    let (k, t) ← s.handle false h
    let may := (t.st == .faulted && (t.copy || (t.maj == 0x14 && decide (t.fn ≤ 1)))) || (t.st == .suspended && t.susFault)
    if !s.holds t || !may then .error (tokState t)
    let again := t.hold == 0 && t.st == .faulted
    if again && s.me.countFull t.maj then .error .wait
    let s := if again then s.setMe (s.me.count t.maj) else s
    pure ((s.setTok k { t.restart with ack := true }).fin 4))

/-- `tok.pri` (R330). -/
def execTokPri (a b : Spec) (s : State) : Out :=
  settle s (do
    let (x, y) ← s.read2 a b
    let (k, t) ← s.handle false (lo64 x)
    if !s.holds t then .error (tokState t)
    descr ((lo64 y).toNat / 8 != 0) (lo64 y) 4
    pure ((s.setTok k { t with pri := (lo64 y).toNat }).fin 4))

/-- `tok.post` (R330). -/
def execTokPost (a b : Spec) (s : State) : Out :=
  settle s (do
    let (x, y) ← s.read2 a b
    let (k, t) ← s.handle false (lo64 x)
    let ntc := (lo64 y).toNat
    if !s.holds t then .error (tokState t)
    descr (decide (5 ≤ ntc)) (lo64 y) 4
    targetCheck ntc (hi64 y)
    s.wakeCheck ntc (hi64 y)
    if ntc = 4 then s.baseCheck .write (hi64 y)
    let s := s.setTok k { t with ntc, target := hi64 y }
    pure ((if t.st.terminal || (t.st == .suspended && t.susFault) then (if t.posted then s.postOrKeep k else s.postNotice k) else s).fin 4))

/-- Four registers from `d` receive a record; `lt` receives the first (R331). -/
def Thread.takeRecord (t : Thread) (d : Spec) (w : Nat → Word) : Thread :=
  let put (t : Thread) (k : Nat) : Thread :=
    { t with regs := t.regs.set (specPlus d k) (mkReg (w (2 * k)) (w (2 * k + 1))), dmg := t.dmg.filter (fun e => e.1 != (specPlus d k).val) }
  ((put (put (put t 1) 2) 3).result d (mkReg (w 0) (w 1)))

/-- `tok.rec` (R307, R308, R331). -/
def execTokRec (d a : Spec) (n : Bool) (s : State) : Out :=
  settle s (do
    let h ← s.read64 a
    let (k, t) ← s.handle (!n && s.privileged s.cur) h
    if n && !(t.st.terminal && s.holds t) then .error (tokState t)
    s.free3 d
    if s.busy (specPlus d 3) then .error .wait
    let s := (s.setMe (s.me.takeRecord d t.word)).clearWlt
    let s := if n then (if t.posted then s else s.postOrKeep k).freeTok k else s
    pure (s.fin 4))

end Sys2Proof.Machine
end

