-- ==== Sys2Proof/Machine/Row.lean ====
section
/-! DEFINITION. The row engine: row maps (R333), windows (R335), gathers, scatters and combiners (R336 to R338), row tags
(R339 to R341), migration as a row element meets it (R342). -/

namespace Sys2Proof.Machine

/-! ### Row tags (R339 to R341) -/

/-- Set of a row's tag. -/
def rowSet (va : Nat) : Nat := bits va 8 9

/-- Two tags name one row: one address of one context. -/
def RowTag.same (a b : RowTag) : Bool := a.va == b.va && a.ctx == b.ctx

/-- Of two ways the one that gives way first: unpinned, lower counter, less recently used. -/
def worse (a b : RowTag) : RowTag :=
  if a.pin.isSome then b
  else if b.pin.isSome then a
  else if a.counter < b.counter ∨ (a.counter = b.counter ∧ a.used < b.used) then a else b

/-- A slice's tags with that of the row that `new` is for: `new` itself, in the place of the set's victim, if there is none. -/
def tagFor (tags : List RowTag) (new : RowTag) : List RowTag :=
  if tags.any (·.same new) then tags.map (fun t => if t.same new then { t with used := new.used } else t)
  else
    let ways := tags.filter (fun t => rowSet t.va == rowSet new.va)
    match ways with
    | [] => tags ++ [new]
    | w :: ws => if ways.length < 8 then tags ++ [new] else let v := ws.foldl worse w; tags.filter (· != v) ++ [new]

/-- Change the tag of `new`'s row on a slice, allocated if need be (R339). -/
def State.withTag (s : State) (cl : Nat) (new : RowTag) (f : RowTag → RowTag) : State :=
  let k := s.clu cl
  let tags := (tagFor k.rowTags { new with used := s.nextId }).map (fun t => if t.same new then f t else t)
  (s.setClu cl { k with rowTags := tags }).bump

/-! ### Map entries and indices (R333, R334) -/

def Token.rowSize (t : Token) : Nat := 32 * (wbits t.x[3] 40 8 + 1)
def Token.rowCount (t : Token) : Nat := wbits t.x[3] 0 32
def Token.rowOp (t : Token) : Nat := wbits t.x[3] 54 3

/-- Elements of the window that a token is at: its first and how many (R335). -/
def Token.window (t : Token) : Nat × Nat := (t.cur, Nat.min 64 (t.rowCount - t.cur))

/-- The accesses that an operation makes to a row: op 3 of `row.sca` only writes it, the other ops also read it (R337). -/
def Token.rowKinds (t : Token) : List AKind := if t.fn = 1 then (if t.rowOp = 3 then [.write] else [.read, .write]) else [.read]

/-- A row that an index names: its map entry's address, the row's address, and whether it is migrating (R333). -/
structure RowRef where
  entry : Nat
  va : Nat
  mig : Bool
  deriving DecidableEq, Repr

/-- Address of the map entry of an index (R333). -/
def Token.rowEntry (t : Token) (x : Nat) : Nat := (t.x[0].toNat + 8 * x) % 2 ^ 64

/-- Read the index of element `i` (R334). -/
def State.rowIndex (s : State) (t : Token) (i : Nat) : Eng (Nat × State) := do
  let w := if t.x[3].getLsbD 57 then 8 else 4
  let (ib, s) ← s.rd t (t.x[2].toNat + w * i) w
  pure (leNat ib, s)

/-- A token that reads a location with acquire order takes over the releases there whose scopes meet its own, for those who wait on it
(R192, R333). -/
def State.tokAcquire (s : State) (t : Token) (a n : Nat) : Eng State := do
  let loc ← s.engAt t .read (wd a)
  let heard := (s.relsAt loc n).filter (fun r => meets (.ctx r.place) r.scope (.unit t.cluster) t.scope)
  match s.tok? (hdlKey t.hdl) with
  | some u => pure (if heard.isEmpty then s else s.setTok (hdlKey t.hdl) { u with clock := heard.foldl (fun c r => c.join r.clock) u.clock })
  | none => pure s

/-- Read the map entry of index `x` (R333). -/
def State.rowRef (s : State) (t : Token) (x : Nat) : Eng (RowRef × State) := do
  let ea := t.rowEntry x
  let (eb, s) ← s.rd t ea 8
  let e := leNat eb
  if e % 2 = 0 ∨ e / 2 ^ 48 ≠ 0 ∨ bits e 2 3 ≠ 0 then .error (.fault s 0x13 (wd ea) (wd e))
  let s ← s.tokAcquire t ea 8
  pure ({ entry := ea, va := bits e 5 43 * 32, mig := bits e 1 1 == 1 }, s)

/-- The first and last byte of a range can be reached. -/
def State.reach (s : State) (t : Token) (k : AKind) (a n : Nat) : Eng State := do
  let (_, s) ← s.engGo t k (wd a)
  let (_, s) ← s.engGo t k (wd (a + n - 1))
  pure s

/-- Address of element `i` at the base in x1. -/
def Token.rowElem (t : Token) (i : Nat) : Nat := t.x[1].toNat + t.rowSize * i

/-- Keep the index of the window's next element, and the row that it names if a gather is to read it (R335). -/
def State.noteRow (s : State) (key x : Nat) (r : Option RowRef) : State :=
  match s.tok? key with
  | none => s
  | some t =>
    let rows := match r with
      | some r => if t.fn = 0 ∧ (Tab.get? t.rows x).isNone then Tab.put t.rows x { va := r.va, since := s.cyc, bytes := [] } else t.rows
      | none => t.rows
    s.setTok key { t with idx := t.idx ++ [x], rows }

/-- Step 1 of R335 for the elements from `i` on that the mask does not list: their indices and map entries are read, and the addresses
of their rows, sources and destinations translated. -/
def State.rowScan (key : Nat) (t : Token) : Nat → Nat → State → Eng State
  | 0, _, s => .ok s
  | n + 1, i, s => do
    if t.mask.contains i then State.rowScan key t n (i + 1) (s.noteRow key 0 none)
    else
      let (x, s) ← s.rowIndex t i
      let (r, s) ← s.rowRef t x
      let s ← t.rowKinds.foldlM (fun s k => s.reach t k r.va t.rowSize) s
      let s ← if t.fn = 0 then s.reach t .write (t.rowElem i) t.rowSize else pure s
      let s ← if t.fn = 1 then s.reach t .read (t.rowElem i) t.rowSize else pure s
      State.rowScan key t n (i + 1) (s.noteRow key x (some r))

/-! ### Effects (R335 to R341) -/

/-- Write a row or an element whole: claim its lines, write, release them (R164, R337). -/
def State.rowPut (s : State) (key : Nat) (t : Token) (a : Nat) (bs : List Byte) : Eng State := do
  let s ← State.claimFrom t key (bs.length / 32 + 2) s a bs.length
  let s ← State.engWrite t (bs.length / 64 + 2) s a bs
  match s.tok? key with
  | some t => pure ((s.releaseLines t.lines).setTok key { t with lines := [] })
  | none => pure s

/-- An element's effect is performed; with the window's last the window is, and cur and cnt advance (R335). A token that drains stops
there (R338). -/
def State.rowDone (s : State) (key i : Nat) : State :=
  match s.tok? key with
  | none => s
  | some t =>
    let m := i :: t.mask
    let (lo, n) := t.window
    if n ≤ m.length then
      let t := { t with mask := [], cur := lo + n, cnt := lo + n, claimed := 0 }
      if t.st = .draining ∧ lo + n ≠ t.rowCount then (s.setTok key { t with st := .suspended, tend := s.cyc }).settleSus key
      else s.setTok key t
    else s.setTok key { t with mask := m }

/-- Home slice of a row's first byte (R155). -/
def State.rowHome (s : State) (t : Token) (va : Nat) : Eng Nat := do
  let loc ← s.engAt t (t.rowKinds.headD .read) (wd va)
  pure (s.homeSlice loc)

/-- The tag that a row gets when an operation names it (R339). -/
def State.newTag (s : State) (t : Token) (r : RowRef) : RowTag :=
  let at? (k : AKind) (a : Nat) : Option Nat := match s.engAt t k (wd a) with | .ok loc => some loc | .error _ => none
  let lines := (List.range (t.rowSize / 32)).filterMap (fun i => (at? (t.rowKinds.headD .read) (r.va + 32 * i)).map (· / 32))
  { va := r.va, ctx := t.ctx, counter := 0, pin := none, used := 0, launch := ownerNo t.launch, entry := (at? .read r.entry).getD 0, lines }

/-- An element of a gather or a scatter touches a row: its counter rises (R339). -/
def State.touchRow (s : State) (t : Token) (r : RowRef) : State :=
  match s.rowHome t r.va with
  | .ok cl => s.withTag cl (s.newTag t r) (fun g => { g with counter := satAt 255 (g.counter + 1) })
  | .error _ => s

/-- One line of the row that index `x` names is read. More than 4,096 cycles after its map entry was read, the entry is read again and
the row from its start (R335, R336, R342). -/
def State.rowLineRead (s : State) (key : Nat) (t : Token) (x : Nat) (r : RowRead) : Eng State := do
  let (r, s) ← if r.since + 4096 < s.cyc then (do
      let (q, s) ← s.rowRef t x
      pure (({ va := q.va, since := s.cyc, bytes := [] } : RowRead), s)) else pure (r, s)
  let (bs, s) ← s.rd t (r.va + r.bytes.length) 32
  match s.tok? key with
  | some u => pure (s.setTok key { u with rows := Tab.put u.rows x { r with bytes := r.bytes ++ bs } })
  | none => pure s

/-- The next line of a gather's element `i`, whose row has been read, goes to the destination, or the two lines of a granule that the
element covers, so that it is written whole (R212); with its last the element is done (R336). -/
def State.gatherLine (s : State) (key : Nat) (t : Token) (i x : Nat) (r : RowRead) : Eng State := do
  let o := 32 * t.fetched
  let n := if (t.rowElem i + o) % 64 = 0 ∧ o + 64 ≤ t.rowSize then 2 else 1
  let s ← s.rowPut key t (t.rowElem i + o) ((r.bytes.drop o).take (32 * n))
  match s.tok? key with
  | some u =>
    if o + 32 * n < t.rowSize then pure (s.setTok key { u with fetched := t.fetched + n })
    else pure (((s.setTok key { u with fetched := 0 }).touchRow t { entry := t.rowEntry x, va := r.va, mig := false }).rowDone key i)
  | none => pure s

/-- A gather's next piece of work in its window: every distinct row is read once, before the first effect (R335, R336). -/
def State.gatherNext (s : State) (key : Nat) (t : Token) : Eng State :=
  let todo := (t.idx.zipIdx t.cur).filter (fun e => !t.mask.contains e.2)
  let row (e : Nat × Nat) : RowRead := Tab.getD t.rows e.1 { va := 0, since := 0, bytes := [] }
  match todo.find? (fun e => decide ((row e).bytes.length < t.rowSize)) with
  | some e => s.rowLineRead key t e.1 (row e)
  | none => match todo with
    | e :: _ => s.gatherLine key t e.2 e.1 (row e)
    | [] => .ok s

/-- The pager c17 of a cluster is asked to promote or to demote a row (R341). -/
def State.askRow (s : State) (cl : Nat) (q : PagerReq) : State :=
  let c := coreOf (placeOf cl 17 0)
  let k := s.core c
  if k.asked.contains q then s else s.setCore c { k with asked := k.asked ++ [q] }

/-- The effect of element `i` on its row: an update, a pin, an unpin or a hint (R337, R340, R341). -/
def State.rowEffect (s : State) (key : Nat) (t : Token) (i : Nat) (r : RowRef) : Eng State := do
  let cl ← s.rowHome t r.va
  let new := s.newTag t r
  if t.fn = 1 then
    let (src, s) ← s.rd t (t.rowElem i) t.rowSize
    let s := s.touchRow t r
    if t.rowOp = 3 then s.rowPut key t r.va src
    else
      let (dst, s) ← s.rd t r.va t.rowSize
      let ty := wbits t.x[3] 50 4
      let (p, s) := s.engFp t
      let (bs, p) := combine ty t.rowOp ((redBytes ty).getD 1) dst src p
      let s ← s.rowPut key t r.va bs
      match s.tok? key with
      | some u => pure (s.setTok key { u with flg := u.flg ||| p.fl })
      | none => pure s
  else if t.fn = 2 then
    let pins := (s.clu cl).rowTags.filter (fun g => rowSet g.va == rowSet r.va && g.pin.isSome)
    if pins.any (·.same new) then pure s
    else if 4 ≤ pins.length then .error (.fault s 0x12 (wd r.entry) (wd (rowSet r.va)))
    else pure (s.withTag cl new (fun g => { g with pin := some new.launch }))
  else if t.fn = 3 then
    let k := s.clu cl
    pure (s.setClu cl { k with rowTags := k.rowTags.map (fun g => if g.same new then { g with pin := none } else g) })
  else match wbits t.x[3] 48 2 with
    | 0 => pure (s.withTag cl new (fun g => { g with counter := 255 }))
    | 1 => pure (s.withTag cl new (fun g => { g with counter := 0 }))
    | m => pure (s.askRow cl (.row (m == 2) t.ctx r.va))

/-- An earlier element of the window whose effect is still to come names the same row. -/
def State.earlierRow (s : State) (t : Token) (i va : Nat) : Bool :=
  (t.idx.zipIdx t.cur).any (fun e => decide (e.2 < i) && !t.mask.contains e.2 &&
    (match s.rowRef t e.1 with | .ok (q, _) => q.va == va | .error _ => false))

/-- Element `i` of a scatter, a pin, an unpin or a hint: its map entry is read again, and while the row is migrating the element waits
(R342). For op 3 the elements of one row go in ascending order (R338). -/
def State.rowOne (s : State) (key : Nat) (t : Token) (i : Nat) : Eng State := do
  if t.fn = 0 then .error .wait
  let (r, s) ← s.rowRef t ((t.idx[i - t.cur]?).getD 0)
  if r.mig then .error .wait
  if t.fn = 1 ∧ t.rowOp = 3 ∧ s.earlierRow t i r.va then .error .wait
  let s ← s.rowEffect key t i r
  pure (s.rowDone key i)

/-- The first element of the window whose effect is still to come. -/
def Token.rowFirst (t : Token) : Nat :=
  ((List.range t.window.2).map (· + t.cur)).find? (fun i => !t.mask.contains i) |>.getD t.cur

def Token.rowActive (t : Token) : Bool := t.maj == 0x14 && t.active && decide (t.cur < t.rowCount)

/-- Step 1 of R335: the token's window is open once all of it has been read and translated. -/
def State.rowOpen (s : State) (key : Nat) (t : Token) : Eng State := do
  let s ← State.rowScan key t t.window.2 t.window.1 (s.setTok key { t with idx := [], rows := [], fetched := 0 })
  match s.tok? key with
  | some u => pure (s.setTok key { u with claimed := 1 })
  | none => pure s

/-- ROW_WINDOW: step 1 of the next window; then, one call after another, the reads of a gather's rows and its effects, or the effects
of the other operations, but for a scatter's, which its combiners perform (R335 to R337). -/
def State.rowWindow (s : State) (key : Nat) : State :=
  match s.tok? key with
  | none => s
  | some t =>
    if !t.rowActive || s.hub.frozen then s
    else if t.claimed ≠ 1 then s.engStep key (s.rowOpen key t)
    else if t.fn = 0 then s.engStep key (s.gatherNext key t)
    else if t.fn = 1 then s
    else s.engStep key (s.rowOne key t t.rowFirst)

def execRowWindow (tok : Nat) (s : State) : Out := .next (s.rowWindow tok)

/-- One element of an open window. -/
def State.rowElem (s : State) (key i : Nat) : State :=
  match s.tok? key with
  | none => s
  | some t =>
    let (lo, n) := t.window
    if !t.rowActive || t.claimed != 1 || s.hub.frozen || t.mask.contains i || !(decide (lo ≤ i) && decide (i < lo + n)) then s
    else s.engStep key (s.rowOne key t i)

/-- ROW_COMBINER_UPDATE: a combiner applies element `elem` whole (R337). -/
def execRowCombinerUpdate (tok elem : Nat) (s : State) : Out :=
  match s.tok? tok with
  | some t => if t.fn = 1 then .next (s.rowElem tok elem) else .next s
  | none => .next s

/-- ROW_ENTRY_REREAD: an element that waited on a migrating row reads its entry again (R342). -/
def execRowEntryReread (tok elem : Nat) (s : State) : Out := .next (s.rowElem tok elem)

/-- ROW_COUNTER_HALVING: once for every 65,536 cycles of the count (R339). -/
def execRowCounterHalving (slice : Nat) (s : State) : Out :=
  let k := s.clu slice
  .next (if s.cyc / 65536 ≤ k.halved then s
    else s.setClu slice { k with halved := k.halved + 1, rowTags := k.rowTags.map (fun g => { g with counter := g.counter / 2 }) })

end Sys2Proof.Machine
end

