-- ==== Sys2Proof/Machine/Sys.lean ====
section
/-! DEFINITION. Major 0x1A: system registers (R43, R88, R89), `trap` (R87), TLB maintenance (R231 to R234), waking sleepers
(R236), harvest (R238), injection (R224) and class query (R223). -/

namespace Sys2Proof.Machine

/-- `mfs` (R43, R88). -/
def execMfs (d : Spec) (n : BitVec 6) (s : State) : Out :=
  settle s (if 28 ≤ n.toNat then .error (fltC Code.illegal) else s.put 4 d (scalar (s.sysRead s.cur n.toNat)))

/-- A register that `mts` may write (R42, R43). -/
def sysWritable (n : Nat) : Bool := (1 ≤ n && n ≤ 5) || n == 12 || n == 16 || n == 17 || (20 ≤ n && n < 28)

/-- `mts` (R43, R89). -/
def execMts (a : Spec) (n : BitVec 6) (s : State) : Out :=
  settle s (do
    if !sysWritable n.toNat then .error (fltC Code.illegal)
    let v ← s.read64 a
    let s ← s.sysWrite s.cur n.toNat v
    pure (s.fin 4))

/-- `trap` (R87). -/
def execTrap (a : Spec) (s : State) : Out :=
  settle s (do
    let v ← s.read64 a
    .error (fltS Code.softTrap v))

/-! ### TLB maintenance -/

/-- Fields of a selector (R231). -/
def selCtx (v : Word) : Nat := wbits v 20 10
def selMode (v : Word) : Nat := wbits v 18 2
def selTgt (v : Word) : Nat := wbits v 16 2
def selCore (v : Word) : Nat := wbits v 3 13

/-- A selector obeys R231 for an instruction with the given mode, on targets of a list. -/
def State.selCheck (s : State) (v : Word) (mode : Nat) (tgts : List Nat) : Except Stop Unit :=
  let core := selTgt v == 0 || selTgt v == 2
  let place := selCore v * 8
  if v.toNat / 2 ^ 30 ≠ 0 ∨ v.toNat % 8 ≠ 0 ∨ selMode v ≠ mode ∨ !tgts.contains (selTgt v) ∨
      (if core then !validPlace place || cluOfPlace place != cluOfPlace s.cur || isDispatch place != isDispatch s.cur else selCore v != 0)
  then .error (fltS Code.tlbSelector v)
  else .ok ()

/-- An ordered task may issue none of these. -/
def State.unordered (s : State) : Except Stop Unit := if s.me.ordered then .error (fltC Code.orderedUse) else .ok ()

/-- An entry obeys the must-be-0 rules of R226. -/
def entryOk (e : TlbEntry) : Bool :=
  leafOk (e.toNat % 2 ^ 64) && bits e.toNat 64 16 == 0 && bits e.toNat 122 6 == 0 && (!teSz e || bits e.toNat 80 5 == 0)

/-- `tlb.wr` (R232). -/
def execTlbWr (a b : Spec) (s : State) : Out :=
  settle s (do
    let (x, y) ← s.read2 a b
    let v := lo64 y
    s.selCheck v 0 [0, 1, 2]
    if !entryOk x then .error (fltS Code.tlbEntry (lo64 x))
    s.unordered
    let c := selCore v
    let cl := cluOfPlace s.cur
    let s := if selTgt v = 0 ∨ selTgt v = 2 then s.setCore c { s.core c with tlb := coreTlbPut (s.core c).tlb x } else s
    let s := if selTgt v = 1 ∨ selTgt v = 2 then s.setClu cl { s.clu cl with tlb := cluTlbPut (s.clu cl).tlb x } else s
    pure (s.fin 4))

/-- Entries that an invalidation removes (R233). -/
def invHits (mode ctx vpn : Nat) (e : TlbEntry) : Bool :=
  match mode with
  | 0 => teMatch ctx vpn e
  | 1 => teCtx e == ctx
  | _ => true

/-- An access translated through an entry of the pages that an invalidation removes. -/
def invAccess (mode ctx vpn : Nat) (a : Access) : Bool :=
  decide (locTag a.loc < tagScratch) &&
    match mode with
    | 0 => a.ctx == ctx && (a.va :: a.vas).any (fun v => decide (vpn / 32 * 32 ≤ v.toNat / 0x10000) && decide (v.toNat / 0x10000 < vpn / 32 * 32 + 32))
    | 1 => a.ctx == ctx
    | _ => true

/-- `tlb.inv` (R233): held until no access through a removed entry is in flight in its target. Of an address bits
47:16 alone are compared (log entry 133); the fixed entries of a service core stand (log entry 9). -/
def State.tlbInv (s : State) (mode : Nat) (a b : Spec) : Res := do
  let (x, y) ← s.read2 a b
  let v := lo64 y
  s.selCheck v mode [0, 1, 2, 3]
  s.unordered
  let ctx := selCtx v
  let vpn := wbits (lo64 x) 16 32
  let cl := cluOfPlace s.cur
  let keep (t : List TlbEntry) : List TlbEntry := t.filter (fun e => !invHits mode ctx vpn e)
  let inCore (c : Nat) : Bool := selTgt v == 3 || ((selTgt v == 0 || selTgt v == 2) && c == selCore v)
  let inClu (k : Nat) : Bool := selTgt v == 3 || ((selTgt v == 1 || selTgt v == 2) && k == cl)
  let s := { s with cores := Tab.mapV (fun c (k : Core) => if inCore c then { k with tlb := keep k.tlb } else k) s.cores,
                    clus := Tab.mapV (fun c (k : Cluster) => if inClu c then { k with tlb := keep k.tlb } else k) s.clus }
  let target (a : Access) : Bool := inCore (coreOf a.place) || inClu (cluOfPlace a.place)
  if s.acc.any (fun e => target e.2 && invAccess mode ctx vpn e.2) then .error (.hold s.rewind)
  else pure (s.fin 4)

def execTlbInvPage (a b : Spec) (s : State) : Out := settle s (s.tlbInv 0 a b)
def execTlbInvContext (a b : Spec) (s : State) : Out := settle s (s.tlbInv 1 a b)
def execTlbInvAll (a b : Spec) (s : State) : Out := settle s (s.tlbInv 2 a b)

/-- `tlb.prb` (R234); bits 63:48 of the address, which no entry holds, are not looked at (log entry 133). -/
def execTlbPrb (d a b : Spec) (s : State) : Out :=
  settle s (do
    let (x, y) ← s.read2 a b
    let v := lo64 y
    s.selCheck v 0 [0, 1]
    s.unordered
    let vpn := wbits (lo64 x) 16 32
    let e := if selTgt v = 0 then s.coreEntry (selCore v) (selCtx v) vpn else (s.clu (cluOfPlace s.cur)).tlb.find? (teMatch (selCtx v) vpn)
    s.put 4 d (e.getD 0))

/-- The migration wait of the context at `p` has been served. -/
def State.unask (s : State) (p : Nat) : State := s.pagerTook (fun r => match r with | .sleep q _ => q == p | _ => false)

/-- The pager answers a sleeping access with a fault, which its context raises when it next goes on; a speculative ordered task's
waits for the frontier (R236, R257). -/
def State.sleeperFault (s : State) (p : Nat) (f : Flt) : State :=
  let t := s.thread p
  if t.speculative then s.holdFault p t.pc f else s.setThread p { t with wait := .fault f t.pc }

/-- `pg.wake` (R236). -/
def execPgWake (d a b : Spec) (s : State) : Out :=
  settle s (do
    let (x, y) ← s.read2 a b
    let p := wbits (lo64 x) 0 16
    let code := wbits (lo64 y) 0 8
    if 2 < code ∨ wbits (lo64 y) 8 56 ≠ 0 then .error (fltC Code.wakeCode)
    if !validPlace p then .error (fltC Code.placeRange)
    s.unordered
    let t := s.thread p
    match t.wait with
    | .pager va since =>
      let s := (s.setThread p { t with wait := .none, pendAt := pauseFrom s.cyc since t.pendAt }).unask p
      let s := if code = 0 then s else s.sleeperFault p { code := if code = 1 then Code.pagePoison else Code.pageAbsent, addr := va }
      s.put 4 d 1
    | _ => s.put 4 d 0)

/-- Stores of a core that waited on its full dirty log go on; the pre-emption bound was paused meanwhile (R237). -/
def State.wakeDirty (s : State) (c : Nat) : State :=
  let go (p : Nat) (t : Thread) : Thread := match t.wait with
    | .dirty since => if coreOf p = c then { t with wait := .none, pendAt := pauseFrom s.cyc since t.pendAt } else t
    | _ => t
  { s with threads := Tab.mapV go s.threads }

/-- The buffer of `dl.hv`, checked as one write of 2,048 bytes at a 64-byte boundary (R238): the locations of its first byte and of its
last page's part. Every fault logs the address of the access (R157). -/
def State.hvBuffer (s : State) (va : Word) : Except Stop (Nat × Nat × State) := do
  let (loc, s) ← s.accessAl s.cur .write false va 2048 64
  let off := 0x10000 - va.toNat % 0x10000
  if windowOf va.toNat ≠ some .translated ∨ 2048 ≤ off then pure (loc, loc + off, s)
  else
    let next := va + wd off
    match s.access s.cur .write false next 1 with
    | .ok (l, s) => pure (loc, l, s)
    | .error (.flt f) => .error (.flt { f with addr := va })
    | .error e => .error e

/-- `dl.hv` (R238): the entries move once the context's earlier accesses are performed (log entry 20). -/
def execDlHv (d a b : Spec) (s : State) : Out :=
  settle s (do
    let (x, y) ← s.read2 a b
    let v := lo64 x
    let va := lo64 y
    let place := wbits v 0 16
    if v.toNat / 2 ^ 16 ≠ 0 ∨ v.toNat % 8 ≠ 0 ∨ !validPlace place ∨ cluOfPlace place ≠ cluOfPlace s.cur ∨ isDispatch place ≠ isDispatch s.cur then
      .error (fltS Code.tlbSelector v)
    let (loc, at2, s) ← s.hvBuffer va
    s.unordered
    s.free1 d
    if s.anyAcc (fun _ => true) then .error .wait
    let c := place / 8
    let log := (s.core c).dlog
    let bytes := log.flatMap (fun w => leBytes 8 w.toNat)
    let first := Nat.min bytes.length (0x10000 - va.toNat % 0x10000)
    let s ← s.syncCheck loc va ((first + 31) / 32)
    let (r, s) := s.writeSpan (s.accClass s.cur loc) s.myReader (bytes.length / 64 + 2) loc (bytes.take first)
    if r.isSome then .error (fltA Code.storeError va)
    let rest := bytes.drop first
    let s ← s.syncCheck at2 va ((rest.length + 31) / 32)
    let (r, s) := s.writeSpan (s.accClass s.cur at2) s.myReader (bytes.length / 64 + 2) at2 rest
    if r.isSome then .error (fltA Code.storeError va)
    let s := (s.setCore c { s.core c with dlog := [], dlogAsked := false }).wakeDirty c
    let s := s.pagerTook (fun r => r == .harvest c)
    s.put 4 d (scalar (wd log.length)))

/-! ### Injection and query -/

/-- Fields of an injection descriptor (R224). -/
def injTgt (v : Word) : Nat := wbits v 0 4
def injCnt (v : Word) : Nat := wbits v 4 4
def injSym (v : Word) : Nat := wbits v 8 8
def injReg (v : Word) : Nat := wbits v 18 6

/-- A descriptor that R224 refuses whatever the address. -/
def injBad (v : Word) (va : Word) : Bool :=
  v.toNat / 2 ^ 24 != 0 || wbits v 16 2 != 0 || injCnt v == 0 || decide (4 < injCnt v) || decide (4 < injTgt v) || specReserved (injReg v) ||
    ((injTgt v == 3 || injTgt v == 4) && va != 0)

/-- Invert symbols of a register of the running context (R224), at once: a load still outstanding to it overwrites the damage when it is
delivered (log entry 131). -/
def State.injectReg (s : State) (r sym cnt : Nat) : State :=
  let t := s.me
  if r = 1 then s
  else
    let ks := (List.range cnt).map (fun i => (sym + i) % 32)
    let v := (t.regs[r]?).getD 0
    let dmg := ks.foldl (fun (d : List (Nat × Nat)) k => if d.contains (r, k) then d.filter (· != (r, k)) else d ++ [(r, k)]) t.dmg
    s.setMe { t with regs := t.regs.setIfInBounds r (flipSyms v ks), dmg }

/-- `err.inj` (R224). -/
def execErrInj (a b : Spec) (s : State) : Out :=
  settle s (do
    let (x, y) ← s.read2 a b
    let va := lo64 x
    let v := lo64 y
    let bad : Stop := fltS Code.injection v
    if injBad v va then .error bad
    if injTgt v = 3 then
      s.unordered
      pure ((s.setMe { s.me with injTile := true }).fin 4)
    else if injTgt v = 4 then
      s.unordered
      pure ((s.injectReg (injReg v) (injSym v) (injCnt v)).fin 4)
    else
      let w ← addrCheck (s.privileged s.cur) false .write va 1 1
      match w with
      | .scratch _ => if injTgt v < 2 then .error bad
      | _ => pure ()
      let (loc, s) ← s.access s.cur .write false va 1
      let ok := match injTgt v with
        | 0 => locTag loc == 0
        | 1 => decide (locTag loc < tagScratch)
        | _ => decide (tagScratch ≤ locTag loc)
      if !ok then .error bad
      s.unordered
      s.issueStore 4 (s.newAcc (.inj (injTgt v) (injSym v) (injCnt v)) va 64 (loc / 64 * 64)))

/-- `cls.q` (R223): ordered as a load of its granule. It reads no byte of a scratchpad bank, so no bank budget binds it (R357;
log entry 78). -/
def execClsQ (d a : Spec) (s : State) : Out :=
  settle s (do
    let va ← s.read64 a
    let w ← addrCheck (s.privileged s.cur) false .read va 1 1
    let (loc, s) ← match w with
      | .scratch _ => pure (nearLoc s.cur w, s)
      | _ => s.access s.cur .read false va 1
    let mig := match windowOf va.toNat, s.tlbLookup (coreOf s.cur) s.me.ctxNo (va.toNat / 0x10000) with
      | some .translated, some (e, _) => teMig e
      | _, _ => false
    s.issueLoad 4 d { s.newAcc .clsq va 64 (loc / 64 * 64) with data := if mig then 1 else 0 })

end Sys2Proof.Machine
end

