-- ==== Sys2Proof/Machine/Log.lean ====
section
/-! DEFINITION. The decision log of a die (R388) and its throttle-reason trace (R423). -/

namespace Sys2Proof.Machine

/-- The counter that an action counts in beside counter 0, the records written (R388). -/
def actCounter : Nat → Option Nat
  | 0 => some 1 | 1 => some 2 | 2 => some 3 | 3 => some 4 | 4 => some 5 | 7 => some 6 | 6 => some 7
  | _ => none

def Die.count (q : Die) (i : Nat) : Die :=
  { q with dcnt := q.dcnt.setIfInBounds i (satAt (2 ^ 64 - 1) ((q.dcnt[i]?).getD 0 + 1)) }

/-- Put the two words of a record into a die's log; the hardware adds the cycle, and the two reserved bits are 0
(R7, R388). A base or size that boot firmware has
not set takes no record (log entry 30). -/
def State.dlogPut (s : State) (d : Nat) (lo hi : Nat) : State :=
  let q := s.die d
  let n := q.dlgn.toNat
  let s := if 8 ≤ n ∧ n ≤ 20 then
      let at_ := locIn 0 ((q.dbase.toNat + 16 * (q.dwi % 2 ^ n)) % 2 ^ 53)
      s.putRecord (dispatchPlace d) at_ lo (s.cyc % 2 ^ 32 * 2 ^ 32 + hi % 2 ^ 32 / 4 * 4)
    else s
  let q := s.die d
  s.setDie d { (q.count 0) with dwi := (q.dwi + 1) % 2 ^ 64 }

/-- A decision record of Turat on die `d` (R388). -/
def State.record (s : State) (d act rsn slot ctx obj : Nat) : State :=
  let s := s.dlogPut d obj (act % 16 * 2 ^ 28 + rsn % 256 * 2 ^ 20 + slot % 256 * 2 ^ 12 + ctx % 1024 * 2 ^ 2)
  match actCounter act with
  | some i => s.setDie d ((s.die d).count i)
  | none => s

/-- A throttle record of die `d`: cause, quantity, new value (R423); their count saturates (R422). -/
def State.throttle (s : State) (d cause qty v : Nat) : State :=
  let q := s.die d
  let at_ := locIn 0 ((q.thrBase.toNat + 16 * (q.thrWi % 2 ^ q.thrCfg.toNat)) % 2 ^ 53)
  let s := s.putRecord (dispatchPlace d) at_ v (s.cyc % 2 ^ 32 * 2 ^ 32 + cause % 16 * 2 ^ 28 + qty % 16 * 2 ^ 24)
  s.setDie d { s.die d with thrWi := satAt (2 ^ 64 - 1) (q.thrWi + 1) }

end Sys2Proof.Machine
end

