-- ==== Sys2Proof/Machine/Launch.lean ====
section
/-! DEFINITION. Kernel images and launches (R343 to R354): the instructions `launch` and `kinfo`, the checks of a header and its
tables, the states of a launch, and the sluice governor (R363). -/

namespace Sys2Proof.Machine

/-! ### Pages (R225) -/

/-- The states of a page of a context (R225). -/
inductive PageSt where
  | absent | resident | leased | migrating | poisoned
  deriving DecidableEq, Repr

/-- A lease holds an address. -/
def Lease.holds (l : Lease) (va : Nat) : Bool := decide (l.base ≤ va) && decide (va < l.base + l.size)

/-- The save and requeue areas of a context, which every launch of it leases (R366). -/
def Ctx.areas (c : Ctx) : List Lease :=
  [{ base := c.sva.toNat, size := 65536 * c.svs, perm := 1 }, { base := c.rqa.toNat, size := (128 * c.rqn + 65535) / 65536 * 65536, perm := 1 }]

/-- Lease count of the page at an address (R225): the launches of the context that have passed Checking and whose leases hold it, and
the context itself for its areas (R366, R367). A launch gives its counts back as it goes (R352). -/
def State.leaseCount (s : State) (ctx va : Nat) : Nat :=
  let c := s.context ctx
  (s.launches.filter (fun e => e.2.sub.ctx == ctx && e.2.state != .checking && e.2.leases.any (·.holds va))).length +
    (if c.st ≠ .destroyed ∧ c.areas.any (·.holds va) then 1 else 0)

/-- The table's leaf for the page at an address; the firmware context's own pages have their fixed entries (R230). -/
def State.pageLeaf (s : State) (cl ctx va : Nat) : Option TlbEntry :=
  (if ctx = 0 then s.coreEntry (coreOf (placeOf (walkCluster cl) 16 0)) 0 (va / 0x10000) else none) <|> s.walk cl ctx va

/-- The state of the page at an address (R225, R226). -/
def State.pageState (s : State) (cl ctx va : Nat) : PageSt :=
  match s.pageLeaf cl ctx va with
  | none => .absent
  | some e =>
    if tePsn e then .poisoned
    else if teMig e then .migrating
    else if s.leaseCount ctx va = 0 then .resident
    else .leased

/-- Addresses of the 64 KiB pages of a lease. -/
def Lease.pages (l : Lease) : List Nat := (List.range (l.size / 0x10000)).map (fun i => l.base + 0x10000 * i)

/-- Every leased page of a launch is Leased; one that is Migrating counts as such (R349). -/
def State.allLeased (s : State) (L : Launch) : Bool :=
  L.leases.all (fun l => l.pages.all (fun a => match s.pageState (192 + L.sub.die) L.sub.ctx a with
    | .leased | .migrating => true
    | _ => false))

/-- Both areas of a context are Leased in class-full frames (R366, R367). -/
def State.areasLeased (s : State) (n : Nat) : Bool :=
  (s.context n).areas.all (fun l => l.pages.all (fun a => s.pageState 192 n a == .leased && (match s.pageLeaf 192 n a with
    | some e => teTgt e == 0 && s.locClass (s.entryLoc e a) == 0
    | none => false)))

/-! ### launch and kinfo (R353, R354) -/

/-- Submit a descriptor to Turat: it waits for a launch number (R349). -/
def State.submit (s : State) (v : Submit) : Nat × State := (s.nextId, ({ s with subs := Tab.put s.subs s.nextId v }).bump)

/-- Serial number of a group. -/
def State.groupSer (s : State) (l : Option Nat) (g : Nat) : Nat := ((l.bind (fun n => s.group? n g)).map (·.ser)).getD 0

/-- An address of a launch descriptor, unless it is 0 (R20, R22, R343, R348). -/
def State.descAddr (s : State) (k : AKind) (n : Nat) (a : Word) : Except Stop Unit := do
  if a = 0 then pure ()
  else
    let _ ← addrCheck (s.privileged s.cur) true k a 1 1
    if a.toNat % n ≠ 0 then .error (fltA Code.alignment a)

/-- `launch` (R353). -/
def execLaunch (d a : Spec) (s : State) : Out :=
  settle s (do
    s.latch [a]
    let x ← s.readReg a
    let y ← s.readReg (specPlus a 1)
    let w : Vector Word 4 := #v[lo64 x, hi64 x, lo64 y, hi64 y]
    s.descAddr .read 0x10000 w[0]
    s.descAddr .read 128 w[1]
    s.descAddr .read 64 w[2]
    s.descAddr .rmw 8 w[3]
    s.free1 d
    let s ← s.release
    if s.me.speculative then
      let s ← s.defer (.launch w s.me.ipc (s.clockOf s.cur) s.me.ts)
      s.put 4 d 0
    else
      let (n, s) := s.submit { desc := w, ctx := s.me.ctxNo, die := dieOf s.cur, from? := s.me.launchNo.map (fun l => (l, s.me.grp, s.cur, s.me.ipc)), queue := none,
                                owner := ((s.me.launchNo.bind s.launch?).map (·.order)).getD 0, clock := s.clockOf s.cur,
                                ts := if s.me.ordered then s.me.ts else 0, gser := s.groupSer s.me.launchNo s.me.grp }
      pure (s.setMe { s.me with wait := .launch n s.cyc d }))

/-- The items of `kinfo` (R354); a task under no launch reads 0 (log entry 15). -/
def State.kinfoItem (s : State) (k : Nat) : Word :=
  match s.me.launchNo.bind s.launch?, s.me.launchNo with
  | some L, some l =>
    match k with
    | 0 => wd l
    | 1 => L.sub.desc[0]
    | 2 => L.sub.desc[2]
    | 3 => wd L.root
    | 4 => wd L.cls
    | 5 => wd L.sbm
    | 6 => wd (L.nlease + L.safes.length * 2 ^ 16)
    | _ => if s.me.saving then ((s.me.task.map (·.slot)).getD 0) else 0
  | _, _ => 0

def execKinfo (d a : Spec) (s : State) : Out :=
  settle s (do
    let v ← s.read64 a
    if 7 < v.toNat then .error (fltS Code.kinfoItem v)
    s.put 4 d (scalar (s.kinfoItem v.toNat)))

/-! ### LAUNCH_ADMIT (R349) -/

/-- A held instruction of the context at `p` completes with a result. -/
def State.giveResult (s : State) (p : Nat) (d : Spec) (v : Reg) (len : Nat) : State :=
  let c := s.cur
  let s : State := { s with cur := p }
  let s := (s.setMe { (s.me.result d v) with wait := .none }).clearWlt
  { (s.fin len) with cur := c }

/-- A launch as it enters Checking. -/
def Launch.new (v : Submit) (order now : Nat) : Launch :=
  { sub := v, order, state := .checking, status := 0, detail := 0, ending := false, ord := false, cls := 0, sbm := 0, nreg := 0, len := 0,
    entry := 0, fm := 0, f := Vector.replicate 4 0, bf := Vector.replicate 8 0, leases := [], nlease := 0, safes := [], root := 0, cores := [],
    front := (0, 0), frontNone := true, next := none, least := none, fin := none, maxFin := none, visited := now / 4096, clock := v.clock }

/-- LAUNCH_ADMIT: the lowest free launch number, which the submitter receives. -/
def State.launchAdmit (s : State) (sub : Nat) : State :=
  match Tab.get? s.subs sub, Tab.freeKey s.launches 0 4096 with
  | some v, some l =>
    let s := ({ s with subs := Tab.del s.subs sub }).setLaunch l (Launch.new v sub s.cyc)
    match s.threads.find? (fun e => match e.2.wait with | .launch n _ _ => n == sub | _ => false) with
    | some (p, t) => match t.wait with
      | .launch _ _ d => s.giveResult p d (scalar (wd l)) 4
      | _ => s
    | none => s
  | _, _ => s

def execLaunchAdmit (sub : Nat) (s : State) : Out := .next (if s.live then s.launchAdmit sub else s)

/-! ### LAUNCH_CHECK (R344 to R346, R350) -/

/-- Words of a context's memory as Turat reads them, through the check bits of their granules: a code of R361 where a page or the data is
bad, code 0 while an engine holds a line of them or its home takes no request (R162, R211). -/
def State.turatWords (s : State) (ctx die : Nat) (va : Nat) : Nat → Part (List Word × State)
  | 0 => .ok ([], s)
  | n + 1 => do
    let loc ← s.part (s.engLoc (192 + die) ctx none (dispatchPlace die) .read (wd va))
    if s.lineHeld loc then .error (0, s)
    let (w, s) ← s.checkedWord loc { launch := none, grp := 0, place := dispatchPlace die }
    let (ws, s) ← s.turatWords ctx die (va + 8) n
    pure (wd w :: ws, s)

/-- Header words of a kernel (R344). -/
abbrev Header := List Word

def Header.w (h : Header) (k lo n : Nat) : Nat := wbits ((h[k]?).getD 0) lo n

/-- The image length, rounded up to 64 KiB (R343). -/
def Header.span (h : Header) : Nat := (h.w 14 0 40 + 65535) / 65536 * 65536

/-- A header word obeys R344 and R350. -/
def headerWordOk (h : Header) (k : Nat) : Bool :=
  let z (lo n : Nat) : Bool := h.w k lo n == 0
  let len := h.w 14 0 40
  let elem (v : Nat) : Bool := v == 0 || fmtValid v
  match k with
  | 0 => h.w 0 48 16 == 0x4B48 && h.w 0 0 48 % 2 == 0 && decide (h.w 0 0 48 < len)
  | 1 => decide (h.w 1 0 9 ≤ 256) && z 9 7 && decide (h.w 1 16 13 ≤ 4096) && z 29 3 && decide (1 ≤ h.w 1 32 6) && decide (h.w 1 32 6 ≤ 48) &&
      z 38 2 && h.w 1 48 2 != 3 && z 51 5 && h.w 1 56 8 == 1
  | 2 =>
    let tab (off n : Nat) : Bool := off % 16 == 0 && (if n = 0 then off == 0 else decide (off < len))
    tab (h.w 2 0 32) (h.w 1 16 13) && tab (h.w 2 32 32) (h.w 1 0 9)
  | 3 => fmValid (h.w 3 0 64)
  | 4 => elem (h.w 4 0 32) && elem (h.w 4 32 32)
  | 5 => elem (h.w 5 0 32) && elem (h.w 5 32 32)
  | 14 => decide (256 ≤ len) && z 40 24
  | k =>
    if 6 ≤ k ∧ k ≤ 13 then bfValid (h.w k 0 64) && (h.w 1 40 8 / 2 ^ (k - 6) % 2 == 1 || h.w k 0 64 == 0)
    else h.w k 0 64 == 0

/-- A lease entry of two words (R345). -/
def leaseOf (lo hi : Word) : Lease := { base := wbits lo 0 48, size := wbits hi 0 48, perm := wbits hi 48 2 }

def leaseEntryOk (lo hi : Word) : Bool :=
  let l := leaseOf lo hi
  wbits lo 48 16 == 0 && wbits hi 50 14 == 0 && l.perm != 3 && l.size != 0 && l.size % 65536 == 0 && l.base % 65536 == 0 &&
    decide (l.base + l.size ≤ nearBase)

def Lease.disjoint (a b : Lease) : Bool := decide (a.base + a.size ≤ b.base) || decide (b.base + b.size ≤ a.base)

/-- The first lease of a table that breaks R345, given those before it. -/
def badLease (before : List Lease) (i : Nat) : List (Word × Word) → Option Nat
  | [] => none
  | (lo, hi) :: t =>
    let l := leaseOf lo hi
    if leaseEntryOk lo hi && before.all (fun b => b.disjoint l) then badLease (l :: before) (i + 1) t else some i

/-- A safe-point entry of two words (R346). -/
def safeOf (lo hi : Word) : SafePt :=
  { pc := wbits lo 0 48, n := wbits lo 52 12, sv := wbits hi 24 24, rs := wbits hi 0 24, sz := wbits hi 48 9 }

/-- The first safe point that breaks R346 or lies beyond the image, given those before it. -/
def badSafe (len : Nat) (before : List SafePt) (i : Nat) : List (Word × Word) → Option Nat
  | [] => none
  | (lo, hi) :: t =>
    let e := safeOf lo hi
    let ok := wbits lo 48 4 == 0 && wbits hi 57 7 == 0 && decide (1 ≤ e.sz) && decide (e.sz ≤ 256) && e.pc % 2 == 0 && decide (e.pc < len) &&
      decide (2 * e.sv < len) && decide (2 * e.rs < len) && before.all (fun b => decide (b.pc < e.pc) && b.n != e.n)
    if ok then badSafe len (e :: before) (i + 1) t else some i

/-- Pairs of words. -/
def pairsOf : List Word → List (Word × Word)
  | a :: b :: t => (a, b) :: pairsOf t
  | _ => []

/-- Alignments of a descriptor's addresses (R343, R348). -/
def descAligned (w : Vector Word 4) : Bool :=
  w[0].toNat % 65536 == 0 && w[1].toNat % 128 == 0 && w[2].toNat % 64 == 0 && w[3].toNat % 8 == 0

/-- What the checks of a launch find. -/
structure LaunchForm where
  head : Header
  leases : List Lease
  safes : List SafePt
  /-- The root's control block and its location. -/
  root : List Word
  loc : Nat

/-- What stops the checks of a launch: the number that the status word carries for a failure (R350), or none while a read waits, with the
state that the reads have left (R211). -/
abbrev Checks (α : Type) := Except (Option Nat × State) α

/-- A read that the checks make: what cannot be read fails as word 0 (log entry 29). -/
def asCheck {α : Type} : Part α → Checks α
  | .ok a => .ok a
  | .error (0, s) => .error (none, s)
  | .error (_, s) => .error (some 0, s)

/-- The checks of a launch, in the order of R350: the header, the lease table, the safe-point table and the root's control block. -/
def State.checkLaunch (s : State) (v : Submit) : Checks (LaunchForm × State) := do
  let H := v.desc[0].toNat
  if !descAligned v.desc then .error (some 0, s)
  let (h, s) ← asCheck (s.turatWords v.ctx v.die H 32)
  match (List.range 32).find? (fun k => !headerWordOk h k) with
  | some k => .error (some k, s)
  | none => pure ()
  let image : Lease := { base := H, size := Header.span h, perm := 2 }
  let areas := (s.context v.ctx).areas
  if nearBase < H + image.size ∨ !areas.all image.disjoint then .error (some 14, s)
  let (lt, s) ← asCheck (s.turatWords v.ctx v.die (H + Header.w h 2 32 32) (2 * Header.w h 1 0 9))
  match badLease (image :: areas) 0 (pairsOf lt) with
  | some i => .error (some (32 + i), s)
  | none => pure ()
  let (st, s) ← asCheck (s.turatWords v.ctx v.die (H + Header.w h 2 0 32) (2 * Header.w h 1 16 13))
  match badSafe (Header.w h 14 0 40) [] 0 (pairsOf st) with
  | some i => .error (some (32 + i), s)
  | none => pure ()
  let (g, s) ← asCheck (s.turatWords v.ctx v.die v.desc[1].toNat 16)
  if (gcbBreach (s.context v.ctx).prv (vec16 g)).isSome then .error (some 0, s)
  let loc ← asCheck (s.part (s.engLoc (192 + v.die) v.ctx none (dispatchPlace v.die) .write v.desc[1]))
  pure ({ head := h, leases := (pairsOf lt).map (fun p => leaseOf p.1 p.2), safes := (pairsOf st).map (fun p => safeOf p.1 p.2), root := g, loc }, s)

/-- A launch with the fields of its header and its leases: its image, its table, and the areas of its context (R343, R366). -/
def Launch.filled (L : Launch) (h : Header) (lt areas : List Lease) (st : List SafePt) : Launch :=
  let w (k lo n : Nat) : Word := wd (Header.w h k lo n)
  { L with
    state := .residing, ord := Header.w h 1 50 1 == 1, cls := Header.w h 1 48 2, sbm := Header.w h 1 40 8, nreg := Header.w h 1 32 6,
    len := Header.w h 14 0 40, entry := Header.w h 0 0 48, fm := w 3 0 64, f := #v[w 4 0 32, w 4 32 32, w 5 0 32, w 5 32 32],
    bf := Vector.ofFn (fun i : Fin 8 => w (6 + i.val) 0 64),
    leases := { base := L.sub.desc[0].toNat, size := Header.span h, perm := 2 } :: (lt ++ areas), nlease := lt.length, safes := st }

/-- A launch ends with a status: its tasks, records and tokens go now, its other resources at LAUNCH_END (R349). -/
def State.failLaunch (s : State) (l status detail : Nat) : State :=
  match s.launch? l with
  | some L => (s.setLaunch l { L with detail }).killLaunch l status
  | none => s

/-- Turat asks the pager for the residency of the pages that a launch leases (R225): the pager c17 of its die's first cluster (log entry
126). -/
def State.askReside (s : State) (l : Nat) : State :=
  match s.launch? l with
  | some L => if s.allLeased L then s else s.askPager (coreOf (placeOf (24 * L.sub.die) 0 0)) (.reside l)
  | none => s

/-- LAUNCH_CHECK: a launch that passes has its root group created (R348, R356), and the pages that it leases are asked for (R225). -/
def State.launchCheck (s : State) (l : Nat) : State :=
  match s.launch? l with
  | none => s
  | some L =>
    if L.state ≠ .checking ∨ L.ending then s
    else match s.checkLaunch L.sub with
      | .error (none, s) => s
      | .error (some k, s) => s.failLaunch l 1 k
      | .ok (f, s) =>
        let L := L.filled f.head f.leases (s.context L.sub.ctx).areas f.safes
        match s.addGroup l (fun slot => newGroup (vec16 f.root) (Vector.replicate 16 0) L.sbm slot slot L.sub.desc[1] f.loc) with
        | some (root, s) => (s.setLaunch l { L with root }).askReside l
        | none => s

def execLaunchCheck (launch : Nat) (s : State) : Out := .next (if s.live then s.launchCheck launch else s)

/-! ### Residing, Awaiting weir, Placing (R349, R351) -/

/-- LAUNCH_RESIDENT: every leased page is Leased, or the pager cannot back one that is not. -/
def State.launchResident (s : State) (l : Nat) (backed : Bool) : State :=
  match s.launch? l with
  | none => s
  | some L =>
    if L.state ≠ .residing ∨ L.ending ∨ s.allLeased L ≠ backed then s
    else
      let s := s.pagerTook (· == .reside l)
      if !backed then s.failLaunch l 2 0
      else s.setLaunch l { L with state := if L.ord then .awaitWeir else .placing, waitAt := s.cyc }

def execLaunchResident (launch : Nat) (backed : Bool) (s : State) : Out := .next (if s.live then s.launchResident launch backed else s)

/-- Launches that hold a frontier slot. -/
def State.weirSlots (s : State) : Nat := (s.launches.filter (fun e => e.2.ord && (e.2.state == .placing || e.2.state == .running))).length

/-- LAUNCH_WEIR_SLOT: in the order of submission. -/
def State.launchWeirSlot (s : State) (l : Nat) : State :=
  match s.launch? l with
  | none => s
  | some L =>
    let earlier := s.launches.any (fun e => e.2.state == .awaitWeir && !e.2.ending && decide (e.2.order < L.order))
    if L.state ≠ .awaitWeir ∨ L.ending ∨ 64 ≤ s.weirSlots ∨ earlier then s
    else s.setLaunch l { L with state := .placing, waitAt := s.cyc }

def execLaunchWeirSlot (launch : Nat) (s : State) : Out := .next (if s.live then s.launchWeirSlot launch else s)

/-- Priority of a launch's root group (R358). -/
def State.rootPri (s : State) (e : Nat × Launch) : Nat := ((s.group? e.1 e.2.root).map (·.pri)).getD 0

/-- The entry task's record (R351). -/
def State.entryMsg (l : Nat) (L : Launch) (cl : Nat) : Msg :=
  let pay : Vector Reg 3 := #v[mkReg L.sub.desc[2] (wd l), 0, 0]
  let m := newMsg (mkH0 0 L.root (L.sub.desc[0].toNat + L.entry)) (mkH1 (clusterRoute cl) 0 0) pay (dispatchPlace L.sub.die) (.task cl)
  { m with launch := some l, ctx := L.sub.ctx, sgrp := L.root, clock := L.sub.clock }

/-- LAUNCH_PLACE: within the root group's budgets, highest group priority first, while the context is Idle or Running and no Turat image
loads (R349, R358, R367, R385, R386). -/
def State.launchPlace (s : State) (l cl : Nat) : State :=
  match s.launch? l with
  | none => s
  | some L =>
    let c := s.context L.sub.ctx
    let above := s.launches.any (fun e => e.2.state == .placing && !e.2.ending && e.2.sub.die == L.sub.die && e.1 != l &&
      decide (s.rootPri (l, L) < s.rootPri e))
    if L.state ≠ .placing ∨ L.ending ∨ 192 ≤ cl ∨ above ∨ s.tasksFull (some l) L.root ∨ (s.die L.sub.die).go ∨ (c.st ≠ .idle ∧ c.st ≠ .running) then s
    else
      let s := s.setLaunch l { L with state := .running }
      let s := s.setCtx L.sub.ctx { c with st := .running }
      let s := s.record L.sub.die 2 0 0 L.sub.ctx (l + cl / 24 * 2 ^ 16 + cl % 24 * 2 ^ 19 + L.root * 2 ^ 24)
      s.post (State.entryMsg l L cl)

def execLaunchPlace (launch cl : Nat) (s : State) : Out := .next (if s.live then s.launchPlace launch cl else s)

/-! ### LAUNCH_END (R352) -/

/-- Nothing of the launch is live, waiting, in flight or uncommitted, and no token of it is non-terminal. -/
def State.launchQuiet (s : State) (l : Nat) : Bool :=
  let mine (m : Msg) : Bool := m.launch == some l
  !s.threads.any (fun e => e.2.task.isSome && e.2.launchNo == some l) && !s.mesh.any (fun e => mine e.2) &&
    !s.cores.any (fun e => e.2.inbox.any mine) && !s.clus.any (fun e => e.2.tu.any mine || e.2.spill.any mine || e.2.commits.any (fun c => c.2.launch == l)) &&
    !s.ctxs.any (fun e => e.2.saves.any mine || e.2.requeue.any (fun x => mine x.2) || e.2.firings.any (fun x => mine x.2.1)) &&
    !s.toks.any (fun e => e.2.launch == some l && (!e.2.st.terminal || !e.2.posted)) && !s.late.any (fun t => t.launch == some l)

/-- What a core holds for a launch goes: banks, reply slots, queue entries, counted as dropped (R147, R270, R351); a queue is the
launch's that bound it last (log entry 96). -/
def Core.release (l : Nat) (k : Core) : Core :=
  let lost := (k.xq.filter (fun e => e.2.launch == some l)).foldl (fun n e => n + e.2.entries.length) 0
  { k with banks := k.banks.filter (fun e => e.2 != l), slots := k.slots.filter (fun e => e.2.launch != some l),
           xq := k.xq.filter (fun e => e.2.launch != some l), drops := satAt (2 ^ 64 - 1) (k.drops + lost) }

/-- What a cluster holds for a launch goes: row pins and sequence numbers (R243, R340). -/
def Cluster.release (l : Nat) (k : Cluster) : Cluster :=
  { k with rowTags := k.rowTags.map (fun g => if g.pin = some l then { g with pin := none } else g), seqs := Tab.del k.seqs l }

/-- The groups of a launch end with it; their blocks say so (R359). -/
def State.endGroups (s : State) (l : Nat) : State :=
  let gs := s.groups.filter (fun e => e.1 / 4096 == l)
  let s := gs.foldl (fun s e => match s.gcbLoc l e.2 with
    | some loc => s.writeN loc 8 ((e.2.put 0 60 4 4).gcb[0]).toNat
    | none => s) s
  { s with groups := s.groups.filter (fun e => e.1 / 4096 != l) }

/-- A signal that the part writes: −1 added on success, −1 set on failure, a release at `.sys` of the writes before it; a failure's code,
or 0 (R352, R381, R393). -/
def State.completion (s : State) (cl ctx p : Nat) (ok : Bool) (va : Word) (clock : Clock) : Nat × State :=
  if va = 0 then (0, s)
  else match s.sigTarget cl ctx none p true va with
    | .error c => (c, s.countLost c)
    | .ok loc =>
      match s.sigWrite loc (if ok then .sadd else .swap) (scalar (wd (2 ^ 64 - 1))) { launch := none, grp := 0, place := p } with
      | .ok s => (0, s.sigRel p clock loc)
      | .error x => x

/-- The completion signal of a submission waits to be written. -/
def State.subHeld (s : State) (v : Submit) : Bool :=
  v.desc[3] != 0 && s.sigHeld (192 + v.die) v.ctx none (dispatchPlace v.die) v.desc[3]

/-- The status word (R350). -/
def Launch.statusWord (L : Launch) : Nat := L.status % 256 + L.detail % 256 * 256

/-- The packet that submitted a launch is done with it, its signal written (R378, R381). -/
def State.packetDone (s : State) (q idx : Nat) (r : Option Nat) (wrote : Nat) : State :=
  match Tab.get? s.queues q with
  | some u =>
    let f (k : Pkt) : Pkt := if k.idx = idx ∧ k.done = none then { k with done := some r, wrote := some wrote } else k
    { s with queues := Tab.put s.queues q { u with started := u.started.map f } }
  | none => s

/-- A launch that a task submitted and that failed is reported to the issuing group (R353); for one that has Ended the fault is discarded
and counted, as for one in Ending (R359; log entry 135). -/
def State.reportLaunch (s : State) (L : Launch) : State :=
  match L.sub.from? with
  | some (l, g, p, pc) =>
    if L.status = 0 ∨ (s.launch? l).map (·.order) ≠ some L.sub.owner then s
    else
      let r : FltRec := { code := Code.launchFailed, cls := s.classOf (some l) g, place := p, grp := g, pc, addr := 0, tok := 0, ts := L.sub.ts,
                          syn := wd L.statusWord, cyc := s.cyc, detail := 0 }
      if (s.group? l g).map (·.ser) = some L.sub.gser then s.report l g r
      else ({ s with faults := r :: s.faults } : State).countLoss (cluOfPlace p) 1
  | none => s

/-- A context goes Idle when its last running launch has ended (R367). -/
def State.idleContext (s : State) (n : Nat) : State :=
  let c := s.context n
  if c.st = .running ∧ n ≠ 0 ∧ !s.launches.any (fun e => e.2.sub.ctx == n && e.2.state == .running) then s.setCtx n { c with st := .idle } else s

/-- What a launch that is no more tells: its completion signal, which releases the writes of `clock`, and its queue (R352, R378). -/
def State.tellEnd (s : State) (v : Submit) (status word : Nat) (clock : Clock) : State :=
  let (code, s) := s.completion (192 + v.die) v.ctx (dispatchPlace v.die) (status == 0) v.desc[3] clock
  match v.queue with
  | some (q, i) => s.packetDone q i (if status = 0 then none else some word) code
  | none => s

/-- The actions of R352, in their order. -/
def State.endLaunch (s : State) (l : Nat) (L : Launch) : State :=
  let s := s.dropJoin l
  let s : State := { s with cores := Tab.mapV (fun _ k => k.release l) s.cores, clus := Tab.mapV (fun _ k => k.release l) s.clus }
  let s := (s.toksWhere (fun t => t.launch == some l)).foldl State.freeTok s
  let s := s.endGroups l
  let s := ({ s with launches := Tab.del s.launches l } : State).pagerTook (· == .reside l)
  let s := s.tellEnd L.sub L.status L.statusWord L.clock
  (s.reportLaunch L).idleContext L.sub.ctx

/-- LAUNCH_END: a running launch with nothing left, or one whose end is decided, once every write of it is performed. -/
def State.launchEnd (s : State) (l : Nat) : State :=
  match s.launch? l with
  | none => s
  | some L =>
    if s.acc.any (fun e => e.2.launch == some l) || s.subHeld L.sub || s.groups.any (fun e => e.1 / 4096 == l && (s.gcbLoc l e.2).isNone) then s
    else if L.ending then s.endLaunch l L
    else if L.state = .running ∧ s.launchQuiet l then s.endLaunch l L
    else s

def execLaunchEnd (launch : Nat) (s : State) : Out := .next (if s.live then s.launchEnd launch else s)

/-! ### The sluice governor (R363) -/

/-- A ring's write index as its die reads it, where the control block lies now (R233). -/
def State.wiOf (s : State) (q : Queue) : Nat := s.readN (s.locNow (dispatchPlace q.die) q.ctx q.qcb q.loc + 8) 8

/-- Occupancy of a ring in 1/256 of its capacity (R383). -/
def State.occupancy (s : State) (q : Queue) : Nat := (s.wiOf q - q.ri) * 256 / 2 ^ q.lgn

/-- One ring of a launch: the producer and the consumer, two groups, whose rout and rin name it. -/
def State.governRing (s : State) (l h : Nat) : State :=
  let of (f : Group → Bool) : List (Nat × Group) := s.groups.filter (fun e => e.1 / 4096 == l && e.2.stg != 0 && e.2.st != 4 && f e.2)
  let pair := (of (fun g => g.w 7 16 16 == h)).findSome? (fun p => ((of (fun g => g.w 7 0 16 == h)).find? (fun c => c.1 != p.1)).map (fun c => (p, c)))
  let ring := s.queues.find? (fun e => e.2.mode == 1 && e.2.st == .mapped && 1 + e.2.slot == h)
  match pair, ring with
  | some ((pk, P), (ck, C)), some (_, q) =>
    let o := s.occupancy q
    let move (a b : Nat) : State :=
      let s := s.setGroup l (pk % 4096) (P.put 8 0 16 a)
      let s := s.setGroup l (ck % 4096) (C.put 8 0 16 b)
      let d := ((s.launch? l).map (·.sub.die)).getD 0
      s.record d 8 0 0 (((s.launch? l).map (·.sub.ctx)).getD 0) (h % 512 + pk % 4096 * 2 ^ 20 + ck % 4096 * 2 ^ 32)
    if C.w 6 24 8 < o ∧ P.w 6 32 16 < P.cap ∧ C.cap < C.w 6 48 16 then move (P.cap - 1) (C.cap + 1)
    else if o < C.w 6 16 8 ∧ C.w 6 32 16 < C.cap ∧ P.cap < P.w 6 48 16 then move (P.cap + 1) (C.cap - 1)
    else s
  | _, _ => s

/-- SLUICE_GOVERNOR_VISIT: once in each 4,096 cycles, ring by ring. -/
def State.govern (s : State) (l : Nat) : State :=
  match s.launch? l with
  | none => s
  | some L =>
    if L.state ≠ .running ∨ L.ending ∨ s.cyc / 4096 ≤ L.visited then s
    else
      let s := s.setLaunch l { L with visited := s.cyc / 4096 }
      (List.range 256).foldl (fun s i => s.governRing l (i + 1)) s

def execSluiceGovernorVisit (launch : Nat) (s : State) : Out := .next (if s.live then s.govern launch else s)

end Sys2Proof.Machine
end

