-- ==== Sys2Proof/Machine/Weir.lean ====
section
/-! DEFINITION. The weir (R263), the end of waits for the frontier (R257), commits (R264), the release of deferred items (R261) and the
abort for a full spill area (R244). -/

namespace Sys2Proof.Machine

/-! ### Deferred items (R261) -/

/-- A fault of a released item is reported as one of a retired task of its group. -/
def State.itemFault (s : State) (c : Commit) (f : Flt) : State :=
  let g := hGrp c.msg.h0
  s.report c.launch g { code := f.code, cls := s.classOf (some c.launch) g, place := c.ran, grp := g, pc := 0, addr := f.addr,
                        tok := f.tok, ts := c.ts, syn := f.syn, cyc := s.cyc, detail := f.detail }

/-- The outcome of a released operation of the join unit. -/
def State.itemResult (s : State) (c : Commit) (r : Res) : State :=
  match r with
  | .ok s => s
  | .error (.flt f) => s.itemFault c f
  | .error (.kept s f) => s.itemFault c f
  | .error (.hold s) => s
  | .error .wait => s

/-- A held token is released: it is counted if its task still runs, and Issued or Waiting by its gate (R82, R261). -/
def State.releaseTok (s : State) (own : Nat × Nat) (key : Nat) : State :=
  match s.tok? key with
  | some t =>
    if t.defer ≠ some own then s else
    let s := s.setTok key { t with defer := none, st := if t.st = .issued ∧ !t.gate then .waiting else t.st }
    match t.holder with
    | some p =>
      if t.hold = 0 ∧ !t.st.terminal then
        let h := s.thread p
        s.setThread p (if t.maj = 0x10 then { h with ctl := h.ctl + 1 } else { h with ccp := h.ccp + 1 })
      else s
    | none => s
  | none => s

/-- Records of a place that travel to a join unit reach it before a deferred operation of the place does (R280; log entry 107). -/
def State.joinFlush (s : State) (p cl : Nat) : State :=
  let mine (m : Msg) : Bool := m.sender == p && m.byTok.isNone && (match m.dest with | .port c _ => c == cl | _ => false)
  (s.mesh.filter (fun e => mine e.2)).foldl (fun s e => match Tab.get? s.mesh e.1, e.2.dest with
    | some m, .port c i => (({ s with mesh := Tab.del s.mesh e.1 }).accepted m).portArrive c i m
    | _, _ => s) s

/-- A released record: one whose group has Ended is discarded (R250), a message to a port of the own cluster is applied in its turn among
the task's operations on that join unit (R280). -/
def State.releaseMsg (s : State) (cl : Nat) (m : Msg) : State :=
  if s.groupGone m then s.countLoss cl 1
  else match m.dest with
    | .port c i => if c = cl then (s.joinFlush m.sender cl).portArrive c i (m.stamped s.cyc) else s.post m
    | _ => s.post m

/-- A deferred PORT operation on port `i`; the port may have got another owner since its check (R286). -/
def State.releasePort (s : State) (cl : Nat) (c : Commit) (i : Nat) (a : Word) (act : State → User → Res) : State :=
  let u : User := { launch := some c.launch, grp := hGrp c.msg.h0 }
  if s.foreignPort cl i u then s.itemFault c { code := Code.portOwner, syn := a } else s.itemResult c (act s u)

/-- A deferred signal is written where its address lies now (R233), through the checks of that page, its dirty log among them (R237);
`none` while its page migrates, its home takes no request or the log is full (R235). -/
def State.releaseSignal (s : State) (c : Commit) (op : RmwOp) (loc : Nat) (va : Word) (b : Reg) : Option State :=
  let w : Reader := { launch := some c.launch, grp := hGrp c.msg.h0, place := c.ran }
  match s.lateLoc c.ran c.ctx va loc true w with
  | .error (0, _) => none
  | .error (code, s) => some (s.itemFault c { code, addr := va })
  | .ok (loc, s) =>
    if s.lineHeld loc then none
    else match s.sigWrite loc op b w with
      | .ok s => some s
      | .error (code, s) => some (s.itemFault c { code, addr := va })

/-- One deferred item takes its effect, or waits for its write. -/
def State.releaseItem (s : State) (cl e : Nat) (c : Commit) (i : Deferred) : Option State :=
  let u : User := { launch := some c.launch, grp := hGrp c.msg.h0 }
  let place := c.ran
  match i with
  | .signal op loc va b => s.releaseSignal c op loc va b
  | .msg m => some (s.releaseMsg cl m)
  | .token k => some (s.releaseTok (cl, e) k)
  | .launch w pc clock ts => some (s.submit { desc := w, ctx := c.ctx, die := cl / 24, from? := some (c.launch, hGrp c.msg.h0, place, pc), queue := none,
                                              owner := ((s.launch? c.launch).map (·.order)).getD 0, clock, ts,
                                              gser := s.groupSer (some c.launch) (hGrp c.msg.h0) }).2
  | .port op a b => some (
    match portAddr (op == 2 || op == 3) a with
    | .error _ => s
    | .ok (q, i) =>
      let s := s.joinFlush place q
      match op with
      | 1 => s.releasePort q c i a (fun s u => s.joinCfg q i u (lo64 b))
      | 2 => s.itemResult c (s.joinBind q u a b)
      | 3 => s.itemResult c (s.joinUnbind q u a)
      | _ => s.releasePort q c i a (fun s _ => .ok (s.joinClr q i)))
  | .dep a b go => some (
    match s.tok? (hdlKey a) with
    | some t => if t.hdl = a then s.addDep (hdlKey a) b go else s
    | none => s)

/-- Items are released in the order of their issue, up to one whose write waits: which are left, and the state. -/
def State.releaseList (cl e : Nat) (c : Commit) : List Deferred → State → List Deferred × State
  | [], s => ([], s)
  | i :: is, s =>
    match s.releaseItem cl e c i with
    | some s => State.releaseList cl e c is s
    | none => (i :: is, s)

/-- The items of a commit entry are released; those behind one that waits stay with the entry. -/
def State.releaseItems (s : State) (cl e : Nat) : State :=
  match Tab.get? (s.clu cl).commits e with
  | none => s
  | some c =>
    let r := State.releaseList cl e c c.items (s.setClu cl { s.clu cl with commits := Tab.put (s.clu cl).commits e { c with items := [] } })
    if r.1.isEmpty then r.2
    else match Tab.get? (r.2.clu cl).commits e with
      | some d => r.2.setClu cl { r.2.clu cl with commits := Tab.put (r.2.clu cl).commits e { d with items := r.1 ++ d.items } }
      | none => r.2

/-- Items of tasks that have become Irrevocable are released at once (R257). -/
def State.releaseIrrev (s : State) : State :=
  let es := s.commits.filter (fun x => x.2.2.irrev && !x.2.2.items.isEmpty)
  es.foldl (fun s x => s.releaseItems x.1 x.2.1) s

/-! ### A round (R263) -/

/-- Keys of the unfinished ordered tasks of a launch, wherever they are. -/
def State.unfinished (s : State) (l : Nat) : List (Nat × Nat) :=
  let mine (m : Msg) : Bool := m.launch == some l && hKind m.h0 == 1 && !m.restore
  let pick (ms : List Msg) : List (Nat × Nat) := (ms.filter mine).map Msg.key
  pick (s.mesh.map (·.2)) ++ s.clus.flatMap (fun k => pick k.2.tu ++ pick k.2.spill) ++ s.ctxs.flatMap (fun c => pick (c.2.requeue.map (·.2))) ++
    (s.commits.filter (fun x => x.2.2.launch == l && x.2.2.state != .finished)).map (fun x => x.2.2.key)

/-- Keys of the finished ordered tasks of a launch that have not committed. -/
def State.finished (s : State) (l : Nat) : List (Nat × Nat) :=
  (s.commits.filter (fun x => x.2.2.launch == l && x.2.2.state == .finished)).map (fun x => x.2.2.key)

def leastKey (ks : List (Nat × Nat)) : Option (Nat × Nat) :=
  ks.foldl (fun (b : Option (Nat × Nat)) k => match b with | some x => if keyLt k x then some k else some x | none => some k) none
def greatestKey (ks : List (Nat × Nat)) : Option (Nat × Nat) :=
  ks.foldl (fun (b : Option (Nat × Nat)) k => match b with | some x => if keyLt x k then some k else some x | none => some k) none

/-- The key that follows a key. -/
def nextKey (k : Nat × Nat) : Nat × Nat := if k.2 = 2 ^ 32 - 1 then (k.1 + 1, 0) else (k.1, k.2 + 1)

/-- WEIR_SAMPLE: a new round begins at a multiple of 256 cycles; the clusters note full spill areas too (R244). -/
def State.weirSample (s : State) : State :=
  if s.wstage ≠ 0 ∨ s.cyc / 256 ≤ s.round then s
  else
    let r := s.cyc / 256
    let launches := Tab.mapV (fun l (L : Launch) => { L with least := leastKey (s.unfinished l), fin := greatestKey (s.finished l) }) s.launches
    let full (cl : Nat) : Bool := decide (131072 ≤ s.spilled (cl / 24))
    let clus := Tab.mapV (fun cl (k : Cluster) => { k with fullSince := if full cl then (k.fullSince <|> some r) else none }) s.clus
    { s with round := r, wstage := 1, launches, clus }

def execWeirSample (s : State) : Out := .next (if s.live then s.weirSample else s)

/-- WEIR_DIE_REDUCTION. -/
def execWeirDieReduction (s : State) : Out :=
  .next (if s.live && s.wstage == 1 && decide (256 * s.round + 64 ≤ s.cyc) then { s with wstage := 2 } else s)

/-- The frontier of a launch from what its clusters reported; it never decreases. -/
def Launch.reduce (L : Launch) : Launch :=
  let m := match L.maxFin, L.fin with
    | some a, some b => if keyLt a b then some b else some a
    | some a, none => some a
    | none, b => b
  let f := match L.least, m with
    | some k, _ => k
    | none, some k => nextKey k
    | none, none => (0, 0)
  { L with maxFin := m, next := some (if keyLt f L.front then L.front else f, L.least.isNone) }

/-- WEIR_DEVICE_REDUCTION. -/
def execWeirDeviceReduction (s : State) : Out :=
  .next (if s.live && s.wstage == 2 && decide (256 * s.round + 128 ≤ s.cyc) then
    { s with wstage := 3, launches := Tab.mapV (fun _ L => L.reduce) s.launches } else s)

def Launch.apply (L : Launch) : Launch :=
  match L.next with
  | some (f, n) => { L with front := f, frontNone := n, next := none }
  | none => L

/-- A task that waits for the frontier and whose key it is goes on, Irrevocable; a fault that waited is then raised (R257). -/
def State.endWait (s : State) (p : Nat) : State :=
  let t := s.thread p
  if s.frontier t.launchNo ≠ t.key then s
  else match t.wait with
    | .frontier =>
      let s := s.makeIrrev p
      s.setThread p { s.thread p with wait := .none }
    | .fault _ _ => s.makeIrrev p
    | _ => s

/-- WEIR_FRONTIER_APPLY. -/
def State.weirApply (s : State) : State :=
  let s : State := { s with wstage := 4, launches := Tab.mapV (fun _ L => L.apply) s.launches }
  ((s.threads.map (·.1)).foldl State.endWait s).releaseIrrev

def execWeirFrontierApply (s : State) : Out :=
  .next (if s.live && s.wstage == 3 && decide (256 * s.round + 160 ≤ s.cyc) then s.weirApply else s)

/-! ### Commit (R264) -/

/-- Entries of a cluster in key order. -/
def insertKey (x : Nat × Commit) : List (Nat × Commit) → List (Nat × Commit)
  | [] => [x]
  | y :: t => if keyLt x.2.key y.2.key then x :: y :: t else y :: insertKey x t
def byKey (es : List (Nat × Commit)) : List (Nat × Commit) := es.foldl (fun t x => insertKey x t) []

/-- One task commits: its items are released, its entry, undo log and marks go, and its tokens lose their holder (R246, R264, R306 to
R308). While an item still waits for its write the entry stays (R235). -/
def State.commitOne (s : State) (cl e : Nat) : State :=
  let s := s.releaseItems cl e
  match Tab.get? (s.clu cl).commits e with
  | some c =>
    if !c.items.isEmpty then s
    else (s.setClu cl { s.clu cl with commits := Tab.del (s.clu cl).commits e }).loseKept (cl, e)
  | none => s

/-- A cluster commits its finished tasks below the frontier in key order. -/
def State.commitCluster (s : State) (cl : Nat) : State :=
  let due (c : Commit) : Bool := c.state == .finished && keyLt c.key (s.frontier (some c.launch))
  (byKey ((s.clu cl).commits.filter (fun e => due e.2))).foldl (fun s e => s.commitOne cl e.1) s

/-- WEIR_COMMIT. -/
def execWeirCommit (s : State) : Out :=
  .next (if s.live && s.wstage == 4 && decide (256 * s.round + 192 ≤ s.cyc) then
    { ((s.clus.map (·.1)).foldl State.commitCluster s) with wstage := 0 } else s)

/-! ### SPILL_FULL_ABORT (R244) -/

/-- The spill area has been full for a whole round: the cluster's latest-key revocable task is aborted. -/
def State.spillFullAbort (s : State) (cl : Nat) : State :=
  let k := s.clu cl
  match k.fullSince with
  | some r =>
    if r < s.round ∧ 131072 ≤ s.spilled (cl / 24) then
      match ({ k with commits := k.commits.filter (fun e => !e.2.irrev) } : Cluster).latestEntry with
      | some (e, _) => s.abortAll [(cl, e)]
      | none => s
    else s
  | none => s

def execSpillFullAbort (cl : Nat) (s : State) : Out := .next (if s.live then s.spillFullAbort cl else s)

end Sys2Proof.Machine
end

