-- ==== Sys2Proof/Machine/Queue.lean ====
section
/-! DEFINITION. Queues (R376 to R391): the control block, packets from their start to their retirement, stage rings, Turat's default
policy, and the instructions of major 0x1B. Barrier packets and the notices of signals (R396, R397). -/

namespace Sys2Proof.Machine

/-! ### The queue control block (R376) -/

def QState.code : QState → Nat
  | .idle => 1 | .pending => 2 | .mapped => 3 | .stopped => 4

/-- The words of the block that the device writes. -/
def Queue.word (q : Queue) : Nat → Word
  | 2 => wd q.ri
  | 4 => wd (q.st.code + q.epri % 16 * 2 ^ 4 + q.es % 256 * 2 ^ 8 + (if q.dr then 2 ^ 16 else 0) + q.slot % 256 * 2 ^ 24 + q.lst % 2 ^ 16 * 2 ^ 32)
  | 5 => wd q.fidx
  | 6 => wd (q.nret % 2 ^ 32 + q.nskip % 2 ^ 32 * 2 ^ 32)
  | 7 => wd (q.nmap % 2 ^ 32 + q.npre % 2 ^ 32 * 2 ^ 32)
  | _ => 0

def State.queue? (s : State) (k : Nat) : Option Queue := Tab.get? s.queues k

/-- Where a queue's control block lies now; none while the device cannot write it (R233, R235). -/
def State.qcbLoc (s : State) (q : Queue) : Option Nat := s.blockLoc (dispatchPlace q.die) q.ctx q.qcb q.loc

/-- A queue changes; the device writes the words of its block that change, or all of them once the block can be written. -/
def State.setQueue (s : State) (k : Nat) (q : Queue) : State :=
  let old (i : Nat) : Option Word := (s.queue? k).map (fun o => o.word i)
  let new := [2, 4, 5, 6, 7].filter (fun i => old i != some (q.word i))
  let s : State := { s with queues := Tab.put s.queues k q }
  if new.isEmpty || q.stale then s
  else match s.qcbLoc q with
    | none => { s with queues := Tab.put s.queues k { q with stale := true } }
    | some loc => new.foldl (fun s i => s.writeN (loc + 8 * i) 8 (q.word i).toNat) s

/-- The registered queue of a context with a control block. -/
def State.findQueue (s : State) (ctx : Nat) (qcb : Word) : Option (Nat × Queue) :=
  s.queues.find? (fun e => e.2.ctx == ctx && e.2.qcb == qcb)

/-- Where a queue's die translates for it: no lease holds, the entries of its dispatch pair's own buffer or walk (log entry 27). -/
def State.queueLoc (s : State) (q : Queue) (k : AKind) (a : Word) : Except Nat Nat :=
  s.engLoc (192 + q.die) q.ctx none (dispatchPlace q.die) k a

/-- The location of ring entry `i`. -/
def State.entryAt (s : State) (q : Queue) (k : AKind) (i : Nat) : Except Nat Nat :=
  s.queueLoc q k (q.base + wd (64 * (i % 2 ^ q.lgn)))

/-- The slot of a queue reads a location as an acquire at `.sys`: what its releases order happens before the queue's next packet (R192,
R379, R397). -/
def State.queueHears (s : State) (k loc : Nat) : State :=
  match s.queue? k with
  | none => s
  | some q =>
    let p := dispatchPlace q.die
    let c := (s.relsAt loc 8).foldl (fun (c : Clock) r => if meets (.ctx r.place) r.scope (.ctx p) .sys then c.join r.clock else c) q.clock
    { s with queues := Tab.put s.queues k { q with clock := c } }

/-- The reader that a slot's errors are charged to: no group (R218). -/
def Queue.reader (q : Queue) : Reader := { launch := none, grp := 0, place := dispatchPlace q.die }

/-- What reading ring entry `i` leaves: device copies of a host-backed entry are written back first, so that the slot sees what the host
and what tasks have written (log entry 111); errors that the read of an HBM-backed entry finds are charged (R211). -/
def State.ringTouch (s : State) (q : Queue) (i : Nat) : State :=
  match s.entryAt q .read i with
  | .ok loc => if isRemote loc then (s.dropCopy (loc / 32)).dropCopy (loc / 32 + 1) else (s.checkGran loc (s.locClass loc) q.reader).2
  | .error _ => s

/-- The slot has read the header of ring entry `i`: what the read leaves, and its acquire (R379). -/
def State.readHeader (s : State) (k : Nat) (q : Queue) (i : Nat) : State :=
  match s.entryAt q .read i with
  | .ok loc => (s.ringTouch q i).queueHears k loc
  | .error _ => s

/-- The slot's access to ring entry `i` waits: an engine holds a line of it, its home takes no request, or its page migrates under a write
(R162, R235). -/
def State.ringHeld (s : State) (q : Queue) (k : AKind) (i : Nat) : Bool :=
  match s.entryAt q k i with
  | .ok loc => s.lineHeld loc || s.lineHeld (loc + 32)
  | .error c => c == 0

/-- The eight words of ring entry `i`; none where its page is bad, its granule poisoned or its link down. -/
def State.ringWords (s : State) (q : Queue) (i : Nat) : Option (Vector Word 8) :=
  match s.entryAt q .read i with
  | .error _ => none
  | .ok loc =>
    if (isRemote loc && s.portRefuses loc) || (locTag loc == 1 && s.hub.rate == 0) then none
    else match (s.checkGran loc (s.locClass loc) q.reader).1 with
      | .bad _ => none
      | o =>
        let bs := o.apply loc (memGetN (s.ringTouch q i).mem loc 64)
        some (Vector.ofFn (fun k : Fin 8 => wd (leNat ((bs.drop (8 * k.val)).take 8))))

/-! ### Mapping and unmapping (R384) -/

/-- The queue that a slot (32 * die + index) holds. -/
def State.slotQueue (s : State) (slot : Nat) : Option (Nat × Queue) := s.queues.find? (fun e => e.2.st == .mapped && e.2.slot == slot)

/-- A queue becomes Pending: epri is pri and the wait timer starts. -/
def Queue.pend (q : Queue) (now : Nat) : Queue := { q with st := .pending, epri := q.pri, pendAt := now, missed := false }

/-- A value of wi keeps to R377. -/
def Queue.wiOk (q : Queue) (wi : Nat) : Bool := decide (q.ri ≤ wi) && decide (wi ≤ q.ri + 2 ^ q.lgn)

/-- Unmap a queue, to a state, with a decision record; a wi that breaks R377 stops it. -/
def State.unmapTo (s : State) (k rsn : Nat) (stop : Bool) : State :=
  match s.queue? k with
  | none => s
  | some q =>
    if q.st ≠ .mapped then s
    else
      let wi := s.wiOf q
      let bad := !stop && !q.wiOk wi
      let r : Queue := { q with npre := q.npre + 1, waiting := false, bySoft := false }
      let r : Queue := if stop then { r with st := .stopped } else if bad then { r with st := .stopped, es := 3 }
        else if q.si ≠ wi then r.pend s.cyc else { r with st := .idle }
      (s.setQueue k r).record q.die 1 (if bad then 4 else rsn) q.slot q.ctx q.qcb.toNat

def State.unmapQueue (s : State) (k rsn : Nat) : State := s.unmapTo k rsn false

/-- Map a queue to a slot (32 * die + index), with a decision record. -/
def State.mapQueue (s : State) (k slot rsn : Nat) (soft : Bool) : State :=
  match s.queue? k with
  | none => s
  | some q =>
    (s.setQueue k { q with st := .mapped, slot, epri := q.pri, nmap := q.nmap + 1, mapAt := s.cyc, bySoft := soft, waiting := false }).record q.die 0 rsn
      slot q.ctx q.qcb.toNat

/-- A read of wi that breaks R377 stops the queue; its started packets run on. -/
def State.indexError (s : State) (k : Nat) : State :=
  match s.queue? k with
  | none => s
  | some q =>
    let s := s.setQueue k { q with es := 3 }
    if q.st = .mapped then s.unmapTo k 4 true else s.setQueue k { q with es := 3, st := .stopped }

/-! ### Leaving (R372, R384) -/

/-- A context held by its `que.sub` op 1 takes its result. -/
def State.wakeSubs (s : State) (k : Nat) : State :=
  s.threads.foldl (fun s e => match e.2.wait with
    | .queue n d => if n = k then s.giveResult e.1 d 0 4 else s
    | _ => s) s

/-- A queue is Unregistered: st 0 is written, and those that wait for it go on. -/
def State.removeQueue (s : State) (k : Nat) : State :=
  match s.queue? k with
  | none => s
  | some q =>
    let s := match s.qcbLoc q with
      | some loc => s.writeN (loc + 32) 8 (setBits (q.word 4) 0 4 0).toNat
      | none => s
    let s : State := { s with queues := Tab.del s.queues k }
    let done (_ : Nat) (b : Bell) : Bell := if b.qcb = q.qcb ∧ wbits b.cmd 0 10 = q.ctx ∧ b.stat.getLsbD 63 then { b with stat := 0 } else b
    (s.setHub { s.hub with bells := Tab.mapV done s.hub.bells }).wakeSubs k

/-- A queue that is leaving goes when its started packets have retired and its block can be written. -/
def State.leaveCheck (s : State) (k : Nat) : State :=
  match s.queue? k with
  | some q => if q.leaving && q.started.isEmpty && !q.stale && (s.qcbLoc q).isSome then s.removeQueue k else s
  | none => s

/-- The control block of a queue whose words waited is written once it can be (R235). -/
def State.flushQueue (s : State) (k : Nat) : State :=
  match s.queue? k with
  | none => s
  | some q =>
    if !q.stale then s
    else match s.qcbLoc q with
      | none => s
      | some loc =>
        let s : State := { s with queues := Tab.put s.queues k { q with stale := false } }
        [2, 4, 5, 6, 7].foldl (fun s i => s.writeN (loc + 8 * i) 8 (q.word i).toNat) s

/-- Queues whose blocks waited, or that could not leave. -/
def State.flushQueues (s : State) : State :=
  ((s.queues.filter (fun e => e.2.stale || e.2.leaving)).map (·.1)).foldl (fun s k => (s.flushQueue k).leaveCheck k) s

/-- `que.sub` op 1: unmapped first; its barriers are cancelled, its other started packets run on (R384, R397). -/
def State.beginLeave (s : State) (k : Nat) : State :=
  let s := s.unmapQueue k 7
  match s.queue? k with
  | none => s
  | some q =>
    let cancel (p : Pkt) : Pkt := if p.kind = 2 ∧ p.done = none then { p with done := some (some 0) } else p
    (s.setQueue k { q with leaving := true, started := q.started.map cancel }).leaveCheck k

/-! ### Barriers (R396, R397) -/

/-- The checks of a barrier's places: the first bad one, or the locations of its signals. No launch issues a barrier, so no lease holds it
(log entry 27). -/
def State.barrierLocs (s : State) (q : Queue) (w : Vector Word 8) : Except Nat (List (Nat × Nat)) :=
  [1, 2, 3, 4, 5].foldl (fun (r : Except Nat (List (Nat × Nat))) k => match r with
    | .error e => .error e
    | .ok ls =>
      let va := (w[k]?).getD 0
      if va = 0 then .ok ls
      else match s.sigTarget (192 + q.die) q.ctx none (dispatchPlace q.die) false va with
        | .ok loc => .ok (ls ++ [(k, loc)])
        | .error _ => .error k) (.ok [])

/-- A signal read for a queue: none where it cannot be read or is poisoned (R212, R396). -/
def State.sigRead (s : State) (die loc : Nat) : Option Nat × State :=
  if (isRemote loc && s.portRefuses loc) || (locTag loc == 1 && s.hub.rate == 0) then (none, s)
  else
    let s := if isRemote loc then s.dropCopy (loc / 32) else s
    match s.checkGran loc (s.locClass loc) { launch := none, grp := 0, place := dispatchPlace die } with
    | (.bad _, s) => (none, s)
    | (o, s) => (some (leNat (o.apply loc (s.bytesAt loc 8))), s)

/-- One evaluation: the places in ascending order. A place that cannot be read or is negative fails it; the first number is the
lowest such place, the second says that some value is above 0. -/
def State.evalPlaces (s : State) (die : Nat) : List (Nat × Nat) → Option Nat → Bool → (Option Nat × Bool) × State
  | [], bad, wait => ((bad, wait), s)
  | (k, loc) :: t, bad, wait =>
    match s.sigRead die loc with
    | (none, s) => s.evalPlaces die t (bad <|> some k) wait
    | (some v, s) =>
      let i := toInt 64 v
      s.evalPlaces die t (if i < 0 then bad <|> some k else bad) (wait || decide (0 < i))

/-- The outcome of a barrier of queue `k` now: none while it waits. The acquires of its last evaluation happen before the queue's later
packets (R396, R397). -/
def State.evalBarrier (s : State) (k : Nat) (q : Queue) (w : Vector Word 8) : Option (Option Nat) × State :=
  match s.barrierLocs q w with
  | .error k => (some (some k), s)
  | .ok ls =>
    if ls.any (fun e => s.lineHeld e.2) then (none, s)
    else
      let hear (s : State) : State := ls.foldl (fun s e => s.queueHears k e.2) s
      match s.evalPlaces q.die ls none false with
      | ((some n, _), s) => (some (some n), hear s)
      | ((none, true), s) => (none, s)
      | ((none, false), s) => (some none, hear s)

/-- A packet of a queue takes its outcome. -/
def State.setPkt (s : State) (k idx : Nat) (f : Pkt → Pkt) : State :=
  match s.queue? k with
  | some q => s.setQueue k { q with started := q.started.map (fun p => if p.idx = idx then f p else p) }
  | none => s

/-- A waiting barrier that lists a location is evaluated again. -/
def State.recheckPkt (s : State) (loc k : Nat) (p : Pkt) : State :=
  match s.queue? k with
  | none => s
  | some q =>
    let lists := match s.barrierLocs q p.words with | .ok ls => ls.any (fun e => e.2 == loc) | .error _ => true
    if p.kind ≠ 2 ∨ p.done.isSome ∨ !lists then s
    else match s.evalBarrier k q p.words with
      | (some r, s) => s.setPkt k p.idx (fun p => { p with done := some r })
      | (none, s) => s

/-- A step of the context at `p`, made for it while it does not run. -/
def State.onPlace (s : State) (p : Nat) (f : State → Res) : State :=
  let c := s.cur
  let s : State := { s with cur := p }
  let r : State := match f s with
    | .ok s' => s'
    | .error (.flt x) => s.takeFault x
    | .error (.hold s') => s'
    | .error (.kept s' x) => s'.takeFault x
    | .error .wait => s
  { r with cur := c }

/-- A context Blocked in `sig.wait` on a signal that lies at a location now reads it again (R233, R401). -/
def State.recheckWait (s : State) (loc p : Nat) : State :=
  let t := s.thread p
  match t.state, t.blk with
  | .blocked, some (.sig l va thr d) =>
    if s.locNow p t.ctxNo va l = loc then s.onPlace p (fun s => s.sigPoll l va thr d) else s
  | _, _ => s

/-- Every watcher of a signal looks at it. -/
def State.notify (s : State) (loc : Nat) : State :=
  let s := s.queues.foldl (fun s e => e.2.started.foldl (fun s p => s.recheckPkt loc e.1 p) s) s
  (s.threads.map (·.1)).foldl (fun s p => s.recheckWait loc p) s

/-- SIGNAL_NOTIFY, for an HBM-backed signal. -/
def execSignalNotify (loc : Nat) (s : State) : Out := .next (if s.live && locTag loc == 0 then s.notify loc else s)
/-- SIGNAL_POLL_CHIP. -/
def execSignalPollChip (watch : Nat) (s : State) : Out := .next (if s.live && locTag watch == tagChip then s.notify watch else s)
/-- SIGNAL_POLL_REMOTE. -/
def execSignalPollRemote (watch : Nat) (s : State) : Out := .next (if s.live && isRemote watch then s.notify watch else s)

/-! ### Turat's default policy (R386) -/

/-- The vendor's policy runs on a die and no image loads (R385). -/
def State.vendorRuns (s : State) (d : Nat) : Bool := (s.die d).key != 2 && !(s.die d).go

/-- The context of a queue lets its packets start (R367, R384). -/
def State.queueOpen (s : State) (q : Queue) : Bool :=
  let c := s.context q.ctx
  c.st == .idle || c.st == .running

/-- Of the Pending queues of a die, the one with the highest epri, then the one Pending longest. -/
def State.bestPending (s : State) (d : Nat) : Option (Nat × Queue) :=
  (s.queues.filter (fun e => e.2.die == d && e.2.st == .pending && !e.2.leaving && (s.context e.2.ctx).st != .suspended)).foldl
    (fun (b : Option (Nat × Queue)) e => match b with
      | some x => if x.2.epri < e.2.epri ∨ (x.2.epri = e.2.epri ∧ e.2.pendAt < x.2.pendAt) then some e else some x
      | none => some e) none

/-- A slot of a die that holds no queue. -/
def State.freeSlot (s : State) (d : Nat) : Option Nat := ((List.range 32).map (fun i => 32 * d + i)).find? (fun n => (s.slotQueue n).isNone)

/-- Free slots take Pending queues. -/
def State.fillSlots (s : State) (d : Nat) : Nat → State
  | 0 => s
  | n + 1 =>
    match s.freeSlot d, s.bestPending d with
    | some slot, some (k, _) => (s.mapQueue k slot 0 false).fillSlots d n
    | _, _ => s

/-- Mapped queues that have retired every packet are unmapped while some queue is Pending. -/
def State.dropEmpty (s : State) (d : Nat) : State :=
  if (s.bestPending d).isNone then s
  else ((s.queues.filter (fun e => e.2.die == d && e.2.st == .mapped && s.wiOf e.2 == e.2.ri)).map (·.1)).foldl (fun s k => s.unmapQueue k 3) s

/-- The decisions of the vendor image on a die's slots. -/
def State.schedule (s : State) (d : Nat) : State := if s.vendorRuns d then (s.dropEmpty d).fillSlots d 32 else s

/-- QUEUE_WI_NOTICE: Turat reads wi; an Idle queue with unstarted packets becomes Pending (R377, R384). -/
def State.wiNotice (s : State) (k : Nat) : State :=
  match s.queue? k with
  | none => s
  | some q =>
    let wi := s.wiOf q
    if q.st = .stopped ∨ q.leaving then s
    else if !q.wiOk wi then s.indexError k
    else
      let s := if q.st = .idle ∧ wi ≠ q.si then s.setQueue k (q.pend s.cyc) else s
      s.schedule q.die

def execQueueWiNotice (queue : Nat) (s : State) : Out := .next (if s.live then s.wiNotice queue else s)

/-- AGING_TICK. -/
def State.agingTick (s : State) (d : Nat) : State :=
  let step := Nat.max 1 (s.die d).age.toNat * 2000
  let up (s : State) (e : Nat × Queue) : State :=
    if e.2.die = d ∧ e.2.st = .pending then s.setQueue e.1 { e.2 with epri := Nat.min 15 (e.2.pri + (s.cyc - e.2.pendAt) / step) } else s
  if s.vendorRuns d then (s.queues.foldl up s).schedule d else s

def execAgingTick (die : Nat) (s : State) : Out := .next (if s.live && decide (die < 8) then s.agingTick die else s)

/-- QUANTUM_EXPIRY. -/
def State.quantumExpiry (s : State) (slot : Nat) : State :=
  match s.slotQueue slot with
  | none => s
  | some (k, q) =>
    let old := decide (q.mapAt + (s.die q.die).qnt.toNat * 2000 ≤ s.cyc)
    match s.bestPending q.die with
    | some (_, r) => if s.vendorRuns q.die && old && decide (q.epri ≤ r.epri) then (s.unmapQueue k 2).schedule q.die else s
    | none => s

def execQuantumExpiry (slot : Nat) (s : State) : Out := .next (if s.live then s.quantumExpiry slot else s)

/-- The bound of R387 in cycles, from the die's parameters, its queues and its slots; none where software holds every slot. -/
def State.mapBound (s : State) (d : Nat) : Option Nat :=
  let q := s.die d
  let a := (s.queues.filter (fun e => e.2.die == d && (e.2.st == .pending || e.2.st == .mapped))).length
  let n := 32 - (s.queues.filter (fun e => e.2.die == d && e.2.st == .mapped && e.2.bySoft)).length
  if n = 0 then none else some ((16 * q.age.toNat + (a + n - 1) / n * q.qnt.toNat) * 2000)

/-- BOUND_MISSED: recorded and counted once in each wait. -/
def State.boundMissed (s : State) (k : Nat) : State :=
  match s.queue? k with
  | none => s
  | some q =>
    match s.mapBound q.die with
    | some b =>
      if q.st = .pending ∧ !q.missed ∧ q.pendAt + b < s.cyc then
        (s.setQueue k { q with missed := true }).record q.die 7 0 0 q.ctx q.qcb.toNat
      else s
    | none => s

def execBoundMissed (queue : Nat) (s : State) : Out := .next (if s.live then s.boundMissed queue else s)

/-! ### Turat images (R385) -/

/-- TRT_CTL_GO: a load starts. -/
def execTrtCtlGo (die : Nat) (s : State) : Out := .next (if s.live && decide (die < 8) then s.trtGo die else s)

/-- TURAT_LOAD_COMPLETE: a good image runs from now on, a bad one leaves the old. -/
def State.turatLoaded (s : State) (d err key : Nat) : State :=
  let q := s.die d
  if !q.go || decide (3 < err) then s
  else (s.setDie d { q with go := false, err, key := if err = 0 then key % 4 else q.key, loads := if err = 0 then q.loads + 1 else q.loads }).record d 9 0 0 0 err

def execTuratLoadComplete (die err key : Nat) (s : State) : Out :=
  .next (if s.live && decide (die < 8) then s.turatLoaded die err key else s)

/-! ### Packets (R378 to R382) -/

def pktKind (w : Vector Word 8) : Nat := wbits w[0] 60 4
def pktB (w : Vector Word 8) : Bool := w[0].getLsbD 59
def pktP (w : Vector Word 8) : Bool := w[0].getLsbD 58
def pktC (w : Vector Word 8) : Bool := w[0].getLsbD 57

/-- A header that R379 refuses, or a body that its kind does not allow. -/
def pktBad (w : Vector Word 8) : Bool :=
  let k := pktKind w
  (decide (6 ≤ k) && k != 15) || wbits w[0] 0 57 != 0 || (k == 3 && (w[3] == 0 || decide (2 ^ 40 < w[3].toNat))) ||
    (k == 4 && decide (1 < w[3].toNat))

/-- The completion signal of a packet. -/
def pktSig (w : Vector Word 8) : Word := if pktKind w = 1 then w[4] else w[7]

/-- The earlier packets of a queue let the next one start (R380). -/
def Queue.mayStart (q : Queue) : Bool :=
  decide ((q.started.filter (fun p => !p.skip)).length < 64) && q.started.all (fun p => p.completed || (!pktB p.words && p.kind != 2))

/-- The packet at the start index as it stands when it starts. -/
def newPkt (idx : Nat) (w : Vector Word 8) (kind waitId : Nat) (done : Option (Option Nat)) : Pkt :=
  { idx, words := w, kind, waitId, done, skip := false, wrote := none, completed := false }

/-- A packet enters the started ones; one that is skipped counts at once, and waits there for its turn to retire (R382). -/
def State.startPkt (s : State) (k : Nat) (p : Pkt) : State :=
  match s.queue? k with
  | some q => s.setQueue k { q with si := q.si + 1, waiting := false, started := q.started ++ [p], nskip := if p.skip then q.nskip + 1 else q.nskip }
  | none => s

/-- The token of a copy packet: a `cp` that no group owns and no task holds (R378), in a cluster of the queue's die (log entry
12). -/
def State.copyToken (s : State) (q : Queue) (w : Vector Word 8) : Option (Nat × State) :=
  let cl := 24 * q.die + Config.choice s.fresh % 24
  match s.draw.takeSlot cl with
  | none => none
  | some (slot, s) =>
    let place := dispatchPlace q.die
    let c : Checked := { bf := Vector.replicate 8 0, scope := .dev, core := .ok (), after := .ok (), desc := [], inst := 0 }
    let o : Opts := { dep := 0, target := 0, ntc := 0, gate := false, pri := 0 }
    let t : Token := { s.newToken 0x11 0 (mkHdl cl slot (Tab.getD (s.clu cl).gens slot 1)) o c none with
      hold := 2, holder := none, grp := 0, launch := none, ctx := q.ctx, place, ipc := 0, x := #v[w[1], w[2], w[3], 0], fm := 0,
      f := Vector.replicate 4 0, srs := 1, cls := 0, ack := true, posted := true, clock := [] }
    some (cl * 1024 + slot, (s.setTok (cl * 1024 + slot) t).bump)

/-- A signal that the queue is to write waits. -/
def State.pktHeld (s : State) (q : Queue) (va : Word) : Bool := va != 0 && s.sigHeld (192 + q.die) q.ctx none (dispatchPlace q.die) va

/-- A signal packet writes its signal (R378, R393, R394): the failure detail, if it fails. -/
def State.signalPkt (s : State) (q : Queue) (w : Vector Word 8) : Option Nat × State :=
  match s.sigTarget (192 + q.die) q.ctx none (dispatchPlace q.die) true w[1] with
  | .error _ => (some 0, s)
  | .ok loc =>
    match s.sigWrite loc (if w[3] = 0 then .sadd else .swap) (scalar w[2]) { launch := none, grp := 0, place := dispatchPlace q.die } with
    | .ok s => (none, s.sigRel (dispatchPlace q.die) q.clock loc)
    | .error (_, s) => (some 0, s)

/-- A packet runs (R378). A copy whose source and destination meet fails as the `cp` does, with that fault's code (R315; log entry
65). -/
def State.runPkt (s : State) (k : Nat) (q : Queue) (w : Vector Word 8) : State :=
  let put (s : State) (kind waitId : Nat) (done : Option (Option Nat)) : State := s.startPkt k (newPkt q.si w kind waitId done)
  if pktBad w then put s 4 0 (some (some 0))
  else match pktKind w with
    | 1 =>
      let (n, s) := s.submit { desc := #v[w[1], w[2], w[3], w[4]], ctx := q.ctx, die := q.die, from? := none, queue := some (k, q.si), clock := q.clock }
      put s 1 n none
    | 2 =>
      let (r, s) := s.evalBarrier k q w
      put s 2 0 r
    | 3 =>
      if rangesMeet w[1].toNat w[3].toNat w[2].toNat w[3].toNat then put s 0 0 (some (some Code.copyOverlap))
      else match s.copyToken q w with
        | some (key, s) => put s 3 key none
        | none => s
    | 4 =>
      if s.pktHeld q w[1] then s
      else
        let (r, s) := s.signalPkt q w
        put s 0 0 (some r)
    | 5 => put (s.record q.die 5 0 q.slot q.ctx w[1].toNat) 0 0 (some none)
    | _ => put s 0 0 (some none)

/-- PACKET_START: the next packet of a mapped queue starts, is skipped while the queue drains (R382), or waits for its header
(R379). -/
def State.packetStart (s : State) (k : Nat) : State :=
  match s.queue? k with
  | none => s
  | some q =>
    let wi := s.wiOf q
    if q.st ≠ .mapped ∨ q.mode ≠ 0 ∨ !s.queueOpen q ∨ !(q.dr || q.mayStart) ∨ q.waiting then s
    else if !q.wiOk wi then s.indexError k
    else if wi ≤ q.si ∨ s.ringHeld q .read q.si then s
    else
      let words := s.ringWords q q.si
      let s := s.readHeader k q q.si
      let q := (s.queue? k).getD q
      match words with
      | none => s.startPkt k (newPkt q.si (Vector.replicate 8 0) 4 0 (some (some 0)))
      | some w =>
        if pktKind w = 15 then s.setQueue k { q with waiting := true }
        else if q.dr && !pktC w then
          if s.pktHeld q (pktSig w) then s else
          let (_, s) := s.completion (192 + q.die) q.ctx (dispatchPlace q.die) false (pktSig w) q.clock
          s.startPkt k { newPkt q.si w 0 0 (some none) with skip := true, completed := true }
        else if !q.mayStart then s
        else
          let s := if q.dr then s.setQueue k { q with dr := false } else s
          s.runPkt k q w

/-- The oldest started packets that have completed retire: their headers become not ready, then ri passes them (R379, R380). -/
def State.retirePkts (s : State) (k : Nat) : Nat → State
  | 0 => s
  | n + 1 =>
    match s.queue? k with
    | none => s
    | some q =>
      match q.started with
      | p :: rest =>
        if !p.completed || s.ringHeld q .write p.idx then s
        else
          let s := match s.entryAt q .write p.idx with
            | .ok loc => let s := s.ringTouch q p.idx; { s with mem := memPutN s.mem loc (leBytes 8 0xF000000000000000) }
            | .error _ => s
          let r : Queue := { q with started := rest, ri := q.ri + 1, nret := if p.skip then q.nret else q.nret + 1 }
          (s.setQueue k r).retirePkts k n
      | [] => s

/-- Packets that can retire do; the slots of the queue's die are then decided anew (R384, R386). -/
def State.retireAll (s : State) (k : Nat) : State :=
  match s.queue? k with
  | some q => ((s.retirePkts k q.started.length).leaveCheck k).schedule q.die
  | none => s

/-- The outcome of a started packet that has ended: a copy's is its token's (R381). -/
def State.pktOutcome (s : State) (p : Pkt) : Option (Option Nat) :=
  if p.kind = 3 then
    match s.tok? p.waitId with
    | some t => if t.st.terminal then some (if t.st = .done then none else some t.fc) else none
    | none => some (some 0)
  else p.done

/-- A failed packet is noted; with p = 1 the queue drains, unless a later packet that has started catches (R381, R382). -/
def Queue.noteFail (q : Queue) (p : Pkt) (detail : Nat) : Queue :=
  let caught := q.started.any (fun x => decide (p.idx < x.idx) && !x.skip && pktC x.words)
  { q with es := if p.kind = 4 then 2 else 1, lst := detail, fidx := p.idx, dr := q.dr || (pktP p.words && !caught) }

/-- PACKET_COMPLETE: the packet's signal is written, its failure noted, and packets retire in order (R381, R394). -/
def State.packetComplete (s : State) (k idx : Nat) : State :=
  match s.queue? k with
  | none => s
  | some q =>
    match q.started.find? (fun p => p.idx == idx && !p.completed) with
    | none => s
    | some p =>
      match s.pktOutcome p with
      | none => s
      | some r =>
        if p.wrote.isNone && s.pktHeld q (pktSig p.words) then s else
        let (code, s) := match p.wrote with
          | some c => (c, s)
          | none => s.completion (192 + q.die) q.ctx (dispatchPlace q.die) r.isNone (pktSig p.words) q.clock
        let s := if p.kind = 3 then s.freeTok p.waitId else s
        let q := match r with
          | some d => q.noteFail p d
          | none => if code = 0 then q else { q with es := 5, fidx := p.idx }
        let s := s.setQueue k { q with started := q.started.map (fun x => if x.idx = idx then { x with completed := true } else x) }
        s.retireAll k

def execPacketStart (queue : Nat) (s : State) : Out := .next (if s.live then (s.packetStart queue).retireAll queue else s)
def execPacketComplete (queue idx : Nat) (s : State) : Out := .next (if s.live then s.packetComplete queue idx else s)

/-- PACKET_HEADER_READY: the kind of the entry that a slot waits at has changed (R379). -/
def State.headerReady (s : State) (k : Nat) : State :=
  match s.queue? k with
  | none => s
  | some q =>
    match s.ringWords q (if q.mode = 1 then q.ri else q.si) with
    | some w => if q.waiting ∧ pktKind w ≠ 15 then s.setQueue k { q with waiting := false } else s
    | none => s.setQueue k { q with waiting := false }

def execPacketHeaderReady (queue : Nat) (s : State) : Out := .next (if s.live then s.headerReady queue else s)

/-! ### Stage rings (R383) -/

/-- The live stage group of the queue's context that a ready entry names; a Degraded one is live, and holds its records (R359, R362). -/
def State.ringGroup (s : State) (q : Queue) (grp : Nat) : Option (Nat × Group) :=
  match s.groups.find? (fun e => e.1 % 4096 == grp && e.2.stg != 0 && (e.2.st == 1 || e.2.st == 2) && e.2.w 7 0 16 == 1 + q.slot &&
      ((s.launch? (e.1 / 4096)).map (·.sub.ctx)) == some q.ctx) with
  | some (k, b) => some (k / 4096, b)
  | none => none

/-- A ring's read index passes the head entry, whose header becomes not ready (R379, R383). -/
def State.ringPass (s : State) (k : Nat) (q : Queue) : State :=
  let s : State := match s.entryAt q .write q.ri with
    | .ok loc => let s := s.ringTouch q q.ri; { s with mem := memPutN s.mem loc (leBytes 8 0xF000000000000000) }
    | .error _ => s
  (s.setQueue k { q with ri := q.ri + 1, si := q.ri + 1 }).schedule q.die

/-- STAGE_RING_HANDOFF: the head record goes to the task unit of a cluster of the die that Turat chooses, while no image loads (R383,
R385). -/
def State.handoff (s : State) (k cl : Nat) : State :=
  match s.queue? k with
  | none => s
  | some q =>
    let wi := s.wiOf q
    if q.st ≠ .mapped ∨ q.mode ≠ 1 ∨ !s.queueOpen q ∨ q.waiting ∨ cl / 24 ≠ q.die ∨ (s.die q.die).go then s
    else if !q.wiOk wi then s.indexError k
    else if wi ≤ q.ri ∨ s.ringHeld q .write q.ri then s
    else
      let words := s.ringWords q q.ri
      let s := s.readHeader k q q.ri
      let q := (s.queue? k).getD q
      match words with
      | none => s.ringPass k { q with es := 4, nskip := q.nskip + 1 }
      | some w =>
        if pktKind w = 15 then s.setQueue k { q with waiting := true }
        else if pktKind w ≠ 0 then s.ringPass k { q with es := 4, nskip := q.nskip + 1 }
        else match s.ringGroup q (hGrp w[0]) with
          | none => s.ringPass k { q with es := 4, nskip := q.nskip + 1 }
          | some (l, b) =>
            if 2 * b.cap ≤ s.liveCount l (hGrp w[0]) ∨ s.tasksFull (some l) (hGrp w[0]) ∨ 1024 ≤ (s.clu cl).tu.length then s
            else
              let pay : Vector Reg 3 := #v[mkReg w[2] w[3], mkReg w[4] w[5], mkReg w[6] w[7]]
              let m := newMsg w[0] (mkH1 (clusterRoute cl) (hRtag w[1]) (s.cyc % 2 ^ 24)) pay (dispatchPlace q.die) (.task cl)
              let m : Msg := { m with launch := some l, ctx := q.ctx, sgrp := hGrp w[0], ord := s.nextId, clock := q.clock }
              let s := (s.setClu cl { s.clu cl with tu := (s.clu cl).tu ++ [m.taken s.cyc] }).bump
              s.ringPass k { q with nret := q.nret + 1 }

def execStageRingHandoff (queue cl : Nat) (s : State) : Out := .next (if s.live && decide (cl < 192) then s.handoff queue cl else s)

/-! ### que.sub (R389 to R391) -/

/-- A fault of the queue-form check with its word. -/
def qcbBad (k : Nat) : Stop := fltS Code.queueForm (wd k)

/-- The words of a control block that software writes obey R376; the first that does not. -/
def State.qcbCheck (s : State) (ctx die : Nat) (w : Nat → Nat) : Except Stop Unit := do
  let base := w 0
  let place : Bool := match s.engLoc (192 + die) ctx none (dispatchPlace die) .read (wd base) with
    | .ok loc => decide (locTag loc ≤ 1) && windowOf base == some .translated
    | .error _ => false
  if base % 4096 ≠ 0 ∨ !place then .error (qcbBad 0)
  if bits (w 3) 26 38 ≠ 0 ∨ bits (w 3) 16 10 ≠ ctx ∨ bits (w 3) 14 2 ≠ 0 ∨ 2 ≤ bits (w 3) 12 2 ∨ bits (w 3) 5 3 ≠ 0 ∨
      bits (w 3) 0 5 < 6 ∨ 20 < bits (w 3) 0 5 then .error (qcbBad 3)
  match (List.range 8).find? (fun k => w (8 + k) != 0) with
  | some k => .error (qcbBad (8 + k))
  | none => pure ()

/-- The control block at an address of a context: the address faults of a one-byte write, then its place and its words. -/
def State.qcbAt (s : State) (ctx die : Nat) (qcb : Word) : Except Stop Nat := do
  let win ← addrCheck true true .write qcb 1 1
  match win with
  | .translated =>
    match s.engLoc (192 + die) ctx none (dispatchPlace die) .write qcb with
    | .error 0 => .error .wait
    | .error c => .error (fltA c qcb)
    | .ok loc =>
      if qcb.toNat % 128 ≠ 0 ∨ locTag loc ≠ 0 ∨ s.locClass loc ≠ 0 then .error (qcbBad 0)
      s.qcbCheck ctx die (fun k => s.readN (loc + 8 * k) 8)
      pure loc
  | .dev _ => .error (fltA Code.window qcb)
  | _ => .error (qcbBad 0)

/-- A queue as its registration makes it. -/
def State.newQueue (s : State) (qcb : Word) (loc ctx die : Nat) : Queue :=
  let w (k : Nat) : Nat := s.readN (loc + 8 * k) 8
  let pri := bits (w 3) 8 4
  let q : Queue := { qcb, loc, ctx, die, base := wd (w 0), lgn := bits (w 3) 0 5, pri, mode := bits (w 3) 12 2, st := .idle, epri := pri, es := 0,
                     dr := false, slot := 0, lst := 0, fidx := 0, nret := 0, nskip := 0, nmap := 0, npre := 0, ri := w 2, si := w 2, started := [],
                     pendAt := s.cyc, missed := false, mapAt := s.cyc, leaving := false, waiting := false, bySoft := false }
  if !q.wiOk (w 1) then { q with es := 3, st := .stopped } else if w 1 ≠ w 2 then q.pend s.cyc else q

/-- The checks of `que.sub` up to the control block (R391): context, die and location. -/
def State.subCheck (s : State) (op : Nat) (qcb b : Word) : Except Stop (Nat × Nat × Nat) := do
  let ctx := wbits b 0 10
  let die := wbits b 16 3
  if b.toNat / 2 ^ 19 ≠ 0 ∨ wbits b 14 2 ≠ 0 ∨ wbits b 10 2 ≠ 0 ∨ wbits b 12 2 ≠ op then .error (fltS Code.queueSelector b)
  if ctx = 0 ∨ (s.context ctx).st = .destroyed then .error (fltS Code.contextState (wd (s.context ctx).st.code))
  let loc ← s.qcbAt ctx die qcb
  pure (ctx, die, loc)

/-- A queue-state fault. -/
def queueBad : Stop := fltC Code.queueState

/-- `que.sub` op 0 (R384). -/
def State.register (s : State) (qcb b : Word) : Except Stop (Nat × State) := do
  let (ctx, die, loc) ← s.subCheck 0 qcb b
  if (s.findQueue ctx qcb).isSome then .error queueBad
  if 1024 ≤ (s.queues.filter (fun e => e.2.die == die)).length then .error (fltC Code.queueLimit)
  let q := s.newQueue qcb loc ctx die
  pure (q.st.code, (s.setQueue s.nextId q).bump)

/-- `que.sub` op 1: the queue that is to leave. -/
def State.unregister (s : State) (qcb b : Word) : Except Stop Nat := do
  let (ctx, _, _) ← s.subCheck 1 qcb b
  match s.findQueue ctx qcb with
  | some (k, _) => pure k
  | none => .error queueBad

/-- `que.sub` op 2 (R384); a wi that breaks R377 stops the queue again. -/
def State.restartQueue (s : State) (qcb b : Word) : Except Stop (Nat × State) := do
  let (ctx, _, _) ← s.subCheck 2 qcb b
  match s.findQueue ctx qcb with
  | some (k, q) =>
    if q.st ≠ .stopped then .error queueBad
    let q : Queue := { q with es := 0, lst := 0, fidx := 0, dr := false }
    let q := if !q.wiOk (s.wiOf q) then { q with es := 3 } else if s.wiOf q ≠ q.si then q.pend s.cyc else { q with st := .idle }
    pure (q.st.code, s.setQueue k q)
  | none => .error queueBad

def execQueSubRegister (d a b : Spec) (s : State) : Out :=
  settle s (do
    let (x, y) ← s.read2 a b
    let (st, s) ← s.register (lo64 x) (lo64 y)
    s.unordered
    s.put 4 d (scalar (wd st)))

def execQueSubUnregister (d a b : Spec) (s : State) : Out :=
  settle s (do
    let (x, y) ← s.read2 a b
    let k ← s.unregister (lo64 x) (lo64 y)
    s.unordered
    s.free1 d
    let s := s.setMe { s.me with wait := .queue k d }
    pure (s.beginLeave k))

def execQueSubResume (d a b : Spec) (s : State) : Out :=
  settle s (do
    let (x, y) ← s.read2 a b
    let (st, s) ← s.restartQueue (lo64 x) (lo64 y)
    s.unordered
    s.put 4 d (scalar (wd st)))

/-! ### Slots and the decision log (R389 to R391) -/

/-- The reason that a record names for software. -/
def softRsn (v : Word) : Nat := if wbits v 8 8 = 0 then 7 else wbits v 8 8

/-- `slot.map`. The control block is named by its address alone (log entry 31). -/
def execSlotMap (a b : Spec) (s : State) : Out :=
  settle s (do
    let (x, y) ← s.read2 a b
    let v := lo64 y
    if v.toNat / 2 ^ 16 ≠ 0 then .error (fltS Code.queueSelector v)
    let slot := wbits v 0 8
    let found := s.queues.find? (fun e => e.2.qcb == lo64 x && e.2.die == slot / 32)
    match found with
    | none =>
      let _ ← addrCheck true true .write (lo64 x) 1 1
      .error queueBad
    | some (k, q) =>
      if (s.context q.ctx).st = .destroyed then .error (fltS Code.contextState 0)
      let _ ← s.qcbAt q.ctx q.die (lo64 x)
      if (q.st ≠ .idle ∧ q.st ≠ .pending) ∨ q.leaving ∨ (s.context q.ctx).st = .suspended then .error queueBad
      s.unordered
      let s := match s.slotQueue slot with
        | some (o, _) => s.unmapQueue o (softRsn v)
        | none => s
      pure ((s.mapQueue k slot (softRsn v) (!isDispatch s.cur)).fin 4))

/-- `slot.unm`. -/
def execSlotUnm (a b : Spec) (s : State) : Out :=
  settle s (do
    let (x, y) ← s.read2 a b
    let v := lo64 x
    let r := lo64 y
    if v.toNat / 2 ^ 8 ≠ 0 then .error (fltS Code.queueSelector v)
    if r.toNat / 2 ^ 16 ≠ 0 ∨ r.toNat % 2 ^ 8 ≠ 0 then .error (fltS Code.queueSelector r)
    s.unordered
    let s := match s.slotQueue (wbits v 0 8) with
      | some (k, _) => s.unmapQueue k (softRsn r)
      | none => s
    pure (s.fin 4))

/-- `slot.rd`. -/
def execSlotRd (d a : Spec) (s : State) : Out :=
  settle s (do
    let v ← s.read64 a
    if v.toNat / 2 ^ 8 ≠ 0 then .error (fltS Code.queueSelector v)
    s.unordered
    s.put 4 d (match s.slotQueue (wbits v 0 8) with
      | some (_, q) => mkReg q.qcb (wd (q.st.code + q.epri % 16 * 16))
      | none => 0))

/-- `dlog.wr`. -/
def execDlogWr (a b : Spec) (s : State) : Out :=
  settle s (do
    let (x, y) ← s.read2 a b
    let v := lo64 y
    if v.toNat / 2 ^ 3 ≠ 0 then .error (fltS Code.queueSelector v)
    s.unordered
    pure ((s.dlogPut v.toNat (lo64 x).toNat (wbits (hi64 x) 0 32)).fin 4))

/-- `dlog.rd`. -/
def execDlogRd (d a : Spec) (s : State) : Out :=
  settle s (do
    let v ← s.read64 a
    if v.toNat / 2 ^ 11 ≠ 0 ∨ wbits v 3 5 ≠ 0 then .error (fltS Code.queueSelector v)
    s.unordered
    s.put 4 d (scalar (wd (((s.die (wbits v 8 3)).dcnt[wbits v 0 3]?).getD 0))))

/-! ### Doorbells (R405) -/

/-- The code of a fault in DB_STAT. -/
def Stop.code : Stop → Nat
  | .flt f | .kept _ f => f.code
  | _ => 0

/-- What a doorbell set holds after its command: the state or the fault's code, bit 63 while it is pending. -/
def State.bell (s : State) (set : Nat) (qcb cmd : Word) (stat : Nat) : State :=
  s.setHub { s.hub with bells := Tab.put s.hub.bells set { qcb, cmd, stat := wd stat } }

/-- The st that DB_STAT shows beside a fault: the named queue's, 0 when it is not registered. -/
def State.bellSt (s : State) (qcb cmd : Word) : Nat :=
  match s.findQueue (wbits cmd 0 10) qcb with
  | some (_, q) => q.st.code
  | none => 0

/-- A command of the doorbell page reaches the module. -/
def State.bellOk (s : State) (set : Nat) : Bool := s.hub.phase == 2 && !s.hub.fatal.getLsbD 63 && decide (set < 256)

/-- A command that Turat has not applied yet: it is frozen, or the control block's page migrates (R235, R371). -/
def State.bellWaits (s : State) (set : Nat) (qcb cmd : Word) : State := s.bell set qcb cmd (2 ^ 63 + s.bellSt qcb cmd)

/-- A fault ends a command. -/
def State.bellFault (s : State) (set : Nat) (qcb cmd : Word) : Stop → State
  | .wait => s.bellWaits set qcb cmd
  | e => s.bell set qcb cmd (s.bellSt qcb cmd + e.code * 256)

/-- Turat applies the command of a doorbell set (R405). -/
def State.bellApply (s : State) (op set : Nat) (qcb cmd : Word) : State :=
  if !s.live then s.bellWaits set qcb cmd
  else match op with
    | 0 => match s.register qcb cmd with
      | .ok (st, s) => s.bell set qcb cmd st
      | .error e => s.bellFault set qcb cmd e
    | 1 => match s.unregister qcb cmd with
      | .ok k => (s.bellWaits set qcb cmd).beginLeave k
      | .error e => s.bellFault set qcb cmd e
    | _ => match s.restartQueue qcb cmd with
      | .ok (st, s) => s.bell set qcb cmd st
      | .error e => s.bellFault set qcb cmd e

def execDbCmdRegister (set : Nat) (qcb cmd : BitVec 64) (s : State) : Out :=
  .next (if s.bellOk set then s.bellApply 0 set qcb cmd else s)

def execDbCmdUnregister (set : Nat) (qcb cmd : BitVec 64) (s : State) : Out :=
  .next (if s.bellOk set then s.bellApply 1 set qcb cmd else s)

def execDbCmdResume (set : Nat) (qcb cmd : BitVec 64) (s : State) : Out :=
  .next (if s.bellOk set then s.bellApply 2 set qcb cmd else s)

/-- A pending command waits to be applied: its queue is not on its way out already. -/
def State.bellDue (s : State) (b : Bell) : Bool :=
  b.stat.getLsbD 63 && !((s.findQueue (wbits b.cmd 0 10) b.qcb).any (fun e => e.2.leaving))

/-- Commands that wait are applied when they can be. -/
def State.retryBells (s : State) : State :=
  if !s.live then s
  else (s.hub.bells.filter (fun e => s.bellDue e.2)).foldl (fun s e => s.bellApply (wbits e.2.cmd 12 2) e.1 e.2.qcb e.2.cmd) s

end Sys2Proof.Machine
end

