-- ==== Sys2Proof/Machine/Context.lean ====
section
/-! DEFINITION. Software contexts (R365 to R375): pre-emption and resumption, the life of a context, freezing and thawing, and the
instructions `ctx.ld` and `ctx.sv`; the bound on safe points (R86). -/

namespace Sys2Proof.Machine

/-! ### Pre-emption (R86, R262, R322, R368) -/

/-- What a pre-emption makes of a token (R302, R322); `res` says that its group is resumable. -/
def Token.preempt (now : Nat) (res : Bool) (t : Token) : Token :=
  match t.st with
  | .issued | .waiting => { t with st := .suspended, tend := now, susIssued := t.st == .issued, susFault := false }
  | .running =>
    if t.stream then { t.stopStream now with drainAt := now, susIssued := false, susFault := false }
    else if t.copy && (t.fn == 2 || !res || t.cnt % t.chunk == 0) && decide (t.cur < t.total) then
      { t with st := .suspended, tend := now, cur := t.stopAt res, lines := [], mask := [], susIssued := false, susFault := false }
    else if t.maj = 0x14 ∧ t.claimed ≠ 1 then { t with st := .suspended, tend := now, susIssued := false, susFault := false }
    else { t with st := .draining, drainAt := now, susIssued := false, susFault := false }
  | _ => t

/-- Every token of a context is pre-empted; those that stop give up their lines. -/
def State.preemptToks (s : State) (n : Nat) : State :=
  (s.toksWhere (fun t => t.ctx == n)).foldl (fun s k => match s.tok? k with
    | some t =>
      let u := t.preempt s.cyc (s.resumable t.launch t.grp)
      (if u.lines.isEmpty then s.releaseLines t.lines else s).setTok k u
    | none => s) s

/-- One waiting record leaves where it waits for the requeue area of its context, unless its pre-emption has been abandoned meanwhile
(R368, R370). -/
def State.requeueOne (s : State) (cl : Nat) (m : Msg) (take : State → State) : State :=
  if (s.context m.ctx).st = .preempting then (take s).requeueMsg cl m else s

/-- The records of a context that wait on one cluster move to its requeue area: those of the task unit and the spill area, then
those of its cores' inboxes (R368). -/
def State.requeueCluster (s : State) (n cl : Nat) : State :=
  let mine (m : Msg) : Bool := m.ctx == n
  let rest (m : Msg) (ms : List Msg) : List Msg := ms.filter (fun x => x.ord != m.ord)
  let k := s.clu cl
  let s := ((k.tu ++ k.spill).filter mine).foldl (fun s m => s.requeueOne cl m (fun s =>
    s.setClu cl { s.clu cl with tu := rest m (s.clu cl).tu, spill := rest m (s.clu cl).spill })) s
  (s.cores.filter (fun e => cluOfCore e.1 == cl && e.2.inbox.any mine)).foldl (fun s e =>
    (e.2.inbox.filter mine).foldl (fun s m => s.requeueOne cl m (fun s => s.setCore e.1 { s.core e.1 with inbox := rest m (s.core e.1).inbox })) s) s

/-- Clusters that hold anything. -/
def State.usedClusters (s : State) : List Nat :=
  (s.clus.map (·.1) ++ (s.cores.filter (fun e => !e.2.inbox.isEmpty)).map (fun e => cluOfCore e.1)).eraseDups

/-- A context Blocked at a safe point enters Saving at once (R86). -/
def State.saveBlocked (s : State) (p : Nat) : State :=
  let t := s.thread p
  if t.real = .blocked ∧ t.blk ≠ some .done ∧ !t.ordered ∧ t.pend then s.reachSafePoint p none else s

/-- Priority of the queue that submitted a launch (R376), if one did. -/
def State.queuePri (s : State) (L : Launch) : Option Nat := (L.sub.queue.bind (fun q => s.queue? q.1)).map (·.pri)

/-- A launch of a queue of another context has waited one quantum for cores on a die, with a higher priority than the queue of a running
launch of context `n`, or than one that no queue submitted (R386). -/
def State.waitsLong (s : State) (n d : Nat) (W : Launch) : Bool :=
  W.sub.die == d && W.sub.ctx != n && W.state == .placing && !W.ending && decide (W.waitAt + (s.die d).qnt.toNat * 2000 ≤ s.cyc) &&
    (match s.queuePri W with
    | some p => s.launches.any (fun e => e.2.sub.ctx == n && e.2.state == .running && (match s.queuePri e.2 with | some q => decide (q < p) | none => true))
    | none => false)

/-- Turat of some die may ask for a pre-emption: it loads no image, and the vendor's asks only where a launch has waited (R385, R386). -/
def State.mayPreempt (s : State) (n : Nat) : Bool :=
  (List.range 8).any (fun d => !(s.die d).go && (!s.vendorRuns d || s.launches.any (fun e => s.waitsLong n d e.2)))

/-- Turat of some die makes decisions (R385). -/
def State.decides (s : State) : Bool := (List.range 8).any (fun d => !(s.die d).go)

/-- PREEMPTION_REQUEST: a Running context enters Pre-empting, where Turat may ask for that; a request for any other context is recorded as
ignored (R367, R368, R386). -/
def State.preempt (s : State) (n : Nat) : State :=
  if !s.decides then s
  else if (s.context n).st ≠ .running ∨ n = 0 then s.record 0 6 0 0 n 0
  else if !s.mayPreempt n then s
  else
    let s := (s.setCtx n { s.context n with st := .preempting }).record 0 3 8 0 n 0
    let s := s.abortAll ((s.commits.filter (fun x => x.2.2.ctx == n && !x.2.2.irrev)).map (fun x => (x.1, x.2.1)))
    let s := (s.placesWhere (fun t => t.ctxNo == n)).foldl (fun s p => s.setThread p { s.thread p with pend := true, pendAt := s.cyc }) s
    let s := s.preemptToks n
    let s := s.usedClusters.foldl (fun s cl => s.requeueCluster n cl) s
    let s := (s.clus.map (·.1)).foldl (fun s cl => (s.settleFiring cl).evaluate cl) s
    (s.placesWhere (fun t => t.ctxNo == n)).foldl State.saveBlocked s

def execPreemptionRequest (ctx : Nat) (s : State) : Out := .next (if s.live && decide (ctx < 1024) then s.preempt ctx else s)

/-- NO_SAFE_POINT_TIMEOUT (R86). -/
def State.noSafePoint (s : State) (p : Nat) : State :=
  let t := s.thread p
  let asleep := match t.wait with | .pager _ _ | .dirty _ => true | _ => false
  if t.task.isSome ∧ t.pend ∧ t.state = .ready ∧ !asleep ∧ t.pendAt + 2 ^ 21 ≤ s.cyc then s.kernelFault p Code.noSafePoint 5 0 else s

def execNoSafePointTimeout (place : Nat) (s : State) : Out :=
  .next (if s.live && !(s.core (coreOf place)).hlt then s.noSafePoint place else s)

/-- Every bound task of the context has saved or retired, and no token of it is Running or Draining (R323, R367). -/
def State.quietContext (s : State) (n : Nat) : Bool :=
  !s.threads.any (fun e => e.2.task.isSome && e.2.ctxNo == n) && !s.toks.any (fun e => e.2.ctx == n && e.2.active)

/-- CONTEXT_SUSPENDED: the context's queues are unmapped (R367, R384). -/
def State.suspendContext (s : State) (n : Nat) : State :=
  let c := s.context n
  if c.st ≠ .preempting ∨ !s.quietContext n then s
  else
    let s := s.setCtx n { c with st := .suspended }
    ((s.queues.filter (fun e => e.2.ctx == n)).map (·.1)).foldl (fun s k => s.unmapQueue k 8) s

def execContextSuspended (ctx : Nat) (s : State) : Out := .next (if s.live then s.suspendContext ctx else s)

/-- CONTEXT_RESUME, which Turat asks for while some die loads no image (R385): saved tasks and requeued records go back, and the waits of its queues start again (R369, R387). -/
def State.resumeContext (s : State) (n : Nat) : State :=
  let c := s.context n
  if c.st ≠ .suspended ∨ !s.decides then s
  else
    let s := (s.setCtx n { c with st := .running }).record 0 4 0 0 n 0
    let again (_ : Nat) (q : Queue) : Queue := if q.ctx = n ∧ q.st = .pending then { q with pendAt := s.cyc, missed := false } else q
    ({ s with queues := Tab.mapV again s.queues } : State).resumeRecords n

def execContextResume (ctx : Nat) (s : State) : Out := .next (if s.live then s.resumeContext ctx else s)

/-! ### The life of a context (R367) -/

/-- CONTEXT_AREAS_RESIDENT: both areas are Leased in class-full frames. -/
def State.areasResident (s : State) (n : Nat) : State :=
  let c := s.context n
  if c.st = .created ∧ s.areasLeased n then s.setCtx n { c with st := .idle } else s

def execContextAreasResident (ctx : Nat) (s : State) : Out := .next (if s.live then s.areasResident ctx else s)

/-- CONTEXT_AREAS_UNBACKED: the reason goes to the decision log, under an image-defined action (log entry 12). -/
def State.areasUnbacked (s : State) (n : Nat) : State :=
  let c := s.context n
  if c.st = .created ∧ !s.areasLeased n then
    ((s.setCtx n Ctx.empty).record 0 (10 + Config.choice s.fresh % 6) (9 + Config.choice (s.fresh + 1) % 119) 0 n 0).draw.draw
  else s

def execContextAreasUnbacked (ctx : Nat) (s : State) : Out := .next (if s.live then s.areasUnbacked ctx else s)

/-- CONTEXT_DISCARD_COMPLETE: a Kernel-faulted context goes on once no save and no ended launch of it is left; what a pre-emption
that was given up has saved is resumed (R370; log entry 41). -/
def State.discarded (s : State) (n : Nat) : State :=
  let c := s.context n
  let mine (e : Nat × Launch) : Bool := e.2.sub.ctx == n
  if c.st ≠ .faulted ∨ s.anySaving n then s
  else if !c.failed.isEmpty then s.abandoned n
  else if s.launches.any (fun e => mine e && e.2.ending) then s
  else (s.setCtx n { c with st := if s.launches.any mine then .running else .idle }).resumeRecords n

def execContextDiscardComplete (ctx : Nat) (s : State) : Out := .next (if s.live then s.discarded ctx else s)

/-! ### Freezing (R371) -/

/-- A freeze or its end is recorded on every die; the value that the record carries is not given (log entry 12). -/
def State.thermal (s : State) (qty : Nat) : State :=
  (List.range 8).foldl (fun s d => (s.throttle d 0 qty (Config.choice s.fresh % 2 ^ 64)).draw) s

/-- Every context enters Frozen, every core Halted. -/
def State.freeze (s : State) : State :=
  let stop (_ : Nat) (c : Ctx) : Ctx := if c.st = .destroyed then c else { c with st := .frozen, pst := c.st }
  let halt (_ : Nat) (t : Thread) : Thread := if t.task.isSome ∧ t.state ≠ .halted then { t with state := .halted, prev := t.state } else t
  let s : State := { s with ctxs := Tab.mapV stop s.ctxs, threads := Tab.mapV halt s.threads,
                            hub := { s.hub with frozen := true, frozenAt := s.cyc } }
  (s.thermal 3).raiseMsix 4

/-- FREEZE: a stack at 105 degrees or more. -/
def execFreeze (stack temp : Nat) (s : State) : Out :=
  if stack < 8 ∧ 105 ≤ temp ∧ s.hub.phase = 2 ∧ !s.hub.fatal.getLsbD 63 then
    let s := s.setHub { s.hub with temps := Tab.put s.hub.temps stack temp }
    .next (if s.hub.frozen then s else s.freeze)
  else .next s

/-- Counts that a freeze paused go on: those of running cores from the freeze to its end, those of cores stopped meanwhile up to
their stop (R76, R81, R86, R321). -/
def State.thawCounts (s : State) : State :=
  let from_ := s.hub.frozenAt
  let late := s.cores.filter (fun e => e.2.hlt && decide (from_ < e.2.hltAt))
  let s := late.foldl (fun s e => s.pauseCounts (fun c => c == e.1) from_ e.2.hltAt) s
  let s := s.pauseCounts (fun c => !(s.core c).hlt) from_ s.cyc
  let tok (_ : Nat) (t : Token) : Token := if t.st = .draining then { t with drainAt := pauseFrom s.cyc from_ t.drainAt } else t
  let que (_ : Nat) (q : Queue) : Queue := { q with pendAt := pauseFrom s.cyc from_ q.pendAt, mapAt := pauseFrom s.cyc from_ q.mapAt }
  let lau (_ : Nat) (L : Launch) : Launch := { L with waitAt := pauseFrom s.cyc from_ L.waitAt }
  { s with toks := Tab.mapV tok s.toks, queues := Tab.mapV que s.queues, launches := Tab.mapV lau s.launches }

/-- The freeze ends: contexts take up their states, cores that no debugger stops go on, and the weir
starts a new round at the next multiple of 256 cycles (R263). -/
def State.thaw (s : State) : State :=
  let s := s.thawCounts
  let go (_ : Nat) (c : Ctx) : Ctx := if c.st = .frozen then { c with st := c.pst, pst := .destroyed } else c
  let run (p : Nat) (t : Thread) : Thread := if t.state = .halted ∧ !(s.core (coreOf p)).hlt then { t with state := t.prev } else t
  let s : State := { s with ctxs := Tab.mapV go s.ctxs, threads := Tab.mapV run s.threads, hub := { s.hub with frozen := false },
                            wstage := if s.wstage ≤ 3 then 0 else s.wstage, round := s.cyc / 256 }
  (s.thermal 4).raiseMsix 4

/-- THAW: every stack at 95 degrees or less. -/
def execThaw (temps : List Nat) (s : State) : Out :=
  if s.hub.frozen ∧ temps.length = 8 ∧ temps.all (fun t => decide (t ≤ 95)) then
    .next (({ s with hub := { s.hub with temps := temps.zipIdx.foldl (fun m e => Tab.put m e.2 e.1) s.hub.temps } } : State).thaw)
  else .next s

/-! ### ctx.ld (R366, R372, R373, R375) -/

/-- A context-form fault that names a word. -/
def formBad (k : Nat) : Stop := fltS Code.contextForm (wd k)

/-- Two areas share a byte. -/
def Lease.meets (a b : Lease) : Bool := decide (a.base < b.base + b.size) && decide (b.base < a.base + a.size)

/-- The first word of an image that breaks R366. -/
def imageBreach (w : Nat → Nat) : Option Nat :=
  let sv : Lease := { base := w 7, size := 65536 * (w 6 / 2 ^ 32), perm := 1 }
  let rq : Lease := { base := w 5, size := 128 * (w 6 % 2 ^ 32), perm := 1 }
  let bad (k : Nat) : Bool := match k with
    | 0 => decide (2 ≤ w 0)
    | 1 => w 1 != 0
    | 2 => w 2 != 0
    | 3 => w 3 % 4096 != 0
    | 4 => w 4 % 64 != 0
    | 5 => w 5 % 65536 != 0 || decide (nearBase < rq.base + rq.size) || sv.meets rq
    | 6 => decide (w 6 % 2 ^ 32 < 1024) || decide (2 ^ 24 < w 6 % 2 ^ 32) || decide (w 6 / 2 ^ 32 < 1) || decide (16384 < w 6 / 2 ^ 32)
    | _ => w 7 % 65536 != 0 || decide (nearBase < sv.base + sv.size)
  [0, 1, 2, 3, 4, 5, 6, 7].find? bad

/-- The context that an image describes, in a state. -/
def Ctx.ofImage (c : Ctx) (w : Nat → Nat) (st : CState) : Ctx :=
  { c with sva := wd (w 7), svs := w 6 / 2 ^ 32, rqn := w 6 % 2 ^ 32, rqa := wd (w 5), bas := wd (w 4), root := wd (w 3), lay := w 2 % 256, st,
           prv := w 0 % 2 == 1 }

/-- Operands of `ctx.ld` for an op: the context number and the image's address, after the checks of R375 up to the number. -/
def State.ldOperands (s : State) (op : Nat) (a b : Spec) : Except Stop (Nat × Word) := do
  let (x, y) ← s.read2 a b
  let v := lo64 x
  if v.toNat / 2 ^ 14 ≠ 0 ∨ wbits v 10 2 ≠ 0 ∨ (op = 2 ∧ lo64 y ≠ 0) then .error (fltS Code.contextForm (Config.syndrome 2 s.fresh 0))
  if wbits v 0 10 = 0 ∨ wbits v 12 2 ≠ op then .error (fltC Code.contextNumber)
  pure (wbits v 0 10, lo64 y)

/-- The image, read as a 64-byte load and checked (R366). -/
def State.ldImage (s : State) (va : Word) : Except Stop ((Nat → Nat) × State) := do
  let (loc, s) ← s.access s.cur .read false va 64
  let (ws, s) ← s.readWords loc va 8
  let w (k : Nat) : Nat := ((ws[k]?).getD 0).toNat
  match imageBreach w with
  | some k => .error (formBad k)
  | none => pure (w, s)

/-- A context-state fault. -/
def stateBad (c : Ctx) : Stop := fltS Code.contextState (wd c.st.code)

def execCtxLdCreate (a b : Spec) (s : State) : Out :=
  settle s (do
    let (n, va) ← s.ldOperands 0 a b
    let (w, s) ← s.ldImage va
    if (s.context n).st ≠ .destroyed then .error (stateBad (s.context n))
    s.unordered
    pure ((s.setCtx n (Ctx.empty.ofImage w .created)).fin 4))

def execCtxLdUpdate (a b : Spec) (s : State) : Out :=
  settle s (do
    let (n, va) ← s.ldOperands 1 a b
    let (w, s) ← s.ldImage va
    let c := s.context n
    if c.st ≠ .idle ∧ c.st ≠ .suspended then .error (stateBad c)
    let same (k : Nat) : Bool := if k = 0 then w 0 == (if c.prv then 1 else 0) else wd (w k) == s.ctxWord n k
    match [0, 5, 6, 7].find? (fun k => !same k) with
    | some k => .error (formBad k)
    | none => pure ()
    s.unordered
    pure ((s.setCtx n (c.ofImage w c.st)).fin 4))

/-- Entries of a context leave every TLB (R233, R372). -/
def State.dropTlb (s : State) (n : Nat) : State :=
  let keep (t : List TlbEntry) : List TlbEntry := t.filter (fun e => teCtx e != n)
  { s with cores := Tab.mapV (fun _ (k : Core) => { k with tlb := keep k.tlb }) s.cores,
           clus := Tab.mapV (fun _ (k : Cluster) => { k with tlb := keep k.tlb }) s.clus }

/-- The pager releases the pages of a context (R372): every valid leaf of the table at `tab`, with `lv` levels left, is cleared, as the
service core of cluster `cl` sees the table (R230; log entry 123). -/
def State.releaseTable (s : State) (cl : Nat) : Nat → Nat → State
  | 0, _ => s
  | lv + 1, tab =>
    if tab % tableAlign lv ≠ 0 then s
    else (List.range (if lv = 0 then 32 else 512)).foldl (fun s i => match s.fwLoc cl (tab + 8 * i) with
      | none => s
      | some loc =>
        let w := s.readN loc 8
        if bits w 0 1 = 0 then s
        else if bits w 1 1 = 1 then s.writeN loc 8 0
        else if w % 256 = 1 ∧ w < 2 ^ 53 then s.releaseTable cl lv (w / 256 * 256)
        else s) s

/-- The launches of a queue that have just failed are noted in its control block (R381, R384). -/
def State.noteEnds (s : State) (k : Nat) : State :=
  match s.queue? k with
  | none => s
  | some q =>
    let note (q : Queue) (p : Pkt) : Queue := match p.kind, p.done with
      | 1, some (some d) => if p.completed then q else q.noteFail p d
      | _, _ => q
    s.setQueue k (q.started.foldl note q)

/-- A context is destroyed: its launches, those still Submitted among them, end with status 6, which their queues note (R381), its queues are
unregistered, its tokens and its TLB entries go, and its pages are released (R372). -/
def State.destroyContext (s : State) (n : Nat) : State :=
  let ls := (s.launches.filter (fun e => e.2.sub.ctx == n)).map (·.1)
  let vs := s.subs.filter (fun e => e.2.ctx == n)
  let s : State := { s with subs := s.subs.filter (fun e => e.2.ctx != n) }
  let s := vs.foldl (fun s e => s.tellEnd e.2 6 6 e.2.clock) s
  let s := ls.foldl (fun s l => s.killLaunch l 6) s
  let s := ls.foldl (fun s l => match s.launch? l with | some L => s.endLaunch l L | none => s) s
  let s := ((s.queues.filter (fun e => e.2.ctx == n)).map (·.1)).foldl (fun s k => (s.noteEnds k).removeQueue k) s
  let s := (s.toksWhere (fun t => t.ctx == n)).foldl State.freeTok s
  let s : State := { s.dropTlb n with walks := s.walks.filter (fun e => e.2.ctx != n) }
  (s.releaseTable (cluOfPlace s.cur) 4 (s.context n).root.toNat).setCtx n Ctx.empty

/-- A completion signal of a launch of a context, or the control block of a group or a queue of it, waits to be written. -/
def State.endsHeld (s : State) (n : Nat) : Bool :=
  s.launches.any (fun e => e.2.sub.ctx == n && s.subHeld e.2.sub) || s.subs.any (fun e => e.2.ctx == n && s.subHeld e.2) ||
    s.groups.any (fun e => ((s.launch? (e.1 / 4096)).map (·.sub.ctx)) == some n && (s.gcbLoc (e.1 / 4096) e.2).isNone) ||
    s.queues.any (fun e => e.2.ctx == n && (s.qcbLoc e.2).isNone)

def execCtxLdDestroy (a b : Spec) (s : State) : Out :=
  settle s (do
    let (n, _) ← s.ldOperands 2 a b
    let c := s.context n
    if c.st ≠ .created ∧ c.st ≠ .idle ∧ c.st ≠ .suspended then .error (stateBad c)
    s.unordered
    if s.acc.any (fun e => e.2.ctx == n) || s.endsHeld n then .error .wait
    pure ((s.destroyContext n).fin 4))

/-! ### ctx.sv (R374) -/

/-- The 64 bytes of a context's record. -/
def State.recordBytes (s : State) (n : Nat) : List Byte := (List.range 8).flatMap (fun k => leBytes 8 (s.ctxWord n k).toNat)

/-- `ctx.sv`: one 64-byte store, whose bytes are taken in this step; it is counted in cst until it is performed (R82, R374). -/
def execCtxSv (d a b : Spec) (s : State) : Out :=
  settle s (do
    let (x, y) ← s.read2 a b
    let v := lo64 x
    let va := lo64 y
    if v.toNat / 2 ^ 10 ≠ 0 then .error (fltS Code.contextForm (Config.syndrome 2 s.fresh 0))
    let n := v.toNat
    let (loc, s) ← s.access s.cur .write false va 64
    s.unordered
    s.free1 d
    if 63 ≤ s.me.cst then .error .wait
    let c := s.context n
    let s := s.file (s.newAcc (.wide (s.recordBytes n) false) va 64 loc)
    let s := s.setMe { s.me with cst := s.me.cst + 1 }
    s.put 4 d (scalar (wd (c.st.code + (if c.st = .frozen then c.pst.code else 0) * 16))))

end Sys2Proof.Machine
end

