-- ==== Sys2Proof/Machine/Cvt.lean ====
section
/-! DEFINITION. Conversions of major 0x0F (R119 to R125). -/

namespace Sys2Proof.Machine

/-- What a conversion's integer side is. -/
def Thread.intSide (t : Thread) : CvtInt → Nat × Bool
  | .int y => (intW y, intSigned y)
  | .fr n => let v := t.f[n].toNat; (fmtWidth v, bits v 23 1 == 1)

/-- The format that `qnt` and `dqnt` read a type as (R119). -/
def Thread.efmt (t : Thread) : FTy → EFmt
  | .fr n => eFmt t.f[n].toNat
  | y => .flt (t.ffmt y)

/-- A lane-by-lane conversion from width `ws` to width `wd'` (R120). -/
def State.convert (s : State) (d a : Spec) (bad : List (Fin 4)) (ws wd' : Nat) (f : Nat → Fp → Nat × Fp) : Res := do
  s.latch [a]
  s.me.useCheck bad
  let x ← s.readReg a
  let n := 128 / Nat.max ws wd'
  let (xs, p) := lanesFp (fun i p => f (lane ws x i) p) n 0 s.fp
  (s.withFp p).put 4 d (ofLanes wd' xs)

def execCvt (t u : FTy) (d a : Spec) (s : State) : Out :=
  let m := s.me
  let ft := m.ffmt t
  let fu := m.ffmt u
  settle s (s.convert d a (m.ftyBad 0 vecWidths t ++ m.ftyBad 0 vecWidths u) fu.w ft.w (fun c p =>
    let v := decodeF fu c
    roundE ft v (p.raise v.sigFlag)))

def execCvti (t : CvtInt) (u : FTy) (d a : Spec) (s : State) : Out :=
  let m := s.me
  let it := m.intSide t
  let fu := m.ffmt u
  settle s (s.convert d a (m.cvtBad t ++ m.ftyBad 0 vecWidths u) fu.w it.1 (fun c p =>
    let v := decodeF fu c
    let r := roundInt it.1 it.2 v (p.raise v.sigFlag)
    (r.1, r.2.2)))

def execCvtf (t : FTy) (u : CvtInt) (d a : Spec) (s : State) : Out :=
  let m := s.me
  let ft := m.ffmt t
  let iu := m.intSide u
  settle s (s.convert d a (m.ftyBad 0 vecWidths t ++ m.cvtBad u) iu.1 ft.w (fun c p =>
    roundE ft (Val.ofInt (if iu.2 then toInt iu.1 c else (c : Int))) p))

/-- R121: one register block is quantised; its scale code stands in bits 127:120. -/
def execQnt (t u : FTy) (d a : Spec) (s : State) : Out :=
  settle s (do
    s.latch [a]
    s.me.useCheck (s.me.ftyBad 2 [4, 6, 8] t ++ s.me.ftyBad 0 [16] u)
    let x ← s.readReg a
    let fu := s.me.ffmt u
    let ft := s.me.efmt t
    let n := 128 / fu.w
    let q := quantise ft ((List.range n).map (fun i => decodeF fu (lane fu.w x i))) none s.fp
    let s := s.withFp (if q.sat then q.fp.raise fSat else q.fp)
    s.put 4 d (BitVec.ofNat 128 (packCodes ft.w q.codes % 2 ^ 120 + (q.scale + 127).toNat * 2 ^ 120)))

/-- R122, R115: the elements times their scale, rounded; nv for a scale code of 255. -/
def execDqnt (t u : FTy) (d a : Spec) (s : State) : Out :=
  settle s (do
    s.latch [a]
    s.me.useCheck (s.me.ftyBad 0 [16] t ++ s.me.ftyBad 2 [4, 6, 8] u)
    let x ← s.readReg a
    let ft := s.me.ffmt t
    let fu := s.me.efmt u
    let c := bits x.toNat 120 8
    let (xs, p) := lanesFp (fun i p => roundE ft (e8m0 c (fu.decode (lane fu.w x i))) p) (128 / ft.w) 0 s.fp
    (s.withFp (if c = 255 then p.raise fNv else p)).put 4 d (ofLanes ft.w xs))

/-- The class of an encoding (R123). -/
def classOfVal (f : FFmt) (c : Nat) : Nat :=
  let sub := bits c f.m f.e == 0
  match decodeF f c with
  | .nan g => if g then 8 else 9
  | .inf g => if g then 0 else 7
  | .fin g n _ _ =>
    if n = 0 then (if g then 3 else 4)
    else if sub then (if g then 2 else 5)
    else (if g then 1 else 6)

def execFclass (u : FTy) (d a : Spec) (s : State) : Out :=
  let f := s.me.ffmt u
  settle s (do
    s.latch [a]
    s.me.useCheck (s.me.ftyBad 0 vecWidths u)
    let x ← s.readReg a
    s.put 4 d (mkLanes 4 (128 / f.w) (fun i => classOfVal f (lane f.w x i))))

/-- R124: 4- or 6-bit elements from bytes. -/
def execPack (d a : Spec) (w : Bool) (s : State) : Out :=
  settle s (do
    let x ← s.readReg a
    s.put 4 d (mkLanes (if w then 6 else 4) 16 (fun i => lane 8 x i)))

/-- R124: dt 0 and 1 zero-extended, 2 and 3 sign-extended; even codes 4 bits, odd codes 6 bits. -/
def execUnpack (d a : Spec) (w : BitVec 2) (s : State) : Out :=
  settle s (do
    let x ← s.readReg a
    let n := if w.getLsbD 0 then 6 else 4
    s.put 4 d (mkLanes 8 16 (fun i =>
      let y := bits x.toNat (n * i) n
      if w.getLsbD 1 then ofInt 8 (toInt n y) else y)))

end Sys2Proof.Machine
end

