-- ==== Sys2Proof/Machine/Dbg.lean ====
section
/-! DEFINITION. Major 0x1C: debug and profile instructions (R418, R419, R420, R422, R424). -/

namespace Sys2Proof.Machine

/-- `dbg.brk` (R424). -/
def execDbgBrk (k : BitVec 6) (s : State) : Out :=
  settle s (do
    s.noSpec
    let s := s.fin 4
    let c := coreOf s.cur
    pure (if (s.core c).dbgEn then (s.setCore c { s.core c with code := k.setWidth 8 }).dbgStop c 2 else s))

/-- `dbg.mark` (R420, R424). -/
def execDbgMark (a : Spec) (s : State) : Out :=
  settle s (do
    let v ← s.read64 a
    s.noSpec
    pure ((s.trace s.cur 6 v).fin 4))

/-- The counter that a selector names (R422). -/
def State.profile (s : State) (v : Word) : Option Nat :=
  let n := wbits v 0 12
  let c := s.core (coreOf s.cur)
  let k := s.clu (cluOfPlace s.cur)
  if v.toNat / 2 ^ 14 ≠ 0 then none
  else match wbits v 12 2 with
    | 0 =>
      match n with
      | 0 => some ((List.range 8).foldl (fun m t => satAt (2 ^ 64 - 1) (m + (s.thread (coreOf s.cur * 8 + t)).retired)) 0)
      | 1 => some c.drops
      | 2 => some c.raceLoss
      | 3 => some c.misses
      | _ =>
        if 1024 ≤ n ∧ n < 1024 + 768 then
          let f := Tab.getD c.fafen ((n - 1024) / 4) { count := 0, transit := 0, inbox := 0, run := 0 }
          some (match n % 4 with | 0 => f.count | 1 => f.transit | 2 => f.inbox | _ => f.run)
        else none
    | 1 =>
      match n with
      | 0 => some k.merged
      | 1 => some k.joinDrops
      | 2 => some k.walkErrs
      | 3 => some k.aborts
      | 4 => some k.discards
      | 5 => some k.tuDrops
      | _ => none
    | 2 => if n = 0 then some (s.die (dieOf s.cur)).thrWi else none
    | _ =>
      match n with
      | 0 => some s.hub.errCorr
      | 1 => some s.hub.errUncorr
      | 2 => some s.hub.sigLost
      | _ => none

/-- `prof.rd` (R422, R424). -/
def execProfRd (d a : Spec) (s : State) : Out :=
  settle s (do
    let v ← s.read64 a
    match s.profile v with
    | some n => s.put 4 d (scalar (wd n))
    | none => .error (fltS Code.profileSelector v))

/-- The core that `dbg.stop` names (R424): bits 63:16 of its first operand are not among those that must be 0. -/
def State.dbgOperands (s : State) (op : Nat) (a b : Spec) : Except Stop (Nat × Word) := do
  let (x, y) ← s.read2 a b
  let v := lo64 x
  let w := lo64 y
  if v.toNat % 8 ≠ 0 ∨ w.toNat / 2 ^ 5 ≠ 0 ∨ w.toNat % 4 ≠ op then .error (fltC Code.debugSelector)
  if !validPlace (wbits v 3 13 * 8) then .error (fltC Code.placeRange)
  s.noSpec
  pure (wbits v 3 13, w)

def execDbgStopStop (a b : Spec) (s : State) : Out :=
  settle s (do
    let (c, _) ← s.dbgOperands 0 a b
    pure ((s.fin 4).dbgStop c 4))

def execDbgStopGo (a b : Spec) (s : State) : Out :=
  settle s (do
    let (c, _) ← s.dbgOperands 1 a b
    pure ((s.fin 4).dbgGo c))

/-- Step a context of a core (R419, R424). -/
def execDbgStopStep (a b : Spec) (s : State) : Out :=
  settle s (do
    let (c, w) ← s.dbgOperands 2 a b
    let s := s.fin 4
    pure (s.setCore c { s.core c with sel := BitVec.ofNat 3 (wbits w 2 3), step := true }))

/-! ### The debugger's steps (R418, R419) -/

def execDbgCtlStop (core : Nat) (s : State) : Out := if validPlace (core * 8) then .next (s.ctlStop core) else .next s
def execDbgCtlGo (core : Nat) (s : State) : Out := if validPlace (core * 8) then .next (s.ctlGo core) else .next s
def execDbgCtlStep (core : Nat) (s : State) : Out :=
  if validPlace (core * 8) then .next (s.setCore core { s.core core with step := true }) else .next s
def execDbgDatWrite (core : Nat) (v : BitVec 64) (s : State) : Out :=
  if validPlace (core * 8) then .next (s.dbgDatWrite core v) else .next s

end Sys2Proof.Machine
end

