-- ==== Sys2Proof/Machine/Edge.lean ====
section
/-! DEFINITION. The package edge (R403 to R417, R423): the host's windows, the host link, die-to-die links, Notur ports, reset and
boot, attestation, eye margins, interrupts of the host, and the management bus. -/

namespace Sys2Proof.Machine

/-! ### BAR 2 (R404) -/

/-- The physical address that an offset of BAR 2 reaches, if its `n` bytes lie in the window and in class-full frames; an access
meets at most two frames. -/
def State.aperture (s : State) (off n : Nat) : Option Nat :=
  let pa := s.hub.apt.toNat + off
  let full (a : Nat) : Bool := s.frameClass a == 0
  if n = 0 ∨ 0x200000 < n ∨ 2 ^ 36 < off + n ∨ !full pa ∨ !full (pa + n - 1) then none else some pa

/-- An access from outside the device waits at the home: as any access, and for the home core where the line has an overflow record
(R162 to R164, R371). -/
def State.outerWaits (s : State) (loc n : Nat) : Bool :=
  s.spanHeld loc n || (lineSpan loc n).any (fun l => Tab.getD s.dir l .uncached == .overflowed && s.homeCoreHalted l)

/-- Errors that the outside world finds are counted by the device alone (R218). -/
def outer : Reader := { launch := none, grp := 0, place := 0 }

/-- A store from outside the device: every L1 copy and overflow record goes, and the bytes are written through the check bits (R162, R172, R215). -/
def State.outerStore (s : State) (loc : Nat) (bytes : List Byte) : State :=
  let s := (lineSpan loc bytes.length).foldl State.recall s
  (s.writeSpan (s.locClass loc) outer (bytes.length / 64 + 2) loc bytes).2

/-- HOST_BAR2_WRITE: stores at `.host`, or Unsupported Request. -/
def execHostBar2Write (off : Nat) (bytes : List (BitVec 8)) (s : State) : Out :=
  .next (if !s.live || s.hub.rate == 0 then s else match s.aperture off bytes.length with
    | none => s.setHub { s.hub with ur := true }
    | some pa =>
      if s.outerWaits (locIn 0 pa) bytes.length then s
      else
        let s := s.outerStore (locIn 0 pa) bytes
        s.setHub { s.hub with ur := false })

/-- What a read answers; data that is poisoned has no value that the spec gives (log entry 24). -/
def State.outerBytes (s : State) (loc n : Nat) : List Byte × State :=
  match s.readSpan (s.locClass loc) outer (n / 64 + 2) loc n with
  | (.ok bs, s) => (bs, s)
  | (.error _, s) => ((List.range n).map (fun i => (Config.syndrome 3 s.fresh (i / 8) >>> (8 * (i % 8))).setWidth 8), s.draw)

/-- A read of the outside world: its bytes, and their first eight as a word. -/
def State.outerRead (s : State) (loc n : Nat) : State :=
  let (bs, s) := s.outerBytes loc n
  s.setHub { s.hub with answer := wd (leNat (bs.take 8)), bytes := bs }

/-- HOST_BAR2_READ. -/
def execHostBar2Read (off n : Nat) (s : State) : Out :=
  .next (if !s.live || s.hub.rate == 0 then s else match s.aperture off n with
    | none => s.setHub { s.hub with ur := true }
    | some pa =>
      if s.outerWaits (locIn 0 pa) n then s
      else
        let s := s.outerRead (locIn 0 pa) n
        s.setHub { s.hub with ur := false })

/-! ### BAR 4 (R404, R412, R415) -/

/-- What a host read of 4 or 8 bytes through BAR 4 returns, none where BAR 4 does not answer: while boot has failed or runs it answers
BOOT_STAT alone (R412), while a fatal condition holds the hub block alone (R415). Such a read changes nothing but what `State.devTouch`
gives, and the table has no row for it. -/
def State.bar4Read (s : State) (addr n : Nat) : Option Nat :=
  let o := addr - 0x7FFF00000000
  let hubBlock := decide (0x400000 ≤ o) && decide (o < 0x410000)
  if addr < 0x7FFF00000000 ∨ 2 ^ 32 ≤ o ∨ (n ≠ 4 ∧ n ≠ 8) ∨ o % n ≠ 0 ∨ s.hub.rate = 0 then none
  else if s.hub.phase ≠ 2 then (if o / 8 = 0x400300 / 8 then some (s.devRead o n) else none)
  else if s.hub.fatal.getLsbD 63 ∧ !hubBlock then none
  else some (s.devRead o n)

/-! ### The host link (R403, R406) -/

/-- A request of the running token `k` to a host-backed line fails (R406). -/
def State.hostFailTok (s : State) (k : Nat) : State :=
  match s.tok? k with
  | none => s
  | some t => match s.tokenAt t 1 with
    | some va => s.faultTok k 0x14 va 0
    | none => s

/-- HOST_LINK_COMPLETION: a completion for a host-backed access, with its data or with an error; an operand of 2^62 + k names the request
of the token with key `k`, whose data the engine's own steps take (log entry 125). -/
def execHostLinkCompletion (acc : Nat) (err : Bool) (bytes : List (BitVec 8)) (s : State) : Out :=
  match Tab.get? s.acc acc with
  | some a => .next (if s.hub.frozen || locTag a.loc != 1 || s.hub.rate == 0 then s else if err then s.hostFail acc else s.linkAnswer acc bytes)
  | none => .next (if err && decide (2 ^ 62 ≤ acc) && !s.hub.frozen && s.hub.rate != 0 then s.hostFailTok (acc - 2 ^ 62) else s)

/-- HOST_LINK_TIMEOUT: no completion within 2^24 cycles. -/
def execHostLinkTimeout (acc : Nat) (s : State) : Out :=
  match Tab.get? s.acc acc with
  | some a => .next (if !s.hub.frozen && decide (a.issued + 2 ^ 24 ≤ s.cyc) then s.hostFail acc else s)
  | none => .next (match s.tok? (acc - 2 ^ 62) with
    | some t => if 2 ^ 62 ≤ acc ∧ !s.hub.frozen ∧ t.tiss + 2 ^ 24 ≤ s.cyc then s.hostFailTok (acc - 2 ^ 62) else s
    | none => s)

/-- Running tokens whose present access needs a port that has gone Down: their requests had left, or had not (R410). -/
def State.failTokens (s : State) (p : Nat) : State :=
  s.toks.foldl (fun s e => match s.tok? e.1 with
    | none => s
    | some t => match s.tokenAt t (2 + p) with
      | some va => s.draw.faultTok e.1 0x14 va (wd (p + (if Config.choice s.fresh % 2 = 1 then 256 else 0)))
      | none => s) s

/-- Ports that went Down or were disabled by a step that began in `old` fail the tokens that use them (R410). -/
def State.failLost (old s : State) : State :=
  let down (n : Notur) : Bool := n.st == 0 || n.st == 4
  (List.range 16).foldl (fun t p => if !down (old.ntr p) && down (s.ntr p) then t.failTokens p else t) s

/-- HOST_LINK_TRAINING: HOST_CTL follows the link; messages that waited for it leave (R416). -/
def execHostLinkTraining (ltssm : BitVec 6) (rate : BitVec 3) (wid : BitVec 5) (s : State) : Out :=
  .next (if s.hub.phase = 0 ∨ rate = 7 then s
    else
      let s := s.setHub { s.hub with ltssm, rate, wid }
      if rate = 0 then s else s.flushMsix)

/-! ### Die-to-die links (R407) -/

/-- Two ends of a link: dies 0 to 7, and 8 the hub. -/
def d2dEnds (a b : Nat) : Bool := decide (a < b) && decide (b ≤ 8)

/-- D2D_RETRAIN. -/
def execD2dRetrain (enda endb : Nat) (s : State) : Out :=
  .next (if s.live && d2dEnds enda endb && (Tab.get? s.hub.d2d (16 * enda + endb)).isNone then
    s.setHub { s.hub with d2d := Tab.put s.hub.d2d (16 * enda + endb) s.cyc } else s)

/-- The stall counts of sends between dies stood still since a cycle (R407). -/
def State.pauseSends (s : State) (since : Nat) : State :=
  let go (p : Nat) (t : Thread) : Thread := match t.wait with
    | .send d n => if dieOf d = dieOf p then t else { t with wait := .send d (pauseFrom s.cyc since n) }
    | .xq c q e w n o => if dieOf (c * 8) = dieOf p then t else { t with wait := .xq c q e w (pauseFrom s.cyc since n) o }
    | _ => t
  { s with threads := Tab.mapV go s.threads }

/-- D2D_RETRAIN_DONE. -/
def execD2dRetrainDone (enda endb : Nat) (s : State) : Out :=
  match Tab.get? s.hub.d2d (16 * enda + endb) with
  | some since => .next ((s.pauseSends since).setHub { s.hub with d2d := Tab.del s.hub.d2d (16 * enda + endb) })
  | none => .next s

/-- The fatal condition: every core halts, FATAL_STAT names the link, vector 0 is raised (R407, R415). -/
def State.fatalLink (s : State) (a b : Nat) : State :=
  let halt (_ : Nat) (t : Thread) : Thread := if t.task.isSome ∧ t.state ≠ .halted then { t with state := .halted, prev := t.state } else t
  let stat := wd (2 ^ 63 + s.cyc % 2 ^ 32 * 2 ^ 16 + 1 * 2 ^ 8 + a % 16 * 2 ^ 4 + b % 16)
  let s : State := { s with threads := Tab.mapV halt s.threads, hub := { s.hub with fatal := stat } }
  s.raiseMsix 0

/-- D2D_RETRAIN_TIMEOUT. -/
def execD2dRetrainTimeout (enda endb : Nat) (s : State) : Out :=
  match Tab.get? s.hub.d2d (16 * enda + endb) with
  | some since => .next (if since + 2 ^ 20 ≤ s.cyc ∧ !s.hub.fatal.getLsbD 63 then s.fatalLink enda endb else s)
  | none => .next s

/-! ### Notur ports (R408 to R411) -/

/-- The flits of the replay buffer from a sequence number on are sent again (R408). -/
def State.resend (s : State) (p : Nat) (from_ : BitVec 12) : State :=
  ((s.ntr p).replay.filter (fun e => decide ((e.1 - from_).toNat < 2048))).foldl (fun s e => s.emit p e.1 e.2) s

/-- A receiver, this module or the peer, asks for replay; 64 in a row make the port retrain (R408, R409). -/
def State.askReplay (s : State) (p : Nat) (crc : Bool) : State :=
  let n := s.ntr p
  let n : Notur := { n with crc := if crc then satAt (2 ^ 32 - 1) (n.crc + 1) else n.crc, rpl := satAt (2 ^ 20 - 1) (n.rpl + 1), row := n.row + 1 }
  s.setNtr p (if 64 ≤ n.row then { n with st := 3, row := 0, since := s.cyc } else n)

/-- The function of a peer's atomic (R177, R393). -/
def peerOp (fn : Fin 12) : RmwOp :=
  match fn.val with
  | 0 => .swap | 1 => .add | 2 => .and | 3 => .or | 4 => .xor | 5 => .min | 6 => .max | 7 => .minu | 8 => .maxu | 9 => .fadd | 10 => .cas
  | _ => .sadd

/-- A peer's atomic: performed once at the home here, which answers the old value (R178, R411). -/
def State.outerAtomic (s : State) (loc n : Nat) (op : RmwOp) (data : BitVec 256) : State :=
  let s := s.outerRead loc n
  s.outerStore loc (leBytes n (rmwNew op n (leNat s.hub.bytes) data))

/-- What a request or a response, flit number `seq` of its sender, asks of this module; a request is answered under its number. A peer
reaches HBM alone, in frames that are backed. -/
def State.takeFlit (s : State) (p : Nat) (seq : BitVec 12) (b : NoturBody) : State :=
  let backed (pa : Nat) : Bool := s.frameClass pa != 3
  let reply (s : State) (bs : List Byte) : State := s.flitOut p (.response seq.toNat bs)
  match b with
  | .read pa n =>
    if backed pa then (let s := s.outerRead (locIn 0 pa) n; reply s s.hub.bytes) else reply s []
  | .write pa bytes => reply (if backed pa then s.outerStore (locIn 0 pa) bytes else s) []
  | .atomic pa fn size data =>
    let n := if size then 8 else 4
    if backed pa ∧ pa % n = 0 then (let s := s.outerAtomic (locIn 0 pa) n (peerOp fn) data; reply s s.hub.bytes) else reply s []
  | .response acc bytes =>
    match Tab.get? s.acc acc with
    | some a => if locTag a.loc = 2 + p then s.linkAnswer acc bytes else s
    | none => s
  | .replay _ | .ack _ => s

/-- A flit of the link's own: it has no place in the sequence of requests and responses (log entry 117). An acknowledgement frees the
flits up to its number, a replay request has those from its number on sent again (R408). -/
def State.controlFlit (s : State) (p : Nat) (b : NoturBody) : State :=
  match b with
  | .replay seq => (s.resend p seq).askReplay p false
  | .ack seq =>
    let n := s.ntr p
    let kept := n.replay.filter (fun e => decide (2048 ≤ (seq - e.1).toNat))
    s.setNtr p { n with replay := kept, row := if kept.length < n.replay.length then 0 else n.row }
  | _ => s

/-- A request cannot be taken now: the home takes no access, or the replay buffer has no room for its answer (R162, R408). -/
def State.flitWaits (s : State) (p : Nat) (b : NoturBody) : Bool :=
  let full := decide (512 ≤ (s.ntr p).replay.length)
  match b with
  | .read pa k => full || s.outerWaits (locIn 0 pa) k
  | .write pa bs => full || s.outerWaits (locIn 0 pa) bs.length
  | .atomic pa _ size _ => full || s.outerWaits (locIn 0 pa) (if size then 8 else 4)
  | _ => false

/-- NOTUR_FLIT_RECEIVE: a flit in sequence is delivered and acknowledged, a duplicate discarded; from a gap or a CRC error on replay is
asked for (R408). -/
def State.recvFlit (s : State) (p : Nat) (f : NoturFlit) : State :=
  let n := s.ntr p
  let ask (crc : Bool) : State := (s.emit p n.sendSeq (.replay n.recvSeq)).askReplay p crc
  let control : Bool := match f.body with | .replay _ | .ack _ => true | _ => false
  if n.st ≠ 2 ∨ s.hub.frozen then s
  else if !f.crcOk then ask true
  else if control then s.controlFlit p f.body
  else if f.seq = n.recvSeq then
    if s.flitWaits p f.body then s
    else ((s.setNtr p { n with recvSeq := n.recvSeq + 1, row := 0 }).emit p n.sendSeq (.ack f.seq)).takeFlit p f.seq f.body
  else if (f.seq - n.recvSeq).toNat < 2048 then ask false
  else s

def execNoturFlitReceive (port : Nat) (flit : NoturFlit) (s : State) : Out :=
  .next (if s.live && decide (port < 16) then s.recvFlit port flit else s)

/-- NOTUR_ENABLE, NOTUR_DISABLE: a write of en (R409). -/
def execNoturEnable (port : Nat) (s : State) : Out := .next (if s.hub.phase == 2 && decide (port < 16) then s.ntrEnable port else s)
def execNoturDisable (port : Nat) (s : State) : Out :=
  .next (if s.hub.phase == 2 && decide (port < 16) then (s.ntrDisable port).failPort port else s)

/-- NOTUR_TRAINING_DONE: all lanes pass, or seven with the spare for the eighth; so does a retraining end, whose replay resumes from the
first flit that is not acknowledged (R409). -/
def execNoturTrainingDone (port : Nat) (bad : Option (Fin 8)) (s : State) : Out :=
  let n := s.ntr port
  .next (if decide (port < 16) && (n.st == 1 || n.st == 3) && !s.hub.frozen then
    let s := match bad with
      | none => s.setNtr port { n with st := 2, row := 0, rep := if n.st = 1 then false else n.rep, bad := if n.st = 1 then 0 else n.bad }
      | some k => s.setNtr port { n with st := 2, row := 0, rep := true, bad := k.val }
    match n.replay with
    | e :: _ => if n.st = 3 then s.resend port e.1 else s
    | [] => s
    else s)

/-- A port goes Down (R409, R410, R416). -/
def State.portDown (s : State) (p : Nat) : State := ((s.setNtr p { s.ntr p with st := 4 }).raiseMsix 1).failPort p

/-- NOTUR_TRAINING_TIMEOUT. -/
def execNoturTrainingTimeout (port : Nat) (s : State) : Out :=
  let n := s.ntr port
  .next (if decide (port < 16) && n.st == 1 && decide (n.since + 2 ^ 22 ≤ s.cyc) then s.portDown port else s)

/-- NOTUR_RETRAIN_TIMEOUT. -/
def execNoturRetrainTimeout (port : Nat) (s : State) : Out :=
  let n := s.ntr port
  .next (if decide (port < 16) && n.st == 3 && decide (n.since + 2 ^ 21 ≤ s.cyc) then s.portDown port else s)

/-! ### Reset and boot (R6, R412, R417) -/

/-- The module after a cold reset, in a phase. The memories of the host and of peers are not the module's; the schedule and the
count of free values are the model's own. -/
def State.cold (s : State) (phase : Nat) (good : Bool) : State :=
  { State.reset with agenda := s.agenda, fresh := s.fresh, mem := s.mem.filter (fun c => isRemote c.1),
                     hub := { Hub.reset with phase, pwrgd := good } }

/-- COLD_RESET: MG_RESET_N was low; boot verification starts while the power is good. -/
def execColdReset (s : State) : Out := .next (s.cold (if s.hub.pwrgd then 1 else 0) s.hub.pwrgd)

/-- POWER_GOOD_CHANGE: the module holds cold reset while the pin is low. -/
def execPowerGoodChange (good : Bool) (s : State) : Out :=
  .next (if good = s.hub.pwrgd then s else s.cold (if good then 1 else 0) good)

/-- Fields that boot firmware writes before any context exists (R6; log entry 9), and the firmware context itself (R365). -/
def State.bootFields (s : State) : State :=
  let die (s : State) (d : Nat) : State :=
    let q := s.die d
    s.setDie d { q with key := wbits (Config.fwReg (0x300008 + 64 * d)) 6 2, dbase := Config.fwReg (0x300010 + 64 * d),
                        dlgn := (Config.fwReg (0x300018 + 64 * d)).setWidth 5, thrBase := Config.fwReg (0x400400 + 32 * d),
                        thrCfg := (Config.fwReg (0x400408 + 32 * d)).setWidth 5 }
  let port (s : State) (p : Nat) : State := if (Config.fwReg (0x400100 + 8 * p)).getLsbD 0 then s.ntrEnable p else s
  (List.range 16).foldl port ((List.range 8).foldl die (s.setCtx 0 Ctx.firmware))

/-- BOOT_VERIFY_COMPLETE: the compute dies leave reset, or stay and BOOT_STAT names the failure. -/
def execBootVerifyComplete (code : Nat) (s : State) : Out :=
  .next (if s.hub.phase ≠ 1 ∨ 3 < code then s
    else if code = 0 then (s.setHub { s.hub with phase := 2 }).bootFields
    else s.setHub { s.hub with phase := 4, boot := BitVec.ofNat 8 code })

/-- MG_STAT and MG_ALERT_N (R417). -/
def Hub.mgStat (h : Hub) : Nat :=
  if h.phase = 0 then 0 else if h.fatal.getLsbD 63 then 5 else if h.phase = 4 then 4 else if h.frozen then 3 else h.phase
def Hub.alertN (h : Hub) : Bool := !(h.boot != 0 || h.fatal.getLsbD 63 || h.frozen)

/-! ### Attestation (R413) -/

/-- ATT_REQ_REPORT and ATT_REQ_PUBKEY: a write of ATT_REQ with its request code. -/
def execAttReqReport (v : BitVec 64) (s : State) : Out := .next (if s.hub.phase == 2 && v.toNat % 64 == 0 then s.attWrite v else s)
def execAttReqPubkey (v : BitVec 64) (s : State) : Out := .next (if s.hub.phase == 2 && v.toNat % 64 == 1 then s.attWrite v else s)

/-- Free bytes of the identity: digests, keys, the serial number, signatures (log entry 8). -/
def idBytes (which off n : Nat) : List Byte := (List.range n).map (fun i => Config.identity which (off + i))

/-- The attestation report but for its nonce, which stands in the buffer: bytes 0x000 to 0x00F, and those from 0x030 on. -/
def reportHead : List Byte := leBytes 8 1 ++ leBytes 8 4333

/-- The digest of the Turat image that runs on a die: free bytes of the image, known by the die and how many images it has loaded (R413; log
entry 8). -/
def State.turatDigest (s : State) (d : Nat) : List Byte := idBytes (2 ^ 32 + d + 8 * (s.die d).loads) 0 64

def State.reportTail (s : State) (sig : Nat) : List Byte :=
  idBytes 0 0x030 64 ++ (List.range 8).flatMap s.turatDigest ++ idBytes 0 0x270 0x150 ++ List.replicate 64 0 ++ idBytes sig 0x400 3309

/-- What a request that succeeds writes into its buffer. -/
def State.attWriteBuffer (s : State) : State :=
  let a := locIn 1 (s.hub.attReq.toNat / 64 * 64)
  if s.hub.attReq.toNat % 64 = 0 then
    { s with mem := memPutN (memPutN s.mem a reportHead) (a + 0x30) (s.reportTail (2 ^ 64 + s.fresh)), fresh := s.fresh + 1 }
  else { s with mem := memPutN s.mem a (idBytes 1 0 1952) }

/-- ATT_REQ_COMPLETE. -/
def execAttReqComplete (ok : Bool) (s : State) : Out :=
  .next (if !s.hub.attRun then s
    else
      let s := if ok ∧ s.hub.rate ≠ 0 then s.attWriteBuffer.setHub { s.hub with attRun := false, attReq := 0 }
        else s.setHub { s.hub with attRun := false, attReq := 1 }
      s.raiseMsix 3)

/-! ### Eye margins (R414) -/

/-- EYE_MARGIN_ALERT: a margin of a lane is below the threshold; the stack's interface is retrained. -/
def execEyeMarginAlert (l : HbmLane) (hor ver : BitVec 8) (s : State) : Out :=
  let stack := l.stack
  let thr := Tab.getD s.hub.eyeThr stack 0
  if s.hub.phase = 2 ∧ stack < 8 ∧ (hor < thr ∨ ver < thr) then
    let h := s.hub
    .next ((s.setHub { h with eyeSeen := Tab.put h.eyeSeen (65536 * stack + l.lane.toNat) (hor.setWidth 16 ||| (ver.setWidth 16 <<< 8)),
                              retrain := if (Tab.get? h.retrain stack).isSome then h.retrain else Tab.put h.retrain stack s.cyc }).raiseMsix 2)
  else .next s

/-- HBM_INTERFACE_RETRAIN_DONE. -/
def execHbmInterfaceRetrainDone (stack : Nat) (s : State) : Out :=
  .next (s.setHub { s.hub with retrain := Tab.del s.hub.retrain stack })

/-! ### Registers that the host or the management bus reaches (R415 to R417, R423) -/

def execHostIrqWrite (v : BitVec 64) (s : State) : Out := .next (if s.hub.phase = 2 then s.irqWrite v else s)
def execPwrLimWrite (v : BitVec 64) (s : State) : Out := .next (if s.hub.phase = 2 then s.pwrWrite v else s)

/-- THROTTLE_CHANGE: clock, voltage or issue limit of a die changes, with its cause (R423). -/
def execThrottleChange (die : Nat) (cause quantity : BitVec 4) (v : BitVec 64) (s : State) : Out :=
  .next (if s.live && decide (die < 8) && decide (cause.toNat ≤ 3) && decide (quantity.toNat ≤ 2) then
    s.throttle die cause.toNat quantity.toNat v.toNat else s)

/-- Eight bytes of the hub block from any offset (R417). -/
def State.hubBytes (s : State) (off : Nat) : Word :=
  let a := off / 8 * 8
  wd (((s.hubRead a).toNat + (if a + 8 < 65536 then (s.hubRead (a + 8)).toNat else 0) * 2 ^ 64) / 2 ^ (8 * (off % 8)))

/-- SMBUS_BLOCK_READ: eight bytes of the hub register block, or of the three offsets that only the bus reaches (R417). -/
def execSmbusBlockRead (off : Nat) (s : State) : Out :=
  .next (if !s.hub.pwrgd || decide (65536 ≤ off) then s
    else if off = 0xF000 ∨ off = 0xF008 ∨ off = 0xF010 then
      (s.setHub { s.hub with answer := wd (Config.sensor ((off - 0xF000) / 8) s.fresh) }).draw
    else s.setHub { s.hub with answer := s.hubBytes off })

/-- REGISTER_WRITE: a write of 8 bytes, or of 4, of the device-register window by the host through BAR 4 (R160, R404).
While boot has failed BAR 4 answers BOOT_STAT alone (R412); while a fatal condition holds only the hub block answers (R415). -/
def execRegisterWrite (addr : Nat) (data : RegData) (s : State) : Out :=
  let (n, v) : Nat × Nat := match data with | .word v => (8, v.toNat) | .half v => (4, v.toNat)
  let o := addr - 0x7FFF00000000
  let hubBlock := decide (0x400000 ≤ o) && decide (o < 0x410000)
  .next (if addr < 0x7FFF00000000 ∨ 2 ^ 32 ≤ o ∨ o % n ≠ 0 ∨ s.hub.phase ≠ 2 ∨ (s.hub.fatal.getLsbD 63 ∧ !hubBlock) then s
    else (s.devWrite o n v).failPorts)

end Sys2Proof.Machine
end

