-- ==== Sys2Proof/Machine/Fence.lean ====
section
/-! DEFINITION. Fences, range maintenance, prefetch and `wait` of major 0x09 (R83, R179 to R182). -/

namespace Sys2Proof.Machine

/-- R179: held until every earlier access has been performed, since a later one may be performed only then (R186); it acts for its
scope on releases (R187, R192 case 2) and ends the region (R196); speculative ordered tasks may not issue it (R202). -/
def execFence (c : Scope) (o : MOrd) (s : State) : Out :=
  settle s (do
    if s.me.speculative then .error (fltC Code.orderedUse)
    let s ← s.release
    pure ((s.fenceAt c (isAcq o) (isRel o)).fin 4))

/-! ### Range maintenance (R180, R181) -/

/-- Lines of host- or peer-backed memory in `n` bytes from a location. -/
def State.copyLines (s : State) (loc n : Nat) : List Nat :=
  (s.copies.filter (fun e => decide (loc < e.1 * 32 + 32) && decide (e.1 * 32 < loc + n))).map (·.1)

/-- Lines of one page from `loc` on whose copies are Modified. -/
def State.dirtyLines (s : State) (loc n : Nat) : List Nat :=
  if isRemote loc then (s.copyLines loc n).filter (fun l => match Tab.get? s.copies l with | some c => c.dirty | none => false) else []

/-- Copies of one page from `loc` on are written back and invalidated (R180). -/
def State.invalidate (s : State) (loc n : Nat) : State :=
  if !isRemote loc then s else (s.copyLines loc n).foldl State.dropCopy s

/-- The write-backs of a `cwb` are under way until the host or the peer has acknowledged each of them (R181); those of a `cwb` that
faulted go on without its task. -/
def State.fileCwb (s : State) (loose : Bool) (ls : List (Nat × Word)) : State :=
  match ls with
  | [] => s
  | (l, va) :: _ => s.file { s.newAcc (.cwb (ls.map (·.1))) va 0 (l * 32) with homed := true, sent := true, loose, vas := ls.map (·.2) }

/-- A page of the range faults: the lines before it are written back all the same (R181). -/
def State.rangeFault (s : State) (ls : List (Nat × Word)) (f : Flt) : Stop := .hold ((s.fileCwb true ls).takeFault f)

/-- `cinv` holds its context until the Modified lines of a page have been written back; then it runs again (R180, R181). -/
def State.holdCinv (s : State) (ls : List (Nat × Word)) : Stop :=
  let t := s.me
  .hold (((s.fileCwb false ls).setMe { t with cst := t.cst + 1, wait := .access s.nextId }).rewind)

/-- Walk a range page by page from `va`, `left` bytes to go, checking each page as a 1-byte read (R181); `cinv` invalidates as it
goes, once Modified lines are written back, waiting for an engine that holds a line (R164); `cwb` gathers the lines to write back. A page
that faults leaves the pages before it maintained. -/
def State.walkRange (s : State) (drop : Bool) : Nat → Word → Nat → List (Nat × Word) → Except Stop (State × List (Nat × Word))
  | 0, _, _, ls => .ok (s, ls)
  | k + 1, va, left, ls =>
    if left = 0 then .ok (s, ls)
    else
      let inPage := 0x10000 - va.toNat % 0x10000
      let n := if left < inPage then left else inPage
      match s.access s.cur .read false va 1 with
      | .error (.flt f) => .error (s.rangeFault ls f)
      | .error (.hold t) => .error (.hold t)
      | .error (.kept t f) => .error (t.rangeFault ls f)
      | .error .wait => .error (.hold s.rewind)
      | .ok (loc, s) =>
        if isRemote loc && s.portRefuses loc && !(s.copyLines loc n).isEmpty then
          .error (s.rangeFault ls { code := Code.linkDown, addr := va, syn := wd (locTag loc - 2) })
        else if drop && (s.copyLines loc n).any s.engineLine then .error (.hold s.rewind)
        else
          let dirty := (s.dirtyLines loc n).map (·, va)
          if !drop then s.walkRange drop k (va + wd n) (left - n) (ls ++ dirty)
          else if !dirty.isEmpty then .error (s.holdCinv dirty)
          else (s.invalidate loc n).walkRange drop k (va + wd n) (left - n) ls

/-- An ordered task may issue neither: ordered-use, after the address checks of the first page (R159, R180). -/
def State.orderedRange (s : State) (va : Word) (n : Nat) : Except Stop Unit := do
  if n ≠ 0 then
    let _ ← s.access s.cur .read false va 1
  .error (fltA Code.orderedUse va)

/-- `cwb` and `cinv` (R180, R181): earlier stores of the context to such lines come first (log entry 21). A `cwb` that has lines to
write back is counted in cst until they are acknowledged. -/
def State.range (s : State) (drop : Bool) (a b : Spec) : Res := do
  let (x, y) ← s.read2 a b
  let va := lo64 x
  let n := (lo64 y).toNat
  if 2 ^ 32 < n then .error (fltA Code.rangeLength va)
  if s.me.ordered then s.orderedRange va n
  if s.anyAcc (fun a => isRemote a.loc || isAcq a.ord) || decide (63 ≤ s.me.cst) then .error .wait
  let (s, ls) ← s.walkRange drop 65537 va n []
  if ls.isEmpty then pure (s.fin 4)
  else
    let s := s.fileCwb false ls
    pure ((s.setMe { s.me with cst := s.me.cst + 1 }).fin 4)

def execCwb (_c : Scope) (a b : Spec) (s : State) : Out := settle s (s.range false a b)
def execCinv (_c : Scope) (a b : Spec) (s : State) : Out := settle s (s.range true a b)

/-! ### Prefetch (R182, R212) -/

/-- The location that a prefetch reaches, if no check drops it: the lease, the TLBs and the permission, with no walk. -/
def State.prefetchLoc (s : State) (va : Word) : Option (Nat × State) :=
  let t := s.me
  if !s.leaseOk t.launchNo .prefetch va.toNat then none
  else match s.tlbLookup (coreOf s.cur) t.ctxNo (va.toNat / 0x10000) with
    | none => none
    | some (e, s) => match s.useEntry s.cur e .prefetch va with
      | .ok r => some r
      | .error _ => none

/-- A prefetch leaves as requests of its own, which nothing waits for: one for the line, or one for each line of the 256-byte block
(R182). Their homes serve them as any read (Access.lean). -/
def State.prefetch (s : State) (va : Word) (loc : Nat) (hint : Nat) : State :=
  let ask (s : State) (l : Nat) : State := s.file { s.newAcc (.pf hint) va 0 (l * 32) with loose := true }
  if hint = 2 then (List.range 8).foldl (fun s i => ask s (loc / 256 * 8 + i)) s else ask s (loc / 32)

def execPf (a : Spec) (h : BitVec 3) (s : State) : Out :=
  settle s (do
    let va ← s.read64 a
    let w ← addrCheck (s.privileged s.cur) false .prefetch va 1 1
    pure (match w with
      | .translated => match s.prefetchLoc va with
        | some (loc, s) => (s.prefetch va loc h.toNat).fin 4
        | none => s.fin 4
      | .shared o => (s.prefetch va (nearLoc s.cur (.shared o)) h.toNat).fin 4
      | _ => s.fin 4))

/-! ### Wait (R83) -/

/-- Counters at or below their limits, 15 for any. -/
def Thread.within (t : Thread) (tl cp st ld : Nat) : Bool :=
  (ld == 15 || decide (t.cld ≤ ld)) && (st == 15 || decide (t.cst ≤ st)) && (cp == 15 || decide (t.ccp ≤ cp)) &&
    (tl == 15 || decide (t.ctl ≤ tl))

/-- Hold until the counters are within their limits; with a cst limit of 0 report a failed store (R216). -/
def State.waitFor (s : State) (len tl cp st ld : Nat) : Res := do
  if !s.me.within tl cp st ld then .error .wait
  if st = 0 then s.storeReport
  pure (s.fin len)

def execWait (d s' c l : BitVec 4) (s : State) : Out :=
  settle s (s.waitFor 4 l.toNat c.toNat s'.toNat d.toNat)

/-- One counter limited: 00 cld, 01 cst, 10 ccp, 11 ctl (R83). -/
def execCWait (n : BitVec 4) (k : BitVec 2) (s : State) : Out :=
  let lim (i : Nat) : Nat := if k.toNat = i then n.toNat else 15
  settle s (s.waitFor 2 (lim 3) (lim 2) (lim 1) (lim 0))

end Sys2Proof.Machine
end

