-- ==== Sys2Proof/Machine/Sfu.lean ====
section
/-! DEFINITION. Special functions of major 0x0E (R144 to R146). `vsqrt` is rounded from the exact root. A result of the other
nine, where R146 does not fix it, is a free value within the bound of R145: the exact value is computed here to some 200 bits,
and `Config.sfu` picks one of the encodings that lie within the bound (log entry 6). -/

namespace Sys2Proof.Machine

/-! ### Exact values in fixed point -/

/-- Bits below the point. -/
def fxBits : Nat := 256
def fxOne : Nat := 2 ^ fxBits
/-- ln 2, pi and 2 / sqrt pi, cut to `fxBits` bits. -/
def fxLn2 : Nat := 80260960185991308862233904206310070533990667611589946606122867505419956976171
def fxPi : Nat := 363771576891766324280234942777729862653393377328392429958772151117938894466185
def fxErf : Nat := 130657381209852114387528029350014196574164286124850014242073919076264802271585
def fxMul (x y : Nat) : Nat := x * y / fxOne

/-- The value of a fixed-point number. -/
def fxVal (neg : Bool) (x : Nat) : Val := .fin neg x 1 (-256)

/-- A finite value's magnitude in fixed point. -/
def fxOf (n d : Nat) (k : Int) : Nat := let (a, b) := frac n d (k + 256); a / b

/-- Sum of t^i / i! from term `i` on, given the term before it. -/
def expSeries (t : Nat) : Nat → Nat → Nat → Nat
  | 0, _, _ => 0
  | n + 1, i, term => term + expSeries t n (i + 1) (fxMul term t / (i + 1))

/-- 2^f for f in fixed point below 1. -/
def fxExp2 (f : Nat) : Nat := expSeries (fxMul f fxLn2) 80 0 fxOne

/-- 2^x for a value, as a value; the exponent is limited to what every format maps to infinity or to 0. -/
def exp2Val (neg : Bool) (x : Nat) : Val :=
  let m := if x < 4000 * fxOne then x else 4000 * fxOne
  let i := m / fxOne
  let f := m % fxOne
  if !neg then .fin false (fxExp2 f) 1 ((i : Int) - 256)
  else if f = 0 then .fin false 1 1 (-(i : Int))
  else .fin false (fxExp2 (fxOne - f)) 1 (-(i : Int) - 257)

/-- e^x for a magnitude in fixed point. -/
def expVal (neg : Bool) (x : Nat) : Val :=
  let m := if x < 3000 * fxOne then x else 3000 * fxOne
  exp2Val neg (m * fxOne / fxLn2)

/-- Sum of z^(2i+1) / (2i+1). -/
def atanhSeries (z2 : Nat) : Nat → Nat → Nat → Nat
  | 0, _, _ => 0
  | n + 1, i, p => p / (2 * i + 1) + atanhSeries z2 n (i + 1) (fxMul p z2)

/-- log2 of a positive finite value. -/
def log2Val (n d : Nat) (k : Int) : Val :=
  let e := flog2 n d
  let (a, b) := frac n d (-e)
  -- a / b lies from 1 up to 2
  let z := (a - b) * fxOne / (a + b)
  let l := 2 * atanhSeries (fxMul z z) 90 0 z * fxOne / fxLn2
  (sumVals 0 [Val.ofInt (e + k), fxVal false l]).1

/-- Alternating sums of t^i / i! over even or odd i. -/
def trigSeries (t2 : Nat) : Nat → Nat → Nat → Int
  | 0, _, _ => 0
  | n + 1, i, term => (term : Int) - trigSeries t2 n (i + 2) (fxMul term t2 / ((i + 1) * (i + 2)))

/-- sin(pi f) and cos(pi f) for f in fixed point up to 1/2. -/
def fxSin (f : Nat) : Nat := let t := fxMul f fxPi; (trigSeries (fxMul t t) 60 1 t).toNat
def fxCos (f : Nat) : Nat := let t := fxMul f fxPi; (trigSeries (fxMul t t) 60 0 fxOne).toNat

/-- Sum of (-1)^i x^(2i+1) / (i! (2i+1)). -/
def erfSeries (x2 : Nat) : Nat → Nat → Nat → Int
  | 0, _, _ => 0
  | n + 1, i, term => (term / (2 * i + 1) : Nat) - erfSeries x2 n (i + 1) (fxMul term x2 / (i + 1))

/-- A value so near 1 that every format's neighbours of 1 are farther away. -/
def nearOne (neg : Bool) : Val := fxVal neg (fxOne - 1)

/-- The nine functions at a value that R146 does not list: 0 vrcp, 1 vrsqrt, 3 vexp2, 4 vlog2, 5 vsin, 6 vcos, 7 vtanh, 8
vsigm, 9 verf. -/
def sfuExact (op : Nat) (s : Bool) (n d : Nat) (k : Int) : Val :=
  let x := fxOf n d k
  let tiny := decide (flog2 n d + k < -70)
  match op with
  | 0 => .fin s d n (-k)
  | 1 =>
    let (a, b) := frac n d (if k % 2 = 0 then 0 else 1)
    let h := (if k % 2 = 0 then k else k - 1) / 2
    .fin false (2 ^ 200) (isqrt (a * 2 ^ 400 / b) 300 0) (-h)
  | 3 => if tiny then (sumVals 0 [Val.ofInt 1, .fin s (n * fxLn2) d (k - 256)]).1 else exp2Val s x
  | 4 => log2Val n d k
  | 5 =>
    if tiny then .fin s (n * fxPi) d (k - 256)
    else
      let i := x / fxOne
      let f := x % fxOne
      let g := if 2 * f ≤ fxOne then f else fxOne - f
      fxVal (s ^^ (i % 2 == 1)) (fxSin g)
  | 6 =>
    let i := x / fxOne
    let f := x % fxOne
    if 2 * f ≤ fxOne then fxVal (i % 2 == 1) (fxSin (fxOne / 2 - f))
    else fxVal (i % 2 == 0) (fxSin (f - fxOne / 2))
  | 7 =>
    if tiny then .fin s n d k
    else if 200 * fxOne ≤ x then nearOne s
    else match expVal false (2 * x) with
      | .fin _ m _ j => let (a, b) := frac m 1 j; .fin s (a - b) (a + b) 0
      | v => v
  | 8 =>
    if tiny then (sumVals 0 [.fin false 1 2 0, .fin s n (4 * d) k]).1
    else if !s && decide (200 * fxOne ≤ x) then nearOne false
    else match expVal s x with
      | .fin _ m _ j => let (a, b) := frac m 1 j; .fin false a (a + b) 0
      | v => v
  | _ =>
    if tiny then .fin s (n * fxErf) d (k - 256)
    else if 8 * fxOne ≤ x then nearOne s
    else fxVal s (fxMul fxErf (erfSeries (fxMul x x) 400 0 x).toNat)

/-! ### Special inputs (R146) -/

/-- An integer value, and an integer plus one half. -/
def isInt (n d : Nat) (k : Int) : Bool := let (a, b) := frac n d k; a % b == 0
def isHalf (n d : Nat) (k : Int) : Bool := !isInt n d k && isInt n d (k + 1)
/-- floor of the magnitude is odd. -/
def oddFloor (n d : Nat) (k : Int) : Bool := let (a, b) := frac n d k; a / b % 2 == 1

/-- Results that R146 fixes: the value and its flags. -/
def sfuSpecial (f : FFmt) (op : Nat) (x : Val) : Option (Val × Flags) :=
  match op, x with
  | _, .nan g => some (.nan false, if g then fNv else 0)
  | 0, .inf s => some (.zero s, 0)
  | 1, .inf s => some (if s then (.nan false, fNv) else (.zero false, 0))
  | 3, .inf s => some (if s then .zero false else .inf false, 0)
  | 4, .inf s => some (if s then (.nan false, fNv) else (.inf false, 0))
  | 5, .inf _ => some (.nan false, fNv)
  | 6, .inf _ => some (.nan false, fNv)
  | 7, .inf s => some (Val.ofInt (if s then -1 else 1), 0)
  | 8, .inf s => some (if s then .zero false else Val.ofInt 1, 0)
  | 9, .inf s => some (Val.ofInt (if s then -1 else 1), 0)
  | op, .fin s n d k =>
    if n = 0 then
      match op with
      | 0 => some (.inf s, fDz)
      | 1 => some (.inf s, fDz)
      | 3 => some (Val.ofInt 1, 0)
      | 4 => some (.inf true, fDz)
      | 5 => some (.zero s, 0)
      | 6 => some (Val.ofInt 1, 0)
      | 8 => some (.fin false 1 2 0, 0)
      | _ => some (.zero s, 0)
    else match op with
      | 1 => if s then some (.nan false, fNv) else none
      | 3 =>
        if isInt n d k then
          let (a, b) := frac n d (min k 40)
          let e : Int := (a / b : Nat)
          let v : Val := .fin false 1 1 (if s then -e else e)
          -- with a finite result: exactly 2^x
          if decide (flog2 n d + k < 20) && (decodeF f (round f v { rm := 0, srs := 0, fl := 0 }).1).eqv v then some (v, 0) else none
        else none
      | 4 =>
        if s then some (.nan false, fNv)
        else
          let e := flog2 n d
          let (a, b) := frac n d (-e)
          if a = b then some (Val.ofInt (e + k), 0) else none
      | 5 => if isInt n d k then some (.zero s, 0)
        else if isHalf n d k then some (Val.ofInt (if s ^^ oddFloor n d k then -1 else 1), 0) else none
      | 6 => if isInt n d k then some (Val.ofInt (if oddFloor n d k then -1 else 1), 0)
        else if isHalf n d k then some (.zero false, 0) else none
      | _ => none
  | _, _ => none

/-! ### Results -/

/-- The bound of R145 in units in the last place. -/
def sfuBound (f : FFmt) (op : Nat) : Nat :=
  let wide := decide (23 ≤ f.m)
  if op ≤ 1 then 1 else if op ≤ 6 then (if wide then 2 else 1) else (if wide then 3 else 1)

/-- |r - x| is at most `b` units in the last place of `x`, and one unit of the smallest subnormal more where the result is
subnormal (R145). -/
def withinUlps (f : FFmt) (b : Nat) (x r : Val) : Bool :=
  let emin : Int := 1 - f.bias
  let sub := decide (x.log2 < emin)
  let u : Val := .fin false (b + (if sub then 1 else 0)) 1 (max x.log2 emin - f.m)
  !magLt u (sumVals 0 [r, x.negate]).1

/-- The encoding that the device returns: the nearest one moved by the free correction, if that stays finite and within the
bound; the nearest one otherwise. -/
def sfuResult (f : FFmt) (op ty : Nat) (bits_ : Nat) (x : Val) : Nat :=
  let near := (round f x { rm := 0, srs := 0, fl := 0 }).1
  let b := sfuBound f op
  let j : Int := ((Config.sfu op ty (wd bits_)).toNat % (2 * (b + 1) + 1) : Nat) - ((b + 1 : Nat) : Int)
  let top := 2 ^ (f.e + f.m)
  let mag : Int := (near % top : Nat) + j
  let moved := near / top * top + mag.toNat
  if 0 ≤ mag ∧ mag.toNat < f.infEnc false ∧ near % top < f.infEnc false ∧ withinUlps f b x (decodeF f moved) then moved
  else near

/-- One lane of a special function (R144 to R146). -/
def sfuLane (op ty : Nat) (f : FFmt) (c : Nat) (p : Fp) : Nat × Fp :=
  let x := decodeF f c
  match sfuSpecial f op x with
  | some (v, fl) =>
    let r := round f v { rm := 0, srs := 0, fl := 0 }
    (r.1, p.raise fl)
  | none =>
    match x with
    | .fin s n d k =>
      let v := sfuExact op s n d k
      let r := round f v { rm := 0, srs := 0, fl := 0 }
      if r.2.1 then (f.infEnc v.neg, p.raise (fOf ||| fNx))
      else
        let e := sfuResult f op ty c v
        (e, p.raise (if bits e f.m f.e = 0 then fNx ||| fUf else fNx))
    | _ => (f.nan, p)

/-- The type's code (R31). -/
def ftyCode : FTy → Nat
  | .f32 => 0 | .f64 => 1 | .b16 => 2 | .h16 => 3 | _ => 4

def execVrcp (t : FTy) (d a : Spec) (s : State) : Out := settle s (s.vecF1 t d a (sfuLane 0 (ftyCode t)))
def execVrsqrt (t : FTy) (d a : Spec) (s : State) : Out := settle s (s.vecF1 t d a (sfuLane 1 (ftyCode t)))
/-- The exact root rounded under fm (R144, R146). -/
def execVsqrt (t : FTy) (d a : Spec) (s : State) : Out :=
  settle s (s.vecF1 t d a (fun f c p =>
    let r := sqrtVal (decodeF f c)
    roundE f r.1 (p.raise r.2)))
def execVexp2 (t : FTy) (d a : Spec) (s : State) : Out := settle s (s.vecF1 t d a (sfuLane 3 (ftyCode t)))
def execVlog2 (t : FTy) (d a : Spec) (s : State) : Out := settle s (s.vecF1 t d a (sfuLane 4 (ftyCode t)))
def execVsin (t : FTy) (d a : Spec) (s : State) : Out := settle s (s.vecF1 t d a (sfuLane 5 (ftyCode t)))
def execVcos (t : FTy) (d a : Spec) (s : State) : Out := settle s (s.vecF1 t d a (sfuLane 6 (ftyCode t)))
def execVtanh (t : FTy) (d a : Spec) (s : State) : Out := settle s (s.vecF1 t d a (sfuLane 7 (ftyCode t)))
def execVsigm (t : FTy) (d a : Spec) (s : State) : Out := settle s (s.vecF1 t d a (sfuLane 8 (ftyCode t)))
def execVerf (t : FTy) (d a : Spec) (s : State) : Out := settle s (s.vecF1 t d a (sfuLane 9 (ftyCode t)))

end Sys2Proof.Machine
end

