-- ==== Sys2Proof/Machine/VecI.lean ====
section
/-! DEFINITION. Integer lanes of major 0x0B (R137 to R140), permutes of major 0x0C (R141 to R143). -/

namespace Sys2Proof.Machine

/-- A lane as the integer its type reads. -/
def laneInt (w : Nat) (g : Bool) (x : Nat) : Int := if g then toInt w x else (x : Int)

def execVaddI (t : IntTy) (d a b : Spec) (s : State) : Out :=
  settle s (s.vecI2 4 t d a b (fun w _ x y => (x + y) % 2 ^ w))
def execVsubI (t : IntTy) (d a b : Spec) (s : State) : Out :=
  settle s (s.vecI2 4 t d a b (fun w _ x y => (x + 2 ^ w - y) % 2 ^ w))
def execVmulI (t : IntTy) (d a b : Spec) (s : State) : Out :=
  settle s (s.vecI2 4 t d a b (fun w _ x y => x * y % 2 ^ w))
def execVminI (t : IntTy) (d a b : Spec) (s : State) : Out :=
  settle s (s.vecI2 4 t d a b (fun w g x y => if laneInt w g x ≤ laneInt w g y then x else y))
def execVmaxI (t : IntTy) (d a b : Spec) (s : State) : Out :=
  settle s (s.vecI2 4 t d a b (fun w g x y => if laneInt w g x ≤ laneInt w g y then y else x))
def execVand (_t : IntTy) (d a b : Spec) (s : State) : Out := settle s (s.perm2 d a b (fun x y => x &&& y))
def execVor (_t : IntTy) (d a b : Spec) (s : State) : Out := settle s (s.perm2 d a b (fun x y => x ||| y))
def execVxor (_t : IntTy) (d a b : Spec) (s : State) : Out := settle s (s.perm2 d a b (fun x y => x ^^^ y))
def execVshl (t : IntTy) (d a b : Spec) (s : State) : Out :=
  settle s (s.vecI2 4 t d a b (fun w _ x y => if y < w then x * 2 ^ y % 2 ^ w else 0))
def execVshr (t : IntTy) (d a b : Spec) (s : State) : Out :=
  settle s (s.vecI2 4 t d a b (fun w g x y =>
    let n := if y < w then y else w
    ofInt w (laneInt w g x / 2 ^ n)))
def execVceqI (t : IntTy) (d a b : Spec) (s : State) : Out :=
  settle s (s.vecI2 4 t d a b (fun w _ x y => if x = y then 2 ^ w - 1 else 0))
def execVcltI (t : IntTy) (d a b : Spec) (s : State) : Out :=
  settle s (s.vecI2 4 t d a b (fun w g x y => if laneInt w g x < laneInt w g y then 2 ^ w - 1 else 0))
def execVsel (_t : IntTy) (d a b : Spec) (s : State) : Out :=
  settle s (s.perm3 d a b (fun x y z => (x &&& z) ||| (y &&& ~~~z)))

/-- Saturating lanes; each lane that is limited raises sat (R138). -/
def State.vecSat (s : State) (t : IntTy) (d a b : Spec) (f : Int → Int → Int) : Res := do
  let (x, y) ← s.read2 a b
  let w := intW t
  let g := intSigned t
  let lo := intLo w g
  let hi := intHi w g
  let (xs, p) := lanesFp (fun i p =>
    let v := f (laneInt w g (lane w x i)) (laneInt w g (lane w y i))
    (ofInt w (max lo (min hi v)), p.raise (if lo ≤ v ∧ v ≤ hi then 0 else fSat))) (laneCount w) 0 s.fp
  (s.withFp p).put 4 d (ofLanes w xs)

def execVadds (t : IntTy) (d a b : Spec) (s : State) : Out := settle s (s.vecSat t d a b (fun x y => x + y))
def execVsubs (t : IntTy) (d a b : Spec) (s : State) : Out := settle s (s.vecSat t d a b (fun x y => x - y))

/-- R140. -/
def execVrsumI (t : IntTy) (d a : Spec) (s : State) : Out :=
  settle s (s.perm1 d a (fun x =>
    let w := intW t
    scalar (wd (ofInt 64 ((List.range (laneCount w)).foldl (fun (n : Int) i => n + laneInt w (intSigned t) (lane w x i)) 0)))))

/-- `vadd` in compact form: 0 f32, 1 i32, 2 b16, 3 h16 (R32). -/
def execCVadd (t : BitVec 2) (b a d : CReg) (s : State) : Out :=
  settle s (match t.toNat with
    | 0 => s.vecF2 2 .f32 (cReg d) (cReg a) (cReg b) (arithLane (fun rm x y => sumVals rm [x, y]))
    | 1 => s.vecI2 2 .i32 (cReg d) (cReg a) (cReg b) (fun w _ x y => (x + y) % 2 ^ w)
    | 2 => s.vecF2 2 .b16 (cReg d) (cReg a) (cReg b) (arithLane (fun rm x y => sumVals rm [x, y]))
    | _ => s.vecF2 2 .h16 (cReg d) (cReg a) (cReg b) (arithLane (fun rm x y => sumVals rm [x, y])))

/-! ### Permutes (R141 to R143) -/

/-- 32-bit elements from a list of picks: element i of a (first) or b (second). -/
def zip32 (x y : Reg) (ps : List (Bool × Nat)) : Reg := ofLanes 32 (ps.map (fun e => lane 32 (if e.1 then y else x) e.2))

def execVshuf (d a b : Spec) (s : State) : Out :=
  settle s (s.perm3 d a b (fun x y z => mkLanes 8 16 (fun i =>
    let k := lane 8 y i
    if k < 16 then lane 8 x k else if k < 32 then lane 8 z (k - 16) else 0)))
def execVzlo (d a b : Spec) (s : State) : Out :=
  settle s (s.perm2 d a b (fun x y => zip32 x y [(false, 0), (true, 0), (false, 1), (true, 1)]))
def execVzhi (d a b : Spec) (s : State) : Out :=
  settle s (s.perm2 d a b (fun x y => zip32 x y [(false, 2), (true, 2), (false, 3), (true, 3)]))
def execVuev (d a b : Spec) (s : State) : Out :=
  settle s (s.perm2 d a b (fun x y => zip32 x y [(false, 0), (false, 2), (true, 0), (true, 2)]))
def execVuod (d a b : Spec) (s : State) : Out :=
  settle s (s.perm2 d a b (fun x y => zip32 x y [(false, 1), (false, 3), (true, 1), (true, 3)]))

/-- The width of a width code (R142). -/
def widthCode (w : BitVec 2) : Nat := 8 * 2 ^ w.toNat

def execVbcst (d a : Spec) (n : BitVec 4) (w : BitVec 2) (s : State) : Out :=
  settle s (s.perm1 d a (fun x => mkLanes (widthCode w) (laneCount (widthCode w)) (fun _ => lane (widthCode w) x n.toNat)))
def execVext (d a : Spec) (n : BitVec 4) (w : BitVec 2) (s : State) : Out :=
  settle s (s.perm1 d a (fun x => scalar (wd (lane (widthCode w) x n.toNat))))
def execVins (d a : Spec) (n : BitVec 4) (w : BitVec 2) (s : State) : Out :=
  settle s (do
    let (x, z) ← s.read2 a d
    s.put 4 d (mkLanes (widthCode w) (laneCount (widthCode w)) (fun i =>
      lane (widthCode w) (if i = n.toNat then x else z) (if i = n.toNat then 0 else i))))
def execVexl (d a b : Spec) (s : State) : Out :=
  settle s (s.perm3 d a b (fun x y z =>
    let n := Nat.min (lo64 y).toNat 16
    BitVec.ofNat 128 ((z.toNat * 2 ^ 128 + x.toNat) / 2 ^ (8 * n))))
def execVrev (d a : Spec) (s : State) : Out :=
  settle s (s.perm1 d a (fun x => mkLanes 8 16 (fun i => lane 8 x (15 - i))))

end Sys2Proof.Machine
end

