-- ==== Sys2Proof/Machine/Xq.lean ====
section
/-! DEFINITION. Inter-core queues of major 0x0C (R147 to R153). A sender is held with its entry until the target queue accepts
or refuses it; the step XQ_ENTRY_ARRIVAL decides. -/

namespace Sys2Proof.Machine

def Xq.empty : Xq := { bound := none, owner := none, launch := none, entries := [] }

def State.xq (s : State) (c n : Nat) : Xq := Tab.getD (s.core c).xq n Xq.empty
def State.setXq (s : State) (c n : Nat) (q : Xq) : State := s.setCore c { s.core c with xq := Tab.put (s.core c).xq n q }

/-- The checks of a queue descriptor (R148); a core of another cluster or die logs the descriptor (log entry 97),
as does a dispatch core, which lies in no cluster of R13 and has no queues by R147 (log entry 134). -/
def State.xqCheck (s : State) (b : Word) : Except Stop Unit := do
  let id := b.toNat % 2 ^ 16 / 8 * 8
  if b.toNat / 2 ^ 16 ≠ 0 then .error (fltS Code.xqAddress b)
  if !validPlace id then .error (fltC Code.placeRange)
  if isDispatch id && !s.privileged s.cur then .error (fltC Code.privilege)
  if cluOfPlace id ≠ cluOfPlace s.cur ∨ isDispatch id then .error (fltS Code.xqAddress b)
  if !isWorker id && !s.privileged s.cur then .error (fltC Code.routeRole)
  if s.me.ordered then .error (fltC Code.orderedUse)

/-- `xq.snd` (R148, R149): a send; the context is held until the entry is accepted or refused. -/
def execXqSnd (a b : Spec) (s : State) : Out :=
  settle s (do
    let (v, w) ← s.read2 a b
    let d := lo64 w
    s.xqCheck d
    let s ← s.release
    pure (s.setMe { s.me with wait := .xq (d.toNat % 2 ^ 16 / 8) (d.toNat % 8) v d s.cyc s.nextId }).bump)

/-- The entry that the context at `p` offers reaches its queue (R147, R149): refused for another software context, kept
waiting while the queue is full or an older sender waits, appended otherwise. -/
def State.xqArrive (s : State) (p : Nat) : State :=
  let t := s.thread p
  match t.wait with
  | .xq c n ent desc _ ord =>
    let q := s.xq c n
    let older := s.threads.any (fun e => match e.2.wait with
      | .xq c' n' _ _ _ z => e.1 != p && c' == c && n' == n && decide (z < ord)
      | _ => false)
    let foreign := match q.owner with
      | some o => o != t.ctxNo
      | none => false
    if foreign then
      (s.setThread p { t with wait := .none }).takeFaultAt p t.ipc { code := Code.xqTarget, syn := desc }
    else if older || decide (8 ≤ q.entries.length) then s
    else
      let s := s.setXq c n { q with owner := some t.ctxNo, launch := if q.owner.isNone then t.launchNo else q.launch,
                                    entries := q.entries ++ [ent], clock := q.clock.join (s.clockOf p) }
      s.setThread p ({ (s.thread p) with wait := .none }.fin 4)
  | _ => s

/-- Bind queue `n` of the own core to the running context, or the xq-owner fault (R147), which comes before ordered-use (log
entry 94). -/
def State.xqBind (s : State) (n : Nat) : Except Stop State :=
  let t := s.me
  let c := coreOf s.cur
  let q := s.xq c n
  let mine := match q.bound with
    | some p => p == s.cur
    | none => match q.owner with
      | some o => o == t.ctxNo
      | none => true
  if !mine then .error (fltC Code.xqOwner)
  else if t.ordered then .error (fltC Code.orderedUse)
  else .ok (s.setXq c n { q with bound := some s.cur, owner := some t.ctxNo, launch := t.launchNo })

/-- The head entry of a queue is taken; the receive is an acquire within the cluster of the entry's send (R152, R192, R193). -/
def State.xqTake (s : State) (n : Nat) : Option (Reg × State) :=
  let c := coreOf s.cur
  let q := s.xq c n
  match q.entries with
  | [] => none
  | v :: t => some (v, (s.setXq c n { q with entries := t }).setMe (s.me.hears q.clock))

/-- `xq.try` (R151): a successful one counts as a receive and ends the region (R152, R196). -/
def execXqTry (d : Spec) (n : BitVec 3) (k : PredNo) (s : State) : Out :=
  settle s (do
    let s ← s.xqBind n.toNat
    match s.xqTake n.toNat with
    | none => (s.setMe (s.me.setPred k false)).put 4 d 0
    | some (v, s) => do
      let s ← s.regionEnd
      (s.setMe (s.me.setPred k true)).put 4 d v)

/-- A receive completes if the queue holds an entry (R150). -/
def State.xqPoll (s : State) (n : Nat) (d : Spec) : Res :=
  match s.xqTake n with
  | none => .ok s
  | some (v, s) => s.unblock d v

/-- `xq.rcv` (R150): a blocking instruction. Its region ends when it first issues (R152; log entry 98). -/
def execXqRcv (d : Spec) (n : BitVec 3) (s : State) : Out :=
  settle s (s.blocking (fun _ => .ok ()) (fun s _ => do
    let s ← s.xqBind n.toNat
    let s ← s.regionEnd
    match s.xqTake n.toNat with
    | none => pure (s.block (.xq n.toNat d))
    | some (v, s) => s.put 4 d v))

/-- XQ_ENTRY_ARRIVAL: the entry that the context at `place` offers arrives (R147). -/
def execXqEntryArrival (place : Nat) (s : State) : Out := .next (s.xqArrive place)

end Sys2Proof.Machine
end

