-- ==== Sys2Proof/Machine/Dispatch.lean ====
section
/-! DEFINITION. The dispatch: one arm per constructor of `Instr`, one direct call of its meaning. -/

namespace Sys2Proof.Machine

def exec (i : Instr) (s : State) : Host.Outcome State Fault Refusal :=
  match i with
  | .add a b c => Sys2Proof.Machine.execAdd a b c s
  | .sub a b c => Sys2Proof.Machine.execSub a b c s
  | .mul a b c => Sys2Proof.Machine.execMul a b c s
  | .mulh a b c => Sys2Proof.Machine.execMulh a b c s
  | .mulhu a b c => Sys2Proof.Machine.execMulhu a b c s
  | .div a b c => Sys2Proof.Machine.execDiv a b c s
  | .divu a b c => Sys2Proof.Machine.execDivu a b c s
  | .rem a b c => Sys2Proof.Machine.execRem a b c s
  | .remu a b c => Sys2Proof.Machine.execRemu a b c s
  | .and a b c => Sys2Proof.Machine.execAnd a b c s
  | .or a b c => Sys2Proof.Machine.execOr a b c s
  | .xor a b c => Sys2Proof.Machine.execXor a b c s
  | .andn a b c => Sys2Proof.Machine.execAndn a b c s
  | .shl a b c => Sys2Proof.Machine.execShl a b c s
  | .shr a b c => Sys2Proof.Machine.execShr a b c s
  | .sar a b c => Sys2Proof.Machine.execSar a b c s
  | .shli a b c => Sys2Proof.Machine.execShli a b c s
  | .shri a b c => Sys2Proof.Machine.execShri a b c s
  | .sari a b c => Sys2Proof.Machine.execSari a b c s
  | .min a b c => Sys2Proof.Machine.execMin a b c s
  | .max a b c => Sys2Proof.Machine.execMax a b c s
  | .minu a b c => Sys2Proof.Machine.execMinu a b c s
  | .maxu a b c => Sys2Proof.Machine.execMaxu a b c s
  | .clz a b => Sys2Proof.Machine.execClz a b s
  | .ctz a b => Sys2Proof.Machine.execCtz a b s
  | .popc a b => Sys2Proof.Machine.execPopc a b s
  | .leaS2 a b c => Sys2Proof.Machine.execLeaS2 a b c s
  | .leaS4 a b c => Sys2Proof.Machine.execLeaS4 a b c s
  | .leaS8 a b c => Sys2Proof.Machine.execLeaS8 a b c s
  | .leaS16 a b c => Sys2Proof.Machine.execLeaS16 a b c s
  | .sext a b c => Sys2Proof.Machine.execSext a b c s
  | .zext a b c => Sys2Proof.Machine.execZext a b c s
  | .addI32 a b c => Sys2Proof.Machine.execAddI32 a b c s
  | .subI32 a b c => Sys2Proof.Machine.execSubI32 a b c s
  | .mulI32 a b c => Sys2Proof.Machine.execMulI32 a b c s
  | .mulhI32 a b c => Sys2Proof.Machine.execMulhI32 a b c s
  | .mulhuI32 a b c => Sys2Proof.Machine.execMulhuI32 a b c s
  | .divI32 a b c => Sys2Proof.Machine.execDivI32 a b c s
  | .divuI32 a b c => Sys2Proof.Machine.execDivuI32 a b c s
  | .remI32 a b c => Sys2Proof.Machine.execRemI32 a b c s
  | .remuI32 a b c => Sys2Proof.Machine.execRemuI32 a b c s
  | .andI32 a b c => Sys2Proof.Machine.execAndI32 a b c s
  | .orI32 a b c => Sys2Proof.Machine.execOrI32 a b c s
  | .xorI32 a b c => Sys2Proof.Machine.execXorI32 a b c s
  | .andnI32 a b c => Sys2Proof.Machine.execAndnI32 a b c s
  | .shlI32 a b c => Sys2Proof.Machine.execShlI32 a b c s
  | .shrI32 a b c => Sys2Proof.Machine.execShrI32 a b c s
  | .sarI32 a b c => Sys2Proof.Machine.execSarI32 a b c s
  | .shliI32 a b c => Sys2Proof.Machine.execShliI32 a b c s
  | .shriI32 a b c => Sys2Proof.Machine.execShriI32 a b c s
  | .sariI32 a b c => Sys2Proof.Machine.execSariI32 a b c s
  | .minI32 a b c => Sys2Proof.Machine.execMinI32 a b c s
  | .maxI32 a b c => Sys2Proof.Machine.execMaxI32 a b c s
  | .minuI32 a b c => Sys2Proof.Machine.execMinuI32 a b c s
  | .maxuI32 a b c => Sys2Proof.Machine.execMaxuI32 a b c s
  | .addi a b c => Sys2Proof.Machine.execAddi a b c s
  | .lui a b => Sys2Proof.Machine.execLui a b s
  | .cmpEq a b c => Sys2Proof.Machine.execCmpEq a b c s
  | .cmpNe a b c => Sys2Proof.Machine.execCmpNe a b c s
  | .cmpLt a b c => Sys2Proof.Machine.execCmpLt a b c s
  | .cmpLe a b c => Sys2Proof.Machine.execCmpLe a b c s
  | .cmpLtu a b c => Sys2Proof.Machine.execCmpLtu a b c s
  | .cmpLeu a b c => Sys2Proof.Machine.execCmpLeu a b c s
  | .fcmpEq a b c => Sys2Proof.Machine.execFcmpEq a b c s
  | .fcmpLt a b c => Sys2Proof.Machine.execFcmpLt a b c s
  | .fcmpLe a b c => Sys2Proof.Machine.execFcmpLe a b c s
  | .fcmpUn a b c => Sys2Proof.Machine.execFcmpUn a b c s
  | .pand a b c => Sys2Proof.Machine.execPand a b c s
  | .por a b c => Sys2Proof.Machine.execPor a b c s
  | .pxor a b c => Sys2Proof.Machine.execPxor a b c s
  | .pnot a b => Sys2Proof.Machine.execPnot a b s
  | .pmov a b => Sys2Proof.Machine.execPmov a b s
  | .pset a b => Sys2Proof.Machine.execPset a b s
  | .cmpEqI32 a b c => Sys2Proof.Machine.execCmpEqI32 a b c s
  | .cmpNeI32 a b c => Sys2Proof.Machine.execCmpNeI32 a b c s
  | .cmpLtI32 a b c => Sys2Proof.Machine.execCmpLtI32 a b c s
  | .cmpLeI32 a b c => Sys2Proof.Machine.execCmpLeI32 a b c s
  | .cmpLtuI32 a b c => Sys2Proof.Machine.execCmpLtuI32 a b c s
  | .cmpLeuI32 a b c => Sys2Proof.Machine.execCmpLeuI32 a b c s
  | .fcmpEqF64 a b c => Sys2Proof.Machine.execFcmpEqF64 a b c s
  | .fcmpLtF64 a b c => Sys2Proof.Machine.execFcmpLtF64 a b c s
  | .fcmpLeF64 a b c => Sys2Proof.Machine.execFcmpLeF64 a b c s
  | .fcmpUnF64 a b c => Sys2Proof.Machine.execFcmpUnF64 a b c s
  | .br a b => Sys2Proof.Machine.execBr a b s
  | .brNot a b => Sys2Proof.Machine.execBrNot a b s
  | .lpe a b c => Sys2Proof.Machine.execLpe a b c s
  | .call a b c => Sys2Proof.Machine.execCall a b c s
  | .ldN8 a b c => Sys2Proof.Machine.execLdN8 a b c s
  | .ldN16 a b c => Sys2Proof.Machine.execLdN16 a b c s
  | .ldN32 a b c => Sys2Proof.Machine.execLdN32 a b c s
  | .ld64 a b c => Sys2Proof.Machine.execLd64 a b c s
  | .ldI8 a b c => Sys2Proof.Machine.execLdI8 a b c s
  | .ldI16 a b c => Sys2Proof.Machine.execLdI16 a b c s
  | .ldI32 a b c => Sys2Proof.Machine.execLdI32 a b c s
  | .ldV a b c => Sys2Proof.Machine.execLdV a b c s
  | .st8 a b c => Sys2Proof.Machine.execSt8 a b c s
  | .st16 a b c => Sys2Proof.Machine.execSt16 a b c s
  | .st32 a b c => Sys2Proof.Machine.execSt32 a b c s
  | .st64 a b c => Sys2Proof.Machine.execSt64 a b c s
  | .stV a b c => Sys2Proof.Machine.execStV a b c s
  | .amoSwap a b c d e => Sys2Proof.Machine.execAmoSwap a b c d e s
  | .amoAdd a b c d e => Sys2Proof.Machine.execAmoAdd a b c d e s
  | .amoAnd a b c d e => Sys2Proof.Machine.execAmoAnd a b c d e s
  | .amoOr a b c d e => Sys2Proof.Machine.execAmoOr a b c d e s
  | .amoXor a b c d e => Sys2Proof.Machine.execAmoXor a b c d e s
  | .amoMin a b c d e => Sys2Proof.Machine.execAmoMin a b c d e s
  | .amoMax a b c d e => Sys2Proof.Machine.execAmoMax a b c d e s
  | .amoMinu a b c d e => Sys2Proof.Machine.execAmoMinu a b c d e s
  | .amoMaxu a b c d e => Sys2Proof.Machine.execAmoMaxu a b c d e s
  | .amoFadd a b c d e => Sys2Proof.Machine.execAmoFadd a b c d e s
  | .cas a b c d e => Sys2Proof.Machine.execCas a b c d e s
  | .fence a b => Sys2Proof.Machine.execFence a b s
  | .cwb a b c => Sys2Proof.Machine.execCwb a b c s
  | .cinv a b c => Sys2Proof.Machine.execCinv a b c s
  | .pf a b => Sys2Proof.Machine.execPf a b s
  | .lds a b c => Sys2Proof.Machine.execLds a b c s
  | .sts a b c => Sys2Proof.Machine.execSts a b c s
  | .wait a b c d => Sys2Proof.Machine.execWait a b c d s
  | .vaddF a b c d => Sys2Proof.Machine.execVaddF a b c d s
  | .vsubF a b c d => Sys2Proof.Machine.execVsubF a b c d s
  | .vmulF a b c d => Sys2Proof.Machine.execVmulF a b c d s
  | .vdivF a b c d => Sys2Proof.Machine.execVdivF a b c d s
  | .vminF a b c d => Sys2Proof.Machine.execVminF a b c d s
  | .vmaxF a b c d => Sys2Proof.Machine.execVmaxF a b c d s
  | .vabsF a b c => Sys2Proof.Machine.execVabsF a b c s
  | .vnegF a b c => Sys2Proof.Machine.execVnegF a b c s
  | .vceqF a b c d => Sys2Proof.Machine.execVceqF a b c d s
  | .vcltF a b c d => Sys2Proof.Machine.execVcltF a b c d s
  | .vcleF a b c d => Sys2Proof.Machine.execVcleF a b c d s
  | .vcunF a b c d => Sys2Proof.Machine.execVcunF a b c d s
  | .vrsumF a b c => Sys2Proof.Machine.execVrsumF a b c s
  | .vrmaxF a b c => Sys2Proof.Machine.execVrmaxF a b c s
  | .vrminF a b c => Sys2Proof.Machine.execVrminF a b c s
  | .vaddI a b c d => Sys2Proof.Machine.execVaddI a b c d s
  | .vsubI a b c d => Sys2Proof.Machine.execVsubI a b c d s
  | .vadds a b c d => Sys2Proof.Machine.execVadds a b c d s
  | .vsubs a b c d => Sys2Proof.Machine.execVsubs a b c d s
  | .vmulI a b c d => Sys2Proof.Machine.execVmulI a b c d s
  | .vminI a b c d => Sys2Proof.Machine.execVminI a b c d s
  | .vmaxI a b c d => Sys2Proof.Machine.execVmaxI a b c d s
  | .vand a b c d => Sys2Proof.Machine.execVand a b c d s
  | .vor a b c d => Sys2Proof.Machine.execVor a b c d s
  | .vxor a b c d => Sys2Proof.Machine.execVxor a b c d s
  | .vshl a b c d => Sys2Proof.Machine.execVshl a b c d s
  | .vshr a b c d => Sys2Proof.Machine.execVshr a b c d s
  | .vceqI a b c d => Sys2Proof.Machine.execVceqI a b c d s
  | .vcltI a b c d => Sys2Proof.Machine.execVcltI a b c d s
  | .vsel a b c d => Sys2Proof.Machine.execVsel a b c d s
  | .vrsumI a b c => Sys2Proof.Machine.execVrsumI a b c s
  | .vshuf a b c => Sys2Proof.Machine.execVshuf a b c s
  | .vzlo a b c => Sys2Proof.Machine.execVzlo a b c s
  | .vzhi a b c => Sys2Proof.Machine.execVzhi a b c s
  | .vuev a b c => Sys2Proof.Machine.execVuev a b c s
  | .vuod a b c => Sys2Proof.Machine.execVuod a b c s
  | .vbcst a b c d => Sys2Proof.Machine.execVbcst a b c d s
  | .vext a b c d => Sys2Proof.Machine.execVext a b c d s
  | .vins a b c d => Sys2Proof.Machine.execVins a b c d s
  | .vexl a b c => Sys2Proof.Machine.execVexl a b c s
  | .vrev a b => Sys2Proof.Machine.execVrev a b s
  | .xqSnd a b => Sys2Proof.Machine.execXqSnd a b s
  | .xqTry a b c => Sys2Proof.Machine.execXqTry a b c s
  | .xqRcv a b => Sys2Proof.Machine.execXqRcv a b s
  | .vfma a b c d => Sys2Proof.Machine.execVfma a b c d s
  | .vfms a b c d => Sys2Proof.Machine.execVfms a b c d s
  | .vfnma a b c d => Sys2Proof.Machine.execVfnma a b c d s
  | .vfnms a b c d => Sys2Proof.Machine.execVfnms a b c d s
  | .vdot a b c d => Sys2Proof.Machine.execVdot a b c d s
  | .vdoti a b c d => Sys2Proof.Machine.execVdoti a b c d s
  | .vrcp a b c => Sys2Proof.Machine.execVrcp a b c s
  | .vrsqrt a b c => Sys2Proof.Machine.execVrsqrt a b c s
  | .vsqrt a b c => Sys2Proof.Machine.execVsqrt a b c s
  | .vexp2 a b c => Sys2Proof.Machine.execVexp2 a b c s
  | .vlog2 a b c => Sys2Proof.Machine.execVlog2 a b c s
  | .vsin a b c => Sys2Proof.Machine.execVsin a b c s
  | .vcos a b c => Sys2Proof.Machine.execVcos a b c s
  | .vtanh a b c => Sys2Proof.Machine.execVtanh a b c s
  | .vsigm a b c => Sys2Proof.Machine.execVsigm a b c s
  | .verf a b c => Sys2Proof.Machine.execVerf a b c s
  | .cvt a b c d => Sys2Proof.Machine.execCvt a b c d s
  | .cvti a b c d => Sys2Proof.Machine.execCvti a b c d s
  | .cvtf a b c d => Sys2Proof.Machine.execCvtf a b c d s
  | .qnt a b c d => Sys2Proof.Machine.execQnt a b c d s
  | .dqnt a b c d => Sys2Proof.Machine.execDqnt a b c d s
  | .fclass a b c => Sys2Proof.Machine.execFclass a b c s
  | .pack a b c => Sys2Proof.Machine.execPack a b c s
  | .unpack a b c => Sys2Proof.Machine.execUnpack a b c s
  | .mx a b c => Sys2Proof.Machine.execMx a b c s
  | .mxs a b c => Sys2Proof.Machine.execMxs a b c s
  | .mxDrn a b c => Sys2Proof.Machine.execMxDrn a b c s
  | .mxClr a b c => Sys2Proof.Machine.execMxClr a b c s
  | .cp a b c => Sys2Proof.Machine.execCp a b c s
  | .cpT a b c => Sys2Proof.Machine.execCpT a b c s
  | .cpRed a b c => Sys2Proof.Machine.execCpRed a b c s
  | .cpCls a b c => Sys2Proof.Machine.execCpCls a b c s
  | .strmA a b c => Sys2Proof.Machine.execStrmA a b c s
  | .strmB a b c => Sys2Proof.Machine.execStrmB a b c s
  | .cpGat a b c => Sys2Proof.Machine.execCpGat a b c s
  | .cpSca a b c => Sys2Proof.Machine.execCpSca a b c s
  | .colAr a b c => Sys2Proof.Machine.execColAr a b c s
  | .colAg a b c => Sys2Proof.Machine.execColAg a b c s
  | .colRs a b c => Sys2Proof.Machine.execColRs a b c s
  | .colBc a b c => Sys2Proof.Machine.execColBc a b c s
  | .colA2a a b c => Sys2Proof.Machine.execColA2a a b c s
  | .tokWait a b => Sys2Proof.Machine.execTokWait a b s
  | .tokTest a b c => Sys2Proof.Machine.execTokTest a b c s
  | .tokDet a => Sys2Proof.Machine.execTokDet a s
  | .tokAdop a => Sys2Proof.Machine.execTokAdop a s
  | .tokDep a b => Sys2Proof.Machine.execTokDep a b s
  | .tokDepGo a b => Sys2Proof.Machine.execTokDepGo a b s
  | .tokCan a => Sys2Proof.Machine.execTokCan a s
  | .tokCanR a => Sys2Proof.Machine.execTokCanR a s
  | .tokPri a b => Sys2Proof.Machine.execTokPri a b s
  | .tokRec a b c => Sys2Proof.Machine.execTokRec a b c s
  | .tokPost a b => Sys2Proof.Machine.execTokPost a b s
  | .rowGat a b c => Sys2Proof.Machine.execRowGat a b c s
  | .rowSca a b c => Sys2Proof.Machine.execRowSca a b c s
  | .rowPin a b c => Sys2Proof.Machine.execRowPin a b c s
  | .rowUnp a b c => Sys2Proof.Machine.execRowUnp a b c s
  | .rowHint a b c => Sys2Proof.Machine.execRowHint a b c s
  | .spawn a b => Sys2Proof.Machine.execSpawn a b s
  | .spawnO a b c => Sys2Proof.Machine.execSpawnO a b c s
  | .spawnD a b => Sys2Proof.Machine.execSpawnD a b s
  | .susp => Sys2Proof.Machine.execSusp s
  | .done => Sys2Proof.Machine.execDone s
  | .yield => Sys2Proof.Machine.execYield s
  | .tsGet a => Sys2Proof.Machine.execTsGet a s
  | .abort => Sys2Proof.Machine.execAbort s
  | .spt a => Sys2Proof.Machine.execSpt a s
  | .launch a b => Sys2Proof.Machine.execLaunch a b s
  | .kinfo a b => Sys2Proof.Machine.execKinfo a b s
  | .snd a b => Sys2Proof.Machine.execSnd a b s
  | .sndC a b => Sys2Proof.Machine.execSndC a b s
  | .rpl a => Sys2Proof.Machine.execRpl a s
  | .tagBind a b => Sys2Proof.Machine.execTagBind a b s
  | .rq a b c => Sys2Proof.Machine.execRq a b c s
  | .patBind a b => Sys2Proof.Machine.execPatBind a b s
  | .patDrop a => Sys2Proof.Machine.execPatDrop a s
  | .portCfg a b => Sys2Proof.Machine.execPortCfg a b s
  | .portGive a b => Sys2Proof.Machine.execPortGive a b s
  | .portSt a b c => Sys2Proof.Machine.execPortSt a b c s
  | .portTake a b c => Sys2Proof.Machine.execPortTake a b c s
  | .portTakeW a b => Sys2Proof.Machine.execPortTakeW a b s
  | .portClr a b => Sys2Proof.Machine.execPortClr a b s
  | .sigAdd a b c => Sys2Proof.Machine.execSigAdd a b c s
  | .sigSet a b c => Sys2Proof.Machine.execSigSet a b c s
  | .sigRd a b => Sys2Proof.Machine.execSigRd a b s
  | .sigWait a b c => Sys2Proof.Machine.execSigWait a b c s
  | .sigCas a b c => Sys2Proof.Machine.execSigCas a b c s
  | .grpNew a b => Sys2Proof.Machine.execGrpNew a b s
  | .grpEnd a b => Sys2Proof.Machine.execGrpEnd a b s
  | .grpRd a b c => Sys2Proof.Machine.execGrpRd a b c s
  | .grpSet a b c => Sys2Proof.Machine.execGrpSet a b c s
  | .ebudSet a b => Sys2Proof.Machine.execEbudSet a b s
  | .ebudRd a b => Sys2Proof.Machine.execEbudRd a b s
  | .mfs a b => Sys2Proof.Machine.execMfs a b s
  | .mts a b => Sys2Proof.Machine.execMts a b s
  | .trap a => Sys2Proof.Machine.execTrap a s
  | .tlbWr a b => Sys2Proof.Machine.execTlbWr a b s
  | .tlbInvPage a b => Sys2Proof.Machine.execTlbInvPage a b s
  | .tlbInvContext a b => Sys2Proof.Machine.execTlbInvContext a b s
  | .tlbInvAll a b => Sys2Proof.Machine.execTlbInvAll a b s
  | .tlbPrb a b c => Sys2Proof.Machine.execTlbPrb a b c s
  | .pgWake a b c => Sys2Proof.Machine.execPgWake a b c s
  | .dlHv a b c => Sys2Proof.Machine.execDlHv a b c s
  | .errInj a b => Sys2Proof.Machine.execErrInj a b s
  | .clsQ a b => Sys2Proof.Machine.execClsQ a b s
  | .ctxSv a b c => Sys2Proof.Machine.execCtxSv a b c s
  | .ctxLdCreate a b => Sys2Proof.Machine.execCtxLdCreate a b s
  | .ctxLdUpdate a b => Sys2Proof.Machine.execCtxLdUpdate a b s
  | .ctxLdDestroy a b => Sys2Proof.Machine.execCtxLdDestroy a b s
  | .queSubRegister a b c => Sys2Proof.Machine.execQueSubRegister a b c s
  | .queSubUnregister a b c => Sys2Proof.Machine.execQueSubUnregister a b c s
  | .queSubResume a b c => Sys2Proof.Machine.execQueSubResume a b c s
  | .slotMap a b => Sys2Proof.Machine.execSlotMap a b s
  | .slotUnm a b => Sys2Proof.Machine.execSlotUnm a b s
  | .slotRd a b => Sys2Proof.Machine.execSlotRd a b s
  | .dlogWr a b => Sys2Proof.Machine.execDlogWr a b s
  | .dlogRd a b => Sys2Proof.Machine.execDlogRd a b s
  | .dbgBrk a => Sys2Proof.Machine.execDbgBrk a s
  | .dbgMark a => Sys2Proof.Machine.execDbgMark a s
  | .profRd a b => Sys2Proof.Machine.execProfRd a b s
  | .dbgStopStop a b => Sys2Proof.Machine.execDbgStopStop a b s
  | .dbgStopGo a b => Sys2Proof.Machine.execDbgStopGo a b s
  | .dbgStopStep a b => Sys2Proof.Machine.execDbgStopStep a b s
  | .xld a b c => Sys2Proof.Machine.execXld a b c s
  | .xld4 a b => Sys2Proof.Machine.execXld4 a b s
  | .xmv a b => Sys2Proof.Machine.execXmv a b s
  | .xrd a b => Sys2Proof.Machine.execXrd a b s
  | .xst a b c => Sys2Proof.Machine.execXst a b c s
  | .xst4 a b => Sys2Proof.Machine.execXst4 a b s
  | .cAdd a b c d => Sys2Proof.Machine.execCAdd a b c d s
  | .cSub a b c d => Sys2Proof.Machine.execCSub a b c d s
  | .cMov a b c => Sys2Proof.Machine.execCMov a b c s
  | .cAddi a b c => Sys2Proof.Machine.execCAddi a b c s
  | .cLi a b => Sys2Proof.Machine.execCLi a b s
  | .cLd a b c d => Sys2Proof.Machine.execCLd a b c d s
  | .cSt a b c d => Sys2Proof.Machine.execCSt a b c d s
  | .cCmp a b c d => Sys2Proof.Machine.execCCmp a b c d s
  | .cBr a b c => Sys2Proof.Machine.execCBr a b c s
  | .cJmp a => Sys2Proof.Machine.execCJmp a s
  | .cVadd a b c d => Sys2Proof.Machine.execCVadd a b c d s
  | .cVfma a b c d => Sys2Proof.Machine.execCVfma a b c d s
  | .cXmv a b => Sys2Proof.Machine.execCXmv a b s
  | .cWait a b => Sys2Proof.Machine.execCWait a b s
  | .cSpt a => Sys2Proof.Machine.execCSpt a s
  | .cSusp => Sys2Proof.Machine.execCSusp s
  | .cDone => Sys2Proof.Machine.execCDone s
  | .cIf a b => Sys2Proof.Machine.execCIf a b s
  | .cNop => Sys2Proof.Machine.execCNop s
  | .instructionFetch a => Sys2Proof.Machine.execInstructionFetch a s
  | .inboxRecordArrival a => Sys2Proof.Machine.execInboxRecordArrival a s
  | .taskUnitRecordArrival a => Sys2Proof.Machine.execTaskUnitRecordArrival a s
  | .portArrival a => Sys2Proof.Machine.execPortArrival a s
  | .admission a => Sys2Proof.Machine.execAdmission a s
  | .sendStallTimeout a => Sys2Proof.Machine.execSendStallTimeout a s
  | .xqEntryArrival a => Sys2Proof.Machine.execXqEntryArrival a s
  | .loadValueReturn a => Sys2Proof.Machine.execLoadValueReturn a s
  | .storePerformed a => Sys2Proof.Machine.execStorePerformed a s
  | .homeRequest a => Sys2Proof.Machine.execHomeRequest a s
  | .engineClaim a b => Sys2Proof.Machine.execEngineClaim a b s
  | .engineRelease a b => Sys2Proof.Machine.execEngineRelease a b s
  | .scrubRead a => Sys2Proof.Machine.execScrubRead a s
  | .clsBlkWrite a b => Sys2Proof.Machine.execClsBlkWrite a b s
  | .classClearDone => Sys2Proof.Machine.execClassClearDone s
  | .tlbMiss a => Sys2Proof.Machine.execTlbMiss a s
  | .walkReply a => Sys2Proof.Machine.execWalkReply a s
  | .preemptionRequest a => Sys2Proof.Machine.execPreemptionRequest a s
  | .noSafePointTimeout a => Sys2Proof.Machine.execNoSafePointTimeout a s
  | .contextSuspended a => Sys2Proof.Machine.execContextSuspended a s
  | .contextResume a => Sys2Proof.Machine.execContextResume a s
  | .contextAreasResident a => Sys2Proof.Machine.execContextAreasResident a s
  | .contextDiscardComplete a => Sys2Proof.Machine.execContextDiscardComplete a s
  | .freeze a b => Sys2Proof.Machine.execFreeze a b s
  | .thaw a => Sys2Proof.Machine.execThaw a s
  | .weirSample => Sys2Proof.Machine.execWeirSample s
  | .weirDieReduction => Sys2Proof.Machine.execWeirDieReduction s
  | .weirDeviceReduction => Sys2Proof.Machine.execWeirDeviceReduction s
  | .weirFrontierApply => Sys2Proof.Machine.execWeirFrontierApply s
  | .weirCommit => Sys2Proof.Machine.execWeirCommit s
  | .spillFullAbort a => Sys2Proof.Machine.execSpillFullAbort a s
  | .tokenStart a b => Sys2Proof.Machine.execTokenStart a b s
  | .streamGroupFetch a => Sys2Proof.Machine.execStreamGroupFetch a s
  | .tileGroupStep a => Sys2Proof.Machine.execTileGroupStep a s
  | .tileDrain a => Sys2Proof.Machine.execTileDrain a s
  | .copyLineStep a => Sys2Proof.Machine.execCopyLineStep a s
  | .collectiveTimeout a => Sys2Proof.Machine.execCollectiveTimeout a s
  | .drainBoundExceeded a => Sys2Proof.Machine.execDrainBoundExceeded a s
  | .tokenSlotStallTimeout a => Sys2Proof.Machine.execTokenSlotStallTimeout a s
  | .tokenDone a => Sys2Proof.Machine.execTokenDone a s
  | .tokenFault a => Sys2Proof.Machine.execTokenFault a s
  | .rowWindow a => Sys2Proof.Machine.execRowWindow a s
  | .rowCombinerUpdate a b => Sys2Proof.Machine.execRowCombinerUpdate a b s
  | .rowCounterHalving a => Sys2Proof.Machine.execRowCounterHalving a s
  | .rowEntryReread a b => Sys2Proof.Machine.execRowEntryReread a b s
  | .launchAdmit a => Sys2Proof.Machine.execLaunchAdmit a s
  | .launchCheck a => Sys2Proof.Machine.execLaunchCheck a s
  | .launchResident a b => Sys2Proof.Machine.execLaunchResident a b s
  | .launchWeirSlot a => Sys2Proof.Machine.execLaunchWeirSlot a s
  | .launchPlace a b => Sys2Proof.Machine.execLaunchPlace a b s
  | .launchEnd a => Sys2Proof.Machine.execLaunchEnd a s
  | .groupEnded a b => Sys2Proof.Machine.execGroupEnded a b s
  | .sluiceGovernorVisit a => Sys2Proof.Machine.execSluiceGovernorVisit a s
  | .queueWiNotice a => Sys2Proof.Machine.execQueueWiNotice a s
  | .packetHeaderReady a => Sys2Proof.Machine.execPacketHeaderReady a s
  | .packetStart a => Sys2Proof.Machine.execPacketStart a s
  | .packetComplete a b => Sys2Proof.Machine.execPacketComplete a b s
  | .stageRingHandoff a b => Sys2Proof.Machine.execStageRingHandoff a b s
  | .agingTick a => Sys2Proof.Machine.execAgingTick a s
  | .quantumExpiry a => Sys2Proof.Machine.execQuantumExpiry a s
  | .boundMissed a => Sys2Proof.Machine.execBoundMissed a s
  | .trtCtlGo a => Sys2Proof.Machine.execTrtCtlGo a s
  | .turatLoadComplete a b c => Sys2Proof.Machine.execTuratLoadComplete a b c s
  | .signalNotify a => Sys2Proof.Machine.execSignalNotify a s
  | .signalPollChip a => Sys2Proof.Machine.execSignalPollChip a s
  | .signalPollRemote a => Sys2Proof.Machine.execSignalPollRemote a s
  | .hostBar2Write a b => Sys2Proof.Machine.execHostBar2Write a b s
  | .hostBar2Read a b => Sys2Proof.Machine.execHostBar2Read a b s
  | .dbCmdRegister a b c => Sys2Proof.Machine.execDbCmdRegister a b c s
  | .dbCmdUnregister a b c => Sys2Proof.Machine.execDbCmdUnregister a b c s
  | .dbCmdResume a b c => Sys2Proof.Machine.execDbCmdResume a b c s
  | .hostLinkCompletion a b c => Sys2Proof.Machine.execHostLinkCompletion a b c s
  | .hostLinkTimeout a => Sys2Proof.Machine.execHostLinkTimeout a s
  | .d2dRetrain a b => Sys2Proof.Machine.execD2dRetrain a b s
  | .d2dRetrainDone a b => Sys2Proof.Machine.execD2dRetrainDone a b s
  | .d2dRetrainTimeout a b => Sys2Proof.Machine.execD2dRetrainTimeout a b s
  | .noturFlitReceive a b => Sys2Proof.Machine.execNoturFlitReceive a b s
  | .noturEnable a => Sys2Proof.Machine.execNoturEnable a s
  | .noturDisable a => Sys2Proof.Machine.execNoturDisable a s
  | .noturTrainingDone a b => Sys2Proof.Machine.execNoturTrainingDone a b s
  | .noturTrainingTimeout a => Sys2Proof.Machine.execNoturTrainingTimeout a s
  | .noturRetrainTimeout a => Sys2Proof.Machine.execNoturRetrainTimeout a s
  | .coldReset => Sys2Proof.Machine.execColdReset s
  | .powerGoodChange a => Sys2Proof.Machine.execPowerGoodChange a s
  | .bootVerifyComplete a => Sys2Proof.Machine.execBootVerifyComplete a s
  | .attReqReport a => Sys2Proof.Machine.execAttReqReport a s
  | .attReqPubkey a => Sys2Proof.Machine.execAttReqPubkey a s
  | .attReqComplete a => Sys2Proof.Machine.execAttReqComplete a s
  | .eyeMarginAlert a b c => Sys2Proof.Machine.execEyeMarginAlert a b c s
  | .hostIrqWrite a => Sys2Proof.Machine.execHostIrqWrite a s
  | .pwrLimWrite a => Sys2Proof.Machine.execPwrLimWrite a s
  | .throttleChange a b c d => Sys2Proof.Machine.execThrottleChange a b c d s
  | .smbusBlockRead a => Sys2Proof.Machine.execSmbusBlockRead a s
  | .dbgCtlStop a => Sys2Proof.Machine.execDbgCtlStop a s
  | .dbgCtlGo a => Sys2Proof.Machine.execDbgCtlGo a s
  | .dbgCtlStep a => Sys2Proof.Machine.execDbgCtlStep a s
  | .dbgDatWrite a b => Sys2Proof.Machine.execDbgDatWrite a b s
  | .registerWrite a b => Sys2Proof.Machine.execRegisterWrite a b s
  | .contextAreasUnbacked a => Sys2Proof.Machine.execContextAreasUnbacked a s
  | .hostLinkTraining a b c => Sys2Proof.Machine.execHostLinkTraining a b c s
  | .hbmInterfaceRetrainDone a => Sys2Proof.Machine.execHbmInterfaceRetrainDone a s

end Sys2Proof.Machine
end

