-- ==== Sys2Proof/Machine/Poll.lean ====
section
/-! DEFINITION. What a Blocked context waits for, looked at again (R74, R85, R251), and what the device does at the end of every
step: operations that become due at once, and the counts of groups in memory. -/

namespace Sys2Proof.Machine

/-- A task Blocked in `done` retires when its attached and adopted tokens are terminal; while a pre-emption is pending, when none of
them runs or drains any more (R74, R251). -/
def State.donePoll (s : State) : State :=
  let p := s.cur
  let s := s.cancelStreams p
  let drained := s.me.pend && !(s.heldBy p).any (fun k => match s.tok? k with
    | some t => (t.hold == 0 || t.hold == 3) && t.active
    | none => false)
  if drained || !s.tokensLeft p then s.retire else s

/-- The condition of the running context, which is Blocked. -/
def State.poll (s : State) : Res :=
  match s.me.blk with
  | some (.xq n d) => s.xqPoll n d
  | some (.tok h d) => s.tokPoll h d
  | some (.basin _ d) => s.basinPoll d
  | some (.sig loc va thr d) => s.sigPoll loc va thr d
  | some .done => .ok s.donePoll
  | some (.take _ _) => .ok s
  | none => .ok s

/-- Words of a group's control block that have changed since `old` are written (R355, R356), where the block lies now; while its page
migrates they wait (R233, R235). -/
def State.writeGcb (old s : State) (e : Nat × Group) : State :=
  let l := e.1 / 4096
  let g := e.1 % 4096
  let was (k : Nat) : Option Word := if e.2.stale then none else (Tab.get? old.groups e.1).map (fun b => old.gcbWord l g b k)
  let new := (List.range 16).filter (fun k => was k != some (s.gcbWord l g e.2 k))
  if new.isEmpty then s
  else match s.gcbLoc l e.2 with
    | none => s.setGroup l g { e.2 with stale := true }
    | some loc =>
      let t := new.foldl (fun (t : State) k => t.writeN (loc + 8 * k) 8 (s.gcbWord l g e.2 k).toNat) s
      if e.2.stale then t.setGroup l g { e.2 with stale := false } else t

/-- Control blocks in memory follow the groups. -/
def State.syncGroups (old s : State) : State := s.groups.foldl (fun t e => State.writeGcb old t e) s

/-- A row has moved from where a tag has it: its map entry, which said so, migrating, names another address (R342). -/
def State.rowMoved (old s : State) (g : RowTag) : Bool :=
  let a := old.readN g.entry 8
  let b := s.readN g.entry 8
  a / 2 % 2 == 1 && a / 32 * 32 == g.va && b % 4 == 1 && b / 32 * 32 != g.va

/-- The tags of rows that have moved are freed (R342). -/
def State.freeRows (old s : State) : State :=
  (s.clus.filter (fun e => e.2.rowTags.any (State.rowMoved old s))).foldl (fun (t : State) e =>
    t.setClu e.1 { t.clu e.1 with rowTags := (t.clu e.1).rowTags.filter (fun g => !State.rowMoved old s g) }) s

/-- The end of a step that began in `old`: items of tasks that have become Irrevocable are released (R257), notices that waited are posted (R304), firing entries that no
record names are freed (R282), tags of rows that have moved are freed (R342), task units with room take spilled records back (R244), and the counts of groups are written (R355). Tokens that need a port which has gone Down fault (R410), control
blocks of queues whose page has migrated are written, queues that could not leave
go (R235, R384), and doorbell commands that waited are applied (R405). -/
def State.finish (old s : State) : State :=
  let s := (State.failLost old s).releaseIrrev.postLate.flushQueues.retryBells
  let s := ((s.clus.filter (fun e => !e.2.firings.isEmpty)).map (·.1)).foldl State.sweepFirings s
  let s := (s.clus.filter (fun e => !e.2.spill.isEmpty)).foldl (fun s e => s.refill e.1 (e.2.spill.length + 1)) s
  State.syncGroups old (State.freeRows old s)

end Sys2Proof.Machine
end

