-- ==== Sys2Proof/Machine/Run.lean ====
section
/-! DEFINITION. What a step does: the schedule's next item, the run of one instruction or one `c.if` pair (R33, R34, R48, R80), a
debugger's single step (R419), and the model's own continuation where the schedule is empty (log entry 1). -/

namespace Sys2Proof.Machine

/-- Fetch the word at the pc of the running context, decode it, check its privilege, and run it; under a false prefix it only
advances the pc (R33, R48). -/
noncomputable def State.word (s : State) : Out :=
  match s.fetchBytes s.cur with
  | .error e => settle s (.error e)
  | .ok (bs, s) =>
    match decodeBytes bs with
    | .error _ => .next (s.takeFault { code := Code.illegal, syn := wd (leNat bs) })
    | .ok (i, n) =>
      if privilegedInstr i && !s.privileged s.cur then .next (s.takeFault { code := Code.privilege })
      else
        let isIf := match i with | .cIf _ _ => true | _ => false
        if s.me.pfx.isSome && !s.me.pfxRun && !isIf then .next (s.fin n)
        else exec (s.refine i) s

/-- One instruction, or a prefix with its word (R33, R34). -/
noncomputable def State.instruction (s : State) : Out :=
  match s.word with
  | .next s' => if s'.me.pfx.isSome && s.me.pfx.isNone && s'.me.state == s.me.state then s'.word else .next s'
  | o => o

/-- A Blocked context looks at its condition; while its result must wait nothing changes (R65, R85). One whose save has had to wait tries
it again (R86, R235). -/
def State.look (s : State) : Out :=
  if s.me.preempted && s.me.blk != some .done then .next (s.reachSafePoint s.cur none)
  else match s.poll with
  | .error .wait => .next s
  | r => settle s r

/-- The running context goes on: a blocked one looks at its condition again, a sender held on a queue offers its entry again, a
fault that waited for the frontier is raised, any other runs its next instruction. -/
noncomputable def State.turn (s : State) : Out :=
  if s.me.state = .blocked then s.look
  else match s.me.wait with
    | .xq _ _ _ _ _ _ => .next (s.xqArrive s.cur)
    | .fault f ipc => .next (s.takeFaultAt s.cur ipc f)
    | _ => s.instruction

/-! ### Single steps (R419) -/

/-- The debugger has asked for a step of the context at `p`, whose core is stopped. -/
def State.stepAsked (s : State) (p : Nat) : Bool :=
  let k := s.core (coreOf p)
  k.hlt && k.step && k.sel.toNat == p % 8 && (s.thread p).state == .halted

/-- The context at `p` alone leaves Halted; its counted bounds have stood still since the stop (R76, R86). -/
def State.openStep (s : State) (p : Nat) : State :=
  let s := s.pauseCounts (fun c => c == coreOf p) (s.core (coreOf p)).hltAt s.cyc
  let s := s.setCore (coreOf p) { s.core (coreOf p) with hlt := false, hltAt := s.cyc }
  s.setThread p { s.thread p with state := (s.thread p).prev }

/-- The core is stopped again; the step has ended, with cause 3, if the instruction retired, the context entered Saving, or its task
ended. A context that was Blocked has not been stepped by the end of its wait: the step waits until it is Ready. -/
def State.closeStep (s : State) (p : Nat) (old : Thread) : State :=
  let t := s.thread p
  let k := s.core (coreOf p)
  let ended := (t.saving && !old.saving) || (old.prev != .blocked && (t.task.isNone || t.retired != old.retired))
  let s := s.setCore (coreOf p) { k with hlt := true, step := k.step && !ended, cause := if ended then 3 else k.cause }
  if t.task.isSome ∧ t.state ≠ .halted then s.setThread p { t with state := .halted, prev := t.state } else s

/-- The context at `p` runs, if it may. -/
noncomputable def State.runAt (s : State) (p : Nat) : Out :=
  if s.canRun p then ({ s with cur := p } : State).turn
  else if s.stepAsked p && (s.openStep p).canRun p then
    match ({ s.openStep p with cur := p } : State).turn with
    | .next t => .next (t.closeStep p (s.thread p))
    | o => o
  else .next s

/-- A step of the table that has no encoding: an event of the part or of the world outside. -/
def isEvent (i : Instr) : Bool := (Instr.encode i).isNone

/-- What happens when the schedule is empty: the running context's oldest access goes on, its walk is answered, or it runs. -/
noncomputable def State.default (s : State) : Out :=
  match s.oldestAcc s.cur with
  | some id => .next (s.advance id)
  | none =>
    match s.me.wait with
    | .walk _ => if (s.walkOf s.cur).isSome then exec (.walkReply s.cur) s else exec (.tlbMiss s.cur) s
    | _ => s.runAt s.cur

/-- One item of the schedule. -/
noncomputable def State.sched (s : State) (i : Sched) : Out :=
  match i with
  | .run p => s.runAt p
  | .ev e => if isEvent e then exec e s else .next s

/-- Time passes: one cycle of the reference clock or more (R90, log entry 4). -/
def State.tick (s : State) : State :=
  { s with cyc := s.cyc + 1 + Config.stepCycles s.fresh, fresh := s.fresh + 1, toks := s.heldColls (1 + Config.stepCycles s.fresh) }

end Sys2Proof.Machine
end

