-- ==== Sys2Proof/Machine/Step.lean ====
section
/-! DEFINITION. The step of the machine, and how the host places an instruction where the step fetches next. -/

namespace Sys2Proof.Machine

/-- One step: time passes, then the schedule's next item is taken, or the model's own continuation where it is empty; what is due at
the end of a step follows. -/
noncomputable def step (s : State) : Host.Outcome State Fault Refusal :=
  let s := s.tick
  let r := match s.agenda with
    | [] => s.default
    | i :: rest => ({ s with agenda := rest }).sched i
  match r with
  | .next t => .next (State.finish s t)
  | o => o

/-- The state with an instruction as the first word of a code message that a privileged task runs at place 0 (R77; log entry
19). -/
def State.withFetchWord (s : State) (nbits w : Nat) : State := s.placeWord (leBytes 4 (w % 2 ^ nbits))

end Sys2Proof.Machine
end

