-- ==== Sys2Proof/Safety.lean ====
section
/-! DEFINITION. The terms in which claims speak of a run: which operands can be read and written now, what an instruction that only
writes a register or a predicate leaves, and what counts as a safe state. -/

namespace Sys2Proof.Machine

/-! ### Operands that are ready -/

/-- Register `r` answers at once: it is `zero`, or it is no stale latch (R37), no load of it is outstanding (R65) and no error has
been injected into it (R224). -/
def State.canRead (s : State) (r : Spec) : Prop :=
  r = 1 ∨ (¬(r = 0 ∧ s.me.ltStale = true) ∧ s.busy r = false ∧ s.me.damage r = [])

/-- Register `d` takes a result at once: it is `zero`, or no load of it is outstanding (R65). -/
def State.canWrite (s : State) (d : Spec) : Prop := d = 1 ∨ s.busy d = false

/-- What register `r` reads: `zero` reads 0 (R35). -/
def State.regVal (s : State) (r : Spec) : Reg := if r = 1 then 0 else s.me.regs[r]

/-- Its low 64 bits (R38). -/
def State.val64 (s : State) (r : Spec) : Word := lo64 (s.regVal r)

/-! ### What an instruction leaves unchanged -/

/-- An outstanding access without the register it is to write. -/
def Access.core (a : Access) : Access := { a with dst := none, wlt := false }

/-- Nothing of the machine has changed but the running thread context, and the registers that outstanding loads are to write. -/
structure State.OnlyMe (s t : State) : Prop where
  /-- Every other part of the state is the same: memory, directory, tokens, cores, clusters, dies, devices. -/
  rest : t = { s with threads := t.threads, acc := t.acc }
  /-- Every other thread context is the same. -/
  others : ∀ p, p ≠ s.cur → t.thread p = s.thread p
  /-- The same accesses are outstanding. -/
  accs : t.acc.map (fun e => (e.1, e.2.core)) = s.acc.map (fun e => (e.1, e.2.core))

/-- An instruction of `len` bytes has completed and written `v` to `d`: the register and `lt` hold `v`, `zero` discards it (R35,
R36), the pc is behind the word (R80), and nothing else of the context and of the machine has changed but its count of retired
instructions (R422). -/
structure State.Wrote (s t : State) (len : Nat) (d : Spec) (v : Reg) : Prop where
  dest : d ≠ 1 → t.me.regs[d] = v
  latch : d ≠ 1 → t.me.regs[(0 : Spec)] = v ∧ t.me.ltStale = false
  zero : d = 1 → t.me.regs = s.me.regs ∧ t.me.ltStale = s.me.ltStale ∧ t.me.dmg = s.me.dmg
  regs : ∀ r : Spec, r ≠ d → r ≠ 0 → t.me.regs[r] = s.me.regs[r]
  me : t.me = { s.me with regs := t.me.regs, ltStale := t.me.ltStale, dmg := t.me.dmg, pc := s.me.pc + wd len, pfx := none,
                          retired := t.me.retired }
  dmg : ∀ r : Spec, r ≠ d → r ≠ 0 → t.me.damage r = s.me.damage r
  only : s.OnlyMe t

/-- An instruction of `len` bytes has completed and written predicate `p`; nothing else of the context and of the machine has
changed but the pc, the count of retired instructions, and the sticky flags `fl` raised (R66, R68). -/
structure State.WrotePred (s t : State) (len : Nat) (p : PredNo) (b : Bool) (fl : Flags) : Prop where
  dest : p ≠ 0 → t.me.pred p = b
  preds : ∀ q : PredNo, q ≠ p → t.me.pred q = s.me.pred q
  me : t.me = { s.me with preds := t.me.preds, fm := s.me.fm ||| (fl.setWidth 64 <<< 8), pc := s.me.pc + wd len, pfx := none,
                          retired := t.me.retired }
  rest : t = { s with threads := t.threads }
  others : ∀ p, p ≠ s.cur → t.thread p = s.thread p

/-- An instruction has completed and the context goes on at `target`; nothing else of it has changed but the pc, the prefix and the
count of retired instructions, and nothing of the rest of the machine. -/
structure State.WentTo (s t : State) (target : Word) : Prop where
  me : t.me = { s.me with pc := target, pfx := none, retired := t.me.retired }
  rest : t = { s with threads := t.threads }
  others : ∀ p, p ≠ s.cur → t.thread p = s.thread p

/-- An instruction of `len` bytes has completed and its access `a` is outstanding under the next number; the running context is `th`
but for the pc, the prefix and the count of retired instructions. Memory and everything else of the machine are unchanged. -/
structure State.Issued (s t : State) (len : Nat) (th : Thread) (a : Access) : Prop where
  acc : Tab.get? t.acc s.nextId = some a
  accs : ∀ id, id ≠ s.nextId → (Tab.get? t.acc id).map Access.core = (Tab.get? s.acc id).map Access.core
  me : t.me = { th with pc := s.me.pc + wd len, pfx := none, retired := t.me.retired }
  rest : t = { s with threads := t.threads, acc := t.acc, nextId := s.nextId + 1 }
  others : ∀ p, p ≠ s.cur → t.thread p = s.thread p

/-- An access as its instruction issues it: by the running context, to a location, for `n` bytes (R82, R172). -/
def State.access0 (s : State) (kind : AccKind) (va : Word) (n loc : Nat) : Access :=
  { place := s.cur, kind, va, n, loc, data := 0, dst := none, wlt := false, ord := .rlx, scope := .task,
    ipc := s.me.pfx.getD s.me.pc, region := s.me.region, homed := false, sent := false, launch := s.me.launchNo, ctx := s.me.ctxNo,
    grp := s.me.grp, entry := s.me.entry?, loose := false, issued := s.cyc, merged := false }

/-- A context that waits for a value: it counts in cld, and `lt` is to take the value too unless it goes to `zero` (R36, R82). -/
def Thread.loading (t : Thread) (d : Spec) : Thread :=
  { t with cld := t.cld + 1, ltStale := if d = 1 then t.ltStale else false }

/-- The access with the register that its value goes to (R36). -/
def Access.into (a : Access) (d : Spec) : Access := { a with dst := if d = 1 then none else some d, wlt := d != 1 }

/-- Register `d` can be the destination of a load: no load of it is outstanding, or it is `lt` or `zero` (R36, R65), and the
counter cld has room (R82). -/
def State.canLoad (s : State) (d : Spec) : Prop := s.me.cld < 63 ∧ (d = 0 ∨ d = 1 ∨ s.busy d = false)

/-! ### Records (08_threads.md, 10_message.md) -/

/-- The 48 payload bytes that a field `a` names can be read: registers a, a+1 and a+2, or none where `a` is `zero` (R248). -/
def State.canPay (s : State) (a : Spec) : Prop := s.canRead a ∧ s.canRead (specPlus a 1) ∧ s.canRead (specPlus a 2)

/-- Those 48 bytes; zeros where `a` is `zero`. -/
def State.payOf (s : State) (a : Spec) : Vector Reg 3 := #v[s.regVal a, s.regVal (specPlus a 1), s.regVal (specPlus a 2)]

/-- A send of the running task leaves at once: its earlier accesses have been performed (R192), no failed store waits for its
report (R216), fewer than eight records are unaccepted (R76), and it is no speculative ordered task (R261). -/
def State.canSend (s : State) : Prop :=
  s.anyAcc (fun _ => true) = false ∧ s.me.failed = none ∧ s.me.sends < 8 ∧ s.me.speculative = false

/-- An instruction of `len` bytes has sent record `m`: it stands in the mesh with its send time (R239) and its place in the order of
sends (R273), counts as unaccepted (R76), and the region has ended (R196). Memory and everything else are unchanged. -/
structure State.Sent (s t : State) (len : Nat) (m : Msg) : Prop where
  mesh : t.mesh = Tab.put s.mesh s.nextId
    { m with h1 := mkH1 (hRoute m.h1) (hRtag m.h1) (s.cyc % 2 ^ 24), ord := s.nextId, counted := true }
  me : t.me = { s.me with region := s.me.region + 1, sends := s.me.sends + 1, wait := .none, pc := s.me.pc + wd len, pfx := none,
                          retired := t.me.retired }
  rest : t = { s with threads := t.threads, marks := t.marks, cores := t.cores, dir := t.dir, mesh := t.mesh, nextId := s.nextId + 1 }
  others : ∀ p, p ≠ s.cur → t.thread p = s.thread p

/-- The record of a task as R239, R242 and R284 fill it in: its header, its payload, its sender, launch, software context and
group, and the scope and clock of the release that the send is (R192, R193). -/
def State.recordOf (s : State) (h0 h1 : Word) (pay : Vector Reg 3) (dest : Dest) : Msg :=
  { h0, h1, pay, sender := s.cur, sgrp := s.me.grp, launch := s.me.launchNo, ctx := s.me.ctxNo, ts := 0, seq := 0, parent := none,
    dest, ord := 0, arrival := 0, counted := false, notBefore := 0, firing := none, restore := false, budget := false, byTok := none,
    code := none, scope := sendScope s.cur (bits (hRoute h1) 22 2 == 1) dest, clock := s.clockOf s.cur }

/-! ### Tasks that end (R74, R251 to R253) -/

/-- The running task can end at once: it is Ready and in no save routine, holds no token, has no access outstanding and no store that
failed (R196, R216, R251), and
its core writes no trace (R420). -/
def State.canEnd (s : State) : Prop :=
  s.me.state = .ready ∧ s.me.inSave = false ∧ s.me.task.isSome = true ∧ s.heldBy s.cur = [] ∧ s.anyAcc (fun _ => true) = false ∧ s.me.failed = none ∧
    (s.core (coreOf s.cur)).trcEn = false

/-- The context at `p` has lost its task and is Free, or Dormant for t7 (R74); its region has ended, its loads in flight reach no
register any more, and no other context has changed. -/
structure State.Freed (s t : State) (p : Nat) : Prop where
  task : (t.thread p).task = none
  state : (t.thread p).state = if p % 8 = 7 then .dormant else .free
  pend : (t.thread p).pend = false
  marks : ∀ e ∈ t.marks, ∀ m ∈ e.2, m.place ≠ p
  loads : ∀ e ∈ t.acc, e.2.place = p → e.2.dst = none ∧ e.2.wlt = false
  others : ∀ q, q ≠ p → t.thread q = s.thread q

/-! ### Records that the part writes (R388, R420) -/

/-- The granule of a location is neither poisoned nor damaged (R211). -/
def State.sound (s : State) (loc : Nat) : Prop :=
  (s.granule (loc / 64)).poison = false ∧ (s.granule (loc / 64)).hbm = [] ∧ (s.granule (loc / 64)).l2 = [] ∧ (s.granule (loc / 64)).near = []

/-- Where the next record of a die's decision log goes (R388). -/
def State.logAt (s : State) (d : Nat) : Nat := ((s.die d).dbase.toNat + 16 * ((s.die d).dwi % 2 ^ (s.die d).dlgn.toNat)) % 2 ^ 53

/-- It goes to a granule with no damage. -/
def State.logSound (s : State) (d : Nat) : Prop := s.sound (s.logAt d)

/-! ### Safe states -/

/-- Predicate p0 of every context reads 1 in the bits as well (R39). -/
def State.predsOk (s : State) : Bool := s.threads.all (fun e => e.2.preds.getLsbD 0)

/-- Memory is in its canonical form. -/
def State.memOk (s : State) : Bool := Memory.wf s.mem

end Sys2Proof.Machine
end

