-- ==== Sys2Proof/Certificates/Slice0/Obligations.lean ====
section
/-! DEFINITION. The statements for the provers. Each says what an instruction or a step of the part does in every state that meets
its hypotheses; a result statement has as its conclusion that `exec` answers the next state, and says the frame. Helper definitions beside
them restate a rule of the spec apart from the model's own operations. -/

section
open Sys2Proof Sys2Proof.Machine

/-! ### Integer instructions, compares, predicates, branches (02_words.md, 03_core.md) -/

/-- R61, R62, R63: the 64-bit forms on two registers write their result to `d` and to `lt` and change nothing else. R61, R62, R63: the
32-bit forms compute on the low halves and write their result sign-extended. R62: the counts of leading zeros, of trailing zeros and of
ones, each said by the bits it counts. -/
def Obligations.IntegerResults : Prop :=
  (∀ (s : State) (d a b : Spec), s.canRead a → s.canRead b → s.canWrite d →
    ∀ p ∈ ([(.add d a b, s.val64 a + s.val64 b), (.sub d a b, s.val64 a - s.val64 b),
        (.mul d a b, s.val64 a * s.val64 b),
        (.mulh d a b, BitVec.ofInt 64 ((s.val64 a).toInt * (s.val64 b).toInt / 2 ^ 64)),
        (.mulhu d a b, BitVec.ofNat 64 ((s.val64 a).toNat * (s.val64 b).toNat / 2 ^ 64)),
        (.and d a b, s.val64 a &&& s.val64 b), (.or d a b, s.val64 a ||| s.val64 b),
        (.xor d a b, s.val64 a ^^^ s.val64 b), (.andn d a b, s.val64 a &&& ~~~s.val64 b),
        (.shl d a b, if (s.val64 b).toNat < 64 then s.val64 a <<< (s.val64 b).toNat else 0),
        (.shr d a b, if (s.val64 b).toNat < 64 then s.val64 a >>> (s.val64 b).toNat else 0),
        (.sar d a b, if (s.val64 b).toNat < 64 then (s.val64 a).sshiftRight (s.val64 b).toNat
          else if (s.val64 a).msb then BitVec.allOnes 64 else 0),
        (.min d a b, if (s.val64 a).toInt ≤ (s.val64 b).toInt then s.val64 a else s.val64 b),
        (.max d a b, if (s.val64 a).toInt ≤ (s.val64 b).toInt then s.val64 b else s.val64 a),
        (.minu d a b, if (s.val64 a).toNat ≤ (s.val64 b).toNat then s.val64 a else s.val64 b),
        (.maxu d a b, if (s.val64 a).toNat ≤ (s.val64 b).toNat then s.val64 b else s.val64 a),
        (.leaS2 d a b, s.val64 a + s.val64 b <<< 1), (.leaS4 d a b, s.val64 a + s.val64 b <<< 2),
        (.leaS8 d a b, s.val64 a + s.val64 b <<< 3), (.leaS16 d a b, s.val64 a + s.val64 b <<< 4)] : List (Instr × Word)),
      ∃ t, exec p.1 s = .next t ∧ s.Wrote t 4 d (scalar p.2)) ∧
  (∀ (s : State) (d a b : Spec) (x y : BitVec 32), s.canRead a → s.canRead b → s.canWrite d →
    x = (s.val64 a).setWidth 32 → y = (s.val64 b).setWidth 32 →
    ∀ p ∈ ([(.addI32 d a b, x + y), (.subI32 d a b, x - y), (.mulI32 d a b, x * y),
        (.mulhI32 d a b, BitVec.ofInt 32 (x.toInt * y.toInt / 2 ^ 32)),
        (.mulhuI32 d a b, BitVec.ofNat 32 (x.toNat * y.toNat / 2 ^ 32)),
        (.andI32 d a b, x &&& y), (.orI32 d a b, x ||| y), (.xorI32 d a b, x ^^^ y), (.andnI32 d a b, x &&& ~~~y),
        (.shlI32 d a b, if y.toNat < 32 then x <<< y.toNat else 0),
        (.shrI32 d a b, if y.toNat < 32 then x >>> y.toNat else 0),
        (.sarI32 d a b, if y.toNat < 32 then x.sshiftRight y.toNat else if x.msb then BitVec.allOnes 32 else 0),
        (.minI32 d a b, if x.toInt ≤ y.toInt then x else y), (.maxI32 d a b, if x.toInt ≤ y.toInt then y else x),
        (.minuI32 d a b, if x.toNat ≤ y.toNat then x else y),
        (.maxuI32 d a b, if x.toNat ≤ y.toNat then y else x)] : List (Instr × BitVec 32)),
      ∃ t, exec p.1 s = .next t ∧ s.Wrote t 4 d (scalar (p.2.signExtend 64))) ∧
  (∀ (s : State) (d a : Spec), s.canRead a → s.canWrite d →
    (∃ t n, exec (.clz d a) s = .next t ∧ s.Wrote t 4 d (scalar (BitVec.ofNat 64 n)) ∧ n ≤ 64 ∧
      (∀ i, 64 - n ≤ i → (s.val64 a).getLsbD i = false) ∧ (n < 64 → (s.val64 a).getLsbD (63 - n) = true)) ∧
    (∃ t n, exec (.ctz d a) s = .next t ∧ s.Wrote t 4 d (scalar (BitVec.ofNat 64 n)) ∧ n ≤ 64 ∧
      (∀ i, i < n → (s.val64 a).getLsbD i = false) ∧ (n < 64 → (s.val64 a).getLsbD n = true)) ∧
    (∃ t, exec (.popc d a) s = .next t ∧
      s.Wrote t 4 d (scalar (BitVec.ofNat 64 ((List.range 64).countP (fun i => (s.val64 a).getLsbD i))))))

/-- R64: quotient and remainder as R64 computes them, of numbers `A` and `B` taken signed or unsigned, of `w` bits. -/
def divResult (w : Nat) (signed : Bool) (A B : Int) : Int × Int :=
  if B = 0 then (2 ^ w - 1, A)
  else if signed = true ∧ A = -2 ^ (w - 1) ∧ B = -1 then (A, 0)
  else (A.sign * B.sign * (A.natAbs / B.natAbs : Nat), A - A.sign * B.sign * (A.natAbs / B.natAbs : Nat) * B)

/-- R64: division rounds the quotient towards zero and never faults, in the 64-bit and the 32-bit forms. -/
def Obligations.DivisionNeverFaults : Prop :=
  ∀ (s : State) (d a b : Spec), s.canRead a → s.canRead b → s.canWrite d →
    (∀ p ∈ ([(.div d a b, (divResult 64 true (s.val64 a).toInt (s.val64 b).toInt).1),
        (.rem d a b, (divResult 64 true (s.val64 a).toInt (s.val64 b).toInt).2),
        (.divu d a b, (divResult 64 false (s.val64 a).toNat (s.val64 b).toNat).1),
        (.remu d a b, (divResult 64 false (s.val64 a).toNat (s.val64 b).toNat).2)] : List (Instr × Int)),
      ∃ t, exec p.1 s = .next t ∧ s.Wrote t 4 d (scalar (BitVec.ofInt 64 p.2))) ∧
    (∀ p ∈ ([(.divI32 d a b, (divResult 32 true ((s.val64 a).setWidth 32).toInt ((s.val64 b).setWidth 32).toInt).1),
        (.remI32 d a b, (divResult 32 true ((s.val64 a).setWidth 32).toInt ((s.val64 b).setWidth 32).toInt).2),
        (.divuI32 d a b, (divResult 32 false ((s.val64 a).setWidth 32).toNat ((s.val64 b).setWidth 32).toNat).1),
        (.remuI32 d a b, (divResult 32 false ((s.val64 a).setWidth 32).toNat ((s.val64 b).setWidth 32).toNat).2)] :
          List (Instr × Int)),
      ∃ t, exec p.1 s = .next t ∧ s.Wrote t 4 d (scalar ((BitVec.ofInt 32 p.2).signExtend 64)))

/-- R57, R58, R62, R63: the forms with an immediate; `sext` and `zext` keep the low `k` bits. R32, R58, R60: the 16-bit integer forms are
the 32-bit ones on the registers that their fields name; `c.mov` moves all 128 bits. A word field of 1 selects the 32-bit operation. -/
def Obligations.IntegerImmediateAndCompactForms : Prop :=
  (∀ (s : State) (d a : Spec) (n : BitVec 6) (m : BitVec 5) (i : BitVec 13) (u : BitVec 19),
    s.canRead a → s.canWrite d →
    ∀ p ∈ ([(.shli d a n, s.val64 a <<< n.toNat), (.shri d a n, s.val64 a >>> n.toNat),
        (.sari d a n, (s.val64 a).sshiftRight n.toNat),
        (.shliI32 d a m, ((s.val64 a).setWidth 32 <<< m.toNat).signExtend 64),
        (.shriI32 d a m, ((s.val64 a).setWidth 32 >>> m.toNat).signExtend 64),
        (.sariI32 d a m, (((s.val64 a).setWidth 32).sshiftRight m.toNat).signExtend 64),
        (.sext d a n, ((s.val64 a).setWidth n.toNat).signExtend 64),
        (.zext d a n, ((s.val64 a).setWidth n.toNat).setWidth 64),
        (.addi d a i, BitVec.ofInt 64 ((s.val64 a).toInt + i.toInt)),
        (.lui d u, BitVec.ofInt 64 (u.toInt * 8192))] : List (Instr × Word)),
      ∃ t, exec p.1 s = .next t ∧ s.Wrote t 4 d (scalar p.2)) ∧
  (∀ (s : State) (a b d : CReg) (m : Spec) (i : BitVec 5) (k : BitVec 8),
    s.canRead (cReg a) → s.canRead (cReg b) → s.canRead m → s.canRead (cReg d) → s.canWrite (cReg d) → s.canWrite m →
    (∀ p ∈ ([(.cAdd false b a d, scalar (s.val64 (cReg a) + s.val64 (cReg b))),
        (.cAdd true b a d, scalar (((s.val64 (cReg a)).setWidth 32 + (s.val64 (cReg b)).setWidth 32 : BitVec 32).signExtend 64)),
        (.cSub false b a d, scalar (s.val64 (cReg a) - s.val64 (cReg b))),
        (.cSub true b a d, scalar (((s.val64 (cReg a)).setWidth 32 - (s.val64 (cReg b)).setWidth 32 : BitVec 32).signExtend 64)),
        (.cMov false m d, s.regVal m), (.cAddi i a d, scalar (s.val64 (cReg a) + i.signExtend 64)),
        (.cLi k d, scalar (k.signExtend 64))] : List (Instr × Reg)),
      ∃ t, exec p.1 s = .next t ∧ s.Wrote t 2 (cReg d) p.2) ∧
    (∃ t, exec (.cMov true m d) s = .next t ∧ s.Wrote t 2 m (s.regVal (cReg d))))

/-- R68: the relation of two float values; a NaN is unordered. -/
def floatRelation (k : Nat) (x y : Val) : Bool :=
  match k with
  | 0 => !(x.isNan || y.isNan) && x.eqv y
  | 1 => !(x.isNan || y.isNan) && x.lt y
  | 2 => !(x.isNan || y.isNan) && !y.lt x
  | _ => x.isNan || y.isNan

/-- R66, R67: the integer compares write their predicate and nothing else; `lt` stays as it was. R68: the float compares and the flag nv
they raise. -/
def Obligations.ComparesWriteOnePredicate : Prop :=
  (∀ (s : State) (p : PredNo) (a b : Spec) (x y : BitVec 32), s.canRead a → s.canRead b →
    x = (s.val64 a).setWidth 32 → y = (s.val64 b).setWidth 32 →
    ∀ q ∈ ([(.cmpEq p a b, decide (s.val64 a = s.val64 b)), (.cmpNe p a b, decide (s.val64 a ≠ s.val64 b)),
        (.cmpLt p a b, decide ((s.val64 a).toInt < (s.val64 b).toInt)),
        (.cmpLe p a b, decide ((s.val64 a).toInt ≤ (s.val64 b).toInt)),
        (.cmpLtu p a b, decide ((s.val64 a).toNat < (s.val64 b).toNat)),
        (.cmpLeu p a b, decide ((s.val64 a).toNat ≤ (s.val64 b).toNat)),
        (.cmpEqI32 p a b, decide (x = y)), (.cmpNeI32 p a b, decide (x ≠ y)),
        (.cmpLtI32 p a b, decide (x.toInt < y.toInt)), (.cmpLeI32 p a b, decide (x.toInt ≤ y.toInt)),
        (.cmpLtuI32 p a b, decide (x.toNat < y.toNat)), (.cmpLeuI32 p a b, decide (x.toNat ≤ y.toNat))] :
          List (Instr × Bool)),
      ∃ t, exec q.1 s = .next t ∧ s.WrotePred t 4 p q.2 0) ∧
  (∀ (s : State) (p : PredNo) (a b : Spec), s.canRead a → s.canRead b →
    ∀ q ∈ ([(.fcmpEq p a b, fp32, 0), (.fcmpLt p a b, fp32, 1), (.fcmpLe p a b, fp32, 2), (.fcmpUn p a b, fp32, 3),
        (.fcmpEqF64 p a b, fp64, 0), (.fcmpLtF64 p a b, fp64, 1), (.fcmpLeF64 p a b, fp64, 2),
        (.fcmpUnF64 p a b, fp64, 3)] : List (Instr × FFmt × Nat)),
      let x := decodeF q.2.1 (lane q.2.1.w (s.regVal a) 0)
      let y := decodeF q.2.1 (lane q.2.1.w (s.regVal b) 0)
      let nv := if q.2.2 = 1 ∨ q.2.2 = 2 then x.isNan || y.isNan else x.isSig || y.isSig
      ∃ t, exec q.1 s = .next t ∧ s.WrotePred t 4 p (floatRelation q.2.2 x y) (if nv then fNv else 0))

/-- R69: the predicate logic instructions; a source of p0 reads 1. `pset`'s constant stands in b[19] of its word, with the rest of a and b
zero. R32, R67: `c.cmp` is eq, ne, lt or ltu of two 3-bit registers. -/
def Obligations.PredicateLogic : Prop :=
  (∀ (s : State) (p a b : PredNo) (k : Bool),
    (Instr.pset p k).encode = some (32, 0x0F * 2 ^ 25 + (if k then 2 ^ 19 else 0) + p.val * 2 ^ 7 + 0x03 * 2 ^ 2 + 3) ∧
    ∀ q ∈ ([(.pand p a b, s.me.pred a && s.me.pred b), (.por p a b, s.me.pred a || s.me.pred b),
        (.pxor p a b, s.me.pred a != s.me.pred b), (.pnot p a, !s.me.pred a), (.pmov p a, s.me.pred a),
        (.pset p k, k)] : List (Instr × Bool)),
      s.me.pred 0 = true ∧ ∃ t, exec q.1 s = .next t ∧ s.WrotePred t 4 p q.2 0) ∧
  (∀ (s : State) (p : PredNo) (a b : CReg), s.canRead (cReg a) → s.canRead (cReg b) →
    ∀ q ∈ ([(0, decide (s.val64 (cReg a) = s.val64 (cReg b))), (1, decide (s.val64 (cReg a) ≠ s.val64 (cReg b))),
        (2, decide ((s.val64 (cReg a)).toInt < (s.val64 (cReg b)).toInt)),
        (3, decide ((s.val64 (cReg a)).toNat < (s.val64 (cReg b)).toNat))] : List (BitVec 2 × Bool)),
      ∃ t, exec (.cCmp q.1 b a p) s = .next t ∧ s.WrotePred t 2 p q.2 0)

/-- R70, R32: a branch goes to its target or to the next word, and changes nothing else; the hypothesis that the core keeps no trace (R420)
is needed only for the frame. R72: `call` checks its target before it writes the link; a target that is odd or outside the 47-bit space
faults with nothing written. -/
def Obligations.BranchesAndCalls : Prop :=
  (∀ (s : State) (p : PredNo) (o : BitVec 19) (r : BitVec 7) (j : BitVec 11) (n : Bool),
    (s.core (coreOf s.cur)).trcEn = false →
    ∀ q ∈ ([(.br p o, if s.me.pred p then s.me.pc + BitVec.ofInt 64 (2 * o.toInt) else s.me.pc + 4),
        (.brNot p o, if s.me.pred p then s.me.pc + 4 else s.me.pc + BitVec.ofInt 64 (2 * o.toInt)),
        (.cBr r n p, if s.me.pred p != n then s.me.pc + BitVec.ofInt 64 (2 * r.toInt) else s.me.pc + 2),
        (.cJmp j, s.me.pc + BitVec.ofInt 64 (2 * j.toInt)), (.cNop, s.me.pc + 2)] : List (Instr × Word)),
      ∃ t, exec q.1 s = .next t ∧ s.WentTo t q.2) ∧
  (∀ (s : State) (d a : Spec) (i : BitVec 13) (target : Word), (s.core (coreOf s.cur)).trcEn = false → s.canRead a → s.canWrite d →
    target = (if a = 1 then s.me.pc else s.val64 a) + BitVec.ofInt 64 (2 * i.toInt) →
    (target.getLsbD 0 = true → exec (.call d a i) s = .next (s.takeFault { code := 0x0005, addr := target })) ∧
    (target.getLsbD 0 = false → 2 ^ 47 ≤ target.toNat →
      exec (.call d a i) s = .next (s.takeFault { code := 0x0010, addr := target })) ∧
    (target.getLsbD 0 = false → target.toNat < 2 ^ 47 → ∃ t, exec (.call d a i) s = .next t ∧
      t.me = ({ s.me with regs := t.me.regs, ltStale := t.me.ltStale, dmg := t.me.dmg, pc := target, pfx := none,
                          retired := t.me.retired } : Thread) ∧
      (d ≠ 1 → t.me.regs[d] = scalar (s.me.pc + 4) ∧ t.me.regs[(0 : Spec)] = scalar (s.me.pc + 4)) ∧
      (d = 1 → t.me.regs = s.me.regs ∧ t.me.ltStale = s.me.ltStale) ∧
      (∀ r : Spec, r ≠ d → r ≠ 0 → t.me.regs[r] = s.me.regs[r]) ∧ s.OnlyMe t))

/-- R71: the counted loop decrements lc and branches while lc is not 0 after it. -/
def Obligations.CountedLoop : Prop :=
  ∀ (s : State) (p : PredNo) (n : Bool) (o : BitVec 19), (s.core (coreOf s.cur)).trcEn = false →
    ∃ t, exec (.lpe p n o) s = .next t ∧
      t.me.lc = (if (s.me.pred p != n) = true ∧ s.me.lc ≠ 0 then s.me.lc - 1 else s.me.lc) ∧
      ({ s with threads := Tab.put s.threads s.cur { s.me with lc := t.me.lc } } : State).WentTo t
        (if (s.me.pred p != n) = true ∧ s.me.lc ≠ 0 ∧ s.me.lc - 1 ≠ 0 then s.me.pc + BitVec.ofInt 64 (2 * o.toInt)
         else s.me.pc + 4)

/-- R33, R34: a prefix records where its pair began and whether its word runs; a prefix behind a prefix is an illegal instruction. -/
def Obligations.PredicatePrefix : Prop :=
  ∀ (s : State) (n : Bool) (p : PredNo),
    (s.me.pfx = none → exec (.cIf n p) s =
      .next (s.setMe { s.me with pfx := some s.me.pc, pfxRun := s.me.pred p != n, pc := s.me.pc + 2 })) ∧
    (s.me.pfx ≠ none → ∃ f : Flt, f.code = 0x0001 ∧ exec (.cIf n p) s = .next (s.takeFault f))

/-! ### Accesses to memory (01_machine.md, 06_line.md, 07_order.md) -/

/-- R20 to R22, R157, R159: what the checks of an access of `n` bytes at an address answer in each window, in their order: the address form,
the windows, the remote-load and privilege checks, the end of the access, the alignment; and where an aligned access of a window that may
take it goes. The own scratchpad, through its own window or the core's slot of the remote one, is open to a task as far as the bank budgets
of its group and of every ancestor reach; code of no launch has no budget (log entry 15). -/
def Obligations.AccessChecksInOrder : Prop :=
  ∀ (s : State) (p : Nat) (k : AKind) (plain : Bool) (a : Word) (n : Nat), n = 1 ∨ n = 2 ∨ n = 4 ∨ n = 8 ∨ n = 16 →
    (2 ^ 47 ≤ a.toNat → s.access p k plain a n = .error (.flt { code := 0x0010, addr := a })) ∧
    (0x7F0000020000 ≤ a.toNat ∧ a.toNat < 0x7F0100000000 → s.access p k plain a n = .error (.flt { code := 0x0011, addr := a })) ∧
    (0x7F0100000000 ≤ a.toNat ∧ a.toNat < 0x7F0140000000 ∧ k ≠ .write ∧ validPlace ((a.toNat - 0x7F0100000000) / 0x20000 * 8) = true ∧
        isDispatch ((a.toNat - 0x7F0100000000) / 0x20000 * 8) = false ∧ (a.toNat - 0x7F0100000000) % 0x20000 + n ≤ 0x20000 →
      s.access p k plain a n = .error (.flt { code := 0x0012, addr := a })) ∧
    (0x7FFF00000000 ≤ a.toNat ∧ a.toNat + n ≤ 2 ^ 47 ∧ s.privileged p = false →
      s.access p k plain a n = .error (.flt { code := 0x0002, addr := a })) ∧
    (0x7FFF00000000 ≤ a.toNat ∧ a.toNat + n ≤ 2 ^ 47 ∧ s.privileged p = true ∧ (plain = false ∨ (n ≠ 4 ∧ n ≠ 8)) →
      s.access p k plain a n = .error (.flt { code := 0x0011, addr := a })) ∧
    (0x7FFF00000000 ≤ a.toNat ∧ a.toNat < 2 ^ 47 ∧ 2 ^ 47 < a.toNat + n →
      s.access p k plain a n = .error (.flt { code := 0x0010, addr := a })) ∧
    (a.toNat < 0x7F0000000000 ∧ a.toNat % n ≠ 0 ∧ a.toNat + n ≤ 0x7F0000000000 →
      s.access p k plain a n = .error (.flt { code := 0x0013, addr := a })) ∧
    (a.toNat < 0x7F0000000000 ∧ a.toNat % n = 0 → s.access p k plain a n = s.translate p k a) ∧
    (let off := if a.toNat < 0x7F0000020000 then a.toNat - 0x7F0000000000 else a.toNat % 0x20000
      let mine := (0x7F0000000000 ≤ a.toNat ∧ a.toNat < 0x7F0000020000) ∨ (0x7F0100000000 ≤ a.toNat ∧ a.toNat < 0x7F0140000000 ∧
        (a.toNat - 0x7F0100000000) / 0x20000 = p / 8 ∧ k = .write ∧ validPlace (p / 8 * 8) = true ∧ isDispatch (p / 8 * 8) = false)
      let bank (x : Group) : Prop := x.spm / 2 ^ (off / 16384) % 2 = 1
      mine ∧ a.toNat % n = 0 →
        ((s.thread p).launchNo = none → s.access p k plain a n = .ok (18 * 2 ^ 64 + p / 8 * 0x20000 + off, s)) ∧
        (∀ l, (s.thread p).launchNo = some l →
          ((∀ g ∈ s.ancestors l 4096 (s.thread p).grp, ∀ x, s.group? l g = some x → bank x) →
            s.access p k plain a n = .ok (18 * 2 ^ 64 + p / 8 * 0x20000 + off, s)) ∧
          (∀ g ∈ s.ancestors l 4096 (s.thread p).grp, ∀ x, s.group? l g = some x → ¬ bank x →
            s.access p k plain a n = .error (.flt { code := 0x0045, addr := a })))) ∧
    (∀ c o, k = .write ∧ c ≠ p / 8 ∧ o < 0x20000 ∧ a.toNat = 0x7F0100000000 + c * 0x20000 + o ∧ validPlace (c * 8) = true ∧
        isDispatch (c * 8) = false ∧ a.toNat % n = 0 → s.access p k plain a n = .ok (18 * 2 ^ 64 + c * 0x20000 + o, s)) ∧
    (0x7F0200000000 ≤ a.toNat ∧ a.toNat < 0x7F0200500000 ∧ a.toNat % n = 0 →
      s.access p k plain a n = .ok (19 * 2 ^ 64 + cluOfPlace p * 0x800000 + (a.toNat - 0x7F0200000000), s)) ∧
    (0x7F0300000000 ≤ a.toNat ∧ a.toNat < 0x7F0310000000 ∧ a.toNat % n = 0 →
      s.access p k plain a n = .ok (20 * 2 ^ 64 + (a.toNat - 0x7F0300000000), s)) ∧
    (0x7FFF00000000 ≤ a.toNat ∧ a.toNat < 2 ^ 47 ∧ s.privileged p = true ∧ plain = true ∧ (n = 4 ∨ n = 8) ∧ a.toNat % n = 0 →
      s.access p k plain a n = .ok (21 * 2 ^ 64 + (a.toNat - 0x7FFF00000000), s))

/-- R227, R228, R237: the checks of an access that answers its location change nothing but the TLBs, the dirty log of the core, and the
harvest request to its pager. -/
def Obligations.AccessChecksChangeOnlyTlbs : Prop :=
  ∀ (s t : State) (p : Nat) (k : AKind) (plain : Bool) (a : Word) (n loc : Nat),
    s.access p k plain a n = .ok (loc, t) →
      t = { s with cores := t.cores, clus := t.clus } ∧
      (∀ c, t.core c = { s.core c with tlb := (t.core c).tlb, dlog := (t.core c).dlog, dlogAsked := (t.core c).dlogAsked,
                                       asked := (t.core c).asked }) ∧
      (∀ c, c ≠ coreOf p → (t.core c).tlb = (s.core c).tlb ∧ (t.core c).dlog = (s.core c).dlog ∧
        (t.core c).dlogAsked = (s.core c).dlogAsked) ∧
      (∀ c, c ≠ pagerOf (coreOf p) → (t.core c).asked = (s.core c).asked) ∧
      (∀ cl, t.clu cl = { s.clu cl with tlb := (t.clu cl).tlb }) ∧ (∀ cl, cl ≠ cluOfPlace p → t.clu cl = s.clu cl)

/-- R170, R171, R172: a load whose checks pass issues: its access is outstanding, it counts in cld, and nothing in memory changes. R171: a
store whose checks pass issues: its access holds the register's value, it counts in cst, and nothing in memory changes until it is
performed. R32, R171: the compact load and store, of 8 bytes or of 16, with an unsigned offset in units of their size. -/
def Obligations.LoadsAndStoresIssue : Prop :=
  (∀ (s s' : State) (t b : Spec) (o : BitVec 10) (loc : Nat), s.canRead b → s'.canLoad t →
    ∀ q ∈ ([(.ldN8 t b o, 1, false), (.ldN16 t b o, 2, false), (.ldN32 t b o, 4, false), (.ld64 t b o, 8, false),
        (.ldI8 t b o, 1, true), (.ldI16 t b o, 2, true), (.ldI32 t b o, 4, true), (.ldV t b o, 16, false)] :
          List (Instr × Nat × Bool)),
      let va := s.val64 b + BitVec.ofInt 64 (o.toInt * q.2.1)
      s.access s.cur .read true va q.2.1 = .ok (loc, s') →
        ∃ u, exec q.1 s = .next u ∧
          s'.Issued u 4 (s'.me.loading t) ((s'.access0 (.load q.2.2) va q.2.1 loc).into t)) ∧
  (∀ (s s' : State) (t b : Spec) (o : BitVec 10) (loc : Nat), s.canRead t → s.canRead b → s'.me.cst < 63 →
    s'.me.speculative = false →
    ∀ q ∈ ([(.st8 t b o, 1), (.st16 t b o, 2), (.st32 t b o, 4), (.st64 t b o, 8), (.stV t b o, 16)] : List (Instr × Nat)),
      let va := s.val64 b + BitVec.ofInt 64 (o.toInt * q.2)
      s.access s.cur .write true va q.2 = .ok (loc, s') →
        ∃ u, exec q.1 s = .next u ∧
          s'.Issued u 4 { s'.me with cst := s'.me.cst + 1 }
            { s'.access0 .store va q.2 loc with data := (s.regVal t).setWidth 256 }) ∧
  (∀ (s s' : State) (z : Bool) (t b : CReg) (o : BitVec 4) (loc n : Nat) (va : Word), s.canRead (cReg b) →
    n = (if z then 16 else 8) → va = s.val64 (cReg b) + BitVec.ofNat 64 (o.toNat * n) →
    (s'.canLoad (cReg t) → s.access s.cur .read true va n = .ok (loc, s') →
      ∃ u, exec (.cLd z o b t) s = .next u ∧
        s'.Issued u 2 (s'.me.loading (cReg t)) ((s'.access0 (.load false) va n loc).into (cReg t))) ∧
    (s.canRead (cReg t) → s'.me.cst < 63 → s'.me.speculative = false → s.access s.cur .write true va n = .ok (loc, s') →
      ∃ u, exec (.cSt z o b t) s = .next u ∧
        s'.Issued u 2 { s'.me with cst := s'.me.cst + 1 }
          { s'.access0 .store va n loc with data := (s.regVal (cReg t)).setWidth 256 }))

/-- R177, R178: an atomic whose checks pass issues with its operand, its order and its scope. The hypotheses are those of R159 and R178: no
host-scope atomic to host memory, a relaxed order or one with no earlier store outstanding and none failed. R177, R186, R196: an atomic with
an order other than `.rlx` waits for the earlier accesses (log entry 20), ends the region first, and is an access of the region that starts
with it (log entry 120). -/
def Obligations.AtomicsIssue : Prop :=
  (∀ (s s' : State) (t b : Spec) (c : Scope) (z : Bool) (loc n : Nat), s.canRead t → s.canRead b → s'.canLoad t →
    s'.me.speculative = false → n = (if z then 8 else 4) → locTag loc ≠ 1 →
    s.access s.cur .rmw false (s.val64 b) n = .ok (loc, s') →
    ∀ q ∈ ([(.amoSwap t b .rlx c z, .swap), (.amoAdd t b .rlx c z, .add), (.amoAnd t b .rlx c z, .and),
        (.amoOr t b .rlx c z, .or), (.amoXor t b .rlx c z, .xor), (.amoMin t b .rlx c z, .min), (.amoMax t b .rlx c z, .max),
        (.amoMinu t b .rlx c z, .minu), (.amoMaxu t b .rlx c z, .maxu), (.amoFadd t b .rlx c z, .fadd),
        (.cas t b .rlx c z, .cas)] : List (Instr × RmwOp)),
      ∃ u, exec q.1 s = .next u ∧
        s'.Issued u 4 (s'.me.loading t)
          (({ s'.access0 (.rmw q.2) (s.val64 b) n loc with data := (s.regVal t).setWidth 256, scope := c } : Access).into t)) ∧
  (∀ (s s' : State) (t b : Spec) (o : MOrd) (c : Scope) (z : Bool) (loc n : Nat), s.canRead t → s.canRead b →
    s'.me.speculative = false → n = (if z then 8 else 4) → locTag loc ≠ 1 → o ≠ .rlx →
    s.access s.cur .rmw false (s.val64 b) n = .ok (loc, s') →
    ∀ q ∈ ([(.amoSwap t b o c z, .swap), (.amoAdd t b o c z, .add), (.amoAnd t b o c z, .and),
        (.amoOr t b o c z, .or), (.amoXor t b o c z, .xor), (.amoMin t b o c z, .min), (.amoMax t b o c z, .max),
        (.amoMinu t b o c z, .minu), (.amoMaxu t b o c z, .maxu), (.amoFadd t b o c z, .fadd),
        (.cas t b o c z, .cas)] : List (Instr × RmwOp)),
      (s'.anyAcc (fun _ => true) = true → exec q.1 s = .next s.rewind) ∧
      (s'.anyAcc (fun _ => true) = false → s'.me.failed = none → (s'.endRegion s'.cur).canLoad t →
        ∃ u, exec q.1 s = .next u ∧
          (s'.endRegion s'.cur).Issued u 4 ((s'.endRegion s'.cur).me.loading t)
            (({ s'.access0 (.rmw q.2) (s.val64 b) n loc with data := (s.regVal t).setWidth 256, ord := o, scope := c,
                                                                        region := (s'.endRegion s'.cur).me.region } : Access).into t)))

/-- R41: extension registers are loaded and stored by one or four; a load holds the context until its access is performed; `xmv` and `c.xmv`
move a register into one, `xrd` reads one. -/
def Obligations.ExtensionRegisterForms : Prop :=
  ∀ (s s' : State) (n : XNo) (a m d : Spec) (o : BitVec 6) (loc : Nat), s.canRead a → s.canRead m → s.canWrite d →
    (∀ q ∈ ([(.xld n a o, n.val, 1), (.xld4 a o, 0, 4)] : List (Instr × Nat × Nat)),
      let va := s.val64 a + BitVec.ofNat 64 (8 * q.2.2 * o.toNat)
      s.access s.cur .read (q.2.2 == 1) va (8 * q.2.2) = .ok (loc, s') →
        ∃ u, exec q.1 s = .next u ∧
          s'.Issued u 4 { s'.me with wait := .access s'.nextId } (s'.access0 (.xld q.2.1) va (8 * q.2.2) loc)) ∧
    (∀ q ∈ ([(.xst n a o, [s'.me.x[n]]), (.xst4 a o, [s'.me.x[0], s'.me.x[1], s'.me.x[2], s'.me.x[3]])] :
        List (Instr × List Word)),
      let va := s.val64 a + BitVec.ofNat 64 (8 * q.2.length * o.toNat)
      s'.me.cst < 63 → s'.me.speculative = false →
      s.access s.cur .write (q.2.length == 1) va (8 * q.2.length) = .ok (loc, s') →
        ∃ u, exec q.1 s = .next u ∧
          s'.Issued u 4 { s'.me with cst := s'.me.cst + 1 }
            { s'.access0 .store va (8 * q.2.length) loc with
              data := BitVec.ofNat 256 (q.2.foldr (fun w acc => w.toNat + 2 ^ 64 * acc) 0) }) ∧
    (∀ q ∈ ([(.xmv n a, 4, a), (.cXmv m n, 2, m)] : List (Instr × Nat × Spec)),
      exec q.1 s = .next (s.setMe { s.me with x := s.me.x.set n (s.val64 q.2.2), pc := s.me.pc + wd q.2.1, pfx := none,
                                              retired := satAt (2 ^ 64 - 1) (s.me.retired + 1) })) ∧
    (∃ u, exec (.xrd d n) s = .next u ∧ s.Wrote u 4 d (scalar s.me.x[n]))

/-- R162, R172, R177, R211: a load that its home has taken up and that no earlier access holds back is performed: its value goes to its
register and to `lt`, the access is no longer outstanding, cld falls, and memory is unchanged. Said for an aligned location with no recorded
damage, outside the device registers, of whose line no earlier value is open to the context (R190). R171, R172, R215: a store that its home
has taken up is performed: its bytes stand at its location, little-endian, and every other byte of memory reads as before. Said for a
location with no recorded damage in a near window or in HBM, in a memory of canonical form. R162: the home takes up an access to a near
window other than cluster-shared memory at once, and does nothing else. -/
def Obligations.AccessesArePerformed : Prop :=
  (∀ (s : State) (id : Nat) (a : Access) (g : Bool), Tab.get? s.acc id = some a → a.kind = .load g → a.homed = true → a.sent = false →
    a.loose = false → a.n = 1 ∨ a.n = 2 ∨ a.n = 4 ∨ a.n = 8 ∨ a.n = 16 → locTag a.loc ≠ 21 →
    s.pathWaits a.place a.loc = false → s.mayPerform id a = true → s.granule (a.loc / 64) = Gran.clean → a.loc % a.n = 0 →
    (s.thread a.place).staleLines a.place (a.loc / 32) (s.bytesAt (a.loc / 32 * 32) 32) (Tab.getD s.past (a.loc / 32) []) = [] →
    ∃ u, exec (.loadValueReturn id) s = .next u ∧
      u = { s with threads := u.threads, acc := Tab.del s.acc id } ∧
      (∀ p, p ≠ a.place → u.thread p = s.thread p) ∧
      let v : Reg := if a.n = 16 then BitVec.ofNat 128 (s.readN a.loc 16)
        else scalar (if g then (BitVec.ofNat (8 * a.n) (s.readN a.loc a.n)).signExtend 64 else BitVec.ofNat 64 (s.readN a.loc a.n))
      (∀ d, a.dst = some d → d ≠ 0 → (u.thread a.place).regs[d] = v) ∧
      (a.wlt = true → (u.thread a.place).regs[(0 : Spec)] = v) ∧
      (∀ r : Spec, a.dst ≠ some r → (r ≠ 0 ∨ a.wlt = false) → (u.thread a.place).regs[r] = (s.thread a.place).regs[r]) ∧
      (u.thread a.place).cld = (s.thread a.place).cld - 1 ∧ (u.thread a.place).pc = (s.thread a.place).pc) ∧
  (∀ (s : State) (id : Nat) (a : Access), Tab.get? s.acc id = some a → a.kind = .store → a.homed = true → a.sent = false →
    a.loose = false → locTag a.loc = 0 ∨ locTag a.loc = 18 ∨ locTag a.loc = 19 ∨ locTag a.loc = 20 →
    locTag (a.loc + a.n) = locTag a.loc → s.pathWaits a.place a.loc = false → s.mayPerform id a = true →
    s.granule (a.loc / 64) = Gran.clean → Memory.wf s.mem = true →
    ∃ u, exec (.storePerformed id) s = .next u ∧
      (∀ k, k < a.n → u.byteAt (a.loc + k) = BitVec.ofNat 8 (a.data.toNat / 2 ^ (8 * k))) ∧
      (∀ l, l < a.loc ∨ a.loc + a.n ≤ l → u.byteAt l = s.byteAt l) ∧
      (u.thread a.place).cst = (s.thread a.place).cst - 1 ∧ (∀ p, p ≠ a.place → u.thread p = s.thread p) ∧
      u = { s with threads := u.threads, acc := Tab.del s.acc id, mem := u.mem, gran := u.gran, clus := u.clus, past := u.past, rels := u.rels,
                   nextId := u.nextId } ∧ (a.entry = none → u.clus = s.clus)) ∧
  (∀ (s : State) (id : Nat) (a : Access), Tab.get? s.acc id = some a → a.homed = false → 18 ≤ locTag a.loc → locTag a.loc ≠ 19 →
    s.hub.frozen = false → s.linkHeld a.place a.loc = false → s.mayPerform id a = true → Tab.get? s.waits (a.loc / 32) = none →
    exec (.homeRequest (.access id)) s = .next { s with acc := Tab.put s.acc id { a with homed := true } })

/-- R179, R186, R187, R192, R196: a fence waits for every earlier access of the context, whatever its order (log entry 20); then it ends the
region, so that no line keeps a mark of the context, and memory is unchanged. What follows is said of the model's clocks, the form that log
entry 100 gives to happens-before: an acquire fence takes over what the context has heard from releases whose scope meets its own; a release
fence is kept under its scope, for the stores after it, with the clock that the context then has: all that it knows, and its own stores up
to now. -/
def Obligations.FencesWaitAndEndTheRegion : Prop :=
  ∀ (s : State) (c : Scope) (o : MOrd), s.me.speculative = false →
    (s.anyAcc (fun _ => true) = true → exec (.fence c o) s = .next s.rewind) ∧
    (s.anyAcc (fun _ => true) = false → s.me.failed = none →
      ∃ t, exec (.fence c o) s = .next t ∧
        t.me = { s.me with region := s.me.region + 1, pc := s.me.pc + 4, pfx := none, retired := t.me.retired, known := t.me.known,
                           missed := t.me.missed, relF := t.me.relF } ∧
        (isAcq o = false → t.me.known = s.me.known ∧ t.me.missed = s.me.missed) ∧
        (isAcq o = true → ∀ r ∈ s.me.heard, meets (.ctx r.place) r.scope (.ctx s.cur) c = true →
          ∀ e ∈ r.clock, e.2 ≤ Tab.getD t.me.known e.1 0) ∧
        (isRel o = false → t.me.relF = s.me.relF) ∧
        (isRel o = true → t.me.relF = (c, Tab.put t.me.known s.cur s.nextId) :: s.me.relF.filter (fun e => e.1 != c)) ∧
        (∀ e ∈ t.marks, ∀ m ∈ e.2, m.place ≠ s.cur) ∧ (∀ e ∈ (t.core (coreOf s.cur)).filter, e.2 ≠ s.cur) ∧
        (∀ p, p ≠ s.cur → t.thread p = s.thread p) ∧
        t = { s with threads := t.threads, marks := t.marks, cores := t.cores, dir := t.dir })

/-- R180, R181: an empty range, and one within a page of the module's own memory, are left alone. Over a range within one page of host
memory, or of a peer's whose port is up, `cwb` issues a write-back of the lines whose copies are Modified, which counts in cst until the
other side has acknowledged it, and does nothing where there is none; `cinv` first has the Modified copies written back, holding its context
until that is acknowledged and then running again, and drops every copy in the range once none is Modified and no engine holds a line of it
(R164). The hypothesis that no access to such memory and no acquire is outstanding is log entry 21. R182: a prefetch never faults on its
translation: where no entry permits it, and in the own and the chip scratchpad, it does nothing; where an entry permits it, and in
cluster-shared memory, it issues requests that nothing waits for: one for the line of its address, or with hint 2 one for each line of the
256-byte block. -/
def Obligations.RangesAndPrefetch : Prop :=
  (∀ (s s' : State) (c : Scope) (a b : Spec) (loc n : Nat), s.canRead a → s.canRead b → n = (s.val64 b).toNat →
    s.me.ordered = false → s.anyAcc (fun x => isRemote x.loc || isAcq x.ord) = false → s.me.cst < 63 →
    (n = 0 → exec (.cwb c a b) s = .next (s.fin 4) ∧ exec (.cinv c a b) s = .next (s.fin 4)) ∧
    (0 < n → (s.val64 a).toNat % 0x10000 + n ≤ 0x10000 → s.access s.cur .read false (s.val64 a) 1 = .ok (loc, s') →
      let inside (l : Nat) : Prop := loc < l * 32 + 32 ∧ l * 32 < loc + n
      Tab.wf s.copies = true → (∀ l x, Tab.get? s.copies l = some x → inside l → s'.engineLine l = false) →
      (isRemote loc = false → exec (.cwb c a b) s = .next (s'.fin 4) ∧ exec (.cinv c a b) s = .next (s'.fin 4)) ∧
      (isRemote loc = true → s'.portRefuses loc = false →
        ((∀ l x, Tab.get? s.copies l = some x → inside l → x.dirty = false) → exec (.cwb c a b) s = .next (s'.fin 4)) ∧
        (∀ l x, Tab.get? s.copies l = some x → inside l → x.dirty = true →
          ∃ t ls first, exec (.cwb c a b) s = .next t ∧
            (∀ k, k ∈ ls ↔ inside k ∧ ∃ y, Tab.get? s.copies k = some y ∧ y.dirty = true) ∧ ls.head? = some first ∧
            s'.Issued t 4 { s'.me with cst := s'.me.cst + 1 }
              { s'.access0 (.cwb ls) (s.val64 a) 0 (first * 32) with
                homed := true, sent := true, vas := ls.map (fun _ => s.val64 a) }) ∧
        ((∀ l x, Tab.get? s.copies l = some x → inside l → x.dirty = false) →
          ∃ t, exec (.cinv c a b) s = .next t ∧ t.me = s'.me.fin 4 ∧ (∀ l, inside l → Tab.get? t.copies l = none) ∧
            (∀ l, ¬ inside l → Tab.get? t.copies l = Tab.get? s.copies l) ∧ (∀ p, p ≠ s.cur → t.thread p = s'.thread p) ∧
            t = { s' with threads := t.threads, copies := t.copies, dir := t.dir, gran := t.gran }) ∧
        (∀ l x, Tab.get? s.copies l = some x → inside l → x.dirty = true →
          ∃ t ls first, exec (.cinv c a b) s = .next t ∧
            (∀ k, k ∈ ls ↔ inside k ∧ ∃ y, Tab.get? s.copies k = some y ∧ y.dirty = true) ∧ ls.head? = some first ∧
            Tab.get? t.acc s'.nextId = some { s'.access0 (.cwb ls) (s.val64 a) 0 (first * 32) with
              homed := true, sent := true, vas := ls.map (fun _ => s.val64 a) } ∧
            (∀ id, id ≠ s'.nextId → Tab.get? t.acc id = Tab.get? s'.acc id) ∧
            t.me = ({ s'.me with cst := s'.me.cst + 1, wait := .access s'.nextId } : Thread).rewind ∧
            (∀ p, p ≠ s.cur → t.thread p = s'.thread p) ∧
            t = { s' with threads := t.threads, acc := t.acc, nextId := s'.nextId + 1 })))) ∧
  (∀ (s s' : State) (a : Spec) (h : BitVec 3) (loc : Nat), s.canRead a →
    ((s.val64 a).toNat < 0x7F0000000000 → s.prefetchLoc (s.val64 a) = none → exec (.pf a h) s = .next (s.fin 4)) ∧
    (0x7F0000000000 ≤ (s.val64 a).toNat → (s.val64 a).toNat < 0x7F0000020000 → exec (.pf a h) s = .next (s.fin 4)) ∧
    (0x7F0300000000 ≤ (s.val64 a).toNat → (s.val64 a).toNat < 0x7F0310000000 → exec (.pf a h) s = .next (s.fin 4)) ∧
    (((s.val64 a).toNat < 0x7F0000000000 ∧ s.prefetchLoc (s.val64 a) = some (loc, s')) ∨
        (0x7F0200000000 ≤ (s.val64 a).toNat ∧ (s.val64 a).toNat < 0x7F0200500000 ∧ s' = s ∧
          loc = 19 * 2 ^ 64 + cluOfPlace s.cur * 0x800000 + ((s.val64 a).toNat - 0x7F0200000000)) →
      let ask (l : Nat) : Access := { s'.access0 (.pf h.toNat) (s.val64 a) 0 l with loose := true }
      (h ≠ 2 → ∃ t, exec (.pf a h) s = .next t ∧ s'.Issued t 4 s'.me (ask (loc / 32 * 32))) ∧
      (h = 2 → ∃ t, exec (.pf a h) s = .next t ∧ t.me = s'.me.fin 4 ∧ t.nextId = s'.nextId + 8 ∧
        (∀ i, i < 8 → Tab.get? t.acc (s'.nextId + i) = some (ask (loc / 256 * 256 + i * 32))) ∧
        t = { s' with threads := t.threads, acc := t.acc, nextId := t.nextId })))

/-- R83, R216: `wait` and `c.wait` hold until every counter is at or below its limit, 15 meaning any; then a limit of 0 on cst reports a
failed store, at the address of the earliest, with its pc and the number of failed stores in the syndrome and its class. -/
def Obligations.WaitsOnCounters : Prop :=
  ∀ (s : State) (ld st cp tl n : BitVec 4) (k : BitVec 2),
    let ok := (ld = 15 ∨ s.me.cld ≤ ld.toNat) ∧ (st = 15 ∨ s.me.cst ≤ st.toNat) ∧ (cp = 15 ∨ s.me.ccp ≤ cp.toNat) ∧
      (tl = 15 ∨ s.me.ctl ≤ tl.toNat)
    let c := if k = 0 then s.me.cld else if k = 1 then s.me.cst else if k = 2 then s.me.ccp else s.me.ctl
    let syn (pc : Word) : Word := BitVec.ofNat 64 (pc.toNat % 2 ^ 48 + (if s.me.nfailed < 255 then s.me.nfailed else 255) * 2 ^ 48)
    let report (va pc : Word) : Flt := { code := 0x001A, addr := va, mcls := some s.me.failedCls, syn := syn pc }
    (ok → (st ≠ 0 ∨ s.me.failed = none) → exec (.wait ld st cp tl) s = .next (s.fin 4)) ∧
    (¬ok → exec (.wait ld st cp tl) s = .next s.rewind) ∧
    ((n = 15 ∨ c ≤ n.toNat) → (n ≠ 0 ∨ k ≠ 1 ∨ s.me.failed = none) → exec (.cWait n k) s = .next (s.fin 2)) ∧
    (¬(n = 15 ∨ c ≤ n.toNat) → exec (.cWait n k) s = .next s.rewind) ∧
    (∀ id va pc, s.me.failed = some (id, va, pc) →
      (ok → st = 0 → exec (.wait ld st cp tl) s = .next (s.takeFault (report va pc))) ∧
      (s.me.cst = 0 → exec (.cWait 0 1) s = .next (s.takeFault (report va pc))))

/-- R174, R175: what the eight lanes of a bank-decoded load hold, and the rounding environment after it. -/
def ldsLanes (s : State) (c : Cursor) (r : RawBlock) (vals : List Val) : Reg × Fp :=
  match laneKind c.v with
  | .copied => (ofLanes 16 (eight c.first (blockCodes r)), { s.fp with fl := 0 })
  | .int => (ofLanes 16 ((eight c.first vals).map (fun v => match v with
      | .fin g n _ k => ofInt 16 ((if g then -1 else 1) * ((n * 2 ^ k.toNat : Nat) : Int))
      | _ => 0)), { s.fp with fl := 0 })
  | .bf =>
    let q := lanesFp (fun j p => roundE bf16 (((eight c.first vals)[j]?).getD (.zero false)) p) 8 0 s.fp
    (ofLanes 16 q.1, q.2)

/-- R173 to R176: a bank-decoded load writes the eight elements at its cursor; a bank-decoded store writes its eight lanes into the bank,
through the quantiser where the bank is blocked. -/
def Obligations.BankDecodedAccesses : Prop :=
  ∀ (s : State) (d t a : Spec) (i : BitVec 6) (c : Cursor), s.canRead a → s.scratchBusy = false →
    s.cursor (s.val64 a + BitVec.ofNat 64 (16 * i.toNat)) = .ok c →
    (∀ s' r vals, s.me.cld < 63 → s.rawAt c = .ok (r, s') → blockVals c.v r = some vals → r.scale ≠ 255 → s'.canWrite d →
      ∃ u, exec (.lds d a i) s = .next u ∧
        (s'.withFp (ldsLanes s' c r vals).2).Wrote u 4 d (ldsLanes s' c r vals).1) ∧
    (s.canRead t → s.me.cst < 63 → bfSpar c.v = 0 → bfBlockLen c.v = 0 →
      let q := encElems (eFmt (bfElem c.v)) false 0 (stsVals c.v (s.regVal t)) s.fp
      exec (.sts t a i) s = .next (((s.withFp q.fp).bankWrite c.bank c.off
        (leBytes c.len (packCodes (eFmt (bfElem c.v)).w q.codes)) (bankVa c.bank c.off)).fin 4)) ∧
    (∀ s' r, s.canRead t → s.me.cst < 63 → bfSpar c.v = 0 → bfBlockLen c.v ≠ 0 → s.rawAt c = .ok (r, s') →
      let old := scaledVals c.v r
      let q := quantise (eFmt (bfElem c.v)) (old.take c.first ++ stsVals c.v (s.regVal t) ++ old.drop (c.first + 8)) none s'.fp
      let u := (s'.withFp (if q.sat then q.fp.raise fSat else q.fp)).bankWrite c.bank c.off
        (blockBytes c.v q.scale q.oe q.codes) (bankVa c.bank c.off)
      exec (.sts t a i) s = .next ((if bfSp c.v then
        u.bankWrite c.bank (scaleOff c.v c.off) (leBytes 1 (q.scale + 127).toNat) (bankVa c.bank c.off) else u).fin 4))

/-! ### Vector instructions (04_numbers.md, 05_vectors.md) -/

/-- R100, R101, R127, R130, R134: the float arithmetic of each lane is exact and rounded once, from lane 0 up, under the rounding mode and
the generator of the context, whose flags and state it leaves there; two sources, or three for the fused forms. R32, R127: the compact float
forms are `vadd` and `vfma` on the registers and the type that their fields name; `c.vadd` of type code 1 adds 32-bit integers. -/
def Obligations.FloatArithmetic : Prop :=
  (∀ (s : State) (t : FTy) (d a b : Spec), s.me.useCheck (s.me.ftyBad 0 vecWidths t) = .ok () →
    s.canRead a → s.canRead b → s.canWrite d →
    let F := s.me.ffmt t
    (∀ q ∈ ([(.vaddF t d a b, fun rm x y => sumVals rm [x, y]), (.vsubF t d a b, fun rm x y => sumVals rm [x, y.negate]),
        (.vmulF t d a b, fun _ x y => mulVal x y), (.vdivF t d a b, fun _ x y => divVal x y)] :
          List (Instr × (Nat → Val → Val → Val × Flags))),
      let r := lanesFp (fun i p =>
        let v := q.2 p.rm (decodeF F (lane F.w (s.regVal a) i)) (decodeF F (lane F.w (s.regVal b) i))
        roundE F v.1 (p.raise v.2)) (128 / F.w) 0 s.fp
      ∃ u, exec q.1 s = .next u ∧ (s.withFp r.2).Wrote u 4 d (ofLanes F.w r.1)) ∧
    (s.canRead d →
      ∀ q ∈ ([(.vfma t d a b, false, false), (.vfms t d a b, false, true), (.vfnma t d a b, true, true),
          (.vfnms t d a b, true, false)] : List (Instr × Bool × Bool)),
        let r := lanesFp (fun i p =>
          let m := mulVal (decodeF F (lane F.w (s.regVal a) i)) (decodeF F (lane F.w (s.regVal b) i))
          let z := decodeF F (lane F.w (s.regVal d) i)
          let v := sumVals p.rm [if q.2.1 then m.1.negate else m.1, if q.2.2 then z.negate else z]
          roundE F v.1 (p.raise (m.2 ||| v.2))) (128 / F.w) 0 s.fp
        ∃ u, exec q.1 s = .next u ∧ (s.withFp r.2).Wrote u 4 d (ofLanes F.w r.1))) ∧
  (∀ (s : State) (a b d : CReg), s.canRead (cReg a) → s.canRead (cReg b) → s.canRead (cReg d) → s.canWrite (cReg d) →
    (∀ q ∈ ([(0, fp32), (2, bf16), (3, fp16)] : List (BitVec 2 × FFmt)),
      let r := lanesFp (fun i p =>
        let v := sumVals p.rm [decodeF q.2 (lane q.2.w (s.regVal (cReg a)) i), decodeF q.2 (lane q.2.w (s.regVal (cReg b)) i)]
        roundE q.2 v.1 (p.raise v.2)) (128 / q.2.w) 0 s.fp
      ∃ u, exec (.cVadd q.1 b a d) s = .next u ∧ (s.withFp r.2).Wrote u 2 (cReg d) (ofLanes q.2.w r.1)) ∧
    (∃ u v, exec (.cVadd 1 b a d) s = .next u ∧ s.Wrote u 2 (cReg d) v ∧
      ∀ i, i < 4 → lane 32 v i = (lane 32 (s.regVal (cReg a)) i + lane 32 (s.regVal (cReg b)) i) % 2 ^ 32) ∧
    (∀ q ∈ ([(0, fp32), (1, bf16), (2, fp16)] : List (BitVec 2 × FFmt)),
      let r := lanesFp (fun i p =>
        let m := mulVal (decodeF q.2 (lane q.2.w (s.regVal (cReg a)) i)) (decodeF q.2 (lane q.2.w (s.regVal (cReg b)) i))
        let v := sumVals p.rm [m.1, decodeF q.2 (lane q.2.w (s.regVal (cReg d)) i)]
        roundE q.2 v.1 (p.raise (m.2 ||| v.2))) (128 / q.2.w) 0 s.fp
      ∃ u, exec (.cVfma q.1 b a d) s = .next u ∧ (s.withFp r.2).Wrote u 2 (cReg d) (ofLanes q.2.w r.1)))

/-- R131, R132: a lane of the minimum and the maximum of two encodings, and its flags: a NaN yields the other operand, two the
canonical NaN, −0 is below +0. -/
def minMaxLane (hi : Bool) (F : FFmt) (x y : Nat) : Nat × Flags :=
  let u := decodeF F x
  let v := decodeF F y
  let less := u.lt v || (u.isZero && v.isZero && u.neg && !v.neg)
  let more := v.lt u || (u.isZero && v.isZero && v.neg && !u.neg)
  (if u.isNan && v.isNan then F.nan else if u.isNan then y else if v.isNan then x
   else if less then (if hi then y else x) else if more then (if hi then x else y) else x,
   if u.isSig || v.isSig then fNv else 0)

/-- R131, R132: minimum, maximum, absolute value, negation and the four relations lane by lane, with the flags they raise; a relation gives
a lane of ones or of zeros. R133: the reductions of all lanes into lane 0: the sum exact and rounded once; the minimum and the maximum by
R131, taken over the lanes from the last one back. R135, R136: the dot products of groups of lanes, added to the 32-bit lanes of the
destination. One exact sum of all terms decides the special cases (log entry 95). -/
def Obligations.FloatSelectionsAndSums : Prop :=
  (∀ (s : State) (t : FTy) (d a b : Spec), s.me.useCheck (s.me.ftyBad 0 vecWidths t) = .ok () →
    s.canRead a → s.canRead b → s.canWrite d →
    let F := s.me.ffmt t
    let top := 2 ^ (F.e + F.m)
    (∀ q ∈ ([(.vminF t d a b, minMaxLane false F), (.vmaxF t d a b, minMaxLane true F)] ++
        ([(.vceqF t d a b, 0), (.vcltF t d a b, 1), (.vcleF t d a b, 2), (.vcunF t d a b, 3)] : List (Instr × Nat)).map
          (fun e => (e.1, fun x y => (if floatRelation e.2 (decodeF F x) (decodeF F y) then 2 ^ F.w - 1 else 0,
            if e.2 = 1 ∨ e.2 = 2 then (if (decodeF F x).isNan || (decodeF F y).isNan then fNv else 0)
            else (if (decodeF F x).isSig || (decodeF F y).isSig then fNv else 0)))) : List (Instr × (Nat → Nat → Nat × Flags))),
      let r := lanesFp (fun i p => let v := q.2 (lane F.w (s.regVal a) i) (lane F.w (s.regVal b) i); (v.1, p.raise v.2))
        (128 / F.w) 0 s.fp
      ∃ u, exec q.1 s = .next u ∧ (s.withFp r.2).Wrote u 4 d (ofLanes F.w r.1)) ∧
    (∀ q ∈ ([(.vabsF t d a, fun x => x % top), (.vnegF t d a, fun x => if x / top % 2 = 1 then x % top else x % top + top)] :
        List (Instr × (Nat → Nat))),
      let r := lanesFp (fun i p =>
        let x := lane F.w (s.regVal a) i
        if (decodeF F x).isNan then (F.nan, p.raise (if (decodeF F x).isSig then fNv else 0)) else (q.2 x, p)) (128 / F.w) 0 s.fp
      ∃ u, exec q.1 s = .next u ∧ (s.withFp r.2).Wrote u 4 d (ofLanes F.w r.1))) ∧
  (∀ (s : State) (t : FTy) (d a : Spec), s.me.useCheck (s.me.ftyBad 0 vecWidths t) = .ok () → s.canRead a → s.canWrite d →
    let F := s.me.ffmt t
    let xs := (List.range (128 / F.w)).map (lane F.w (s.regVal a))
    (let vs := xs.map (decodeF F)
     let v := sumVals s.me.rm vs
     let r := roundE F v.1 (s.fp.raise (v.2 ||| (if vs.contains (.inf false) && vs.contains (.inf true) then fNv else 0)))
     ∃ u, exec (.vrsumF t d a) s = .next u ∧ (s.withFp r.2).Wrote u 4 d (ofLanes F.w [r.1])) ∧
    (∀ q ∈ ([(.vrminF t d a, false), (.vrmaxF t d a, true)] : List (Instr × Bool)),
      let r := pickLanes q.2 F xs s.fp
      ∃ u, exec q.1 s = .next u ∧ (s.withFp r.2).Wrote u 4 d (ofLanes F.w [r.1]))) ∧
  (∀ (s : State) (d a b : Spec), s.canRead a → s.canRead b → s.canRead d → s.canWrite d →
    (∀ t : FTy, s.me.useCheck (s.me.ftyBad 0 [4, 8, 16] t) = .ok () →
      let F := s.me.ffmt t
      let g := 32 / F.w
      let els (r : Reg) (j : Nat) : List Val := (List.range g).map (fun k => decodeF F (lane F.w r (g * j + k)))
      let r := lanesFp (fun j p =>
        let ps := ((els (s.regVal a) j).zip (els (s.regVal b) j)).map (fun e => mulVal e.1 e.2)
        let v := sumVals p.rm (decodeF fp32 (lane 32 (s.regVal d) j) :: ps.map (fun e => e.1))
        roundE fp32 v.1 (p.raise (ps.foldl (fun f e => f ||| e.2) v.2))) 4 0 s.fp
      ∃ u, exec (.vdot t d a b) s = .next u ∧ (s.withFp r.2).Wrote u 4 d (ofLanes 32 r.1)) ∧
    (∀ t : IntTy, intW t = 8 ∨ intW t = 16 →
      ∃ u v, exec (.vdoti t d a b) s = .next u ∧ s.Wrote u 4 d v ∧
        ∀ j, j < 4 → (lane 32 v j : Int) = ((lane 32 (s.regVal d) j : Int) + ((List.range (32 / intW t)).map (fun k =>
          laneInt (intW t) (intSigned t) (lane (intW t) (s.regVal a) (32 / intW t * j + k)) *
          laneInt (intW t) (intSigned t) (lane (intW t) (s.regVal b) (32 / intW t * j + k)))).sum) % 2 ^ 32))

/-- R137 to R140: the integer instructions, said of every lane of the result; the 64-bit sum of the lanes; `vand`, `vor`, `vxor` and `vsel`
work on all 128 bits. R138: the saturating forms limit each lane to its type's range, and raise sat if they limited one. -/
def Obligations.IntegerLanes : Prop :=
  (∀ (s : State) (t : IntTy) (d a b : Spec), s.canRead a → s.canRead b → s.canWrite d →
    let w := intW t
    let val (x : Nat) : Int := laneInt w (intSigned t) x
    (∀ q ∈ ([(.vaddI t d a b, fun x y => (x + y) % 2 ^ w), (.vsubI t d a b, fun x y => (x + 2 ^ w - y) % 2 ^ w),
        (.vmulI t d a b, fun x y => x * y % 2 ^ w),
        (.vminI t d a b, fun x y => if val x ≤ val y then x else y), (.vmaxI t d a b, fun x y => if val x ≤ val y then y else x),
        (.vshl t d a b, fun x y => if y < w then x * 2 ^ y % 2 ^ w else 0),
        (.vshr t d a b, fun x y => ((val x / 2 ^ (min y w)) % 2 ^ w).toNat),
        (.vceqI t d a b, fun x y => if x = y then 2 ^ w - 1 else 0),
        (.vcltI t d a b, fun x y => if val x < val y then 2 ^ w - 1 else 0)] : List (Instr × (Nat → Nat → Nat))),
      ∃ u v, exec q.1 s = .next u ∧ s.Wrote u 4 d v ∧
        ∀ i, i < 128 / w → lane w v i = q.2 (lane w (s.regVal a) i) (lane w (s.regVal b) i)) ∧
    (∀ q ∈ ([(.vand t d a b, s.regVal a &&& s.regVal b), (.vor t d a b, s.regVal a ||| s.regVal b),
        (.vxor t d a b, s.regVal a ^^^ s.regVal b)] : List (Instr × Reg)),
      ∃ u, exec q.1 s = .next u ∧ s.Wrote u 4 d q.2) ∧
    (s.canRead d → ∃ u, exec (.vsel t d a b) s = .next u ∧
      s.Wrote u 4 d ((s.regVal a &&& s.regVal d) ||| (s.regVal b &&& ~~~s.regVal d))) ∧
    (∃ u, exec (.vrsumI t d a) s = .next u ∧ s.Wrote u 4 d (scalar (BitVec.ofInt 64
      ((List.range (128 / w)).map (fun i => val (lane w (s.regVal a) i))).sum)))) ∧
  (∀ (s : State) (t : IntTy) (d a b : Spec), s.canRead a → s.canRead b → s.canWrite d →
    let w := intW t
    let val (x : Nat) : Int := laneInt w (intSigned t) x
    let lo : Int := if intSigned t then -2 ^ (w - 1) else 0
    let hi : Int := if intSigned t then 2 ^ (w - 1) - 1 else 2 ^ w - 1
    ∀ q ∈ ([(.vadds t d a b, fun x y => x + y), (.vsubs t d a b, fun x y => x - y)] : List (Instr × (Int → Int → Int))),
      let out (i : Nat) : Int := q.2 (val (lane w (s.regVal a) i)) (val (lane w (s.regVal b) i))
      ∃ u v fl, exec q.1 s = .next u ∧ (s.withFp { s.fp with fl }).Wrote u 4 d v ∧
        (∀ i, i < 128 / w → (lane w v i : Int) = max lo (min hi (out i)) % 2 ^ w) ∧
        (fl = if ∀ i, i < 128 / w → lo ≤ out i ∧ out i ≤ hi then 0 else fSat))

/-- R141 to R143: the permutes, said of every element of the result. -/
def Obligations.PermutesMoveElements : Prop :=
  ∀ (s : State) (d a b : Spec), s.canRead a → s.canRead b → s.canRead d → s.canWrite d →
    let x := s.regVal a
    let y := s.regVal b
    let z := s.regVal d
    (∀ q ∈ ([(.vzlo d a b, [lane 32 x 0, lane 32 y 0, lane 32 x 1, lane 32 y 1]),
        (.vzhi d a b, [lane 32 x 2, lane 32 y 2, lane 32 x 3, lane 32 y 3]),
        (.vuev d a b, [lane 32 x 0, lane 32 x 2, lane 32 y 0, lane 32 y 2]),
        (.vuod d a b, [lane 32 x 1, lane 32 x 3, lane 32 y 1, lane 32 y 3])] : List (Instr × List Nat)),
      ∃ u v, exec q.1 s = .next u ∧ s.Wrote u 4 d v ∧ ∀ i, i < 4 → lane 32 v i = (q.2[i]?).getD 0) ∧
    (∃ u v, exec (.vshuf d a b) s = .next u ∧ s.Wrote u 4 d v ∧ ∀ i, i < 16 → lane 8 v i =
      (if lane 8 y i < 16 then lane 8 x (lane 8 y i) else if lane 8 y i < 32 then lane 8 z (lane 8 y i - 16) else 0)) ∧
    (∃ u v, exec (.vrev d a) s = .next u ∧ s.Wrote u 4 d v ∧ ∀ i, i < 16 → lane 8 v i = lane 8 x (15 - i)) ∧
    (∃ u v, exec (.vexl d a b) s = .next u ∧ s.Wrote u 4 d v ∧ ∀ i, i < 16 →
      let n := min (lo64 y).toNat 16
      lane 8 v i = if i + n < 16 then lane 8 x (i + n) else lane 8 z (i + n - 16)) ∧
    (∀ (n : BitVec 4) (c : BitVec 2), let w := 8 * 2 ^ c.toNat
      n.toNat < 128 / w →
      (∃ u v, exec (.vbcst d a n c) s = .next u ∧ s.Wrote u 4 d v ∧ ∀ i, i < 128 / w → lane w v i = lane w x n.toNat) ∧
      (∃ u, exec (.vext d a n c) s = .next u ∧ s.Wrote u 4 d (scalar (BitVec.ofNat 64 (lane w x n.toNat)))) ∧
      (∃ u v, exec (.vins d a n c) s = .next u ∧ s.Wrote u 4 d v ∧
        ∀ i, i < 128 / w → lane w v i = if i = n.toNat then lane w x 0 else lane w z i))

/-- R144 to R146: a special function's lane. A result that R146 fixes is the rounded value of `sfuSpecial`; of the other lanes the result
is left open within the bound of R145, and the statement says that bound: the encoding is finite or infinite by the exact value's
rounding, and within the bound of it. -/
def sfuLaneOk (op : Nat) (F : FFmt) (c e : Nat) : Prop :=
  match sfuSpecial F op (decodeF F c) with
  | some v => e = (round F v.1 { rm := 0, srs := 0, fl := 0 }).1
  | none => ∀ sg n dn k, decodeF F c = .fin sg n dn k →
      let v := sfuExact op sg n dn k
      let r := round F v { rm := 0, srs := 0, fl := 0 }
      e = (if r.2.1 then F.infEnc v.neg else e) ∧ (r.2.1 = false → e = r.1 ∨ withinUlps F (sfuBound F op) v (decodeF F e) = true)

/-- R144 to R146: the special functions complete, each lane as `sfuLaneOk` allows; `vsqrt` is the exact root rounded. Rests on log entry 6
for the values that the spec leaves open. -/
def Obligations.SpecialFunctionsWithinBounds : Prop :=
  ∀ (s : State) (t : FTy) (d a : Spec), s.me.useCheck (s.me.ftyBad 0 vecWidths t) = .ok () → s.canRead a → s.canWrite d →
    let F := s.me.ffmt t
    (∀ q ∈ ([(.vrcp t d a, 0), (.vrsqrt t d a, 1), (.vexp2 t d a, 3), (.vlog2 t d a, 4), (.vsin t d a, 5), (.vcos t d a, 6),
        (.vtanh t d a, 7), (.vsigm t d a, 8), (.verf t d a, 9)] : List (Instr × Nat)),
      ∃ u es fl, exec q.1 s = .next u ∧ (s.withFp { s.fp with fl }).Wrote u 4 d (ofLanes F.w es) ∧ es.length = 128 / F.w ∧
        ∀ i, i < 128 / F.w → sfuLaneOk q.2 F (lane F.w (s.regVal a) i) ((es[i]?).getD 0)) ∧
    (let r := lanesFp (fun i p =>
        let v := sqrtVal (decodeF F (lane F.w (s.regVal a) i))
        roundE F v.1 (p.raise v.2)) (128 / F.w) 0 s.fp
     ∃ u, exec (.vsqrt t d a) s = .next u ∧ (s.withFp r.2).Wrote u 4 d (ofLanes F.w r.1))

/-- R119 to R125: the conversions, lane by lane: between float formats, to integers and from them, into and out of one register block, the
class of each lane, and the packing of 4- and 6-bit elements. R99, R127: a format register that holds no format is a format-use fault, which
logs its value and its number. -/
def Obligations.ConversionsLaneByLane : Prop :=
  (∀ (s : State) (d a : Spec), s.canRead a → s.canWrite d →
    let x := s.regVal a
    (∀ t u' : FTy, s.me.useCheck (s.me.ftyBad 0 vecWidths t ++ s.me.ftyBad 0 vecWidths u') = .ok () →
      let T := s.me.ffmt t
      let U := s.me.ffmt u'
      let r := lanesFp (fun i p => let v := decodeF U (lane U.w x i); roundE T v (p.raise (if v.isSig then fNv else 0)))
        (128 / max U.w T.w) 0 s.fp
      ∃ u, exec (.cvt t u' d a) s = .next u ∧ (s.withFp r.2).Wrote u 4 d (ofLanes T.w r.1)) ∧
    (∀ (t : CvtInt) (u' : FTy), s.me.useCheck (s.me.cvtBad t ++ s.me.ftyBad 0 vecWidths u') = .ok () →
      let T := s.me.intSide t
      let U := s.me.ffmt u'
      let r := lanesFp (fun i p =>
        let v := decodeF U (lane U.w x i)
        let k := roundInt T.1 T.2 v (p.raise (if v.isSig then fNv else 0))
        (k.1, k.2.2)) (128 / max U.w T.1) 0 s.fp
      ∃ u, exec (.cvti t u' d a) s = .next u ∧ (s.withFp r.2).Wrote u 4 d (ofLanes T.1 r.1)) ∧
    (∀ (t : FTy) (u' : CvtInt), s.me.useCheck (s.me.ftyBad 0 vecWidths t ++ s.me.cvtBad u') = .ok () →
      let T := s.me.ffmt t
      let U := s.me.intSide u'
      let r := lanesFp (fun i p => roundE T (Val.ofInt (laneInt U.1 U.2 (lane U.1 x i))) p) (128 / max U.1 T.w) 0 s.fp
      ∃ u, exec (.cvtf t u' d a) s = .next u ∧ (s.withFp r.2).Wrote u 4 d (ofLanes T.w r.1)) ∧
    (∀ t u' : FTy, s.me.useCheck (s.me.ftyBad 2 [4, 6, 8] t ++ s.me.ftyBad 0 [16] u') = .ok () →
      let U := s.me.ffmt u'
      let q := quantise (s.me.efmt t) ((List.range (128 / U.w)).map (fun i => decodeF U (lane U.w x i))) none s.fp
      ∃ u, exec (.qnt t u' d a) s = .next u ∧ (s.withFp (if q.sat then q.fp.raise fSat else q.fp)).Wrote u 4 d
        (BitVec.ofNat 128 (packCodes (s.me.efmt t).w q.codes % 2 ^ 120 + (q.scale + 127).toNat * 2 ^ 120))) ∧
    (∀ t u' : FTy, s.me.useCheck (s.me.ftyBad 0 [16] t ++ s.me.ftyBad 2 [4, 6, 8] u') = .ok () →
      let T := s.me.ffmt t
      let U := s.me.efmt u'
      let c := lane 8 x 15
      let r := lanesFp (fun i p => roundE T (e8m0 c (U.decode (lane U.w x i))) p) (128 / T.w) 0 s.fp
      ∃ u, exec (.dqnt t u' d a) s = .next u ∧
        (s.withFp (if c = 255 then r.2.raise fNv else r.2)).Wrote u 4 d (ofLanes T.w r.1)) ∧
    (∀ t : FTy, s.me.useCheck (s.me.ftyBad 0 vecWidths t) = .ok () →
      let F := s.me.ffmt t
      ∃ u, exec (.fclass t d a) s = .next u ∧ s.Wrote u 4 d (mkLanes 4 (128 / F.w) (fun i => classOfVal F (lane F.w x i)))) ∧
    (∀ w : Bool, ∃ u v, exec (.pack d a w) s = .next u ∧ s.Wrote u 4 d v ∧
      ∀ i, i < 16 → lane (if w then 6 else 4) v i = lane 8 x i % 2 ^ (if w then 6 else 4)) ∧
    (∀ w : BitVec 2, ∃ u v, exec (.unpack d a w) s = .next u ∧ s.Wrote u 4 d v ∧
      ∀ i, i < 16 → let n := if w.getLsbD 0 then 6 else 4
        (lane 8 v i : Int) = (if w.getLsbD 1 then toInt n (lane n x i) else (lane n x i : Int)) % 2 ^ 8)) ∧
  (∀ (s : State) (n : Fin 4) (d a b : Spec), s.me.f[n] = 0 → s.canRead a → s.canRead b →
    ∀ i ∈ ([.vaddF (.fr n) d a b, .vsubF (.fr n) d a b, .vmulF (.fr n) d a b, .vdivF (.fr n) d a b, .vminF (.fr n) d a b,
        .vmaxF (.fr n) d a b, .vabsF (.fr n) d a, .vrsumF (.fr n) d a, .vsqrt (.fr n) d a, .fclass (.fr n) d a] : List Instr),
      exec i s = .next (s.takeFault { code := 0x0041, syn := 0, detail := 2 + n.val }))

/-! ### Records, ports, signals, groups (05_vectors.md, 10_task.md, 11_port.md, 15_group.md, 18_barrier.md) -/

/-- R239, R248 to R250, R267, R268: `spawn`, `snd` and `snd.c` send the record that their header, route and payload registers hold; `snd.c`
makes it a code message. The hypotheses are the checks of the kind, the handler address, the group slot and the route. R249, R155: `spawn.d`
sends the record to the cluster at the home of the address that it names. R243, R249, R260: `spawn.o` of an unordered task into its own
cluster sends a kind 1 record with the timestamp in its payload and the next sequence number, which is the result. -/
def Obligations.SpawnsAndSendsLeaveAsRecords : Prop :=
  (∀ (s : State) (a b : Spec) (h0 h1 : Word), s.canRead b → s.canPay a → s.canSend → h0 = s.val64 b → h1 = hi64 (s.regVal b) →
    (hKind h0 = 0 → h0.getLsbD 0 = false → s.groupCheck (hGrp h0) = .ok () → s.routeCheck (hRoute h1) [0, 1, 2] = .ok () →
      s.tasksFull s.me.launchNo (hGrp h0) = false →
      ∃ t, exec (.spawn a b) s = .next t ∧ s.Sent t 4 (s.recordOf h0 h1 (s.payOf a) (routeDest (hRoute h1)))) ∧
    (hKind h0 = 5 → s.routeCheck (hRoute h1) [0, 1, 2, 3] = .ok () →
      ∃ t, exec (.snd a b) s = .next t ∧ s.Sent t 4 (s.recordOf h0 h1 (s.payOf a) (routeDest (hRoute h1)))) ∧
    (hKind h0 = 4 ∨ hKind h0 = 6 → h0.getLsbD 0 = false → s.groupCheck (hGrp h0) = .ok () →
      s.routeCheck (hRoute h1) [0, 1, 2, 3] = .ok () →
      ∃ t, exec (.snd a b) s = .next t ∧ s.Sent t 4 (s.recordOf h0 h1 (s.payOf a) (routeDest (hRoute h1)))) ∧
    (hKind h0 = 0 → hPc h0 % 64 = 0 → s.groupCheck (hGrp h0) = .ok () → s.routeCheck (hRoute h1) [0, 2] = .ok () →
      ∃ t, exec (.sndC a b) s = .next t ∧
        s.Sent t 4 (s.recordOf (mkH0 3 (hGrp h0) (hPc h0)) h1 (s.payOf a) (routeDest (hRoute h1)))) ∧
    (hKind h0 ≠ 0 → exec (.spawn a b) s = .next (s.takeFault { code := 0x0028 }) ∧
      exec (.sndC a b) s = .next (s.takeFault { code := 0x0028 }))) ∧
  (∀ (s s' : State) (a b : Spec) (h0 va : Word) (loc : Nat), s.canRead b → s.canPay a → h0 = s.val64 b → va = hi64 (s.regVal b) →
    hKind h0 = 0 → h0.getLsbD 0 = false → s.groupCheck (hGrp h0) = .ok () → s.access s.cur .read false va 1 = .ok (loc, s') →
    s'.canSend → s'.tasksFull s'.me.launchNo (hGrp h0) = false →
    let cl := if 18 ≤ locTag loc then s.homeCluster else locOff loc / 256 % 2 ^ 45 % 192
    let mid := if 18 ≤ locTag loc then 0 else locOff loc / 256 % 2 ^ 14
    ∃ t, exec (.spawnD a b) s = .next t ∧
      s'.Sent t 4 (s'.recordOf h0 (mkH1 (2 ^ 22 + mid * 2 ^ 8 + cl) 0 0) (s.payOf a) (.task cl))) ∧
  (∀ (s : State) (d a b : Spec) (h0 : Word) (q l : Nat), s.canRead b → s.canRead a → s.canPay a → h0 = s.val64 b →
    hi64 (s.regVal b) = 0 → hKind h0 = 0 → h0.getLsbD 0 = false → s.groupCheck (hGrp h0) = .ok () → s.orderKey (s.val64 a) = .ok q →
    s.tasksFull s.me.launchNo (hGrp h0) = false → s.spilled (s.homeCluster / 24) < 131072 → s.canSend → s.me.ordered = false →
    s.me.launchNo = some l → d ≠ 1 →
    ∃ t, exec (.spawnO d a b) s = .next t ∧ t.me.regs[d] = scalar (BitVec.ofNat 64 q) ∧ t.me.pc = s.me.pc + 4 ∧
      Tab.get? (t.clu s.homeCluster).seqs l = some q ∧ t.mem = s.mem ∧
      Tab.get? t.mesh s.nextId = some { s.recordOf (mkH0 1 (hGrp h0) (hPc h0))
          (mkH1 (hRoute (mkH1 (clusterRoute s.homeCluster) 0 0)) (hRtag (mkH1 (clusterRoute s.homeCluster) 0 0)) (s.cyc % 2 ^ 24))
          (s.payOf a) (.task s.homeCluster) with
        ts := s.val64 a, seq := BitVec.ofNat 64 q, ord := s.nextId, counted := true })

/-- R271: `rpl` sends a kind 2 record with the tag of the running record back to its sender. R269, R270: `tag.bind` stores an entry of the
tag table; `rq` takes the lowest free reply slot for the handler and the group that its entry names, sends the request with tag and slot,
and returns them. -/
def Obligations.RepliesAndRequests : Prop :=
  (∀ (s : State) (a : Spec), s.canPay a → s.canSend →
    let back := hRoute s.me.h1 % 2 ^ 16
    ∃ t, exec (.rpl a) s = .next t ∧
      s.Sent t 4 (s.recordOf (mkH0 2 0 0) (mkH1 back (hRtag s.me.h1) 0) (s.payOf a) (.core (back / 8)))) ∧
  ((∀ (s s' : State) (a b : Spec) (loc : Nat), s.canRead a → s.canRead b → (s.val64 a).toNat < 1024 → hKind (s.val64 b) = 0 →
    (s.val64 b).getLsbD 0 = false → s.me.tagbase ≠ 0 →
    s.access s.cur .write false (s.me.tagbase + BitVec.ofNat 64 (16 * (s.val64 a).toNat)) 16 = .ok (loc, s') →
    s'.canSend → s'.me.cst < 63 →
    ∃ t, exec (.tagBind a b) s = .next t ∧
      (s'.endRegion s'.cur).Issued t 4 { (s'.endRegion s'.cur).me with cst := s'.me.cst + 1, wait := .none }
        { (s'.endRegion s'.cur).access0 .store (s.me.tagbase + BitVec.ofNat 64 (16 * (s.val64 a).toNat)) 16 loc with
          data := (scalar (s.val64 b)).setWidth 256 }) ∧
  (∀ (s s' s'' : State) (d a b : Spec) (h0 h1 w : Word) (e : Reg) (loc k n : Nat), s.canRead b → s.canPay a → h0 = s.val64 b →
    h1 = hi64 (s.regVal b) → hKind h0 = 0 → h0.getLsbD 0 = false → s.groupCheck (hGrp h0) = .ok () →
    s.routeCheck (hRoute h1) [0, 1, 2, 3] = .ok () → hRtag h1 = n * 64 → s.me.tagbase ≠ 0 →
    s.access s.cur .read false (s.me.tagbase + BitVec.ofNat 64 (16 * n)) 16 = .ok (loc, s') → d ≠ 1 → s'.busy d = false → s'.canSend →
    Tab.freeKey ((s'.endRegion s'.cur).core (coreOf s'.cur)).slots 0 64 = some k →
    (s'.endRegion s'.cur).fetchQuad loc (s.me.tagbase + BitVec.ofNat 64 (16 * n)) = .ok (e, s'') → w = lo64 e → hPc w ≠ 0 →
    s''.canSend → s''.busy d = false →
    ∃ t, exec (.rq d a b) s = .next t ∧ t.me.regs[d] = scalar (BitVec.ofNat 64 (n * 64 + k)) ∧
      Tab.get? (t.core (coreOf s'.cur)).slots k =
        some { handler := BitVec.ofNat 64 (hPc w), grp := hGrp w, tag := n, launch := s''.me.launchNo } ∧
      Tab.get? t.mesh s''.nextId = some { s''.recordOf h0
          (mkH1 (hRoute (mkH1 (hRoute h1) (n * 64 + k) 0)) (hRtag (mkH1 (hRoute h1) (n * 64 + k) 0)) (s''.cyc % 2 ^ 24))
          (s.payOf a) (routeDest (hRoute h1)) with ord := s''.nextId, counted := true }))

/-- R147 to R151: an entry offered to a queue is appended there when it arrives and the sender goes on; `xq.try` takes the head entry and
sets its predicate, or clears it where the queue is empty; `xq.rcv` takes the head entry, or blocks. -/
def Obligations.InterCoreQueues : Prop :=
  (∀ (s : State) (a b : Spec) (w : Word), s.canRead a → s.canRead b → w = s.val64 b → s.xqCheck w = .ok () →
    s.anyAcc (fun _ => true) = false → s.me.failed = none →
    ∃ t, exec (.xqSnd a b) s = .next t ∧ t.me.wait = .xq (w.toNat % 2 ^ 16 / 8) (w.toNat % 8) (s.regVal a) w s.cyc s.nextId ∧
      t.me.pc = s.me.pc ∧ t.mem = s.mem) ∧
  (∀ (s : State) (p c n since ord : Nat) (e : Reg) (w : Word), (s.thread p).wait = .xq c n e w since ord →
    (s.xq c n).owner = none ∨ (s.xq c n).owner = some (s.thread p).ctxNo → (s.xq c n).entries.length < 8 →
    (∀ x ∈ s.threads, x.1 ≠ p → ∀ e' w' z o, x.2.wait ≠ .xq c n e' w' z o) →
    ∃ t, exec (.xqEntryArrival p) s = .next t ∧ (t.xq c n).entries = (s.xq c n).entries ++ [e] ∧
      (t.xq c n).owner = some (s.thread p).ctxNo ∧ (t.thread p).wait = .none ∧ (t.thread p).pc = (s.thread p).pc + 4 ∧ t.mem = s.mem) ∧
  (∀ (s s' : State) (d : Spec) (n : BitVec 3) (k : PredNo), s.xqBind n.toNat = .ok s' → d ≠ 1 → k ≠ 0 →
    ((s'.xq (coreOf s.cur) n.toNat).entries = [] → s'.canWrite d →
      ∃ t, exec (.xqTry d n k) s = .next t ∧ t.me.regs[d] = 0 ∧ t.me.pred k = false ∧ t.me.pc = s'.me.pc + 4) ∧
    (∀ v vs, (s'.xq (coreOf s.cur) n.toNat).entries = v :: vs → s'.anyAcc (fun _ => true) = false → s'.me.failed = none →
      s'.canWrite d →
      ∃ t, exec (.xqTry d n k) s = .next t ∧ t.me.regs[d] = v ∧ t.me.pred k = true ∧ t.me.pc = s'.me.pc + 4 ∧
        (t.xq (coreOf s.cur) n.toNat).entries = vs)) ∧
  (∀ (s s' : State) (d : Spec) (n : BitVec 3), s.me.preempted = false → s.stale.xqBind n.toNat = .ok s' → d ≠ 1 →
    s'.anyAcc (fun _ => true) = false → s'.me.failed = none →
    ((s'.xq (coreOf s.cur) n.toNat).entries = [] → s.me.state = .ready →
      ∃ t, exec (.xqRcv d n) s = .next t ∧ t.me.state = .blocked ∧ t.me.blk = some (.xq n.toNat d) ∧ t.me.pc = s'.me.pc) ∧
    (∀ v vs, (s'.xq (coreOf s.cur) n.toNat).entries = v :: vs → s'.canWrite d →
      ∃ t, exec (.xqRcv d n) s = .next t ∧ t.me.regs[d] = v ∧ t.me.pc = s'.me.pc + 4 ∧
        (t.xq (coreOf s.cur) n.toNat).entries = vs))

/-- R276 to R279, R283, R286, R287, R291: configuring, clearing and asking a port of the own cluster, binding and dropping a pattern, each
by a task that is not speculative and has no access outstanding. The hypotheses on the operands are the checks of R277, R283 and R286. R288:
`port.give` sends a record of kind 0 to the port that its operand names; that of an ordered task at the frontier keeps the task's timestamp
for a fault of its delivery (R360). -/
def Obligations.PortAndPatternInstructions : Prop :=
  (∀ (s : State) (a b d : Spec) (cl i : Nat) (w : BitVec 4), s.canRead a → s.canRead b → s.canWrite d → d ≠ 1 →
    s.anyAcc (fun _ => true) = false → s.me.failed = none → s.me.speculative = false → s.me.ordered = false →
    (s.ownPort false (s.val64 a) = .ok (cl, i) →
      (∀ v, v = s.val64 b → v.toNat < 2 ^ 10 → v.toNat % 16 = 0 → wbits v 8 2 ≠ 3 → wbits v 4 4 ≤ 8 →
        (s.port cl i).msgs.length ≤ wbits v 4 4 → (wbits v 4 4 = 0 → (s.clu cl).listing i = []) →
        (s.clu cl).capSum - (s.port cl i).cap + wbits v 4 4 ≤ 2048 →
        ∃ t, exec (.portCfg a b) s = .next t ∧ t.me.pc = s.me.pc + 4 ∧ t.mem = s.mem ∧ (wbits v 4 4 = 0 → (t.port cl i).cap = 0) ∧
        (wbits v 4 4 ≠ 0 → (t.port cl i).cap = wbits v 4 4 ∧ (t.port cl i).pol = wbits v 8 2 ∧ (t.port cl i).msgs = (s.port cl i).msgs ∧
          ((s.port cl i).cap = 0 → (t.port cl i).owner = ownerNo s.me.launchNo ∧ (t.port cl i).ovf = false))) ∧
      (∃ t, exec (.portSt d a w) s = .next t ∧ t.me.regs[d] = scalar (BitVec.ofNat 64 (s.portWord cl i w.toNat)) ∧
        t.me.pc = s.me.pc + 4 ∧ t.port cl i = s.port cl i ∧ t.mem = s.mem) ∧
      ((s.port cl i).cap ≠ 0 →
        ∃ t, exec (.portClr d a) s = .next t ∧ t.me.regs[d] = scalar (BitVec.ofNat 64 (s.portWord cl i 0)) ∧
          (t.port cl i).msgs = [] ∧ (t.port cl i).ovf = false ∧ (t.port cl i).cap = (s.port cl i).cap ∧ t.mem = s.mem)) ∧
    (∀ q, s.ownPort true (s.val64 a) = .ok (cl, i) → Tab.get? (s.clu cl).patterns (wbits (s.val64 a) 0 8) = some q →
      q.owner = ownerNo s.me.launchNo →
      ∃ t, exec (.patDrop a) s = .next t ∧
        (t.clu cl).patterns = Tab.del (s.clu cl).patterns (wbits (s.val64 a) 0 8) ∧ t.me.pc = s.me.pc + 4 ∧ t.mem = s.mem) ∧
    (∀ hi lo j n ports, hi = hi64 (s.regVal a) → lo = s.val64 a → j = wbits (s.val64 b) 0 8 → n = wbits hi 40 2 + 1 →
      ports = (List.range n).map (fun k => wbits hi (10 * k) 10) → s.ownPort true (s.val64 b) = .ok (cl, i) →
      Tab.get? (s.clu cl).patterns j = none → hi.toNat < 2 ^ 45 → bits hi.toNat (10 * n) (40 - 10 * n) = 0 → ports.eraseDups = ports →
      (∀ k ∈ ports, (s.port cl k).cap ≠ 0 ∧ (s.port cl k).owner = ownerNo s.me.launchNo) → hKind lo = 0 → lo.getLsbD 0 = false →
      s.groupCheck (hGrp lo) = .ok () →
      let q : Pattern := { ports, pri := wbits hi 42 3, grp := hGrp lo, pc := BitVec.ofNat 64 (hPc lo), owner := ownerNo s.me.launchNo }
      exec (.patBind a b) s = .next ((((s.endRegion s.cur).setClu cl
        { s.clu cl with patterns := Tab.put (s.clu cl).patterns j q }).evaluate cl).fin 4))) ∧
  (∀ (s : State) (a b : Spec) (cl i : Nat) (h0 : Word), s.canRead b → s.canPay a → s.canSend → h0 = hi64 (s.regVal b) → hKind h0 = 0 →
    h0.getLsbD 0 = false → (s.val64 b).toNat < 2 ^ 18 → wbits (s.val64 b) 10 5 < 24 →
    cl = 24 * wbits (s.val64 b) 15 3 + wbits (s.val64 b) 10 5 → i = wbits (s.val64 b) 0 10 →
    ∃ t, exec (.portGive a b) s = .next t ∧
      s.Sent t 4 { s.recordOf h0 (mkH1 (3 * 2 ^ 22 + (s.val64 b).toNat) 0 0) (s.payOf a) (.port cl i) with
        ts := if s.me.ordered then s.me.ts else 0 })

/-- R290: `port.take` takes the head message of a port into three registers and sets its predicate, or clears it with zeros where the port
is empty; `port.take.w` waits among the port's takers where it is empty. R274, R281: a record that reaches a configured port is kept there
while it has room, and then the patterns are evaluated; it goes to the oldest waiting take if one waits. -/
def Obligations.PortTakesAndArrivals : Prop :=
  (∀ (s : State) (d a : Spec) (k : PredNo) (cl i : Nat), s.canRead a → 16 ≤ d.val → d.val ≤ 61 → k ≠ 0 →
    s.ownPort false (s.val64 a) = .ok (cl, i) → s.me.ordered = false → s.anyAcc (fun _ => true) = false → s.me.failed = none →
    s.busy d = false → s.busy (specPlus d 1) = false → s.busy (specPlus d 2) = false →
    (∀ m ms, (s.port cl i).msgs = m :: ms →
      (∃ t, exec (.portTake d a k) s = .next t ∧ t.me.regs[d] = m.pay[0] ∧ t.me.regs[specPlus d 1] = m.pay[1] ∧
        t.me.regs[specPlus d 2] = m.pay[2] ∧ t.me.regs[(0 : Spec)] = m.pay[0] ∧ t.me.pred k = true ∧ t.me.pc = s.me.pc + 4 ∧
        (t.port cl i).msgs = ms ∧ t.mem = s.mem) ∧
      (s.me.preempted = false →
        ∃ t, exec (.portTakeW d a) s = .next t ∧ t.me.regs[d] = m.pay[0] ∧ t.me.regs[specPlus d 1] = m.pay[1] ∧
          t.me.regs[specPlus d 2] = m.pay[2] ∧ t.me.pc = s.me.pc + 4 ∧ (t.port cl i).msgs = ms ∧ t.mem = s.mem)) ∧
    ((s.port cl i).msgs = [] →
      (∃ t, exec (.portTake d a k) s = .next t ∧ t.me.regs[d] = 0 ∧ t.me.regs[specPlus d 1] = 0 ∧ t.me.regs[specPlus d 2] = 0 ∧
        t.me.pred k = false ∧ t.me.pc = s.me.pc + 4 ∧ t.port cl i = s.port cl i) ∧
      (s.me.preempted = false → s.me.state = .ready →
        ∃ t, exec (.portTakeW d a) s = .next t ∧ t.me.state = .blocked ∧ t.me.blk = some (.take (cl * 1024 + i) d) ∧
          t.me.pc = s.me.pc ∧ (t.port cl i).takers = (s.port cl i).takers ++ [s.cur]))) ∧
  (∀ (s : State) (k cl i : Nat) (m : Msg), Tab.get? s.mesh k = some m → m.dest = .port cl i → s.inOrder k m = true →
    s.hub.frozen = false → droppedKind m.kind = false → m.counted = false → m.parent = none → (s.port cl i).cap ≠ 0 →
    (∀ L, s.launch? (s.port cl i).owner = some L → L.sub.ctx = m.ctx) → (s.launch? (s.port cl i).owner = none → m.ctx = 0) →
    ((s.port cl i).takers = [] → (s.port cl i).msgs.length < (s.port cl i).cap →
      exec (.portArrival k) s = .next ((({ s with mesh := Tab.del s.mesh k } : State).setPort cl i
        { s.port cl i with msgs := (s.port cl i).msgs ++ [m.held] }).evaluate cl)) ∧
    (∀ p ps, (s.port cl i).takers = p :: ps →
      exec (.portArrival k) s = .next ((({ s with mesh := Tab.del s.mesh k } : State).setPort cl i
        { s.port cl i with takers := ps }).serveTake p m.held)) ∧
    ((s.port cl i).takers = [] → (s.port cl i).cap ≤ (s.port cl i).msgs.length → (s.port cl i).pol = 2 →
      exec (.portArrival k) s = .next ((({ s with mesh := Tab.del s.mesh k } : State).setPort cl i
        { s.port cl i with ovf := true }).joinDrop cl)))

/-- R393, R400, R402: `sig.add`, `sig.set` and `sig.cas` issue their atomic on the signal with order `.ar` at scope `.sys`, `sig.rd` its
read with `.acq`, after the earlier accesses; each ends the region. R82, R400, R401: `sig.wait` completes with the signal's value where that
is at or below its threshold, both signed; else, and where the signal's home does not answer yet, the context is Blocked at the instruction
and counts in cld. -/
def Obligations.SignalInstructions : Prop :=
  (∀ (s s' : State) (d a b : Spec) (loc : Nat), s.canRead a → s.canRead b → s'.me.speculative = false →
    s'.anyAcc (fun _ => true) = false → s'.me.failed = none → (s'.endRegion s'.cur).canLoad d →
    let e := s'.endRegion s'.cur
    (s.sigLoc true (s.val64 a) = .ok (loc, s') →
      ∀ q ∈ ([(.sigAdd d a b, .sadd), (.sigSet d a b, .swap), (.sigCas d a b, .cas)] : List (Instr × RmwOp)),
        ∃ u, exec q.1 s = .next u ∧ e.Issued u 4 (e.me.loading d)
          (({ s'.access0 (.sig q.2) (s.val64 a) 8 loc with
              data := (s.regVal b).setWidth 256, ord := .ar, scope := .sys } : Access).into d)) ∧
    (s.sigLoc false (s.val64 a) = .ok (loc, s') →
      ∃ u, exec (.sigRd d a) s = .next u ∧ e.Issued u 4 (e.me.loading d)
        (({ s'.access0 .sigRd (s.val64 a) 8 loc with ord := .acq, scope := .sys } : Access).into d))) ∧
  (∀ (s s' s'' : State) (d a b : Spec) (loc : Nat) (r : Option Nat), s.canRead a → s.canRead b → s.me.preempted = false → d ≠ 1 →
    s.stale.sigLoc false (s.val64 a) = .ok (loc, s') → s'.me.speculative = false →
    s'.anyAcc (fun _ => true) = false → s'.me.failed = none → s'.me.cld < 63 →
    (s'.endRegion s'.cur).sigValue loc (s.val64 a) = .ok (r, s'') →
    (∀ v, r = some v → toInt 64 v ≤ (s.val64 b).toInt → s''.canWrite d →
      ∃ t, exec (.sigWait d a b) s = .next t ∧ t.me.regs[d] = scalar (BitVec.ofNat 64 v) ∧ t.me.pc = s''.me.pc + 4) ∧
    ((∀ v, r = some v → (s.val64 b).toInt < toInt 64 v) → s''.me.state = .ready →
      ∃ t, exec (.sigWait d a b) s = .next t ∧ t.me.state = .blocked ∧ t.me.pc = s''.me.pc ∧ t.me.cld = s''.me.cld + 1 ∧
        t.me.blk = some (.sig loc (s.val64 a) (s.val64 b) d)))

/-- R355, R356, R364: `grp.new` makes a Live group in a free slot, with the bank mask within its parent's and no errors counted, and returns
the slot. R359, R360, R364: reading a word of a group's control block, replacing one of its RW words, its error budget and its end. The
reads are acquires at `.dev`: first they hear what releases on the block tell (R192). -/
def Obligations.GroupInstructions : Prop :=
  (∀ (s s1 s2 s3 : State) (d a : Spec) (l loc loc2 : Nat) (ws : List Word), s.canRead a → d ≠ 1 →
    s.access s.cur .read false (s.val64 a) 128 = .ok (loc, s1) → s1.access s1.cur .write false (s.val64 a) 128 = .ok (loc2, s2) →
    s2.me.speculative = false → s2.me.launchNo = some l → s2.readWords loc (s.val64 a) 16 = .ok (ws, s3) →
    gcbBreach s3.mayRes (vec16 ws) = none → (∀ b, s3.group? l s3.me.grp = some b → b.st ≠ 3) → s3.freeSlots l ≠ [] → s3.canWrite d →
    ∃ t slot g, exec (.grpNew d a) s = .next t ∧ slot ∈ s3.freeSlots l ∧ t.me.regs[d] = scalar (BitVec.ofNat 64 slot) ∧
      t.group? l slot = some g ∧ g.st = 1 ∧ g.par = s3.me.grp % 4096 ∧ g.slot = slot % 4096 ∧ g.ecnt = 0 ∧ g.addr = s.val64 a ∧
      t.me.pc = s3.me.pc + 4 ∧ t.mem = s3.mem ∧ (∀ k, k ≠ groupKey l slot → Tab.get? t.groups k = Tab.get? s3.groups k)) ∧
  (∀ (s : State) (d a b : Spec) (l g : Nat) (q : Group), s.canRead a → s.canRead b → s.canWrite d → d ≠ 1 →
    s.slotOperand (s.val64 a) = .ok (l, g, q) → s.me.speculative = false →
    (∀ n : BitVec 4, ∃ t, exec (.grpRd d a n) s = .next t ∧ (s.hearAt s.cur q.loc 128 (some .dev)).Wrote t 4 d (scalar (s.gcbWord l g q n.toNat))) ∧
    (∃ t, exec (.ebudRd d a) s = .next t ∧
      (s.hearAt s.cur q.loc 128 (some .dev)).Wrote t 4 d (mkReg (BitVec.ofNat 64 (q.elim + q.ecnt * 2 ^ 32)) (if q.st = 2 then 1 else 0))) ∧
    (∀ k, exec (.grpEnd a k) s = .next ((s.fin 4).endGroup l g k)) ∧
    (∀ n : BitVec 4, n = 4 ∨ n = 5 ∨ n = 6 ∨ n = 7 ∨ n = 11 → gcbWordOk (q.stg != 0) s.mayRes n.toNat (s.val64 b) = true →
      exec (.grpSet n a b) s =
        .next ((s.setGroup l g { q with gcb := q.gcb.setIfInBounds n.toNat (s.val64 b) }).fin 4)) ∧
    (gcbWordOk (q.stg != 0) s.mayRes 1 (s.val64 b) = true →
      ∃ t r, exec (.grpSet 1 a b) s = .next t ∧ t.group? l g = some r ∧ r.gcb[1] = s.val64 b ∧
        (q.stg = 0 → r.cap = wbits (s.val64 b) 32 16) ∧ (q.stg ≠ 0 → r.cap = q.cap) ∧
        (∀ k : Fin 16, k ≠ 1 → k ≠ 8 → r.gcb[k] = q.gcb[k]) ∧ t.me.pc = s.me.pc + 4 ∧ t.mem = s.mem) ∧
    (gcbWordOk (q.stg != 0) s.mayRes 2 (s.val64 b) = true →
      ∃ t r, exec (.grpSet 2 a b) s = .next t ∧ t.group? l g = some r ∧
        (∀ x, s.group? l q.par = some x → q.par ≠ g → r.spm = (wbits (s.val64 b) 0 8 &&& x.spm)) ∧
        (∀ k : Fin 16, k ≠ 2 → r.gcb[k] = q.gcb[k]) ∧ t.me.pc = s.me.pc + 4 ∧ t.mem = s.mem) ∧
    (∀ n : BitVec 4, n = 0 ∨ n = 3 ∨ n = 8 ∨ n = 9 ∨ n = 10 ∨ 12 ≤ n.toNat →
      exec (.grpSet n a b) s = .next (s.takeFault { code := 0x0001 })) ∧
    ((s.val64 b).toNat < 2 ^ 33 → s.anyAcc (fun _ => true) = false →
      ∃ t r, exec (.ebudSet a b) s = .next t ∧ t.group? l g = some r ∧ r.elim = (s.val64 b).toNat % 2 ^ 32 ∧
        r.ecnt = (if (s.val64 b).getLsbD 32 then 0 else q.ecnt) ∧ r.st = (if q.st = 2 then 1 else q.st) ∧
        t.me.pc = s.me.pc + 4 ∧ t.mem = s.mem))

/-! ### System instructions (02_words.md, 03_core.md, 08_region.md, 09_page.md) -/

/-- R42, R43, R88: `mfs` reads the system register that its number names. R43, R89, R97, R100, R107: `mts` writes a writable register whose
value is allowed, and nothing else; a format value that is not allowed is a format-value fault with its number, a register that is not
writable an illegal instruction. -/
def Obligations.SystemRegisters : Prop :=
  (∀ (s : State) (d : Spec) (n : BitVec 6), s.canWrite d →
    (n.toNat < 28 → ∃ t, exec (.mfs d n) s = .next t ∧ s.Wrote t 4 d (scalar (s.sysRead s.cur n.toNat))) ∧
    (28 ≤ n.toNat → exec (.mfs d n) s = .next (s.takeFault { code := 0x0001 })) ∧
    (s.sysRead s.cur 0 = s.me.pfx.getD s.me.pc ∧ s.sysRead s.cur 1 = s.me.fm ∧ s.sysRead s.cur 6 = s.me.ts ∧
      s.sysRead s.cur 7 = s.me.seq ∧ s.sysRead s.cur 10 = BitVec.ofNat 64 s.cur ∧ s.sysRead s.cur 11 = BitVec.ofNat 64 s.cyc ∧
      s.sysRead s.cur 14 = s.me.h0 ∧ s.sysRead s.cur 15 = s.me.h1 ∧ s.sysRead s.cur 16 = s.me.lc ∧ s.sysRead s.cur 17 = s.me.srs)) ∧
  (∀ (s : State) (a : Spec) (n : BitVec 6) (v : Word), s.canRead a → v = s.val64 a →
    (n = 16 → exec (.mts a n) s = .next ((s.setMe { s.me with lc := v }).fin 4)) ∧
    (n = 17 → exec (.mts a n) s = .next ((s.setMe { s.me with srs := v }).fin 4)) ∧
    (n = 12 → v.toNat < 2 ^ 47 → v.toNat % 64 = 0 → exec (.mts a n) s = .next ((s.setMe { s.me with tagbase := v }).fin 4)) ∧
    (n = 1 → fmValid v.toNat = true → exec (.mts a n) s = .next ((s.setMe { s.me with fm := v }).fin 4)) ∧
    (n = 1 → fmValid v.toNat = false → exec (.mts a n) s = .next (s.takeFault { code := 0x0040, syn := v, detail := 1 })) ∧
    (∀ k : Fin 4, n.toNat = 2 + k.val → v = 0 ∨ fmtValid v.toNat = true →
      exec (.mts a n) s = .next ((s.setMe { s.me with f := s.me.f.set k v }).fin 4)) ∧
    (∀ k : Fin 8, n.toNat = 20 + k.val → bfValid v.toNat = true →
      exec (.mts a n) s = .next ((s.setCore (coreOf s.cur)
        { s.core (coreOf s.cur) with bf := (s.core (coreOf s.cur)).bf.set k v }).fin 4)) ∧
    (2 ≤ n.toNat → n.toNat ≤ 5 → v ≠ 0 → fmtValid v.toNat = false →
      exec (.mts a n) s = .next (s.takeFault { code := 0x0040, syn := v, detail := n.toNat })) ∧
    (20 ≤ n.toNat → n.toNat < 28 → bfValid v.toNat = false →
      exec (.mts a n) s = .next (s.takeFault { code := 0x0040, syn := v, detail := n.toNat })) ∧
    (n = 12 → 2 ^ 47 ≤ v.toNat → exec (.mts a n) s = .next (s.takeFault { code := 0x0010, addr := v })) ∧
    (n = 12 → v.toNat < 2 ^ 47 → v.toNat % 64 ≠ 0 → exec (.mts a n) s = .next (s.takeFault { code := 0x0013, addr := v })) ∧
    (n.toNat ∈ [0, 6, 7, 8, 9, 10, 11, 13, 14, 15, 18, 19] ∨ 28 ≤ n.toNat → exec (.mts a n) s = .next (s.takeFault { code := 0x0001 })))

/-- R87, R360: `trap` raises the soft-trap fault with its operand as the syndrome. -/
def Obligations.TrapRaisesItsFault : Prop :=
  ∀ (s : State) (a : Spec), s.canRead a → exec (.trap a) s = .next (s.takeFault { code := 0x0006, syn := s.val64 a })

/-- R226, R227, R231 to R234: writing, invalidating and probing the TLBs of the own cluster: after `tlb.inv` no entry that it names is left
in its targets. On a service core the fixed entries of boot firmware stand beside those that `tlb.wr` wrote (log entry 9); a probe finds one
first. R236, R238: `pg.wake` wakes a context that sleeps on its pager, with the fault that its code gives to the access asleep, and returns
1, or 0 where none sleeps; `dl.hv` of an empty dirty log returns 0 entries and leaves memory as it was. -/
def Obligations.TranslationAndPagers : Prop :=
  (∀ (s : State) (d a b : Spec) (v : Word), s.canRead a → s.canRead b → s.canWrite d → v = s.val64 b → s.me.ordered = false →
    (s.selCheck v 0 [0, 1, 2] = .ok () → entryOk (s.regVal a) = true → selTgt v = 0 →
      exec (.tlbWr a b) s = .next ((s.setCore (selCore v)
        { s.core (selCore v) with tlb := coreTlbPut (s.core (selCore v)).tlb (s.regVal a) }).fin 4)) ∧
    (s.selCheck v 0 [0, 1, 2] = .ok () → entryOk (s.regVal a) = true → selTgt v = 1 ∨ selTgt v = 2 →
      ∃ t, exec (.tlbWr a b) s = .next t ∧ t.me.pc = s.me.pc + 4 ∧ t.mem = s.mem ∧
        (t.clu (cluOfPlace s.cur)).tlb = cluTlbPut (s.clu (cluOfPlace s.cur)).tlb (s.regVal a) ∧
        (t.core (selCore v)).tlb =
          if selTgt v = 2 then coreTlbPut (s.core (selCore v)).tlb (s.regVal a) else (s.core (selCore v)).tlb) ∧
    (s.selCheck v 0 [0, 1, 2] = .ok () → entryOk (s.regVal a) = false →
      exec (.tlbWr a b) s = .next (s.takeFault { code := 0x0061, syn := s.val64 a })) ∧
    (∀ q ∈ ([(.tlbInvPage a b, 0), (.tlbInvContext a b, 1), (.tlbInvAll a b, 2)] : List (Instr × Nat)),
      s.selCheck v q.2 [0, 1, 2, 3] = .ok () → s.acc = [] →
      ∃ t, exec q.1 s = .next t ∧ t.me = s.me.fin 4 ∧ t = { s with threads := t.threads, cores := t.cores, clus := t.clus } ∧
        (∀ c, selTgt v = 3 ∨ ((selTgt v = 0 ∨ selTgt v = 2) ∧ c = selCore v) → ∀ e ∈ (t.core c).tlb,
          invHits q.2 (selCtx v) (wbits (s.val64 a) 16 32) e = false) ∧
        (∀ k, selTgt v = 3 ∨ ((selTgt v = 1 ∨ selTgt v = 2) ∧ k = cluOfPlace s.cur) → ∀ e ∈ (t.clu k).tlb,
          invHits q.2 (selCtx v) (wbits (s.val64 a) 16 32) e = false)) ∧
    (s.selCheck v 0 [0, 1] = .ok () →
      ∃ t, exec (.tlbPrb d a b) s = .next t ∧ s.Wrote t 4 d
        (((if selTgt v = 0 then fixedEntry (selCore v) (selCtx v) (wbits (s.val64 a) 16 32) else none) <|>
          (if selTgt v = 0 then (s.core (selCore v)).tlb else (s.clu (cluOfPlace s.cur)).tlb).find?
            (teMatch (selCtx v) (wbits (s.val64 a) 16 32))).getD 0))) ∧
  (∀ (s : State) (d a b : Spec), s.canRead a → s.canRead b → s.canWrite d → s.me.ordered = false →
    (∀ p va since, p = wbits (s.val64 a) 0 16 → validPlace p = true → p ≠ s.cur → (s.thread p).wait = .pager va since →
      (s.thread p).speculative = false →
      ∀ q ∈ ([(0, .none), (1, .fault { code := 0x0016, addr := va } (s.thread p).pc),
          (2, .fault { code := 0x0017, addr := va } (s.thread p).pc)] : List (Word × Wait)), s.val64 b = q.1 → d ≠ 1 →
        ∃ t, exec (.pgWake d a b) s = .next t ∧ (t.thread p).wait = q.2 ∧ t.me.regs[d] = 1 ∧ t.me.pc = s.me.pc + 4 ∧ t.mem = s.mem) ∧
    (validPlace (wbits (s.val64 a) 0 16) = true → (s.val64 b).toNat ≤ 2 →
      (∀ va since, (s.thread (wbits (s.val64 a) 0 16)).wait ≠ .pager va since) →
      ∃ t, exec (.pgWake d a b) s = .next t ∧ s.Wrote t 4 d 0) ∧
    (∀ s2 loc last, (s.val64 a).toNat < 2 ^ 16 → (s.val64 a).toNat % 8 = 0 → validPlace (s.val64 a).toNat = true →
      cluOfPlace (s.val64 a).toNat = cluOfPlace s.cur → isDispatch (s.val64 a).toNat = isDispatch s.cur →
      s.hvBuffer (s.val64 b) = .ok (loc, last, s2) → s2.busy d = false → s2.me.ordered = false → s2.anyAcc (fun _ => true) = false →
      (s2.core ((s.val64 a).toNat / 8)).dlog = [] → d ≠ 1 →
      ∃ t, exec (.dlHv d a b) s = .next t ∧ t.me.regs[d] = 0 ∧ t.me.pc = s2.me.pc + 4 ∧ t.mem = s2.mem))

/-- R223, R224: `err.inj` into a register inverts its symbols and records them; into memory it issues its access, as `cls.q` does. -/
def Obligations.InjectionAndClassQuery : Prop :=
  ∀ (s s' : State) (d a b : Spec) (v : Word) (loc : Nat), s.canRead a → s.canRead b → v = s.val64 b → injBad v (s.val64 a) = false →
    (injTgt v = 4 → s.me.ordered = false →
      exec (.errInj a b) s = .next ((s.injectReg (injReg v) (injSym v) (injCnt v)).fin 4)) ∧
    (injTgt v = 3 → s.me.ordered = false → exec (.errInj a b) s = .next ((s.setMe { s.me with injTile := true }).fin 4)) ∧
    (injTgt v ≤ 2 → s.access s.cur .write false (s.val64 a) 1 = .ok (loc, s') → (injTgt v = 0 → locTag loc = 0) →
      (injTgt v = 1 → locTag loc < 18) → (injTgt v = 2 → 18 ≤ locTag loc) → s'.me.ordered = false → s'.me.cst < 63 →
      ∃ t, exec (.errInj a b) s = .next t ∧
        s'.Issued t 4 { s'.me with cst := s'.me.cst + 1 } (s'.access0 (.inj (injTgt v) (injSym v) (injCnt v)) (s.val64 a) 64 (loc / 64 * 64))) ∧
    ((s.val64 a).toNat < 0x7F0000000000 ∨ 0x7F0000020000 ≤ (s.val64 a).toNat →
      s.access s.cur .read false (s.val64 a) 1 = .ok (loc, s') → s'.canLoad d →
      ∃ t x, exec (.clsQ d a) s = .next t ∧ x ≤ 1 ∧
        s'.Issued t 4 (s'.me.loading d) (({ s'.access0 .clsq (s.val64 a) 64 (loc / 64 * 64) with data := BitVec.ofNat 256 x } : Access).into d)) ∧
    (0x7F0000000000 ≤ (s.val64 a).toNat → (s.val64 a).toNat < 0x7F0000020000 → s.canLoad d →
      ∃ t, exec (.clsQ d a) s = .next t ∧
        s.Issued t 4 (s.me.loading d)
          ((s.access0 .clsq (s.val64 a) 64 (18 * 2 ^ 64 + s.cur / 8 * 0x20000 + ((s.val64 a).toNat - 0x7F0000000000) / 64 * 64)).into d))

/-! ### Tasks, tokens, contexts (10_task.md, 12_token.md, 13_row.md, 14_kernel.md, 16_context.md, 17_queue.md, 20_watch.md) -/

/-- R74, R205, R216, R251: `done` and `c.done` of an unordered task that holds no token free its context; with an attached or adopted token
that is not terminal the context is Blocked. They wait for every access whose fault would be the task's (log entry 20): for all but the
stores of an unordered task to memory of class none or beyond the module, which no check covers. R246, R251, R261: `done` of an ordered task
frees its context and leaves its commit entry Finished, or Finishing while a child of a speculative task is unaccepted. R252 to R254: `susp`
and `c.susp` complete to a 64-byte boundary of the own scratchpad within the bank budgets, `yield` wherever the task can end, `abort` in
every speculative ordered task: their context runs the task no more, and the rest is as the statement of continuations and aborts says. Said
by the state alone. -/
def Obligations.TasksThatEnd : Prop :=
  (∀ (s : State), s.me.entry? = none → ∀ q ∈ ([.done, .cDone] : List Instr),
    (s.canEnd → ∃ t, exec q s = .next t ∧ s.Freed t s.cur ∧ t.mem = s.mem ∧ t.toks = s.toks) ∧
    (∀ k u, s.me.state = .ready → s.me.inSave = false → s.anyAcc (fun _ => true) = false → s.me.failed = none → k ∈ s.heldBy s.cur →
      s.tok? k = some u → u.hold = 0 ∨ u.hold = 3 → u.st.terminal = false → u.maj ≠ 0x11 →
      ∃ t, exec q s = .next t ∧ t.me.state = .blocked ∧ t.me.blk = some .done ∧ t.me.task = s.me.task) ∧
    (∀ k a, (k, a) ∈ s.acc → a.place = s.cur → a.kind.hint = false → a.kind ≠ .store ∨ a.entry.isSome = true ∨ s.locClass a.loc < 2 →
      exec q s = .next s.rewind)) ∧
  (∀ (s : State) (e : Nat) (c : Commit), s.canEnd → s.me.entry? = some e →
    Tab.get? (s.clu (cluOfPlace s.cur)).commits e = some c → ∀ q ∈ ([.done, .cDone] : List Instr),
    ∃ t, exec q s = .next t ∧ s.Freed t s.cur ∧ t.mem = s.mem ∧
      Tab.get? (t.clu (cluOfPlace s.cur)).commits e =
        some { c with state := if c.irrev = true ∨ c.children = 0 then .finished else .finishing, place := none }) ∧
  (∀ (s : State),
    (∀ o, s.canRead 16 → s.canRead 17 → s.canRead 18 → s.me.ordered = false → s.canEnd → s.hub.frozen = false → o < 0x20000 → o % 64 = 0 →
      s.me.x[0] = BitVec.ofNat 64 (0x7F0000000000 + o) → s.bankOpen s.cur (o / 16384) = true →
      ∀ q ∈ ([.susp, .cSusp] : List Instr), ∃ t, exec q s = .next t ∧ s.Freed t s.cur ∧
        ∀ a, a < 18 * 2 ^ 64 + s.cur / 8 * 0x20000 + o ∨ 18 * 2 ^ 64 + s.cur / 8 * 0x20000 + o + 64 ≤ a → memGet t.mem a = memGet s.mem a) ∧
    (s.canRead 16 → s.canRead 17 → s.canRead 18 → s.me.ordered = false → s.canEnd → ∃ t, exec .yield s = .next t ∧ t.me.task = none) ∧
    (∀ e, s.me.entry? = some e → s.me.speculative = true →
      ∃ t, exec .abort s = .next t ∧ t.me = (s.abortAll [(cluOfPlace s.cur, e)]).me ∧ t.mem = (s.abortAll [(cluOfPlace s.cur, e)]).mem))

/-- R252, R253, R273: `susp` stores its continuation, a kind 6 record with v0 to v2, at the address in x0 and ends the task; `yield` puts it
at the back of the own task unit, or into the mesh to it where the unit is full or an earlier record of the context to it still travels, or
into the requeue area of a context that is being pre-empted while that has room; on a dispatch core, where no task unit places a record
(R14), it goes to the core's own inbox (log entry 127). Said of a memory of canonical form. R254, R259: `abort` undoes the task's writes,
those to its scratchpad among them, frees its entry and its context, and its record waits in the task unit for the next weir round; in a
task that is not speculative it faults. -/
def Obligations.ContinuationsAndAborts : Prop :=
  (∀ (s : State), s.canRead 16 → s.canRead 17 → s.canRead 18 →
    let pay : Vector Reg 3 := #v[s.me.regs[(16 : Spec)], s.me.regs[(17 : Spec)], s.me.regs[(18 : Spec)]]
    (∀ s' s'' loc, s.me.x[0] ≠ 0 → s.me.x[0].toNat % 64 = 0 → s.access s.cur .write false s.me.x[0] 64 = .ok (loc, s') →
      s'.me.ordered = false → s'.canEnd → isRemote loc = false → locTag loc ≠ tagDev → Memory.wf s''.mem = true →
      (s'.endRegion s'.cur).syncCheck loc s.me.x[0] 2 = .ok s'' →
      ∀ q ∈ ([(.susp, 4), (.cSusp, 2)] : List (Instr × Nat)),
        ∃ t, exec q.1 s = .next t ∧ s'.Freed t s.cur ∧
          memGetN t.mem loc 64 = recBytes (mkH0 6 s.me.grp (s.me.pc + BitVec.ofNat 64 q.2).toNat) (mkH1 (s.cur / 8 * 8) (hRtag s.me.h1) 0) pay ∧
          ∀ a, a < loc ∨ loc + 64 ≤ a → memGet t.mem a = memGet s''.mem a) ∧
    (s.me.ordered = false → s.canEnd → s.suspending s.me.ctxNo = true →
      ∃ t, exec .yield s = .next t ∧ t.me.task = none ∧
        ((s.context s.me.ctxNo).areaUsed < (s.context s.me.ctxNo).rqn → isDispatch s.cur = false →
          (t.context s.me.ctxNo).requeue = (s.context s.me.ctxNo).requeue ++
            [(cluOfPlace s.cur, (s.recordOf (mkH0 6 s.me.grp (s.me.pc + 4).toNat) (mkH1 (clusterRoute (cluOfPlace s.cur)) (hRtag s.me.h1) 0) pay
              (.task (cluOfPlace s.cur))).taken s.cyc)])) ∧
    (s.me.ordered = false → s.canEnd → s.suspending s.me.ctxNo = false → isDispatch s.cur = true →
      ∃ t m, exec .yield s = .next t ∧ s.Freed t s.cur ∧ t.mem = s.mem ∧ Tab.get? t.mesh s.nextId = some m ∧ m.dest = .core (coreOf s.cur) ∧
        m.h0 = mkH0 6 s.me.grp (s.me.pc + 4).toNat ∧ m.pay = pay) ∧
    (s.me.ordered = false → s.canEnd → s.suspending s.me.ctxNo = false → isDispatch s.cur = false →
      (s.clu (cluOfPlace s.cur)).tu.length < 1024 →
      (∀ e ∈ s.mesh, e.2.sender = s.cur → e.2.byTok = none → e.2.dest ≠ .task (cluOfPlace s.cur)) →
      ∃ t, exec .yield s = .next t ∧ s.Freed t s.cur ∧ t.mem = s.mem ∧
        (t.clu (cluOfPlace s.cur)).tu = (s.clu (cluOfPlace s.cur)).tu ++
          [{ (s.recordOf (mkH0 6 s.me.grp (s.me.pc + 4).toNat) (mkH1 (clusterRoute (cluOfPlace s.cur)) (hRtag s.me.h1) 0) pay
              (.task (cluOfPlace s.cur))).taken s.cyc with ord := s.nextId }]) ∧
    (s.me.ordered = false → s.canEnd → s.suspending s.me.ctxNo = false → isDispatch s.cur = false →
      (1024 ≤ (s.clu (cluOfPlace s.cur)).tu.length ∨
        ∃ e ∈ s.mesh, e.2.sender = s.cur ∧ e.2.byTok = none ∧ e.2.dest = .task (cluOfPlace s.cur)) →
      ∃ t m, exec .yield s = .next t ∧ s.Freed t s.cur ∧ t.mem = s.mem ∧ (t.clu (cluOfPlace s.cur)).tu = (s.clu (cluOfPlace s.cur)).tu ∧
        Tab.get? t.mesh s.nextId = some m ∧ m.dest = .task (cluOfPlace s.cur) ∧ m.h0 = mkH0 6 s.me.grp (s.me.pc + 4).toNat ∧ m.pay = pay)) ∧
  (∀ (s : State),
    (s.me.speculative = false → exec .abort s = .next (s.takeFault { code := 0x0024 })) ∧
    (∀ e c, s.commits = [(cluOfPlace s.cur, e, c)] → Tab.get? (s.clu (cluOfPlace s.cur)).commits e = some c → c.parent = none →
      s.me.entry? = some e → s.me.speculative = true → c.irrev = false →
      c.place = some s.cur → c.items = [] → c.msg.launch = s.me.launchNo → c.ts = s.me.ts → c.seq = s.me.seq →
      (s.core (coreOf s.cur)).trcEn = false → (s.clu (cluOfPlace s.cur)).tu.length < 1024 →
      ∃ t, exec .abort s = .next t ∧ t.me.task = none ∧ (t.clu (cluOfPlace s.cur)).commits = [] ∧
        t.mem = (c.undo.foldl State.undoLine (c.scratch.foldl (fun s u => s.putBytes u.1 u.2) s)).mem ∧
        ∃ m ∈ (t.clu (cluOfPlace s.cur)).tu, m.h0 = c.msg.h0 ∧ m.pay = c.msg.pay ∧ m.ts = c.ts ∧ m.seq = c.seq ∧ m.notBefore = s.round + 1))

/-- R37, R84, R347, R369: a safe point makes `lt` stale and goes on; while a pre-emption is pending the task enters Saving at the save
routine of its safe-point entry, with its continuation in the save area, and keeps every register but `lt`. R255, R353, R354: `ts.get` reads
the frontier last applied for the launch, `kinfo` the items of the launch, and `launch` submits the four words of its descriptor and waits
for its launch number. -/
def Obligations.SafePointsAndLaunches : Prop :=
  (∀ (s : State) (n : BitVec 12) (k : BitVec 11),
    ∀ q ∈ ([(.spt n, 4, n.toNat), (.cSpt k, 2, k.toNat)] : List (Instr × Nat × Nat)),
      (s.me.preempted = false →
        ∃ t, exec q.1 s = .next t ∧ s.OnlyMe t ∧
          t.me = { s.me with ltStale := true, pc := s.me.pc + BitVec.ofNat 64 q.2.1, pfx := none, retired := t.me.retired }) ∧
      (∀ e h loc, s.me.preempted = true → s.me.state = .ready → s.cyc < s.me.pendAt + 2 ^ 21 →
        s.safeEntry s.cur (some q.2.2) = some (e, h) → (s.core (coreOf s.cur)).trcEn = false →
        (s.context s.me.ctxNo).nsav + (64 + (e.sz * 16 + 63) / 64 * 64) ≤ 65536 * (s.context s.me.ctxNo).svs →
        s.engLoc (cluOfPlace s.cur) s.me.ctxNo none s.cur .write
          ((s.context s.me.ctxNo).sva + BitVec.ofNat 64 (s.context s.me.ctxNo).nsav) = .ok loc →
        ∃ t, exec q.1 s = .next t ∧ t.me.state = .saving ∧ t.me.pc = h + BitVec.ofNat 64 (2 * e.sv) ∧ t.me.ltStale = true ∧
          t.me.regs = s.me.regs ∧ t.me.preds = s.me.preds ∧ t.me.x = s.me.x ∧ t.me.fm = s.me.fm ∧
          (t.context s.me.ctxNo).nsav = (s.context s.me.ctxNo).nsav + (64 + (e.sz * 16 + 63) / 64 * 64) ∧
          t.mem = (s.writeHeader loc [s.me.h0, s.me.h1, s.me.ts, s.me.seq, s.me.ipc, h + BitVec.ofNat 64 (2 * e.rs),
            BitVec.ofNat 64 (64 + (e.sz * 16 + 63) / 64 * 64), BitVec.ofNat 64 (s.me.launchNo.getD 0)]).mem)) ∧
  (∀ (s : State) (d a : Spec), s.canWrite d →
    (∃ t, exec (.tsGet d) s = .next t ∧ s.Wrote t 4 d
      (match s.me.launchNo.bind s.launch? with
        | some L => mkReg (BitVec.ofNat 64 L.front.1) (BitVec.ofNat 64 (L.front.2 % 2 ^ 32 + (if L.frontNone then 2 ^ 32 else 0)))
        | none => 0)) ∧
    (s.canRead a →
      ((s.val64 a).toNat ≤ 7 → ∃ t, exec (.kinfo d a) s = .next t ∧ s.Wrote t 4 d (scalar (s.kinfoItem (s.val64 a).toNat))) ∧
      (7 < (s.val64 a).toNat → exec (.kinfo d a) s = .next (s.takeFault { code := 0x005A, syn := s.val64 a })) ∧
      (∀ l L, s.me.launchNo = some l → s.launch? l = some L →
        s.kinfoItem 0 = BitVec.ofNat 64 l ∧ s.kinfoItem 1 = L.sub.desc[0] ∧ s.kinfoItem 2 = L.sub.desc[2] ∧
        s.kinfoItem 3 = BitVec.ofNat 64 L.root ∧ s.kinfoItem 4 = BitVec.ofNat 64 L.cls ∧ s.kinfoItem 5 = BitVec.ofNat 64 L.sbm)) ∧
    (s.canRead a → s.canRead (specPlus a 1) → s.anyAcc (fun _ => true) = false → s.me.failed = none → s.me.speculative = false →
      let w : Vector Word 4 := #v[s.val64 a, hi64 (s.regVal a), s.val64 (specPlus a 1), hi64 (s.regVal (specPlus a 1))]
      s.descAddr .read 0x10000 w[0] = .ok () → s.descAddr .read 128 w[1] = .ok () → s.descAddr .read 64 w[2] = .ok () →
      s.descAddr .rmw 8 w[3] = .ok () →
      ∃ t, exec (.launch d a) s = .next t ∧ t.me.wait = .launch s.nextId s.cyc d ∧ t.me.pc = s.me.pc ∧ t.me.regs = s.me.regs ∧
        t.mem = s.mem ∧ Tab.get? t.subs s.nextId =
          some { desc := w, ctx := s.me.ctxNo, die := dieOf s.cur, from? := s.me.launchNo.map (fun l => (l, s.me.grp, s.cur, s.me.ipc)), queue := none,
                 owner := ((s.me.launchNo.bind s.launch?).map (·.order)).getD 0, clock := s.clockOf s.cur,
                 ts := if s.me.ordered then s.me.ts else 0, gser := s.groupSer s.me.launchNo s.me.grp }))

/-- R293, R295 to R298: an issue of a tile, a copy, a collective or a row operation whose checks pass files a token with the operands that
the context holds, Waiting or, with its gate set, Issued; its handle is the result and the counter of its major rises. -/
def Obligations.IssueMakesAToken : Prop :=
  ∀ (s : State) (d a : Spec) (i : BitVec 7) (o : Opts), s.canRead a → s.canWrite d → d ≠ 1 → o = mkOpts i (s.regVal a) → o.ntc < 5 →
    (s.val64 a).toNat < 2 ^ 32 → targetCheck o.ntc o.target = .ok () →
    (o.dep ≠ 0 → ∃ r, s.handle false (BitVec.ofNat 64 o.dep) = .ok r) → s.wakeCheck o.ntc o.target = .ok () →
    (o.ntc = 4 → s.baseCheck .write o.target = .ok ()) → s.anyAcc (fun _ => true) = false → s.me.speculative = false →
    s.slotsFull s.me.launchNo s.me.grp = false →
    ∀ q ∈ ([(.mx d a i, 0x10, 0, s.checkTile false), (.mxs d a i, 0x10, 1, s.checkTile true), (.mxDrn d a i, 0x10, 2, s.checkBank true),
        (.mxClr d a i, 0x10, 3, s.checkBank false), (.cp d a i, 0x11, 0, s.checkCopy false), (.cpT d a i, 0x11, 1, s.checkTensor),
        (.cpRed d a i, 0x11, 2, s.checkRed), (.cpCls d a i, 0x11, 3, s.checkCopy true), (.strmA d a i, 0x11, 4, s.checkStream),
        (.strmB d a i, 0x11, 5, s.checkStream), (.cpGat d a i, 0x11, 6, s.checkIndexed), (.cpSca d a i, 0x11, 7, s.checkIndexed),
        (.colAr d a i, 0x12, 0, s.checkColl true), (.colAg d a i, 0x12, 1, s.checkColl false), (.colRs d a i, 0x12, 2, s.checkColl true),
        (.colBc d a i, 0x12, 3, s.checkColl false), (.colA2a d a i, 0x12, 4, s.checkColl false), (.rowGat d a i, 0x14, 0, s.checkRow 0),
        (.rowSca d a i, 0x14, 1, s.checkRow 1), (.rowPin d a i, 0x14, 2, s.checkRow 2), (.rowUnp d a i, 0x14, 3, s.checkRow 3),
        (.rowHint d a i, 0x14, 4, s.checkRow 4)] : List (Instr × Nat × Nat × (Vector Word 4 → Except Stop Checked))),
      ∀ c slot s', q.2.2.2 s.me.x = .ok c → c.core = .ok () → c.after = .ok () → s.me.countFull q.2.1 = false →
        s.takeSlot s.homeCluster = some (slot, s') →
        ∃ t u, exec q.1 s = .next t ∧ t.tok? (s.homeCluster * 1024 + slot) = some u ∧
          u.hdl = mkHdl s.homeCluster slot (Tab.getD (s'.clu s.homeCluster).gens slot 1) ∧ u.maj = q.2.1 ∧ u.fn = q.2.2.1 ∧
          u.st = (if o.gate then .issued else .waiting) ∧ u.pri = o.pri ∧ u.hold = 0 ∧ u.holder = some s.cur ∧ u.place = s.cur ∧
          u.launch = s.me.launchNo ∧ u.grp = s.me.grp ∧ u.x = s.me.x ∧ u.fm = s.me.fm ∧ u.cls = s.effClass s.cur ∧
          u.deps = (if o.dep = 0 then [] else [o.dep]) ∧ u.ntc = o.ntc ∧ u.target = o.target ∧ u.tiss = s.cyc ∧
          t.me.regs[d] = scalar (BitVec.ofNat 64 u.hdl) ∧ t.me.pc = s.me.pc + 4 ∧
          t.me.ctl = s.me.ctl + (if q.2.1 = 0x10 then 1 else 0) ∧ t.me.ccp = s.me.ccp + (if q.2.1 = 0x10 then 0 else 1) ∧
          t.mem = s.mem ∧ ∀ k, k ≠ s.homeCluster * 1024 + slot → t.tok? k = s.tok? k

/-- R192, R306, R325 to R327, R330: looking at a token, which of a terminal one takes over what its notice releases (log entry 100), waiting
for it, detaching, adopting it (its new holder's task is no ordered one, so the token names no timestamp any more), its priority and its
notice. R299, R307, R319, R328, R329, R331: dependences and gates, cancelling, restarting and reading out a token. -/
def Obligations.TokensSeenAndControlled : Prop :=
  (∀ (s : State) (d a b : Spec) (p : PredNo) (k : Nat) (u : Token), s.canRead a → s.canRead b → s.canWrite d → d ≠ 1 →
    s.handle false (s.val64 a) = .ok (k, u) → s.me.ordered = false →
    (∃ t, exec (.tokTest d a p) s = .next t ∧ t.me.regs[d] = scalar (u.word 0) ∧ (p ≠ 0 → t.me.pred p = u.st.terminal) ∧
      (∀ r : PredNo, r ≠ p → t.me.pred r = s.me.pred r) ∧ t.me.pc = s.me.pc + 4 ∧ t.toks = s.toks ∧ t.mem = s.mem ∧
      (u.st.terminal = true → ∀ e ∈ u.clock, e.2 ≤ Tab.getD t.me.known e.1 0)) ∧
    (s.me.preempted = false → s.anyAcc (fun _ => true) = false → s.me.failed = none →
      (u.st.terminal = true → ∃ t, exec (.tokWait d a) s = .next t ∧ t.me.regs[d] = scalar (u.word 0) ∧ t.me.pc = s.me.pc + 4 ∧
        t.toks = s.toks ∧ t.mem = s.mem) ∧
      (u.st.terminal = false → s.me.state = .ready → ∃ t, exec (.tokWait d a) s = .next t ∧ t.me.state = .blocked ∧
        t.me.blk = some (.tok u.hdl d) ∧ t.me.ltStale = true ∧ t.me.pc = s.me.pc ∧ t.toks = s.toks ∧ t.mem = s.mem)) ∧
    (s.holds u = true → u.hold = 0 → ∃ t, exec (.tokDet a) s = .next t ∧ t.tok? k = some { u with hold := 1 } ∧
      t.me.pc = s.me.pc + 4 ∧ t.me.regs = s.me.regs ∧ t.mem = s.mem) ∧
    (u.hold = 2 → u.grp = s.me.grp → exec (.tokAdop a) s = .next ((s.setTok k { u with hold := 3, holder := some s.cur, ts := 0 }).fin 4)) ∧
    (s.holds u = true → (s.val64 b).toNat < 8 →
      exec (.tokPri a b) s = .next ((s.setTok k { u with pri := (s.val64 b).toNat }).fin 4)) ∧
    (s.holds u = true → (s.val64 b).toNat < 5 → targetCheck (s.val64 b).toNat (hi64 (s.regVal b)) = .ok () →
      s.wakeCheck (s.val64 b).toNat (hi64 (s.regVal b)) = .ok () →
      ((s.val64 b).toNat = 4 → s.baseCheck .write (hi64 (s.regVal b)) = .ok ()) → u.st.terminal = false → u.st ≠ .suspended →
      exec (.tokPost a b) s = .next ((s.setTok k { u with ntc := (s.val64 b).toNat, target := hi64 (s.regVal b) }).fin 4)) ∧
    (s.holds u = false → ∀ q ∈ ([.tokDet a, .tokCan a, .tokCanR a, .tokPri a b, .tokPost a b] : List Instr),
      exec q s = .next (s.takeFault { code := 0x004B, syn := BitVec.ofNat 64 u.hdl }))) ∧
  (∀ (s : State) (d a b : Spec) (k : Nat) (u : Token), s.canRead a → s.canRead b →
    s.handle false (s.val64 a) = .ok (k, u) → s.me.ordered = false → s.holds u = true →
    (u.st = .issued → u.gate = true → u.defer = none → u.deps.length < 4 →
      (s.val64 b ≠ 0 → (∃ r, s.handle false (s.val64 b) = .ok r) →
        exec (.tokDep a b) s = .next ((s.setTok k { u with deps := u.deps ++ [(s.val64 b).toNat] }).fin 4) ∧
        exec (.tokDepGo a b) s =
          .next ((s.setTok k { u with deps := u.deps ++ [(s.val64 b).toNat], st := .waiting, gate := false }).fin 4)) ∧
      (s.val64 b = 0 → exec (.tokDepGo a b) s = .next ((s.setTok k { u with st := .waiting, gate := false }).fin 4))) ∧
    (u.st = .done ∨ u.st = .cancelled → exec (.tokCan a) s = .next (s.fin 4)) ∧
    (u.st ≠ .done → u.st ≠ .cancelled → ∃ t v, exec (.tokCan a) s = .next t ∧ t.tok? k = some v ∧ v.st = .cancelled ∧ v.hdl = u.hdl ∧
      t.me.pc = s.me.pc + 4 ∧ t.me.regs = s.me.regs ∧ t.mem = s.mem ∧ (u.st ≠ .faulted → u.startedColl = false → u.maj ≠ 0x10 ∨ (u.st ≠ .running ∧ u.st ≠ .draining) →
        t.dir = u.lines.foldl Tab.del s.dir)) ∧
    (u.st = .faulted → u.copy = true ∨ (u.maj = 0x14 ∧ u.fn ≤ 1) → s.me.countFull u.maj = false →
      ∃ t v, exec (.tokCanR a) s = .next t ∧ t.tok? k = some v ∧ v.st = .waiting ∧ v.cur = u.cur ∧ v.cnt = u.cur ∧
        v.rpl = (if u.rpl + 1 ≤ 255 then u.rpl + 1 else 255) ∧ v.ack = true ∧ t.me.pc = s.me.pc + 4 ∧ t.mem = s.mem) ∧
    (16 ≤ d.val → d.val ≤ 60 → s.busy d = false → s.busy (specPlus d 1) = false → s.busy (specPlus d 2) = false →
      s.busy (specPlus d 3) = false →
      (∃ t, exec (.tokRec d a false) s = .next t ∧ t.me.regs[d] = mkReg (u.word 0) (u.word 1) ∧
        t.me.regs[specPlus d 1] = mkReg (u.word 2) (u.word 3) ∧ t.me.regs[specPlus d 2] = mkReg (u.word 4) (u.word 5) ∧
        t.me.regs[specPlus d 3] = mkReg (u.word 6) (u.word 7) ∧ t.me.pc = s.me.pc + 4 ∧ t.toks = s.toks ∧ t.mem = s.mem) ∧
      (u.st.terminal = true → u.posted = true → s.me.blk = none → ∃ t, exec (.tokRec d a true) s = .next t ∧
        t.toks = Tab.mapV (fun _ v => if u.st ≠ .done ∧ v.deps.contains u.hdl = true ∧ v.lost = none then { v with lost := some u.hdl } else v)
          (Tab.del s.toks k) ∧
        t.me.regs[d] = mkReg (u.word 0) (u.word 1) ∧ t.me.pc = s.me.pc + 4 ∧ t.mem = s.mem)))

/-- R366, R367, R372 to R375: `ctx.ld` creates a Destroyed context from an image, replaces the root, basin and layout of an Idle or
Suspended one, or destroys one, whose translations go from every TLB; `ctx.sv` issues the store of a context's record, which counts in cst
until it is performed, and returns its state. -/
def Obligations.ContextInstructions : Prop :=
  ∀ (s s' : State) (d a b : Spec) (n : Nat) (va : Word) (w : Nat → Nat), s.canRead a → s.canRead b →
    (s.ldOperands 0 a b = .ok (n, va) → s.ldImage va = .ok (w, s') → (s'.context n).st = .destroyed → s'.me.ordered = false →
      ∃ t, exec (.ctxLdCreate a b) s = .next t ∧ t.me.pc = s'.me.pc + 4 ∧ t.mem = s'.mem ∧ (∀ k, k ≠ n → t.context k = s'.context k) ∧
        t.context n = { sva := BitVec.ofNat 64 (w 7), svs := w 6 / 2 ^ 32, rqn := w 6 % 2 ^ 32, rqa := BitVec.ofNat 64 (w 5),
                        bas := BitVec.ofNat 64 (w 4), root := BitVec.ofNat 64 (w 3), lay := w 2 % 256, nsav := 0, st := .created,
                        pst := .destroyed, prv := w 0 % 2 == 1, saves := [], requeue := [], firings := [] }) ∧
    (s.ldOperands 1 a b = .ok (n, va) → s.ldImage va = .ok (w, s') → s'.me.ordered = false →
      (s'.context n).st = .idle ∨ (s'.context n).st = .suspended → w 0 = (if (s'.context n).prv then 1 else 0) →
      (∀ k ∈ [5, 6, 7], BitVec.ofNat 64 (w k) = s'.ctxWord n k) →
      ∃ t, exec (.ctxLdUpdate a b) s = .next t ∧ t.me.pc = s'.me.pc + 4 ∧ t.mem = s'.mem ∧ (t.context n).root = BitVec.ofNat 64 (w 3) ∧
        (t.context n).bas = BitVec.ofNat 64 (w 4) ∧ (t.context n).lay = w 2 % 256 ∧ (t.context n).st = (s'.context n).st ∧
        (t.context n).saves = (s'.context n).saves ∧ ∀ k, k ≠ n → t.context k = s'.context k) ∧
    (s.ldOperands 2 a b = .ok (n, va) → s.me.ordered = false →
      (s.context n).st = .created ∨ (s.context n).st = .idle ∨ (s.context n).st = .suspended → s.acc.any (fun e => e.2.ctx == n) = false →
      s.endsHeld n = false →
      ∃ t, exec (.ctxLdDestroy a b) s = .next t ∧ t.context n = Ctx.empty ∧ (∀ k, ∀ e ∈ (t.core k).tlb, teCtx e ≠ n) ∧
        (∀ k, ∀ e ∈ (t.clu k).tlb, teCtx e ≠ n) ∧ ∀ e ∈ t.walks, e.2.ctx ≠ n) ∧
    (∀ loc, (s.val64 a).toNat < 2 ^ 10 → s.access s.cur .write false (s.val64 b) 64 = .ok (loc, s') → s'.me.ordered = false → s'.busy d = false →
      s'.me.cst < 63 → d ≠ 1 →
      ∃ t, exec (.ctxSv d a b) s = .next t ∧ t.me.pc = s'.me.pc + 4 ∧ t.me.cst = s'.me.cst + 1 ∧ t.mem = s'.mem ∧
        Tab.get? t.acc s'.nextId =
          some (s'.access0 (.wide (s'.recordBytes (s.val64 a).toNat) false) (s.val64 b) 64 loc) ∧
        (∀ id, id ≠ s'.nextId → (Tab.get? t.acc id).map Access.core = (Tab.get? s'.acc id).map Access.core) ∧
        (∀ k, t.context k = s'.context k) ∧
        t.me.regs[d] = scalar (BitVec.ofNat 64 ((s'.context (s.val64 a).toNat).st.code +
          (if (s'.context (s.val64 a).toNat).st = .frozen then (s'.context (s.val64 a).toNat).pst.code else 0) * 16)))

/-- R376, R377, R384, R389: `que.sub` registers a queue, unregisters one whose started packets have retired and whose block can be written,
and resumes a Stopped one; a wi outside its bounds leaves a queue Stopped with es 3. R377, R384, R386, R388 to R390: mapping and unmapping
slots, reading one, and the decision log. A record is said of a granule of the log's ring with no damage. -/
def Obligations.QueueInstructions : Prop :=
  (∀ (s : State) (d a b : Spec) (ctx die loc : Nat), s.canRead a → s.canRead b → s.canWrite d → d ≠ 1 → s.me.ordered = false →
    (s.subCheck 0 (s.val64 a) (s.val64 b) = .ok (ctx, die, loc) → s.findQueue ctx (s.val64 a) = none →
      (s.queues.filter (fun e => e.2.die == die)).length < 1024 →
      ∃ t q, exec (.queSubRegister d a b) s = .next t ∧ Tab.get? t.queues s.nextId = some q ∧ q.qcb = s.val64 a ∧ q.ctx = ctx ∧ q.die = die ∧
        q.loc = loc ∧ q.es = (if q.st = .stopped then 3 else 0) ∧ q.ri = s.readN (loc + 16) 8 ∧ q.si = q.ri ∧ q.started = [] ∧
        (q.st = .stopped ↔ ¬(q.ri ≤ s.readN (loc + 8) 8 ∧ s.readN (loc + 8) 8 ≤ q.ri + 2 ^ q.lgn)) ∧
        (q.st = .idle → s.readN (loc + 8) 8 = q.ri) ∧ q.st ≠ .mapped ∧
        t.me.regs[d] = scalar (BitVec.ofNat 64 q.st.code) ∧ t.me.pc = s.me.pc + 4 ∧ t.nextId = s.nextId + 1) ∧
    (∀ k q, s.subCheck 1 (s.val64 a) (s.val64 b) = .ok (ctx, die, loc) → s.findQueue ctx (s.val64 a) = some (k, q) →
      s.queue? k = some q → q.st ≠ .mapped → (∀ e ∈ s.threads, ∀ d', e.2.wait ≠ .queue k d') →
      (q.started = [] → q.stale = false → (s.qcbLoc q).isSome = true → ∃ t, exec (.queSubUnregister d a b) s = .next t ∧ t.me.regs[d] = 0 ∧ t.me.wait = .none ∧
        t.me.pc = s.me.pc + 4 ∧ ∃ r, t.queues = Tab.del (Tab.put s.queues k r) k) ∧
      (q.started ≠ [] ∨ q.stale = true ∨ s.qcbLoc q = none → ∃ t r, exec (.queSubUnregister d a b) s = .next t ∧ t.me.wait = .queue k d ∧ t.me.pc = s.me.pc ∧
        t.queue? k = some r ∧ r.leaving = true)) ∧
    (∀ k q, s.subCheck 2 (s.val64 a) (s.val64 b) = .ok (ctx, die, loc) → s.findQueue ctx (s.val64 a) = some (k, q) → q.st = .stopped →
      ∃ t r, exec (.queSubResume d a b) s = .next t ∧ t.queue? k = some r ∧ r.lst = 0 ∧ r.fidx = 0 ∧ r.dr = false ∧
        r.es = (if q.ri ≤ s.wiOf q ∧ s.wiOf q ≤ q.ri + 2 ^ q.lgn then 0 else 3) ∧
        r.st = (if ¬ (q.ri ≤ s.wiOf q ∧ s.wiOf q ≤ q.ri + 2 ^ q.lgn) then .stopped else if s.wiOf q = q.si then .idle else .pending) ∧ r.ri = q.ri ∧ t.me.regs[d] = scalar (BitVec.ofNat 64 r.st.code) ∧
        t.me.pc = s.me.pc + 4)) ∧
  (∀ (s : State) (d a b : Spec), s.canRead a → s.canRead b → s.canWrite d → s.me.ordered = false →
    (∀ k q loc, (s.val64 b).toNat < 2 ^ 16 →
      s.queues.find? (fun e => e.2.qcb == s.val64 a && e.2.die == wbits (s.val64 b) 0 8 / 32) = some (k, q) → s.queue? k = some q →
      (s.context q.ctx).st ≠ .destroyed → s.qcbAt q.ctx q.die (s.val64 a) = .ok loc → q.st = .idle ∨ q.st = .pending →
      q.leaving = false → (s.context q.ctx).st ≠ .suspended → s.slotQueue (wbits (s.val64 b) 0 8) = none → s.logSound q.die →
      ∃ t r, exec (.slotMap a b) s = .next t ∧ t.queue? k = some r ∧ r.st = .mapped ∧ r.slot = wbits (s.val64 b) 0 8 ∧
        r.nmap = q.nmap + 1 ∧ r.ri = q.ri ∧ r.started = q.started ∧ t.me.pc = s.me.pc + 4 ∧ t.me.regs = s.me.regs) ∧
    ((s.val64 a).toNat < 2 ^ 8 → (s.val64 b).toNat < 2 ^ 16 → (s.val64 b).toNat % 2 ^ 8 = 0 →
      (s.slotQueue (s.val64 a).toNat = none → exec (.slotUnm a b) s = .next (s.fin 4)) ∧
      (∀ k q, s.slotQueue (s.val64 a).toNat = some (k, q) → s.queue? k = some q → s.logSound q.die →
        ∃ t r, exec (.slotUnm a b) s = .next t ∧ t.queue? k = some r ∧
          r.st = (if ¬ (q.ri ≤ s.wiOf q ∧ s.wiOf q ≤ q.ri + 2 ^ q.lgn) then .stopped else if q.si = s.wiOf q then .idle else .pending) ∧
          r.npre = q.npre + 1 ∧ r.ri = q.ri ∧ r.started = q.started ∧ t.me.pc = s.me.pc + 4 ∧ t.me.regs = s.me.regs)) ∧
    ((s.val64 a).toNat < 2 ^ 8 → ∃ t, exec (.slotRd d a) s = .next t ∧ s.Wrote t 4 d
      (match s.slotQueue (s.val64 a).toNat with
        | some (_, q) => mkReg q.qcb (BitVec.ofNat 64 (q.st.code + q.epri % 16 * 16))
        | none => 0)) ∧
    ((s.val64 b).toNat < 2 ^ 3 → s.logSound (s.val64 b).toNat → ∃ t, exec (.dlogWr a b) s = .next t ∧ t.me.pc = s.me.pc + 4 ∧ t.me.regs = s.me.regs ∧
      (t.die (s.val64 b).toNat).dwi = ((s.die (s.val64 b).toNat).dwi + 1) % 2 ^ 64 ∧
      t.mem = (if 8 ≤ (s.die (s.val64 b).toNat).dlgn.toNat ∧ (s.die (s.val64 b).toNat).dlgn.toNat ≤ 20 then
        memPutN s.mem (s.logAt (s.val64 b).toNat)
          (leBytes 8 (s.val64 a).toNat ++ leBytes 8 (s.cyc % 2 ^ 32 * 2 ^ 32 + wbits (hi64 (s.regVal a)) 2 30 * 4)) else s.mem)) ∧
    ((s.val64 a).toNat < 2 ^ 11 → wbits (s.val64 a) 3 5 = 0 → ∃ t, exec (.dlogRd d a) s = .next t ∧
      s.Wrote t 4 d (scalar (BitVec.ofNat 64 (((s.die (wbits (s.val64 a) 8 3)).dcnt[wbits (s.val64 a) 0 3]?).getD 0)))))

/-- R74, R81, R418 to R420, R422, R424: the debug instructions and the debugger's own steps: a stop takes every bound context of the core to
Halted with its cause, a go gives each its state back, `dbg.mark` writes a trace record while the encoder is on (said of a granule of the
trace ring with no damage), `prof.rd` reads a counter. The bits stop and go of DBG_CTL stay set, since no rule clears them (log entry 87).
-/
def Obligations.DebugInstructions : Prop :=
  ∀ (s : State) (d a b : Spec) (k : BitVec 6) (c : Nat) (w : Word), s.canRead a → s.canRead b → s.canWrite d → s.me.speculative = false →
    ((s.core (coreOf s.cur)).dbgEn = false → exec (.dbgBrk k) s = .next (s.fin 4)) ∧
    ((s.core (coreOf s.cur)).dbgEn = true → s.me.task.isSome = true → ∃ t, exec (.dbgBrk k) s = .next t ∧ t.me.state = .halted ∧
      t.me.pc = s.me.pc + 4 ∧ (t.core (coreOf s.cur)).hlt = true ∧ (t.core (coreOf s.cur)).cause = 2 ∧
      (t.core (coreOf s.cur)).code = k.setWidth 8 ∧ t.mem = s.mem) ∧
    ((s.core (coreOf s.cur)).trcEn = false → exec (.dbgMark a) s = .next (s.fin 4)) ∧
    ((s.core (coreOf s.cur)).trcEn = true → 8 ≤ (s.core (coreOf s.cur)).trcCfg.toNat → (s.core (coreOf s.cur)).trcCfg.toNat ≤ 20 →
      let at_ := ((s.core (coreOf s.cur)).trcBase.toNat +
        16 * ((s.core (coreOf s.cur)).trcWi.toNat % 2 ^ (s.core (coreOf s.cur)).trcCfg.toNat)) % 2 ^ 53
      s.sound at_ →
      ∃ t, exec (.dbgMark a) s = .next t ∧ t.me.pc = s.me.pc + 4 ∧ t.me.regs = s.me.regs ∧
        (t.core (coreOf s.cur)).trcWi = (s.core (coreOf s.cur)).trcWi + 1 ∧
        t.mem = memPutN s.mem at_ (leBytes 8 (s.val64 a).toNat ++
          leBytes 8 (s.cyc % 2 ^ 32 * 2 ^ 32 + 6 * 2 ^ 28 + s.cur % 8 * 2 ^ 25))) ∧
    (∀ n, s.profile (s.val64 a) = some n → ∃ t, exec (.profRd d a) s = .next t ∧ s.Wrote t 4 d (scalar (BitVec.ofNat 64 n))) ∧
    (s.profile (s.val64 a) = none → exec (.profRd d a) s = .next (s.takeFault { code := 0x0078, syn := s.val64 a })) ∧
    (∀ q ∈ ([(s.dbgOperands 0 a b, .dbgStopStop a b, 4, s.fin 4), (if validPlace (c * 8) then .ok (c, w) else .error .wait, .dbgCtlStop c, 1, s)] :
        List (Except Stop (Nat × Word) × Instr × BitVec 3 × State)), q.1 = .ok (c, w) →
      ∃ t, exec q.2.1 s = .next t ∧ (t.core c).hlt = true ∧ (t.core c).cause = q.2.2.1 ∧ t.mem = s.mem ∧
        (q.2.2.1 = 1 → (t.dbgRead c 0).getLsbD 1 = true) ∧
        (∀ p, coreOf p = c → (s.thread p).task.isSome = true → (t.thread p).state = .halted ∧
          ((s.thread p).state ≠ .halted → (t.thread p).prev = (s.thread p).state)) ∧
        ∀ p, coreOf p ≠ c → t.thread p = q.2.2.2.thread p) ∧
    (∀ q ∈ ([(s.dbgOperands 1 a b, .dbgStopGo a b), (if validPlace (c * 8) then .ok (c, w) else .error .wait, .dbgCtlGo c)] :
        List (Except Stop (Nat × Word) × Instr)), q.1 = .ok (c, w) → s.hub.frozen = false →
      ∃ t, exec q.2 s = .next t ∧ (t.core c).hlt = false ∧ (t.core c).cause = 0 ∧ t.mem = s.mem ∧
        ∀ p, coreOf p = c → (t.thread p).state = (if (s.thread p).state = .halted then (s.thread p).prev else (s.thread p).state)) ∧
    (s.dbgOperands 2 a b = .ok (c, w) → ∃ t, exec (.dbgStopStep a b) s = .next t ∧ (t.core c).step = true ∧
      (t.core c).sel = BitVec.ofNat 3 (wbits w 2 3) ∧ t.me.pc = s.me.pc + 4 ∧ t.mem = s.mem) ∧
    (validPlace (c * 8) = true →
      exec (.dbgCtlStep c) s = .next (s.setCore c { s.core c with step := true }) ∧ exec (.dbgDatWrite c w) s = .next (s.dbgDatWrite c w) ∧
      ((s.core c).hlt = true → ∀ r : Fin 64, 8 ≤ r.val → (s.core c).dbgSel = BitVec.ofNat 18 (r.val * 256) →
        ((s.dbgDatWrite c w).thread (c * 8)).regs[r] = mkReg w (hi64 (s.thread (c * 8)).regs[r])))

/-! ### Steps of the part (06_line.md to 18_barrier.md) -/

/-- R27, R162, R164, R209, R210, R214: the fetch, an engine's claim and release of a line, a scrub of a granule with one or two damaged
symbols, a class-block write, and the end of a clearing. R228 to R230: a miss starts a walk of its page in a service core; the walk's answer
puts the entry into the TLBs of the core and of the cluster, after which the access goes on, or makes it fault page-absent. The granules of
the table words are checked first (R218). -/
def Obligations.MemorySystemSteps : Prop :=
  (∀ (s : State),
    (∀ p bs s', s.canRun p = true → (s.thread p).state ≠ .blocked → ({ s with cur := p } : State).fetchBytes p = .ok (bs, s') →
      exec (.instructionFetch p) s = .next s') ∧
    (∀ k line u, s.tok? k = some u → u.active = true → u.copy = true → s.hub.frozen = false → s.nextClaim u = some line →
      covered (line * 32) = true → Tab.getD s.dir line .uncached = .uncached →
      s.acc.any (fun e => e.2.homed && e.2.n != 0 && e.2.loc / 32 == line) = false → s.waiting line = [] →
      ∃ t, exec (.engineClaim k line) s = .next t ∧ t.dir = Tab.put s.dir line (.engine k []) ∧
        t.tok? k = some { u with lines := u.lines ++ [line] } ∧ t.mem = s.mem ∧ t.threads = s.threads) ∧
    (∀ k line u, s.tok? k = some u → u.maj = 0x11 → s.hub.frozen = false → u.mask.contains line = true → u.lines.contains line = true →
      ∃ t, exec (.engineRelease k line) s = .next t ∧ t.dir = Tab.del s.dir line ∧
        t.tok? k = some { u with lines := u.lines.filter (· != line), mask := u.mask.filter (· != line) } ∧ t.mem = s.mem ∧
        t.threads = s.threads) ∧
    (∀ pa, pa < 2 ^ 64 → s.homeWaits pa = false → s.frameClass pa = 0 → (s.granule (pa / 64)).poison = false →
      ((s.granule (pa / 64)).hbm = [] → exec (.scrubRead pa) s = .next s) ∧
      (∀ a, (s.granule (pa / 64)).hbm = [a] → exec (.scrubRead pa) s = .next ((s.setGran (pa / 64) { s.granule (pa / 64) with hbm := [] }).setHub
        { s.hub with errCorr := if s.hub.errCorr + 1 ≤ 2 ^ 64 - 1 then s.hub.errCorr + 1 else 2 ^ 64 - 1 })) ∧
      (∀ a b, (s.granule (pa / 64)).hbm = [a, b] → ∃ t, exec (.scrubRead pa) s = .next t ∧ (t.granule (pa / 64)).poison = true ∧
        t.mem = s.mem ∧
        t.hub = { s.hub with errUncorr := if s.hub.errUncorr + 1 ≤ 2 ^ 64 - 1 then s.hub.errUncorr + 1 else 2 ^ 64 - 1 })) ∧
    (∀ j (v : BitVec 64), j < 9216 → ∃ t, exec (.clsBlkWrite j v) s = .next t ∧ t.threads = s.threads ∧
      ((t = s.setHub { s.hub with rej := true }) ∨
       ((∀ i < 32, t.frameCls (32 * j + i) = wbits v (2 * i) 2) ∧ (∀ n, n < 32 * j ∨ 32 * j + 32 ≤ n → t.frameCls n = s.frameCls n) ∧
        (∀ a, locTag a = 0 → t.frameCls (a / 0x200000) ≠ s.frameCls (a / 0x200000) → memGet t.mem a = 0) ∧
        (∀ a, locTag a ≠ 0 ∨ t.frameCls (a / 0x200000) = s.frameCls (a / 0x200000) → memGet t.mem a = memGet s.mem a) ∧
        ∀ i < 32, s.frameCls (32 * j + i) ≠ wbits v (2 * i) 2 → 32 * j + i ∈ t.hub.busy))) ∧
    exec .classClearDone s = .next (s.setHub { s.hub with busy := [] })) ∧
  (∀ (s : State) (p : Nat) (va : Word), (s.thread p).wait = .walk va →
    (∀ cl, s.walkOf p = none → cl = walkCluster (cluOfPlace p) → s.serves cl = true →
      s.walks.find? (fun e => e.2.cl == cl && e.2.ctx == (s.thread p).ctxNo && e.2.vpn == va.toNat / 0x10000 && !e.2.queued) = none →
      (s.walks.filter (fun e => e.2.cl == cl && !e.2.queued)).length < 8 ∨ s.inboxUsed (coreOf (placeOf cl 16 0)) < 32 →
      ∃ t w, exec (.tlbMiss p) s = .next t ∧ t = { s with walks := t.walks, nextId := s.nextId + 1 } ∧
        Tab.get? t.walks s.nextId = some w ∧ w.cl = cl ∧ w.ctx = (s.thread p).ctxNo ∧ w.vpn = va.toNat / 0x10000 ∧ w.places = [p] ∧
        (w.queued = true ↔ 8 ≤ (s.walks.filter (fun e => e.2.cl == cl && !e.2.queued)).length)) ∧
    (∀ k w good s1, s.walkOf p = some (k, w) → w.queued = false → s.serves w.cl = true → w.places = [p] → w.vpn = va.toNat / 0x10000 →
      s.checkTables { launch := (s.thread p).launchNo, grp := (s.thread p).grp, place := p }
        (s.walkLocs w.cl (w.vpn * 0x10000) 4 (s.context w.ctx).root.toNat) = (good, s1) →
      (s1.thread p).wait = .walk va →
      (∀ e, good = true → s1.walkTable w.cl w.ctx (w.vpn * 0x10000) = .ok e →
        ∃ t, exec (.walkReply p) s = .next t ∧ (t.thread p).wait = .none ∧
          (t.core (coreOf p)).tlb = coreTlbPut (s1.core (coreOf p)).tlb e ∧
          (t.clu (cluOfPlace p)).tlb = cluTlbPut (s1.clu (cluOfPlace p)).tlb e ∧ t.mem = s1.mem) ∧
      (∀ bad, (good = true ∧ s1.walkTable w.cl w.ctx (w.vpn * 0x10000) = .error bad) ∨ (good = false ∧ bad = true) →
        ∃ t, exec (.walkReply p) s = .next t ∧ (t.thread p).wait = .answer 0x0017 va ∧ t.mem = s1.mem ∧
          (bad = true → (t.clu w.cl).walkErrs =
            if (s1.clu w.cl).walkErrs + 1 ≤ 2 ^ 64 - 1 then (s1.clu w.cl).walkErrs + 1 else 2 ^ 64 - 1))))

/-- R75, R242, R244, R271: a record that reaches an inbox with a free entry, or a task unit with room, waits there; a reply takes the
handler and the group of its slot, which is freed. A refusal with handler address 0 is dropped (R272). R73, R79, R104: admission starts the
handler of the record that comes next: its payload in v0 to v2, every other register 0, `lt` stale, predicates and operand registers reset,
formats of the kernel, the record's header, group and key. The seed of the entropy source is free (log entry 5). -/
def Obligations.RecordsAndAdmission : Prop :=
  (∀ (s : State) (k c cl : Nat) (m : Msg), Tab.get? s.mesh k = some m → s.inOrder k m = true → m.counted = false →
    m.parent = none → m.restore = false → s.suspending m.ctx = false →
    (m.dest = .core c → s.inboxUsed c < 32 →
      (hKind m.h0 ∈ [0, 4, 5, 6, 8] → hKind m.h0 ≠ 5 ∨ hPc m.h0 ≠ 0 →
        exec (.inboxRecordArrival k) s =
          .next (({ s with mesh := Tab.del s.mesh k } : State).setCore c { s.core c with inbox := (s.core c).inbox ++ [m.taken s.cyc] })) ∧
      (∀ r, hKind m.h0 = 2 → hPc m.h0 = 0 → Tab.get? (s.core c).slots (hRtag m.h1 % 64) = some r → r.tag = hRtag m.h1 / 64 →
        s.groupGone { m with h0 := mkH0 2 r.grp r.handler.toNat, launch := r.launch } = false →
        ∃ t x, exec (.inboxRecordArrival k) s = .next t ∧ (t.core c).inbox = (s.core c).inbox ++ [x] ∧ x.pay = m.pay ∧
          x.launch = r.launch ∧ hKind x.h0 = 2 ∧ hGrp x.h0 = r.grp % 4096 ∧ hPc x.h0 = r.handler.toNat % 2 ^ 48 ∧
          (t.core c).slots = Tab.del (s.core c).slots (hRtag m.h1 % 64) ∧ t.mem = s.mem ∧ t.threads = s.threads)) ∧
    (m.dest = .core c → hKind m.h0 = 7 ∨ 9 ≤ hKind m.h0 ∨ (hKind m.h0 = 5 ∧ hPc m.h0 = 0) →
      ∃ t, exec (.inboxRecordArrival k) s = .next t ∧ t.mesh = Tab.del s.mesh k ∧ (t.core c).inbox = (s.core c).inbox ∧
        (t.core c).drops = (if (s.core c).drops + 1 ≤ 2 ^ 64 - 1 then (s.core c).drops + 1 else 2 ^ 64 - 1)) ∧
    (m.dest = .task cl → hKind m.h0 ≠ 7 → hKind m.h0 < 9 → (s.clu cl).tu.length < 1024 →
      exec (.taskUnitRecordArrival k) s =
        .next (({ s with mesh := Tab.del s.mesh k } : State).setClu cl { s.clu cl with tu := (s.clu cl).tu ++ [m.taken s.cyc] }))) ∧
  (∀ (s : State) (p : Nat) (m : Msg), s.live = true → validPlace p = true → (s.core (coreOf p)).hlt = false → s.nextRecord p = some m →
    m.firing = none → m.restore = false → (s.core (coreOf p)).trcEn = false → hKind m.h0 ≠ 5 ∨ hPc m.h0 ≠ 0 → hKind m.h0 ≠ 1 →
    ∃ t k, exec (.admission p) s = .next t ∧ (t.thread p).state = .ready ∧ (t.thread p).task = some k ∧ k.ctx = m.ctx ∧
      k.launch = m.launch ∧ k.kind = hKind m.h0 ∧ k.entry = none ∧ (t.thread p).pc = BitVec.ofNat 64 (hPc m.h0) ∧
      (t.thread p).regs[(16 : Spec)] = m.pay[0] ∧ (t.thread p).regs[(17 : Spec)] = m.pay[1] ∧ (t.thread p).regs[(18 : Spec)] = m.pay[2] ∧
      (∀ r : Spec, r.val < 16 ∨ 19 ≤ r.val → (t.thread p).regs[r] = 0) ∧ (t.thread p).ltStale = true ∧ (t.thread p).preds = 1 ∧
      (t.thread p).x = Vector.replicate 4 0 ∧ (t.thread p).tagbase = 0 ∧ (t.thread p).lc = 0 ∧ (t.thread p).srs ≠ 0 ∧
      (t.thread p).h0 = m.h0 ∧ (t.thread p).h1 = m.h1 ∧ (t.thread p).ts = m.ts ∧ (t.thread p).grp = hGrp m.h0 ∧
      (∀ L, m.launch.bind s.launch? = some L → (t.thread p).fm = L.fm ∧ (t.thread p).f = L.f) ∧
      ((m.launch.bind s.launch? = none) → (t.thread p).fm = 0 ∧ (t.thread p).f = Vector.replicate 4 0))

/-- R76, R149, R244: a send that has been held for 2^24 cycles faults send-stall with its destination; a cluster whose die's spill area has
been full for a whole round aborts its latest revocable task. R255, R263, R264: a round of the weir: the sample at a multiple of 256 cycles,
the reductions 64 and 128 cycles later, the frontier applied at 160 and never lower than before, the commits at 192. -/
def Obligations.HeldSendsAndWeirRounds : Prop :=
  (∀ (s : State) (p : Nat),
    (∀ dest since, (s.thread p).wait = .send dest since → s.hub.frozen = false → s.hub.d2d = [] → (s.core (coreOf dest)).hlt = false →
      (since + 2 ^ 24 ≤ s.cyc → exec (.sendStallTimeout p) s =
        .next ((s.setThread p { s.thread p with wait := .none }).takeFaultAt p (s.thread p).ipc { code := 0x0007, syn := BitVec.ofNat 64 dest })) ∧
      (s.cyc < since + 2 ^ 24 → exec (.sendStallTimeout p) s = .next s)) ∧
    (∀ cl r e c, s.live = true → (s.clu cl).fullSince = some r → r < s.round → 131072 ≤ s.spilled (cl / 24) →
      ({ s.clu cl with commits := (s.clu cl).commits.filter (fun x => !x.2.irrev) } : Cluster).latestEntry = some (e, c) →
      exec (.spillFullAbort cl) s = .next (s.abortAll [(cl, e)]))) ∧
  (∀ (s : State), s.live = true →
    (s.wstage = 0 → s.round < s.cyc / 256 → ∃ t, exec .weirSample s = .next t ∧ t.round = s.cyc / 256 ∧ t.wstage = 1 ∧
      t.mem = s.mem ∧ t.threads = s.threads ∧
      ∀ l L, s.launch? l = some L → ∃ M, t.launch? l = some M ∧ M.least = leastKey (s.unfinished l) ∧
        M.fin = greatestKey (s.finished l) ∧ M.front = L.front) ∧
    (s.wstage = 1 → 256 * s.round + 64 ≤ s.cyc → exec .weirDieReduction s = .next { s with wstage := 2 }) ∧
    (s.wstage = 2 → 256 * s.round + 128 ≤ s.cyc → ∃ t, exec .weirDeviceReduction s = .next t ∧ t.wstage = 3 ∧ t.mem = s.mem ∧
      t.threads = s.threads ∧ ∀ l L, s.launch? l = some L → ∃ M f, t.launch? l = some M ∧ M.next = some (f, L.least.isNone) ∧
        keyLt f L.front = false ∧ (∀ k, L.least = some k → keyLt k L.front = false → f = k)) ∧
    (s.wstage = 3 → 256 * s.round + 160 ≤ s.cyc → (∀ c ∈ s.commits, c.2.2.items = []) → ∃ t, exec .weirFrontierApply s = .next t ∧ t.wstage = 4 ∧
      t.mem = s.mem ∧ ∀ l L f n, s.launch? l = some L → L.next = some (f, n) →
        ∃ M, t.launch? l = some M ∧ M.front = f ∧ M.frontNone = n ∧ M.next = none) ∧
    (s.wstage = 4 → 256 * s.round + 192 ≤ s.cyc → ∃ t, exec .weirCommit s = .next t ∧ t.wstage = 0 ∧
      ((∀ x ∈ s.commits, x.2.2.state ≠ .finished) → t = { s with wstage := 0 })))

/-- R86, R367, R368, R371, R385, R386: requests for pre-emption, which Turat makes where its image may (log entry 116), and what follows
them, a context's areas, freezing at 105 degrees and thawing at 95. -/
def Obligations.ContextSteps : Prop :=
  ∀ (s : State) (n p : Nat),
    (s.live = true → n < 1024 → s.decides = true → (s.context n).st ≠ .running → exec (.preemptionRequest n) s = .next (s.record 0 6 0 0 n 0)) ∧
    (s.live = true → 0 < n → n < 1024 → s.mayPreempt n = true → (s.context n).st = .running → s.clus = [] → s.cores = [] → (∀ e ∈ s.threads, e.2.real ≠ .blocked) →
      ∃ t, exec (.preemptionRequest n) s = .next t ∧ (t.context n).st = .preempting ∧
        (∀ q, (s.thread q).task.isSome = true → (s.thread q).ctxNo = n → (t.thread q).pend = true ∧ (t.thread q).pendAt = s.cyc) ∧
        ∀ q, (∀ e ∈ s.threads, e.1 = q → e.2.ctxNo ≠ n) → t.thread q = s.thread q) ∧
    (s.live = true → (s.core (coreOf p)).hlt = false → (s.thread p).task.isSome = true → (s.thread p).pend = true →
      (s.thread p).state = .ready → (s.thread p).wait = .none → (s.thread p).pendAt + 2 ^ 21 ≤ s.cyc →
      exec (.noSafePointTimeout p) s = .next (s.kernelFault p 0x0008 5 0)) ∧
    (s.live = true → (s.context n).st = .preempting → s.quietContext n = true → (∀ e ∈ s.queues, e.2.ctx ≠ n) →
      exec (.contextSuspended n) s = .next (s.setCtx n { s.context n with st := .suspended })) ∧
    (s.live = true → (s.context n).st = .suspended → s.decides = true → ∃ t, exec (.contextResume n) s = .next t ∧ (t.context n).st = .running ∧
      (t.context n).saves = [] ∧ (t.context n).requeue = [] ∧ (t.context n).firings = [] ∧ (t.context n).nsav = 0 ∧ t.threads = s.threads) ∧
    (s.live = true → (s.context n).st = .created →
      (s.areasLeased n = true → exec (.contextAreasResident n) s = .next (s.setCtx n { s.context n with st := .idle })) ∧
      (s.areasLeased n = false → exec (.contextAreasResident n) s = .next s ∧
        ∃ t, exec (.contextAreasUnbacked n) s = .next t ∧ t.context n = Ctx.empty ∧ t.threads = s.threads)) ∧
    (s.live = true → (s.context n).st = .faulted → (s.context n).failed = [] → s.anySaving n = false → (∀ e ∈ s.launches, e.2.sub.ctx ≠ n) →
      ∃ t, exec (.contextDiscardComplete n) s = .next t ∧ (t.context n).st = .idle ∧ (t.context n).saves = [] ∧
        (t.context n).requeue = [] ∧ (t.context n).firings = [] ∧ (t.context n).nsav = 0 ∧ t.threads = s.threads) ∧
    (∀ k temp, k < 8 → 105 ≤ temp → s.hub.phase = 2 → s.hub.fatal = 0 → s.hub.frozen = false →
      ∃ t, exec (.freeze k temp) s = .next t ∧ t.hub.frozen = true ∧ t.hub.frozenAt = s.cyc ∧
        (∀ m, (s.context m).st ≠ .destroyed → (t.context m).st = .frozen ∧ (t.context m).pst = (s.context m).st) ∧
        ∀ q, (s.thread q).task.isSome = true → (t.thread q).state = .halted) ∧
    (∀ temps : List Nat, s.hub.frozen = true → temps.length = 8 → (∀ x ∈ temps, x ≤ 95) →
      ∃ t, exec (.thaw temps) s = .next t ∧ t.hub.frozen = false ∧
        (∀ m, (s.context m).st = .frozen → (t.context m).st = (s.context m).pst) ∧
        ∀ q, (s.thread q).state = .halted → (s.core (coreOf q)).hlt = false → (t.thread q).state = (s.thread q).prev)

/-- R299 to R301, R309 to R313: a Waiting copy with nothing before it starts; a stream fetches its next group; a tile consumes the groups at
the heads of its two streams and accumulates their products; a drain writes its window. R298, R299, R304: a complete operation is Done and
gives up its lines; a faulted token's notice is posted; an issue held for 2^24 cycles for want of a slot faults token-stall. -/
def Obligations.TokensRunAndEnd : Prop :=
  (∀ (s : State) (k e : Nat) (u : Token), s.tok? k = some u → s.hub.frozen = false →
    (u.st = .waiting → u.copy = true → u.deps = [] → u.lost = none → (∀ x ∈ s.toks, x.1 = k ∨ rivals u x.2 e = false) → (s.context u.ctx).st ≠ .suspended →
      exec (.tokenStart k e) s = .next (s.setTok k { u with st := .running, engine := some e, mask := [] })) ∧
    (∀ h, u.st = .waiting → s.depFailed u = some h → ∃ t v, exec (.tokenStart k e) s = .next t ∧ t.tok? k = some v ∧
      v.st = .cancelled ∧ v.fc = 0x0E ∧ v.syn = BitVec.ofNat 64 h ∧ t.mem = s.mem) ∧
    (∀ ls s' v, u.st = .running → u.stream = true → u.engine.isSome = true → u.fetched < u.groups → u.fetched < u.cur + 8 →
      State.fetchLines u u.fetched (wbits u.x[2] 0 7) 0 s = .ok (ls, s') →
      s'.tok? k = some v → exec (.streamGroupFetch k) s = .next (s'.setTok k { v with fifo := v.fifo ++ [ls], fetched := v.fetched + 1 })) ∧
    (∀ ka kb a b ga gb, u.tile = true → u.active = true → u.cur < u.tileGroups → u.inj = none → s.streamOf u.x[0].toNat = some (ka, a) →
      s.streamOf u.x[1].toNat = some (kb, b) → a.st = .running → b.st = .running → a.fifo.head? = some ga → b.fifo.head? = some gb →
      ∃ t v, exec (.tileGroupStep k) s = .next t ∧ t.tok? k = some v ∧ v.cur = u.cur + 1 ∧ v.st = u.st ∧ t.mem = s.mem ∧
        t.accum = (s.accumulate u.cluster (u.engine.getD 0) u.bank (groupLines a ga) (groupLines b gb)).1.accum ∧
        v.flg = u.flg ||| (s.accumulate u.cluster (u.engine.getD 0) u.bank (groupLines a ga) (groupLines b gb)).2) ∧
    (∀ s' r v, u.maj = 0x10 → u.fn = 2 → u.active = true → u.startedColl = false → hdlKey u.hdl = k →
      State.drainRows u (dRows u.x[2]) 0 (s.engFp u).2 { bytes := [], scales := [], qr := 0, qsat := false, fp := (s.engFp u).1 } = .ok (s', r) →
      s'.tok? k = some v → exec (.tileDrain k) s = .next (s'.setTok k { v with startedColl := true }) ∧ v.cnt = dRows u.x[2] * dCols u.x[2] ∧
        (u.launch = none → v.qsat = (u.qsat || r.qsat)))) ∧
  (∀ (s : State) (k : Nat) (u : Token), s.tok? k = some u →
    (s.hub.frozen = false → u.active = true → u.complete = true → u.ntc = 0 → ∃ t v, exec (.tokenDone k) s = .next t ∧ t.tok? k = some v ∧
      v.st = .done ∧ v.tend = s.cyc ∧ v.lines = [] ∧ v.cnt = u.cnt ∧ v.posted = true ∧ t.mem = s.mem ∧
      t.dir = u.lines.foldl Tab.del s.dir ∧
      (∀ p, u.holder = some p → u.hold = 0 → u.defer = none → u.maj = 0x11 → (t.thread p).ccp = (s.thread p).ccp - 1)) ∧
    (u.st = .faulted → u.posted = false → u.ntc = 0 → u.hold ≠ 2 → s.hub.frozen = false →
      exec (.tokenFault k) s = .next (s.setTok k { u with posted := true, told := if u.told = 0 then 1 else u.told })) ∧
    (∀ p since, (s.thread p).wait = .slot since → since + 2 ^ 24 ≤ s.cyc → (s.thread p).state ≠ .halted → s.hub.frozen = false →
      exec (.tokenSlotStallTimeout p) s =
        .next ((s.setThread p { s.thread p with wait := .none }).takeFaultAt p (s.thread p).ipc { code := 0x004D })))

/-- R315 to R319, R321, R323: one step of each copy, from the outcome of its accesses, and the two bounds on collectives. R335 to R339,
R342: a window's indices and map entries are read first; then a gather's rows are read and its elements written line by line, a scatter's
combiners perform its elements one by one, the other operations act element after element, an element that waited on a migrating row reads
its entry again; the counters of a slice halve once in 65,536 cycles. -/
def Obligations.CopiesRowsAndCollectives : Prop :=
  (∀ (s : State) (k : Nat) (u : Token), s.tok? k = some u → s.hub.frozen = false →
    (∀ s', u.maj = 0x11 → u.active = true → u.cur < u.total →
      ∀ q ∈ ([(0, s.stepCp k u), (1, s.stepTensor k u), (2, s.stepRed k u), (3, s.stepCls k u), (6, s.stepIndexed k u), (7, s.stepIndexed k u)] :
        List (Nat × Eng State)), u.fn = q.1 →
        (q.2 = .ok s' → exec (.copyLineStep k) s = .next (s'.stopCopy k u.cnt)) ∧
        (q.2 = .error .wait → exec (.copyLineStep k) s = .next (s.stopCopy k u.cnt)) ∧
        (∀ fc a y, q.2 = .error (.fault s' fc a y) → exec (.copyLineStep k) s = .next ((s'.faultTok k fc a y).stopCopy k u.cnt))) ∧
    (u.maj = 0x12 → u.startedColl = false → u.st.terminal = false → s.instHeld u = false →
      (∀ x ∈ s.toks, sameInst u x.2 = true → x = (k, u)) → u.tiss + u.paused + 2 ^ 28 ≤ s.cyc →
      ∃ t v, exec (.collectiveTimeout k) s = .next t ∧ t.tok? k = some v ∧ v.st = .faulted ∧ v.fc = 0x10 ∧ v.fadr = 0 ∧ t.mem = s.mem) ∧
    (u.maj = 0x12 → u.st = .draining → u.startedColl = true → u.fn = 0 →
      u.drainAt + (65536 + 4096 * ((wbits u.x[3] 32 32 * (redBytes (wbits u.x[3] 24 4)).getD 1 + 65535) / 65536)) < s.cyc →
      ∃ t v, exec (.drainBoundExceeded k) s = .next t ∧ t.tok? k = some v ∧ v.st = .faulted ∧ v.fc = 0x10 ∧
        v.syn = BitVec.ofNat 64 u.rank ∧ t.mem = s.mem)) ∧
  ((∀ (s : State) (k i : Nat) (u : Token), s.tok? k = some u → s.hub.frozen = false → u.rowActive = true →
    (∀ q ∈ ([(u.claimed != 1, s.rowOpen k u), (u.claimed == 1 && u.fn == 0, s.gatherNext k u),
        (u.claimed == 1 && decide (2 ≤ u.fn), s.rowOne k u u.rowFirst)] : List (Bool × Eng State)), q.1 = true →
      (q.2 = .error .wait → exec (.rowWindow k) s = .next s) ∧
      (∀ s1 fc a y, q.2 = .error (.fault s1 fc a y) → exec (.rowWindow k) s = .next (s1.faultTok k fc a y))) ∧
    (∀ s1, u.claimed ≠ 1 → s.rowOpen k u = .ok s1 → exec (.rowWindow k) s = .next s1) ∧
    (∀ s1, u.claimed = 1 → u.fn = 0 → s.gatherNext k u = .ok s1 → exec (.rowWindow k) s = .next s1) ∧
    (∀ s1, u.claimed = 1 → 2 ≤ u.fn → s.rowOne k u u.rowFirst = .ok s1 → exec (.rowWindow k) s = .next s1) ∧
    (u.claimed = 1 → u.fn = 1 → exec (.rowWindow k) s = .next s) ∧
    (∀ s', u.claimed = 1 → u.mask.contains i = false → u.window.1 ≤ i → i < u.window.1 + u.window.2 → s.rowOne k u i = .ok s' →
      (u.fn = 1 → exec (.rowCombinerUpdate k i) s = .next s') ∧ exec (.rowEntryReread k i) s = .next s') ∧
    (u.claimed = 1 → u.mask.contains i = false → u.window.1 ≤ i → i < u.window.1 + u.window.2 → s.rowOne k u i = .error .wait →
      exec (.rowCombinerUpdate k i) s = .next s ∧ exec (.rowEntryReread k i) s = .next s)) ∧
  (∀ (s : State) (cl : Nat),
    (s.cyc / 65536 ≤ (s.clu cl).halved → exec (.rowCounterHalving cl) s = .next s) ∧
    ((s.clu cl).halved < s.cyc / 65536 → ∃ t, exec (.rowCounterHalving cl) s = .next t ∧
      (t.clu cl).rowTags.length = (s.clu cl).rowTags.length ∧ (t.clu cl).halved = (s.clu cl).halved + 1 ∧
      (∀ g ∈ (t.clu cl).rowTags, ∃ h ∈ (s.clu cl).rowTags, g.va = h.va ∧ g.pin = h.pin ∧ g.counter = h.counter / 2) ∧ t.mem = s.mem)))

/-- R348 to R352, R356, R359, R363, R367: the states of a launch from its number to its end, the end of a group, and the sluice governor. -/
def Obligations.LaunchSteps : Prop :=
  ∀ (s : State) (l cl : Nat), s.live = true →
    (∀ k v, Tab.get? s.subs k = some v → Tab.freeKey s.launches 0 4096 = some l →
      ∃ t, exec (.launchAdmit k) s = .next t ∧ t.launch? l = some (Launch.new v k s.cyc) ∧ t.subs = Tab.del s.subs k ∧ t.mem = s.mem ∧
        ∀ p d since, s.threads.find? (fun e => match e.2.wait with | .launch n _ _ => n == k | _ => false) = some (p, s.thread p) →
          (s.thread p).wait = .launch k since d → d ≠ 1 → (t.thread p).regs[d] = scalar (BitVec.ofNat 64 l) ∧
            (t.thread p).pc = (s.thread p).pc + 4 ∧ (t.thread p).wait = .none) ∧
    (∀ L, s.launch? l = some L → L.ending = false →
      (∀ w s', L.state = .checking → s.checkLaunch L.sub = .error (some w, s') → s'.launch? l = some L → ∃ t M, exec (.launchCheck l) s = .next t ∧
        t.launch? l = some M ∧ M.ending = true ∧ M.status = 1 ∧ M.detail = w) ∧
      (∀ s', L.state = .checking → s.checkLaunch L.sub = .error (none, s') → exec (.launchCheck l) s = .next s') ∧
      (∀ f s', L.state = .checking → s.checkLaunch L.sub = .ok (f, s') → (s'.freeSlots l).head? = some 0 →
        ∃ t M b, exec (.launchCheck l) s = .next t ∧ t.launch? l = some M ∧ M.state = .residing ∧ M.safes = f.safes ∧
          M.leases = { base := L.sub.desc[0].toNat, size := Header.span f.head, perm := 2 } :: (f.leases ++ (s'.context L.sub.ctx).areas) ∧
          M.sbm = Header.w f.head 1 40 8 ∧ M.entry = Header.w f.head 0 0 48 ∧ M.fm = BitVec.ofNat 64 (Header.w f.head 3 0 64) ∧ M.root = 0 ∧
          t.group? l 0 = some b ∧ b.st = 1 ∧ b.par = 0 ∧ t.mem = s'.mem ∧
          (L.sub.die < 8 → t.allLeased M = false → .reside l ∈ (t.core (1024 * L.sub.die + 17)).asked)) ∧
      (L.state = .residing → (s.allLeased L = true → exec (.launchResident l true) s =
          .next ((s.pagerTook (· == .reside l)).setLaunch l { L with state := if L.ord then .awaitWeir else .placing, waitAt := s.cyc })) ∧
        (s.allLeased L = false → ∃ t M, exec (.launchResident l false) s = .next t ∧ t.launch? l = some M ∧ M.ending = true ∧ M.status = 2)) ∧
      (L.state = .awaitWeir → s.weirSlots < 64 → (∀ e ∈ s.launches, e.2.state = .awaitWeir → L.order ≤ e.2.order) →
        exec (.launchWeirSlot l) s = .next (s.setLaunch l { L with state := .placing, waitAt := s.cyc })) ∧
      (L.state = .placing → cl < 192 → (∀ e ∈ s.launches, e.2.state = .placing → e.1 = l) → (s.die L.sub.die).go = false → s.tasksFull (some l) L.root = false →
        (s.context L.sub.ctx).st = .idle ∨ (s.context L.sub.ctx).st = .running →
        ∃ t m, exec (.launchPlace l cl) s = .next t ∧ t.launch? l = some { L with state := .running } ∧
          (t.context L.sub.ctx).st = .running ∧ Tab.get? t.mesh s.nextId = some m ∧ m.dest = .task cl ∧ m.launch = some l ∧
          m.h0 = mkH0 0 L.root (L.sub.desc[0].toNat + L.entry) ∧ m.pay = #v[mkReg L.sub.desc[2] (BitVec.ofNat 64 l), 0, 0]) ∧
      (L.state = .running → L.status = 0 → s.launchQuiet l = true → (∀ e ∈ s.acc, e.2.launch ≠ some l) → s.subHeld L.sub = false →
        (∀ e ∈ s.groups, e.1 / 4096 = l → (s.gcbLoc l e.2).isSome = true) →
        ∃ t, exec (.launchEnd l) s = .next t ∧ t.launches = Tab.del s.launches l ∧
          t.groups = s.groups.filter (fun e => e.1 / 4096 != l)) ∧
      (L.state = .running → L.visited < s.cyc / 4096 → (∀ e ∈ s.groups, e.2.stg = 0) →
        exec (.sluiceGovernorVisit l) s = .next (s.setLaunch l { L with visited := s.cyc / 4096 }))) ∧
    (∀ g b, s.group? l g = some b → b.st = 3 → s.kidCount l g = 0 → s.orphanCount l g = 0 →
      (∀ x ∈ s.runningGroups l ++ s.savedGroups l, s.inSubtree l g x = false) → (s.gcbLoc l b).isSome = true →
      ∃ t, exec (.groupEnded l g) s = .next t ∧
        (b.par ≠ g → t.groups = Tab.del (Tab.put s.groups (groupKey l g) (b.put 0 60 4 4)) (groupKey l g)) ∧
        (b.par = g → t.group? l g = some (b.put 0 60 4 4)))

/-- R377, R379 to R382, R384: a queue's write index is read, its packets start, are skipped while it drains, complete and retire, and a
stage ring hands its head record to a task unit. A packet that has completed retires unless its ring entry is held (R162). R385 to R387,
R397, R401, R405: Turat's default policy, image loads, the notice of a signal to a waiting context, and the doorbells. -/
def Obligations.QueueAndDoorbellSteps : Prop :=
  (∀ (s : State) (k : Nat) (q : Queue), s.live = true → s.queue? k = some q → s.vendorRuns q.die = false → q.leaving = false →
    (q.st = .idle → q.wiOk (s.wiOf q) = true → s.wiOf q ≠ q.si →
      exec (.queueWiNotice k) s = .next (s.setQueue k { q with st := .pending, epri := q.pri, pendAt := s.cyc, missed := false })) ∧
    (q.st = .idle → q.wiOk (s.wiOf q) = false → ∃ t r, exec (.queueWiNotice k) s = .next t ∧ t.queue? k = some r ∧ r.st = .stopped ∧
      r.es = 3 ∧ r.started = q.started) ∧
    (∀ w, q.waiting = true → q.mode = 0 → s.ringWords q q.si = some w → pktKind w ≠ 15 →
      exec (.packetHeaderReady k) s = .next (s.setQueue k { q with waiting := false })) ∧
    (∀ w, q.st = .mapped → q.mode = 0 → s.queueOpen q = true → q.started = [] → q.waiting = false → q.wiOk (s.wiOf q) = true →
      q.si < s.wiOf q → s.ringHeld q .read q.si = false → s.ringWords q q.si = some w →
      (pktKind w = 15 → ∃ t r, exec (.packetStart k) s = .next t ∧ t.queue? k = some r ∧ r.waiting = true ∧ r.si = q.si ∧ r.ri = q.ri ∧
        r.started = []) ∧
      (pktKind w = 0 → pktBad w = false → q.dr = false → ∃ t r, exec (.packetStart k) s = .next t ∧ t.queue? k = some r ∧ r.si = q.si + 1 ∧
        r.started = [newPkt q.si w 0 0 (some none)] ∧ r.ri = q.ri) ∧
      (pktKind w = 1 → pktBad w = false → q.dr = false → ∃ t r, exec (.packetStart k) s = .next t ∧ t.queue? k = some r ∧
        r.started = [newPkt q.si w 1 s.nextId none] ∧ Tab.get? t.subs s.nextId =
          some { desc := #v[w[1], w[2], w[3], w[4]], ctx := q.ctx, die := q.die, from? := none, queue := some (k, q.si), clock := r.clock }) ∧
      (pktKind w ≠ 15 → q.dr = true → pktC w = false → pktSig w = 0 → ∃ t r, exec (.packetStart k) s = .next t ∧ t.queue? k = some r ∧
        r.si = q.si + 1 ∧ r.nskip = q.nskip + 1 ∧ r.nret = q.nret ∧ (r.started = [] ∧ r.ri = q.ri + 1 ∨
          r.started = [{ newPkt q.si w 0 0 (some none) with skip := true, completed := true }] ∧ r.ri = q.ri ∧ t.ringHeld r .write q.si = true))) ∧
    (∀ p, q.started = [p] → p.completed = false → p.skip = false → p.kind ≠ 3 → p.wrote = none → pktSig p.words = 0 →
      (p.done = some none → ∃ t r, exec (.packetComplete k p.idx) s = .next t ∧ t.queue? k = some r ∧ r.dr = q.dr ∧ r.es = q.es ∧
        (r.started = [] ∧ r.ri = q.ri + 1 ∧ r.nret = q.nret + 1 ∨
          r.started = [{ p with completed := true }] ∧ r.ri = q.ri ∧ t.ringHeld r .write p.idx = true)) ∧
      (∀ x, p.done = some (some x) → ∃ t r, exec (.packetComplete k p.idx) s = .next t ∧ t.queue? k = some r ∧
        (r.started = [] ∧ r.ri = q.ri + 1 ∨ r.started = [{ p with completed := true }] ∧ r.ri = q.ri ∧ t.ringHeld r .write p.idx = true) ∧
        r.es = (if p.kind = 4 then 2 else 1) ∧ r.lst = x ∧ r.fidx = p.idx ∧ r.dr = (q.dr || pktP p.words))) ∧
    (∀ w cl l b, q.st = .mapped → q.mode = 1 → s.queueOpen q = true → q.waiting = false → (s.die q.die).go = false → cl < 192 → cl / 24 = q.die → q.wiOk (s.wiOf q) = true →
      q.ri < s.wiOf q → s.ringHeld q .write q.ri = false → s.tasksFull (some l) (hGrp w[0]) = false → s.ringWords q q.ri = some w → pktKind w = 0 → s.ringGroup q (hGrp w[0]) = some (l, b) →
      s.liveCount l (hGrp w[0]) < 2 * b.cap → (s.clu cl).tu.length < 1024 →
      ∃ t r m, exec (.stageRingHandoff k cl) s = .next t ∧ t.queue? k = some r ∧ r.ri = q.ri + 1 ∧ r.nret = q.nret + 1 ∧
        (t.clu cl).tu = (s.clu cl).tu ++ [m] ∧ m.h0 = w[0] ∧ m.pay = #v[mkReg w[2] w[3], mkReg w[4] w[5], mkReg w[6] w[7]] ∧
        m.launch = some l ∧ m.ctx = q.ctx)) ∧
  (∀ (s : State), s.live = true →
    (∀ k q, s.queues = [(k, q)] → q.st = .pending → q.leaving = false → q.die < 8 → s.vendorRuns q.die = true →
      ((s.context q.ctx).st = .suspended → ∃ t r, exec (.agingTick q.die) s = .next t ∧ t.queue? k = some r ∧ r.st = .pending ∧
        r.epri = (if q.pri + (s.cyc - q.pendAt) / ((if (s.die q.die).age.toNat = 0 then 1 else (s.die q.die).age.toNat) * 2000) ≤ 15
          then q.pri + (s.cyc - q.pendAt) / ((if (s.die q.die).age.toNat = 0 then 1 else (s.die q.die).age.toNat) * 2000) else 15)) ∧
      ((s.context q.ctx).st ≠ .suspended → ∃ t r, exec (.agingTick q.die) s = .next t ∧ t.queue? k = some r ∧ r.st = .mapped ∧
        r.slot = 32 * q.die ∧ r.nmap = q.nmap + 1)) ∧
    (∀ n k q k' r, s.slotQueue n = some (k, q) → s.bestPending q.die = some (k', r) → s.vendorRuns q.die = true → q.epri ≤ r.epri →
      q.mapAt + (s.die q.die).qnt.toNat * 2000 ≤ s.cyc → exec (.quantumExpiry n) s = .next ((s.unmapQueue k 2).schedule q.die)) ∧
    (∀ k q b, s.queue? k = some q → s.mapBound q.die = some b → q.st = .pending → q.missed = false → q.pendAt + b < s.cyc →
      exec (.boundMissed k) s = .next ((s.setQueue k { q with missed := true }).record q.die 7 0 0 q.ctx q.qcb.toNat)) ∧
    (∀ d < 8, ((s.die d).go = false → exec (.trtCtlGo d) s = .next (s.setDie d { s.die d with go := true, err := 4 })) ∧
      ∀ err key, (s.die d).go = true → err ≤ 3 → ∃ t, exec (.turatLoadComplete d err key) s = .next t ∧ (t.die d).go = false ∧
        (t.die d).err = err ∧ (t.die d).key = (if err = 0 then key % 4 else (s.die d).key) ∧ t.threads = s.threads) ∧
    (∀ p th l n loc va thr d v s₁ s', s.threads = [(p, th)] → s.queues = [] → th.state = .blocked → th.inSave = false →
      th.blk = some (.sig l va thr d) → d ≠ 1 → s.locNow p th.ctxNo va l = loc →
      ({ s with cur := p } : State).lateLoc p th.ctxNo va l false ({ s with cur := p } : State).myReader = .ok (n, s₁) →
      s₁.sigValue n va = .ok (some v, s') → s'.cur = p → s'.acc = [] → s'.thread p = th →
      toInt 64 v ≤ thr.toInt →
      ∀ x ∈ ([(.signalNotify loc, locTag loc == 0), (.signalPollChip loc, locTag loc == tagChip), (.signalPollRemote loc, isRemote loc)] :
          List (Instr × Bool)), x.2 = true →
        ∃ t, exec x.1 s = .next t ∧ (t.thread p).state = .ready ∧ (t.thread p).regs[d] = scalar (BitVec.ofNat 64 v) ∧
          (t.thread p).pc = th.pc + 4 ∧ (t.thread p).blk = none ∧ t.cur = s.cur) ∧
    (∀ (n : Nat) (qcb cmd : Word), n < 256 →
      (∀ st s', s.register qcb cmd = .ok (st, s') → exec (.dbCmdRegister n qcb cmd) s =
        .next (s'.setHub { s'.hub with bells := Tab.put s'.hub.bells n { qcb := qcb, cmd := cmd, stat := BitVec.ofNat 64 st } })) ∧
      (∀ st s', s.restartQueue qcb cmd = .ok (st, s') → exec (.dbCmdResume n qcb cmd) s =
        .next (s'.setHub { s'.hub with bells := Tab.put s'.hub.bells n { qcb := qcb, cmd := cmd, stat := BitVec.ofNat 64 st } })) ∧
      (∀ k, s.unregister qcb cmd = .ok k → exec (.dbCmdUnregister n qcb cmd) s =
        .next ((s.setHub { s.hub with bells := Tab.put s.hub.bells n { qcb := qcb, cmd := cmd, stat := BitVec.ofNat 64 (2 ^ 63 + s.bellSt qcb cmd) } }).beginLeave k)) ∧
      (∀ f, s.register qcb cmd = .error (.flt f) → exec (.dbCmdRegister n qcb cmd) s =
        .next (s.setHub { s.hub with bells := Tab.put s.hub.bells n { qcb := qcb, cmd := cmd, stat := BitVec.ofNat 64 (s.bellSt qcb cmd + f.code * 256) } }))))

/-- R403, R404, R406 to R410: the host's window into memory, completions and failures on the host link, retraining of links between dies and
the fatal condition, and the Notur ports. R6, R404, R411 to R417, R423: cold reset and boot, attestation, eye margins, interrupts of the
host, power limits, throttling, and the registers that the host and the management bus reach. -/
def Obligations.LinksAndModuleEdge : Prop :=
  (∀ (s : State),
    (s.live = true → s.hub.rate ≠ 0 →
      (∀ off bs, s.aperture off bs.length = none → exec (.hostBar2Write off bs) s = .next (s.setHub { s.hub with ur := true })) ∧
      (∀ off bs pa, s.aperture off bs.length = some pa → s.outerWaits (locIn 0 pa) bs.length = false →
        exec (.hostBar2Write off bs) s = .next ((s.outerStore (locIn 0 pa) bs).setHub { (s.outerStore (locIn 0 pa) bs).hub with ur := false })) ∧
      (∀ off n pa bs s', s.aperture off n = some pa → s.outerWaits (locIn 0 pa) n = false →
        s.readSpan (s.locClass (locIn 0 pa)) outer (n / 64 + 2) (locIn 0 pa) n = (.ok bs, s') →
        exec (.hostBar2Read off n) s =
          .next (s'.setHub { s'.hub with answer := BitVec.ofNat 64 (leNat (bs.take 8)), bytes := bs, ur := false }))) ∧
    (∀ id a, Tab.get? s.acc id = some a → locTag a.loc = 1 → a.sent = true → s.hub.frozen = false →
      (s.hub.rate ≠ 0 → a.outside = false → a.kind = .cwb [a.loc / 32] → ∀ bs : List Byte,
        exec (.hostLinkCompletion id false bs) s = .next ((s.cleanCopy (a.loc / 32)).retireAcc id a)) ∧
      (s.hub.rate ≠ 0 → a.outside = false → (∀ ls, a.kind ≠ .cwb ls) → Tab.get? s.copies (a.loc / 32) = none → ∀ bs : List Byte, bs.length = 32 →
        exec (.hostLinkCompletion id false bs) s = .next (({ s with mem := memPutN s.mem (a.loc / 32 * 32) bs, copies := Tab.put s.copies (a.loc / 32) { bytes := bs, dirty := false } } : State).setAcc id { a with sent := false })) ∧
      (s.hub.rate ≠ 0 → exec (.hostLinkCompletion id true []) s = .next (s.accFault id a { code := 0x001F, addr := a.va })) ∧
      (a.issued + 2 ^ 24 ≤ s.cyc → exec (.hostLinkTimeout id) s = .next (s.accFault id a { code := 0x001F, addr := a.va }))) ∧
    (∀ ltssm rate wid, s.hub.phase ≠ 0 → rate ≠ 7 →
      exec (.hostLinkTraining ltssm rate wid) s = .next (if rate = 0 then s.setHub { s.hub with ltssm := ltssm, rate := rate, wid := wid }
        else (s.setHub { s.hub with ltssm := ltssm, rate := rate, wid := wid }).flushMsix)) ∧
    (∀ a b, a < b → b ≤ 8 →
      (s.live = true → Tab.get? s.hub.d2d (16 * a + b) = none →
        exec (.d2dRetrain a b) s = .next (s.setHub { s.hub with d2d := Tab.put s.hub.d2d (16 * a + b) s.cyc })) ∧
      (∀ since, Tab.get? s.hub.d2d (16 * a + b) = some since →
        (∃ t, exec (.d2dRetrainDone a b) s = .next t ∧ t.hub = { s.hub with d2d := Tab.del s.hub.d2d (16 * a + b) } ∧ t.mem = s.mem) ∧
        (since + 2 ^ 20 ≤ s.cyc → s.hub.fatal = 0 → ∃ t, exec (.d2dRetrainTimeout a b) s = .next t ∧ t.hub.fatal.getLsbD 63 = true ∧
          (∀ p, (s.thread p).task.isSome = true → (t.thread p).state = .halted)))) ∧
    (∀ p < 16, s.hub.frozen = false →
      (s.hub.phase = 2 → (s.ntr p).st = 0 ∨ (s.ntr p).st = 4 →
        exec (.noturEnable p) s = .next (s.setNtr p { s.ntr p with en := true, st := 1, row := 0, since := s.cyc })) ∧
      (s.hub.phase = 2 → s.acc = [] →
        exec (.noturDisable p) s = .next (s.setNtr p { s.ntr p with en := false, st := 0, row := 0, replay := [] })) ∧
      ((s.ntr p).st = 1 → exec (.noturTrainingDone p none) s = .next (s.setNtr p { s.ntr p with st := 2, row := 0, rep := false, bad := 0 }) ∧
        ∀ k : Fin 8, exec (.noturTrainingDone p (some k)) s = .next (s.setNtr p { s.ntr p with st := 2, row := 0, rep := true, bad := k.val })) ∧
      ((s.ntr p).st = 1 → (s.ntr p).since + 2 ^ 22 ≤ s.cyc → s.acc = [] →
        ∃ t, exec (.noturTrainingTimeout p) s = .next t ∧ (t.ntr p).st = 4 ∧ t.threads = s.threads) ∧
      ((s.ntr p).st = 3 → (s.ntr p).since + 2 ^ 21 ≤ s.cyc → s.acc = [] →
        ∃ t, exec (.noturRetrainTimeout p) s = .next t ∧ (t.ntr p).st = 4 ∧ t.threads = s.threads) ∧
      (s.live = true → (s.ntr p).st = 2 →
        (∀ q n : BitVec 12, ∃ t, exec (.noturFlitReceive p { seq := q, crcOk := true, body := .ack n }) s = .next t ∧
          (t.ntr p).replay = (s.ntr p).replay.filter (fun e => decide (2048 ≤ (n - e.1).toNat)) ∧ (t.ntr p).recvSeq = (s.ntr p).recvSeq ∧
          (t.ntr p).st = 2 ∧ t.mem = s.mem ∧ t.threads = s.threads) ∧
        (∀ pa n, s.frameClass pa ≠ 3 → s.flitWaits p (.read pa n) = false →
          ∃ t, exec (.noturFlitReceive p { seq := (s.ntr p).recvSeq, crcOk := true, body := .read pa n }) s = .next t ∧
            (t.ntr p).recvSeq = (s.ntr p).recvSeq + 1 ∧
            (t.ntr p).replay = (s.ntr p).replay ++ [((s.ntr p).sendSeq, .response (s.ntr p).recvSeq.toNat t.hub.bytes)]) ∧
        (∀ n body, ∃ t, exec (.noturFlitReceive p { seq := n, crcOk := false, body := body }) s = .next t ∧ t.hub.flits.head? = some (p, { seq := (s.ntr p).sendSeq, crcOk := true, body := .replay (s.ntr p).recvSeq }) ∧
          (t.ntr p).crc = (if (s.ntr p).crc + 1 ≤ 2 ^ 32 - 1 then (s.ntr p).crc + 1 else 2 ^ 32 - 1) ∧
          (t.ntr p).st = (if 64 ≤ (s.ntr p).row + 1 then 3 else 2) ∧ t.mem = s.mem ∧ t.threads = s.threads)))) ∧
  (∀ (s : State),
    (∃ t, exec .coldReset s = .next t ∧ t.threads = [] ∧ t.cores = [] ∧ t.clus = [] ∧ t.launches = [] ∧ t.ctxs = State.reset.ctxs ∧
      t.cyc = 0 ∧ t.hub.phase = (if s.hub.pwrgd then 1 else 0) ∧ t.hub.boot = 0 ∧ ∀ a, isRemote a = false → memGet t.mem a = 0) ∧
    (s.hub.pwrgd = true → ∃ t, exec (.powerGoodChange false) s = .next t ∧ t.hub.phase = 0 ∧ t.hub.pwrgd = false ∧ t.threads = []) ∧
    (s.hub.pwrgd = false → ∃ t, exec (.powerGoodChange true) s = .next t ∧ t.hub.phase = 1 ∧ t.hub.pwrgd = true ∧ t.threads = []) ∧
    (s.hub.phase = 1 → (∃ t, exec (.bootVerifyComplete 0) s = .next t ∧ t.hub.phase = 2 ∧ t.context 0 = Ctx.firmware ∧ t.threads = s.threads ∧ t.mem = s.mem) ∧
      ∀ c, 1 ≤ c → c ≤ 3 → exec (.bootVerifyComplete c) s = .next (s.setHub { s.hub with phase := 4, boot := BitVec.ofNat 8 c })) ∧
    (s.hub.attRun = true → ∀ ok, ∃ t, exec (.attReqComplete ok) s = .next t ∧ t.hub.attRun = false ∧
      t.hub.attReq = (if ok = true ∧ s.hub.rate ≠ 0 then 0 else 1) ∧ t.threads = s.threads) ∧
    (∀ (l : HbmLane) (h v : BitVec 8), s.hub.phase = 2 → l.stack < 8 → h < Tab.getD s.hub.eyeThr l.stack 0 ∨ v < Tab.getD s.hub.eyeThr l.stack 0 →
      ∃ t, exec (.eyeMarginAlert l h v) s = .next t ∧ (Tab.get? t.hub.retrain l.stack).isSome = true ∧ t.threads = s.threads ∧
        Tab.get? t.hub.eyeSeen (65536 * l.stack + l.lane.toNat) = some (h.setWidth 16 ||| (v.setWidth 16 <<< 8))) ∧
    (∀ k, exec (.hbmInterfaceRetrainDone k) s = .next (s.setHub { s.hub with retrain := Tab.del s.hub.retrain k })) ∧
    (s.hub.phase = 4 → ∀ a n v, s.bar4Read a n = some v → a / 8 = 0x7FFF00400300 / 8) ∧
    (s.hub.phase = 2 →
      (∀ v : Word, s.hub.attRun = false → (v.toNat % 64 = 0 → exec (.attReqReport v) s = .next (s.setHub { s.hub with attRun := true, attReq := v })) ∧
        (v.toNat % 64 = 1 → exec (.attReqPubkey v) s = .next (s.setHub { s.hub with attRun := true, attReq := v }))) ∧
      (∀ v : Word, 5 ≤ v.toNat → v.toNat < 64 → exec (.hostIrqWrite v) s = .next (s.raiseMsix v.toNat)) ∧
      (∀ v : Word, v.toNat < 5 ∨ 64 ≤ v.toNat → exec (.hostIrqWrite v) s = .next s) ∧
      (∀ v : Word, 1000 ≤ v.toNat % 4096 → v.toNat % 4096 ≤ 2800 → exec (.pwrLimWrite v) s = .next (s.setHub { s.hub with pwrLim := v.setWidth 12 })) ∧
      (∀ v : Word, v.toNat % 4096 < 1000 ∨ 2800 < v.toNat % 4096 → exec (.pwrLimWrite v) s = .next s) ∧
      (∀ v : Word, s.hub.fatal = 0 → s.acc = [] →
        exec (.registerWrite 0x7FFF00400008 (.word v)) s = .next (s.setHub { s.hub with apt := v &&& ~~~(0xFFFF : Word) })) ∧
      (∀ v : BitVec 32, s.hub.fatal = 0 → s.acc = [] →
        exec (.registerWrite 0x7FFF0040000C (.half v)) s =
          .next (s.setHub { s.hub with apt := (v.setWidth 64 <<< 32) ||| (s.hub.apt &&& 0xFFFF0000) }))) ∧
    (∀ d (c y : BitVec 4) (v : Word), s.live = true → d < 8 → c.toNat ≤ 3 → y.toNat ≤ 2 → ∃ t, exec (.throttleChange d c y v) s = .next t ∧
      (t.die d).thrWi = (if (s.die d).thrWi + 1 ≤ 2 ^ 64 - 1 then (s.die d).thrWi + 1 else 2 ^ 64 - 1) ∧ t.threads = s.threads) ∧
    (s.hub.pwrgd = true → ∀ o, o < 0xF000 → exec (.smbusBlockRead o) s = .next (s.setHub { s.hub with answer := s.hubBytes o }) ∧
      (o % 8 = 0 → s.hubBytes o = s.hubRead o)))

/-! ### The machine as a whole -/

/-- R33, R44, R47, R48, R80: a step runs the instruction at the program counter. Fetch, decoding and the privilege check come first, then
the row's own meaning, except that a word under a false `c.if` only advances the pc; time passes before the step (log entry 4), and what is
due at a step's end (`State.finish`: items of tasks that have become Irrevocable, firing entries, derived group counts) follows. A prefix
and its word are one step. -/
def Obligations.StepRunsTheDecodedInstruction : Prop :=
  (∀ (s v : State) (p : Nat) (bs : List Byte) (i : Instr) (n : Nat) (rest : List Sched) (r : State),
    (s.agenda = .run p :: rest ∨
      (s.agenda = [] ∧ rest = [] ∧ p = s.cur ∧ s.tick.oldestAcc p = none ∧ ∀ va, (s.thread p).wait ≠ .walk va)) →
    (let u : State := { s.tick with agenda := rest, cur := p }
     u.canRun p = true → (s.thread p).state ≠ .blocked → (∀ c q e w k o, (s.thread p).wait ≠ .xq c q e w k o) → (∀ f y, (s.thread p).wait ≠ .fault f y) →
     u.fetchBytes p = .ok (bs, v) → decodeBytes bs = .ok (i, n) → (privilegedInstr i = true → v.privileged v.cur = true) →
     v.me.pfx = none → exec (v.refine i) v = .next r →
     ((r.me.pfx = none ∨ (s.thread p).pfx ≠ none ∨ r.me.state ≠ (s.thread p).state) → step s = .next (State.finish s.tick r)) ∧
     (r.me.pfx ≠ none → (s.thread p).pfx = none → r.me.state = (s.thread p).state → ∀ t, r.word = .next t →
       step s = .next (State.finish s.tick t)))) ∧
  (∀ (w v : State) (bs : List Byte) (i : Instr) (n : Nat), w.fetchBytes w.cur = .ok (bs, v) → decodeBytes bs = .ok (i, n) →
    (privilegedInstr i = true → v.privileged v.cur = true) →
    w.word = if v.me.pfx.isSome = true ∧ v.me.pfxRun = false ∧ ∀ p b, i ≠ .cIf p b then .next (v.fin n) else exec (v.refine i) v) ∧
  (∀ (s : State) (a b d : Spec), s.canRead a → s.canRead b →
    s.refine (.tlbInvPage a b) = (match wbits (s.val64 b) 18 2 with
      | 1 => .tlbInvContext a b | 2 => .tlbInvAll a b | _ => .tlbInvPage a b) ∧
    s.refine (.ctxLdCreate a b) = (match wbits (s.val64 a) 12 2 with
      | 1 => .ctxLdUpdate a b | 2 => .ctxLdDestroy a b | _ => .ctxLdCreate a b) ∧
    s.refine (.queSubRegister d a b) = (match wbits (s.val64 b) 12 2 with
      | 1 => .queSubUnregister d a b | 2 => .queSubResume d a b | _ => .queSubRegister d a b) ∧
    s.refine (.dbgStopStop a b) = (match wbits (s.val64 b) 0 2 with
      | 1 => .dbgStopGo a b | 2 => .dbgStopStep a b | _ => .dbgStopStop a b)) ∧
  (∀ (s : State) (i : Instr), (∀ a b, i ≠ .tlbInvPage a b) → (∀ a b, i ≠ .ctxLdCreate a b) → (∀ d a b, i ≠ .queSubRegister d a b) →
    (∀ a b, i ≠ .dbgStopStop a b) → s.refine i = i)

/-- R44, R47, R48, R33: a word that is no instruction raises an illegal-instruction fault with the word as syndrome, whatever the privilege
and the predicate; a privileged instruction without privilege raises a privilege fault, even under a false prefix. The word performs nothing
else. -/
def Obligations.WordsThatMayNotRunFault : Prop :=
  ∀ (w v : State) (bs : List Byte), w.fetchBytes w.cur = .ok (bs, v) →
    (∀ e, decodeBytes bs = .error e → w.word = .next (v.takeFault { code := 0x0001, syn := BitVec.ofNat 64 (leNat bs) })) ∧
    (∀ i n, decodeBytes bs = .ok (i, n) → privilegedInstr i = true → v.privileged v.cur = false →
      w.word = .next (v.takeFault { code := 0x0002 }))

/-- R257, R359 to R361, R74: taking a fault. The record holds code, place, group, pc, address, syndrome and cycle. The task is abandoned and
its context freed. With no launch (firmware) nothing else happens (log entry 16). A fault of the root group, or of one whose domain is not
contained, ends the launch with status 3 (kernel end); a contained group enters Ending, and its parent gets the fault handler's record, with
words 0 to 5 of the fault record as payload. A speculative ordered task that is not the frontier waits for it. -/
def Obligations.FaultsAreTaken : Prop :=
  ∀ (s : State) (p : Nat) (ipc : Word) (f : Flt), f.charge = false → (s.core (coreOf p)).trcEn = false →
    ((s.fltRec p ipc f).code = f.code ∧ (s.fltRec p ipc f).place = p ∧ (s.fltRec p ipc f).grp = (s.thread p).grp ∧
      (s.fltRec p ipc f).pc = ipc ∧ (s.fltRec p ipc f).addr = f.addr ∧ (s.fltRec p ipc f).syn = f.syn ∧ (s.fltRec p ipc f).cyc = s.cyc) ∧
    (∀ k, (s.thread p).task = some k → k.entry = none → (s.thread p).saving = false →
      (k.launch = none → ∃ t, t = s.takeFaultAt p ipc f ∧ t.faults = s.fltRec p ipc f :: s.faults ∧ t.mem = s.mem ∧
        (t.thread p).task = none ∧ ((s.thread p).state ≠ .halted → (t.thread p).state = if p % 8 = 7 then .dormant else .free) ∧
        ∀ q, q ≠ p → t.thread q = s.thread q) ∧
      (∀ l L b, k.launch = some l → s.launch? l = some L → L.ending = false → s.group? l (s.thread p).grp = some b → b.st = 1 →
        (s.thread p).grp < 4096 →
        (b.par = (s.thread p).grp → ∃ t M, t = s.takeFaultAt p ipc f ∧ t.faults = s.fltRec p ipc f :: s.faults ∧
          t.launch? l = some M ∧ M.ending = true ∧ M.status = 3 ∧ (t.thread p).task = none) ∧
        (b.dom = true → b.par ≠ (s.thread p).grp → b.frec = 0 → b.fh ≠ 0 → ∃ t B, t = s.takeFaultAt p ipc f ∧
          t.faults = s.fltRec p ipc f :: s.faults ∧ t.group? l (s.thread p).grp = some B ∧ B.st = 3 ∧ (t.thread p).task = none ∧
          ∃ m, Tab.get? t.mesh s.nextId = some m ∧ m.h0 = mkH0 0 b.par b.fh ∧ m.launch = some l ∧
            m.pay = #v[mkReg ((s.fltRec p ipc f).word 0) ((s.fltRec p ipc f).word 1),
              mkReg ((s.fltRec p ipc f).word 2) ((s.fltRec p ipc f).word 3), mkReg ((s.fltRec p ipc f).word 4) ((s.fltRec p ipc f).word 5)]))) ∧
    (∀ k, (s.thread p).task = some k → k.entry ≠ none → k.irrev = false → s.frontier k.launch ≠ (s.thread p).key →
      ∃ t, t = s.takeFaultAt p ipc f ∧ (t.thread p).wait = .fault f ipc ∧ (t.thread p).task = some k ∧ (t.thread p).regs = (s.thread p).regs ∧
        t.mem = s.mem ∧ t.faults = s.faults)

/-- R6, R74, R90, R209, R365, R374, R386, R411, R412, R423: the machine right after cold reset. Every thread context is Free, or Dormant for
t7, and none can issue; every software context is Destroyed; the boot ROM is at work; no table, queue, access or token stands; and the
registers with a stated reset value hold it. (That memory reads 0 where nothing has written is the model's choice, log entry 14.) -/
def Obligations.ResetState : Prop :=
  State.reset.cyc = 0 ∧ State.reset.hub.phase = 1 ∧ State.reset.live = false ∧
  (∀ p, (State.reset.thread p).task = none ∧ ((State.reset.thread p).state = if p % 8 = 7 then .dormant else .free) ∧
    State.reset.canRun p = false ∧ (State.reset.thread p).pred 0 = true) ∧
  (∀ n, (State.reset.context n).st = .destroyed ∧ (State.reset.context n).prv = false) ∧
  (∀ d, (State.reset.die d).qnt = 500 ∧ (State.reset.die d).age = 50 ∧ (State.reset.die d).err = 0 ∧ (State.reset.die d).go = false ∧
    (State.reset.die d).dwi = 0 ∧ (State.reset.die d).thrWi = 0) ∧
  State.reset.hub.pwrLim = 2800 ∧ State.reset.hub.fatal = 0 ∧ State.reset.hub.boot = 0 ∧ (∀ p, (State.reset.ntr p).word = 0) ∧
  (∀ c, State.reset.dbgRead c 0 = 0) ∧
  State.reset.acc = [] ∧ State.reset.mesh = [] ∧ State.reset.toks = [] ∧ State.reset.launches = [] ∧ State.reset.groups = [] ∧
  State.reset.queues = [] ∧ State.reset.dir = [] ∧ State.reset.copies = [] ∧ State.reset.accum = [] ∧
  ∀ a, memGet State.reset.mem a = 0

/-- R26, R29, R32, R44: words that the spec writes out, and words formed field by field from its encoding tables, decode to the instructions
they stand for; the halfword 0 and reserved majors are none. -/
def Obligations.SpecWordsDecode : Prop :=
  decodeTableWord 32 0x00528983 = some (.add 19 20 10) ∧
  decodeTableWord 16 0x64F4 = some (.cAddi (-3) 1 1) ∧
  decodeTableWord 16 0x4802 = some (.cIf false 2) ∧
  decodeTableWord 16 0x6002 = some .cNop ∧
  decodeTableWord 32 0xC012CA9B = some (.ldI32 21 22 2) ∧
  decodeTableWord 32 0b0000000_001011_001010_000010_00000_11 = none ∧
  decodeTableWord 32 0b1111111111101_010010_010000_00001_11 = some (.addi 16 18 (-3)) ∧
  decodeTableWord 32 0b1111111111111111100_00_1_011_00100_11 = some (.brNot 3 (-4)) ∧
  decodeTableWord 32 0b1_0110_010_00001_010110_010101_01000_11 = some (.amoAdd 21 22 .rel .dev true) ∧
  decodeTableWord 32 0b0000001_001000_001001_001010_01011_11 = some (.vsubI .i8 10 9 8) ∧
  decodeTableWord 32 0b0010000_000010_010000_001000_10000_11 = some (.mxDrn 8 16 0x10) ∧
  decodeTableWord 16 0 = none ∧
  decodeTableWord 32 0b0000000_000000_000000_000000_11110_11 = none

/-- R26 to R47: DECODING AND ENCODING AGREE. For every well-formed instruction that has a word, the word fits its length, and the decoder
reads from it the same instruction, every operand at every value that the encoding admits (for rows of the table that share one word, the
first of them, which `State.refine` then tells apart by the operand that the spec names). -/
def Obligations.DecodingUndoesEncoding : Prop :=
  ∀ (i : Instr) (n w : Nat), i.illFormed = none → i.encode = some (n, w) →
    (n = 16 ∨ n = 32) ∧ w < 2 ^ n ∧ decodeTableWord n w = some i.canonical ∧ decodeBytes (leBytes (n / 8) w) = .ok (i.canonical, n / 8)

/-- R3, R156, log entry 14: MEMORY KEEPS ITS CANONICAL FORM. Whatever step is taken, instruction, event of the part or of the world outside,
a memory whose list is in rising order of location with no byte listed that reads as an unlisted one keeps that form; so equal memories are
equal data. -/
def Obligations.MemoryFormIsKept : Prop :=
  ∀ s t : State, s.memOk = true → step s = .next t → t.memOk = true

/-- The memory after reset has the canonical form. -/
def Obligations.MemoryFormAtReset : Prop :=
  State.reset.memOk = true

end
end

