-- ==== Sys2Proof/Laws/Exec.lean ====
section
/-! SUPPORT. What exec does, one equation per instruction, so that no proof unfolds the dispatch. -/

namespace Sys2Proof.Machine

theorem exec_add (d a b : Spec) (s : State) : exec (.add d a b) s = Sys2Proof.Machine.execAdd d a b s := rfl
theorem exec_sub (d a b : Spec) (s : State) : exec (.sub d a b) s = Sys2Proof.Machine.execSub d a b s := rfl
theorem exec_mul (d a b : Spec) (s : State) : exec (.mul d a b) s = Sys2Proof.Machine.execMul d a b s := rfl
theorem exec_mulh (d a b : Spec) (s : State) : exec (.mulh d a b) s = Sys2Proof.Machine.execMulh d a b s := rfl
theorem exec_mulhu (d a b : Spec) (s : State) : exec (.mulhu d a b) s = Sys2Proof.Machine.execMulhu d a b s := rfl
theorem exec_div (d a b : Spec) (s : State) : exec (.div d a b) s = Sys2Proof.Machine.execDiv d a b s := rfl
theorem exec_divu (d a b : Spec) (s : State) : exec (.divu d a b) s = Sys2Proof.Machine.execDivu d a b s := rfl
theorem exec_rem (d a b : Spec) (s : State) : exec (.rem d a b) s = Sys2Proof.Machine.execRem d a b s := rfl
theorem exec_remu (d a b : Spec) (s : State) : exec (.remu d a b) s = Sys2Proof.Machine.execRemu d a b s := rfl
theorem exec_and (d a b : Spec) (s : State) : exec (.and d a b) s = Sys2Proof.Machine.execAnd d a b s := rfl
theorem exec_or (d a b : Spec) (s : State) : exec (.or d a b) s = Sys2Proof.Machine.execOr d a b s := rfl
theorem exec_xor (d a b : Spec) (s : State) : exec (.xor d a b) s = Sys2Proof.Machine.execXor d a b s := rfl
theorem exec_andn (d a b : Spec) (s : State) : exec (.andn d a b) s = Sys2Proof.Machine.execAndn d a b s := rfl
theorem exec_shl (d a b : Spec) (s : State) : exec (.shl d a b) s = Sys2Proof.Machine.execShl d a b s := rfl
theorem exec_shr (d a b : Spec) (s : State) : exec (.shr d a b) s = Sys2Proof.Machine.execShr d a b s := rfl
theorem exec_sar (d a b : Spec) (s : State) : exec (.sar d a b) s = Sys2Proof.Machine.execSar d a b s := rfl
theorem exec_shli (d a : Spec) (s : BitVec 6) (σ : State) : exec (.shli d a s) σ = Sys2Proof.Machine.execShli d a s σ := rfl
theorem exec_shri (d a : Spec) (s : BitVec 6) (σ : State) : exec (.shri d a s) σ = Sys2Proof.Machine.execShri d a s σ := rfl
theorem exec_sari (d a : Spec) (s : BitVec 6) (σ : State) : exec (.sari d a s) σ = Sys2Proof.Machine.execSari d a s σ := rfl
theorem exec_min (d a b : Spec) (s : State) : exec (.min d a b) s = Sys2Proof.Machine.execMin d a b s := rfl
theorem exec_max (d a b : Spec) (s : State) : exec (.max d a b) s = Sys2Proof.Machine.execMax d a b s := rfl
theorem exec_minu (d a b : Spec) (s : State) : exec (.minu d a b) s = Sys2Proof.Machine.execMinu d a b s := rfl
theorem exec_maxu (d a b : Spec) (s : State) : exec (.maxu d a b) s = Sys2Proof.Machine.execMaxu d a b s := rfl
theorem exec_clz (d a : Spec) (s : State) : exec (.clz d a) s = Sys2Proof.Machine.execClz d a s := rfl
theorem exec_ctz (d a : Spec) (s : State) : exec (.ctz d a) s = Sys2Proof.Machine.execCtz d a s := rfl
theorem exec_popc (d a : Spec) (s : State) : exec (.popc d a) s = Sys2Proof.Machine.execPopc d a s := rfl
theorem exec_leaS2 (d a b : Spec) (s : State) : exec (.leaS2 d a b) s = Sys2Proof.Machine.execLeaS2 d a b s := rfl
theorem exec_leaS4 (d a b : Spec) (s : State) : exec (.leaS4 d a b) s = Sys2Proof.Machine.execLeaS4 d a b s := rfl
theorem exec_leaS8 (d a b : Spec) (s : State) : exec (.leaS8 d a b) s = Sys2Proof.Machine.execLeaS8 d a b s := rfl
theorem exec_leaS16 (d a b : Spec) (s : State) : exec (.leaS16 d a b) s = Sys2Proof.Machine.execLeaS16 d a b s := rfl
theorem exec_sext (d a : Spec) (k : BitVec 6) (s : State) : exec (.sext d a k) s = Sys2Proof.Machine.execSext d a k s := rfl
theorem exec_zext (d a : Spec) (k : BitVec 6) (s : State) : exec (.zext d a k) s = Sys2Proof.Machine.execZext d a k s := rfl
theorem exec_addI32 (d a b : Spec) (s : State) : exec (.addI32 d a b) s = Sys2Proof.Machine.execAddI32 d a b s := rfl
theorem exec_subI32 (d a b : Spec) (s : State) : exec (.subI32 d a b) s = Sys2Proof.Machine.execSubI32 d a b s := rfl
theorem exec_mulI32 (d a b : Spec) (s : State) : exec (.mulI32 d a b) s = Sys2Proof.Machine.execMulI32 d a b s := rfl
theorem exec_mulhI32 (d a b : Spec) (s : State) : exec (.mulhI32 d a b) s = Sys2Proof.Machine.execMulhI32 d a b s := rfl
theorem exec_mulhuI32 (d a b : Spec) (s : State) : exec (.mulhuI32 d a b) s = Sys2Proof.Machine.execMulhuI32 d a b s := rfl
theorem exec_divI32 (d a b : Spec) (s : State) : exec (.divI32 d a b) s = Sys2Proof.Machine.execDivI32 d a b s := rfl
theorem exec_divuI32 (d a b : Spec) (s : State) : exec (.divuI32 d a b) s = Sys2Proof.Machine.execDivuI32 d a b s := rfl
theorem exec_remI32 (d a b : Spec) (s : State) : exec (.remI32 d a b) s = Sys2Proof.Machine.execRemI32 d a b s := rfl
theorem exec_remuI32 (d a b : Spec) (s : State) : exec (.remuI32 d a b) s = Sys2Proof.Machine.execRemuI32 d a b s := rfl
theorem exec_andI32 (d a b : Spec) (s : State) : exec (.andI32 d a b) s = Sys2Proof.Machine.execAndI32 d a b s := rfl
theorem exec_orI32 (d a b : Spec) (s : State) : exec (.orI32 d a b) s = Sys2Proof.Machine.execOrI32 d a b s := rfl
theorem exec_xorI32 (d a b : Spec) (s : State) : exec (.xorI32 d a b) s = Sys2Proof.Machine.execXorI32 d a b s := rfl
theorem exec_andnI32 (d a b : Spec) (s : State) : exec (.andnI32 d a b) s = Sys2Proof.Machine.execAndnI32 d a b s := rfl
theorem exec_shlI32 (d a b : Spec) (s : State) : exec (.shlI32 d a b) s = Sys2Proof.Machine.execShlI32 d a b s := rfl
theorem exec_shrI32 (d a b : Spec) (s : State) : exec (.shrI32 d a b) s = Sys2Proof.Machine.execShrI32 d a b s := rfl
theorem exec_sarI32 (d a b : Spec) (s : State) : exec (.sarI32 d a b) s = Sys2Proof.Machine.execSarI32 d a b s := rfl
theorem exec_shliI32 (d a : Spec) (s : BitVec 5) (σ : State) : exec (.shliI32 d a s) σ = Sys2Proof.Machine.execShliI32 d a s σ := rfl
theorem exec_shriI32 (d a : Spec) (s : BitVec 5) (σ : State) : exec (.shriI32 d a s) σ = Sys2Proof.Machine.execShriI32 d a s σ := rfl
theorem exec_sariI32 (d a : Spec) (s : BitVec 5) (σ : State) : exec (.sariI32 d a s) σ = Sys2Proof.Machine.execSariI32 d a s σ := rfl
theorem exec_minI32 (d a b : Spec) (s : State) : exec (.minI32 d a b) s = Sys2Proof.Machine.execMinI32 d a b s := rfl
theorem exec_maxI32 (d a b : Spec) (s : State) : exec (.maxI32 d a b) s = Sys2Proof.Machine.execMaxI32 d a b s := rfl
theorem exec_minuI32 (d a b : Spec) (s : State) : exec (.minuI32 d a b) s = Sys2Proof.Machine.execMinuI32 d a b s := rfl
theorem exec_maxuI32 (d a b : Spec) (s : State) : exec (.maxuI32 d a b) s = Sys2Proof.Machine.execMaxuI32 d a b s := rfl
theorem exec_addi (d a : Spec) (i : BitVec 13) (s : State) : exec (.addi d a i) s = Sys2Proof.Machine.execAddi d a i s := rfl
theorem exec_lui (d : Spec) (i : BitVec 19) (s : State) : exec (.lui d i) s = Sys2Proof.Machine.execLui d i s := rfl
theorem exec_cmpEq (p : PredNo) (a b : Spec) (s : State) : exec (.cmpEq p a b) s = Sys2Proof.Machine.execCmpEq p a b s := rfl
theorem exec_cmpNe (p : PredNo) (a b : Spec) (s : State) : exec (.cmpNe p a b) s = Sys2Proof.Machine.execCmpNe p a b s := rfl
theorem exec_cmpLt (p : PredNo) (a b : Spec) (s : State) : exec (.cmpLt p a b) s = Sys2Proof.Machine.execCmpLt p a b s := rfl
theorem exec_cmpLe (p : PredNo) (a b : Spec) (s : State) : exec (.cmpLe p a b) s = Sys2Proof.Machine.execCmpLe p a b s := rfl
theorem exec_cmpLtu (p : PredNo) (a b : Spec) (s : State) : exec (.cmpLtu p a b) s = Sys2Proof.Machine.execCmpLtu p a b s := rfl
theorem exec_cmpLeu (p : PredNo) (a b : Spec) (s : State) : exec (.cmpLeu p a b) s = Sys2Proof.Machine.execCmpLeu p a b s := rfl
theorem exec_fcmpEq (p : PredNo) (a b : Spec) (s : State) : exec (.fcmpEq p a b) s = Sys2Proof.Machine.execFcmpEq p a b s := rfl
theorem exec_fcmpLt (p : PredNo) (a b : Spec) (s : State) : exec (.fcmpLt p a b) s = Sys2Proof.Machine.execFcmpLt p a b s := rfl
theorem exec_fcmpLe (p : PredNo) (a b : Spec) (s : State) : exec (.fcmpLe p a b) s = Sys2Proof.Machine.execFcmpLe p a b s := rfl
theorem exec_fcmpUn (p : PredNo) (a b : Spec) (s : State) : exec (.fcmpUn p a b) s = Sys2Proof.Machine.execFcmpUn p a b s := rfl
theorem exec_pand (p s q : PredNo) (σ : State) : exec (.pand p s q) σ = Sys2Proof.Machine.execPand p s q σ := rfl
theorem exec_por (p s q : PredNo) (σ : State) : exec (.por p s q) σ = Sys2Proof.Machine.execPor p s q σ := rfl
theorem exec_pxor (p s q : PredNo) (σ : State) : exec (.pxor p s q) σ = Sys2Proof.Machine.execPxor p s q σ := rfl
theorem exec_pnot (p s : PredNo) (σ : State) : exec (.pnot p s) σ = Sys2Proof.Machine.execPnot p s σ := rfl
theorem exec_pmov (p s : PredNo) (σ : State) : exec (.pmov p s) σ = Sys2Proof.Machine.execPmov p s σ := rfl
theorem exec_pset (p : PredNo) (k : Bool) (s : State) : exec (.pset p k) s = Sys2Proof.Machine.execPset p k s := rfl
theorem exec_cmpEqI32 (p : PredNo) (a b : Spec) (s : State) : exec (.cmpEqI32 p a b) s = Sys2Proof.Machine.execCmpEqI32 p a b s := rfl
theorem exec_cmpNeI32 (p : PredNo) (a b : Spec) (s : State) : exec (.cmpNeI32 p a b) s = Sys2Proof.Machine.execCmpNeI32 p a b s := rfl
theorem exec_cmpLtI32 (p : PredNo) (a b : Spec) (s : State) : exec (.cmpLtI32 p a b) s = Sys2Proof.Machine.execCmpLtI32 p a b s := rfl
theorem exec_cmpLeI32 (p : PredNo) (a b : Spec) (s : State) : exec (.cmpLeI32 p a b) s = Sys2Proof.Machine.execCmpLeI32 p a b s := rfl
theorem exec_cmpLtuI32 (p : PredNo) (a b : Spec) (s : State) : exec (.cmpLtuI32 p a b) s = Sys2Proof.Machine.execCmpLtuI32 p a b s := rfl
theorem exec_cmpLeuI32 (p : PredNo) (a b : Spec) (s : State) : exec (.cmpLeuI32 p a b) s = Sys2Proof.Machine.execCmpLeuI32 p a b s := rfl
theorem exec_fcmpEqF64 (p : PredNo) (a b : Spec) (s : State) : exec (.fcmpEqF64 p a b) s = Sys2Proof.Machine.execFcmpEqF64 p a b s := rfl
theorem exec_fcmpLtF64 (p : PredNo) (a b : Spec) (s : State) : exec (.fcmpLtF64 p a b) s = Sys2Proof.Machine.execFcmpLtF64 p a b s := rfl
theorem exec_fcmpLeF64 (p : PredNo) (a b : Spec) (s : State) : exec (.fcmpLeF64 p a b) s = Sys2Proof.Machine.execFcmpLeF64 p a b s := rfl
theorem exec_fcmpUnF64 (p : PredNo) (a b : Spec) (s : State) : exec (.fcmpUnF64 p a b) s = Sys2Proof.Machine.execFcmpUnF64 p a b s := rfl
theorem exec_br (p : PredNo) (o : BitVec 19) (s : State) : exec (.br p o) s = Sys2Proof.Machine.execBr p o s := rfl
theorem exec_brNot (p : PredNo) (o : BitVec 19) (s : State) : exec (.brNot p o) s = Sys2Proof.Machine.execBrNot p o s := rfl
theorem exec_lpe (p : PredNo) (n : Bool) (o : BitVec 19) (s : State) : exec (.lpe p n o) s = Sys2Proof.Machine.execLpe p n o s := rfl
theorem exec_call (d a : Spec) (i : BitVec 13) (s : State) : exec (.call d a i) s = Sys2Proof.Machine.execCall d a i s := rfl
theorem exec_ldN8 (t b : Spec) (o : BitVec 10) (s : State) : exec (.ldN8 t b o) s = Sys2Proof.Machine.execLdN8 t b o s := rfl
theorem exec_ldN16 (t b : Spec) (o : BitVec 10) (s : State) : exec (.ldN16 t b o) s = Sys2Proof.Machine.execLdN16 t b o s := rfl
theorem exec_ldN32 (t b : Spec) (o : BitVec 10) (s : State) : exec (.ldN32 t b o) s = Sys2Proof.Machine.execLdN32 t b o s := rfl
theorem exec_ld64 (t b : Spec) (o : BitVec 10) (s : State) : exec (.ld64 t b o) s = Sys2Proof.Machine.execLd64 t b o s := rfl
theorem exec_ldI8 (t b : Spec) (o : BitVec 10) (s : State) : exec (.ldI8 t b o) s = Sys2Proof.Machine.execLdI8 t b o s := rfl
theorem exec_ldI16 (t b : Spec) (o : BitVec 10) (s : State) : exec (.ldI16 t b o) s = Sys2Proof.Machine.execLdI16 t b o s := rfl
theorem exec_ldI32 (t b : Spec) (o : BitVec 10) (s : State) : exec (.ldI32 t b o) s = Sys2Proof.Machine.execLdI32 t b o s := rfl
theorem exec_ldV (t b : Spec) (o : BitVec 10) (s : State) : exec (.ldV t b o) s = Sys2Proof.Machine.execLdV t b o s := rfl
theorem exec_st8 (t b : Spec) (o : BitVec 10) (s : State) : exec (.st8 t b o) s = Sys2Proof.Machine.execSt8 t b o s := rfl
theorem exec_st16 (t b : Spec) (o : BitVec 10) (s : State) : exec (.st16 t b o) s = Sys2Proof.Machine.execSt16 t b o s := rfl
theorem exec_st32 (t b : Spec) (o : BitVec 10) (s : State) : exec (.st32 t b o) s = Sys2Proof.Machine.execSt32 t b o s := rfl
theorem exec_st64 (t b : Spec) (o : BitVec 10) (s : State) : exec (.st64 t b o) s = Sys2Proof.Machine.execSt64 t b o s := rfl
theorem exec_stV (t b : Spec) (o : BitVec 10) (s : State) : exec (.stV t b o) s = Sys2Proof.Machine.execStV t b o s := rfl
theorem exec_amoSwap (t b : Spec) (o : MOrd) (c : Scope) (z : Bool) (s : State) : exec (.amoSwap t b o c z) s = Sys2Proof.Machine.execAmoSwap t b o c z s := rfl
theorem exec_amoAdd (t b : Spec) (o : MOrd) (c : Scope) (z : Bool) (s : State) : exec (.amoAdd t b o c z) s = Sys2Proof.Machine.execAmoAdd t b o c z s := rfl
theorem exec_amoAnd (t b : Spec) (o : MOrd) (c : Scope) (z : Bool) (s : State) : exec (.amoAnd t b o c z) s = Sys2Proof.Machine.execAmoAnd t b o c z s := rfl
theorem exec_amoOr (t b : Spec) (o : MOrd) (c : Scope) (z : Bool) (s : State) : exec (.amoOr t b o c z) s = Sys2Proof.Machine.execAmoOr t b o c z s := rfl
theorem exec_amoXor (t b : Spec) (o : MOrd) (c : Scope) (z : Bool) (s : State) : exec (.amoXor t b o c z) s = Sys2Proof.Machine.execAmoXor t b o c z s := rfl
theorem exec_amoMin (t b : Spec) (o : MOrd) (c : Scope) (z : Bool) (s : State) : exec (.amoMin t b o c z) s = Sys2Proof.Machine.execAmoMin t b o c z s := rfl
theorem exec_amoMax (t b : Spec) (o : MOrd) (c : Scope) (z : Bool) (s : State) : exec (.amoMax t b o c z) s = Sys2Proof.Machine.execAmoMax t b o c z s := rfl
theorem exec_amoMinu (t b : Spec) (o : MOrd) (c : Scope) (z : Bool) (s : State) : exec (.amoMinu t b o c z) s = Sys2Proof.Machine.execAmoMinu t b o c z s := rfl
theorem exec_amoMaxu (t b : Spec) (o : MOrd) (c : Scope) (z : Bool) (s : State) : exec (.amoMaxu t b o c z) s = Sys2Proof.Machine.execAmoMaxu t b o c z s := rfl
theorem exec_amoFadd (t b : Spec) (o : MOrd) (c : Scope) (z : Bool) (s : State) : exec (.amoFadd t b o c z) s = Sys2Proof.Machine.execAmoFadd t b o c z s := rfl
theorem exec_cas (t b : Spec) (o : MOrd) (c : Scope) (z : Bool) (s : State) : exec (.cas t b o c z) s = Sys2Proof.Machine.execCas t b o c z s := rfl
theorem exec_fence (s : Scope) (o : MOrd) (σ : State) : exec (.fence s o) σ = Sys2Proof.Machine.execFence s o σ := rfl
theorem exec_cwb (s : Scope) (a b : Spec) (σ : State) : exec (.cwb s a b) σ = Sys2Proof.Machine.execCwb s a b σ := rfl
theorem exec_cinv (s : Scope) (a b : Spec) (σ : State) : exec (.cinv s a b) σ = Sys2Proof.Machine.execCinv s a b σ := rfl
theorem exec_pf (a : Spec) (h : BitVec 3) (s : State) : exec (.pf a h) s = Sys2Proof.Machine.execPf a h s := rfl
theorem exec_lds (d a : Spec) (i : BitVec 6) (s : State) : exec (.lds d a i) s = Sys2Proof.Machine.execLds d a i s := rfl
theorem exec_sts (t a : Spec) (i : BitVec 6) (s : State) : exec (.sts t a i) s = Sys2Proof.Machine.execSts t a i s := rfl
theorem exec_wait (d s c l : BitVec 4) (σ : State) : exec (.wait d s c l) σ = Sys2Proof.Machine.execWait d s c l σ := rfl
theorem exec_vaddF (t : FTy) (d a b : Spec) (s : State) : exec (.vaddF t d a b) s = Sys2Proof.Machine.execVaddF t d a b s := rfl
theorem exec_vsubF (t : FTy) (d a b : Spec) (s : State) : exec (.vsubF t d a b) s = Sys2Proof.Machine.execVsubF t d a b s := rfl
theorem exec_vmulF (t : FTy) (d a b : Spec) (s : State) : exec (.vmulF t d a b) s = Sys2Proof.Machine.execVmulF t d a b s := rfl
theorem exec_vdivF (t : FTy) (d a b : Spec) (s : State) : exec (.vdivF t d a b) s = Sys2Proof.Machine.execVdivF t d a b s := rfl
theorem exec_vminF (t : FTy) (d a b : Spec) (s : State) : exec (.vminF t d a b) s = Sys2Proof.Machine.execVminF t d a b s := rfl
theorem exec_vmaxF (t : FTy) (d a b : Spec) (s : State) : exec (.vmaxF t d a b) s = Sys2Proof.Machine.execVmaxF t d a b s := rfl
theorem exec_vabsF (t : FTy) (d a : Spec) (s : State) : exec (.vabsF t d a) s = Sys2Proof.Machine.execVabsF t d a s := rfl
theorem exec_vnegF (t : FTy) (d a : Spec) (s : State) : exec (.vnegF t d a) s = Sys2Proof.Machine.execVnegF t d a s := rfl
theorem exec_vceqF (t : FTy) (d a b : Spec) (s : State) : exec (.vceqF t d a b) s = Sys2Proof.Machine.execVceqF t d a b s := rfl
theorem exec_vcltF (t : FTy) (d a b : Spec) (s : State) : exec (.vcltF t d a b) s = Sys2Proof.Machine.execVcltF t d a b s := rfl
theorem exec_vcleF (t : FTy) (d a b : Spec) (s : State) : exec (.vcleF t d a b) s = Sys2Proof.Machine.execVcleF t d a b s := rfl
theorem exec_vcunF (t : FTy) (d a b : Spec) (s : State) : exec (.vcunF t d a b) s = Sys2Proof.Machine.execVcunF t d a b s := rfl
theorem exec_vrsumF (t : FTy) (d a : Spec) (s : State) : exec (.vrsumF t d a) s = Sys2Proof.Machine.execVrsumF t d a s := rfl
theorem exec_vrmaxF (t : FTy) (d a : Spec) (s : State) : exec (.vrmaxF t d a) s = Sys2Proof.Machine.execVrmaxF t d a s := rfl
theorem exec_vrminF (t : FTy) (d a : Spec) (s : State) : exec (.vrminF t d a) s = Sys2Proof.Machine.execVrminF t d a s := rfl
theorem exec_vaddI (t : IntTy) (d a b : Spec) (s : State) : exec (.vaddI t d a b) s = Sys2Proof.Machine.execVaddI t d a b s := rfl
theorem exec_vsubI (t : IntTy) (d a b : Spec) (s : State) : exec (.vsubI t d a b) s = Sys2Proof.Machine.execVsubI t d a b s := rfl
theorem exec_vadds (t : IntTy) (d a b : Spec) (s : State) : exec (.vadds t d a b) s = Sys2Proof.Machine.execVadds t d a b s := rfl
theorem exec_vsubs (t : IntTy) (d a b : Spec) (s : State) : exec (.vsubs t d a b) s = Sys2Proof.Machine.execVsubs t d a b s := rfl
theorem exec_vmulI (t : IntTy) (d a b : Spec) (s : State) : exec (.vmulI t d a b) s = Sys2Proof.Machine.execVmulI t d a b s := rfl
theorem exec_vminI (t : IntTy) (d a b : Spec) (s : State) : exec (.vminI t d a b) s = Sys2Proof.Machine.execVminI t d a b s := rfl
theorem exec_vmaxI (t : IntTy) (d a b : Spec) (s : State) : exec (.vmaxI t d a b) s = Sys2Proof.Machine.execVmaxI t d a b s := rfl
theorem exec_vand (t : IntTy) (d a b : Spec) (s : State) : exec (.vand t d a b) s = Sys2Proof.Machine.execVand t d a b s := rfl
theorem exec_vor (t : IntTy) (d a b : Spec) (s : State) : exec (.vor t d a b) s = Sys2Proof.Machine.execVor t d a b s := rfl
theorem exec_vxor (t : IntTy) (d a b : Spec) (s : State) : exec (.vxor t d a b) s = Sys2Proof.Machine.execVxor t d a b s := rfl
theorem exec_vshl (t : IntTy) (d a b : Spec) (s : State) : exec (.vshl t d a b) s = Sys2Proof.Machine.execVshl t d a b s := rfl
theorem exec_vshr (t : IntTy) (d a b : Spec) (s : State) : exec (.vshr t d a b) s = Sys2Proof.Machine.execVshr t d a b s := rfl
theorem exec_vceqI (t : IntTy) (d a b : Spec) (s : State) : exec (.vceqI t d a b) s = Sys2Proof.Machine.execVceqI t d a b s := rfl
theorem exec_vcltI (t : IntTy) (d a b : Spec) (s : State) : exec (.vcltI t d a b) s = Sys2Proof.Machine.execVcltI t d a b s := rfl
theorem exec_vsel (t : IntTy) (d a b : Spec) (s : State) : exec (.vsel t d a b) s = Sys2Proof.Machine.execVsel t d a b s := rfl
theorem exec_vrsumI (t : IntTy) (d a : Spec) (s : State) : exec (.vrsumI t d a) s = Sys2Proof.Machine.execVrsumI t d a s := rfl
theorem exec_vshuf (d a b : Spec) (s : State) : exec (.vshuf d a b) s = Sys2Proof.Machine.execVshuf d a b s := rfl
theorem exec_vzlo (d a b : Spec) (s : State) : exec (.vzlo d a b) s = Sys2Proof.Machine.execVzlo d a b s := rfl
theorem exec_vzhi (d a b : Spec) (s : State) : exec (.vzhi d a b) s = Sys2Proof.Machine.execVzhi d a b s := rfl
theorem exec_vuev (d a b : Spec) (s : State) : exec (.vuev d a b) s = Sys2Proof.Machine.execVuev d a b s := rfl
theorem exec_vuod (d a b : Spec) (s : State) : exec (.vuod d a b) s = Sys2Proof.Machine.execVuod d a b s := rfl
theorem exec_vbcst (d a : Spec) (n : BitVec 4) (w : BitVec 2) (s : State) : exec (.vbcst d a n w) s = Sys2Proof.Machine.execVbcst d a n w s := rfl
theorem exec_vext (d a : Spec) (n : BitVec 4) (w : BitVec 2) (s : State) : exec (.vext d a n w) s = Sys2Proof.Machine.execVext d a n w s := rfl
theorem exec_vins (d a : Spec) (n : BitVec 4) (w : BitVec 2) (s : State) : exec (.vins d a n w) s = Sys2Proof.Machine.execVins d a n w s := rfl
theorem exec_vexl (d a b : Spec) (s : State) : exec (.vexl d a b) s = Sys2Proof.Machine.execVexl d a b s := rfl
theorem exec_vrev (d a : Spec) (s : State) : exec (.vrev d a) s = Sys2Proof.Machine.execVrev d a s := rfl
theorem exec_xqSnd (a b : Spec) (s : State) : exec (.xqSnd a b) s = Sys2Proof.Machine.execXqSnd a b s := rfl
theorem exec_xqTry (d : Spec) (n : BitVec 3) (k : PredNo) (s : State) : exec (.xqTry d n k) s = Sys2Proof.Machine.execXqTry d n k s := rfl
theorem exec_xqRcv (d : Spec) (n : BitVec 3) (s : State) : exec (.xqRcv d n) s = Sys2Proof.Machine.execXqRcv d n s := rfl
theorem exec_vfma (t : FTy) (d a b : Spec) (s : State) : exec (.vfma t d a b) s = Sys2Proof.Machine.execVfma t d a b s := rfl
theorem exec_vfms (t : FTy) (d a b : Spec) (s : State) : exec (.vfms t d a b) s = Sys2Proof.Machine.execVfms t d a b s := rfl
theorem exec_vfnma (t : FTy) (d a b : Spec) (s : State) : exec (.vfnma t d a b) s = Sys2Proof.Machine.execVfnma t d a b s := rfl
theorem exec_vfnms (t : FTy) (d a b : Spec) (s : State) : exec (.vfnms t d a b) s = Sys2Proof.Machine.execVfnms t d a b s := rfl
theorem exec_vdot (t : FTy) (d a b : Spec) (s : State) : exec (.vdot t d a b) s = Sys2Proof.Machine.execVdot t d a b s := rfl
theorem exec_vdoti (t : IntTy) (d a b : Spec) (s : State) : exec (.vdoti t d a b) s = Sys2Proof.Machine.execVdoti t d a b s := rfl
theorem exec_vrcp (t : FTy) (d a : Spec) (s : State) : exec (.vrcp t d a) s = Sys2Proof.Machine.execVrcp t d a s := rfl
theorem exec_vrsqrt (t : FTy) (d a : Spec) (s : State) : exec (.vrsqrt t d a) s = Sys2Proof.Machine.execVrsqrt t d a s := rfl
theorem exec_vsqrt (t : FTy) (d a : Spec) (s : State) : exec (.vsqrt t d a) s = Sys2Proof.Machine.execVsqrt t d a s := rfl
theorem exec_vexp2 (t : FTy) (d a : Spec) (s : State) : exec (.vexp2 t d a) s = Sys2Proof.Machine.execVexp2 t d a s := rfl
theorem exec_vlog2 (t : FTy) (d a : Spec) (s : State) : exec (.vlog2 t d a) s = Sys2Proof.Machine.execVlog2 t d a s := rfl
theorem exec_vsin (t : FTy) (d a : Spec) (s : State) : exec (.vsin t d a) s = Sys2Proof.Machine.execVsin t d a s := rfl
theorem exec_vcos (t : FTy) (d a : Spec) (s : State) : exec (.vcos t d a) s = Sys2Proof.Machine.execVcos t d a s := rfl
theorem exec_vtanh (t : FTy) (d a : Spec) (s : State) : exec (.vtanh t d a) s = Sys2Proof.Machine.execVtanh t d a s := rfl
theorem exec_vsigm (t : FTy) (d a : Spec) (s : State) : exec (.vsigm t d a) s = Sys2Proof.Machine.execVsigm t d a s := rfl
theorem exec_verf (t : FTy) (d a : Spec) (s : State) : exec (.verf t d a) s = Sys2Proof.Machine.execVerf t d a s := rfl
theorem exec_cvt (t s : FTy) (d a : Spec) (σ : State) : exec (.cvt t s d a) σ = Sys2Proof.Machine.execCvt t s d a σ := rfl
theorem exec_cvti (t : CvtInt) (s : FTy) (d a : Spec) (σ : State) : exec (.cvti t s d a) σ = Sys2Proof.Machine.execCvti t s d a σ := rfl
theorem exec_cvtf (t : FTy) (s : CvtInt) (d a : Spec) (σ : State) : exec (.cvtf t s d a) σ = Sys2Proof.Machine.execCvtf t s d a σ := rfl
theorem exec_qnt (t s : FTy) (d a : Spec) (σ : State) : exec (.qnt t s d a) σ = Sys2Proof.Machine.execQnt t s d a σ := rfl
theorem exec_dqnt (t s : FTy) (d a : Spec) (σ : State) : exec (.dqnt t s d a) σ = Sys2Proof.Machine.execDqnt t s d a σ := rfl
theorem exec_fclass (s : FTy) (d a : Spec) (σ : State) : exec (.fclass s d a) σ = Sys2Proof.Machine.execFclass s d a σ := rfl
theorem exec_pack (d a : Spec) (w : Bool) (s : State) : exec (.pack d a w) s = Sys2Proof.Machine.execPack d a w s := rfl
theorem exec_unpack (d a : Spec) (w : BitVec 2) (s : State) : exec (.unpack d a w) s = Sys2Proof.Machine.execUnpack d a w s := rfl
theorem exec_mx (d a : Spec) (i : BitVec 7) (s : State) : exec (.mx d a i) s = Sys2Proof.Machine.execMx d a i s := rfl
theorem exec_mxs (d a : Spec) (i : BitVec 7) (s : State) : exec (.mxs d a i) s = Sys2Proof.Machine.execMxs d a i s := rfl
theorem exec_mxDrn (d a : Spec) (i : BitVec 7) (s : State) : exec (.mxDrn d a i) s = Sys2Proof.Machine.execMxDrn d a i s := rfl
theorem exec_mxClr (d a : Spec) (i : BitVec 7) (s : State) : exec (.mxClr d a i) s = Sys2Proof.Machine.execMxClr d a i s := rfl
theorem exec_cp (d a : Spec) (i : BitVec 7) (s : State) : exec (.cp d a i) s = Sys2Proof.Machine.execCp d a i s := rfl
theorem exec_cpT (d a : Spec) (i : BitVec 7) (s : State) : exec (.cpT d a i) s = Sys2Proof.Machine.execCpT d a i s := rfl
theorem exec_cpRed (d a : Spec) (i : BitVec 7) (s : State) : exec (.cpRed d a i) s = Sys2Proof.Machine.execCpRed d a i s := rfl
theorem exec_cpCls (d a : Spec) (i : BitVec 7) (s : State) : exec (.cpCls d a i) s = Sys2Proof.Machine.execCpCls d a i s := rfl
theorem exec_strmA (d a : Spec) (i : BitVec 7) (s : State) : exec (.strmA d a i) s = Sys2Proof.Machine.execStrmA d a i s := rfl
theorem exec_strmB (d a : Spec) (i : BitVec 7) (s : State) : exec (.strmB d a i) s = Sys2Proof.Machine.execStrmB d a i s := rfl
theorem exec_cpGat (d a : Spec) (i : BitVec 7) (s : State) : exec (.cpGat d a i) s = Sys2Proof.Machine.execCpGat d a i s := rfl
theorem exec_cpSca (d a : Spec) (i : BitVec 7) (s : State) : exec (.cpSca d a i) s = Sys2Proof.Machine.execCpSca d a i s := rfl
theorem exec_colAr (d a : Spec) (i : BitVec 7) (s : State) : exec (.colAr d a i) s = Sys2Proof.Machine.execColAr d a i s := rfl
theorem exec_colAg (d a : Spec) (i : BitVec 7) (s : State) : exec (.colAg d a i) s = Sys2Proof.Machine.execColAg d a i s := rfl
theorem exec_colRs (d a : Spec) (i : BitVec 7) (s : State) : exec (.colRs d a i) s = Sys2Proof.Machine.execColRs d a i s := rfl
theorem exec_colBc (d a : Spec) (i : BitVec 7) (s : State) : exec (.colBc d a i) s = Sys2Proof.Machine.execColBc d a i s := rfl
theorem exec_colA2a (d a : Spec) (i : BitVec 7) (s : State) : exec (.colA2a d a i) s = Sys2Proof.Machine.execColA2a d a i s := rfl
theorem exec_tokWait (d a : Spec) (s : State) : exec (.tokWait d a) s = Sys2Proof.Machine.execTokWait d a s := rfl
theorem exec_tokTest (d a : Spec) (k : PredNo) (s : State) : exec (.tokTest d a k) s = Sys2Proof.Machine.execTokTest d a k s := rfl
theorem exec_tokDet (a : Spec) (s : State) : exec (.tokDet a) s = Sys2Proof.Machine.execTokDet a s := rfl
theorem exec_tokAdop (a : Spec) (s : State) : exec (.tokAdop a) s = Sys2Proof.Machine.execTokAdop a s := rfl
theorem exec_tokDep (a b : Spec) (s : State) : exec (.tokDep a b) s = Sys2Proof.Machine.execTokDep a b s := rfl
theorem exec_tokDepGo (a b : Spec) (s : State) : exec (.tokDepGo a b) s = Sys2Proof.Machine.execTokDepGo a b s := rfl
theorem exec_tokCan (a : Spec) (s : State) : exec (.tokCan a) s = Sys2Proof.Machine.execTokCan a s := rfl
theorem exec_tokCanR (a : Spec) (s : State) : exec (.tokCanR a) s = Sys2Proof.Machine.execTokCanR a s := rfl
theorem exec_tokPri (a b : Spec) (s : State) : exec (.tokPri a b) s = Sys2Proof.Machine.execTokPri a b s := rfl
theorem exec_tokRec (d a : Spec) (n : Bool) (s : State) : exec (.tokRec d a n) s = Sys2Proof.Machine.execTokRec d a n s := rfl
theorem exec_tokPost (a b : Spec) (s : State) : exec (.tokPost a b) s = Sys2Proof.Machine.execTokPost a b s := rfl
theorem exec_rowGat (d a : Spec) (i : BitVec 7) (s : State) : exec (.rowGat d a i) s = Sys2Proof.Machine.execRowGat d a i s := rfl
theorem exec_rowSca (d a : Spec) (i : BitVec 7) (s : State) : exec (.rowSca d a i) s = Sys2Proof.Machine.execRowSca d a i s := rfl
theorem exec_rowPin (d a : Spec) (i : BitVec 7) (s : State) : exec (.rowPin d a i) s = Sys2Proof.Machine.execRowPin d a i s := rfl
theorem exec_rowUnp (d a : Spec) (i : BitVec 7) (s : State) : exec (.rowUnp d a i) s = Sys2Proof.Machine.execRowUnp d a i s := rfl
theorem exec_rowHint (d a : Spec) (i : BitVec 7) (s : State) : exec (.rowHint d a i) s = Sys2Proof.Machine.execRowHint d a i s := rfl
theorem exec_spawn (a b : Spec) (s : State) : exec (.spawn a b) s = Sys2Proof.Machine.execSpawn a b s := rfl
theorem exec_spawnO (d a b : Spec) (s : State) : exec (.spawnO d a b) s = Sys2Proof.Machine.execSpawnO d a b s := rfl
theorem exec_spawnD (a b : Spec) (s : State) : exec (.spawnD a b) s = Sys2Proof.Machine.execSpawnD a b s := rfl
theorem exec_susp (s : State) : exec (.susp) s = Sys2Proof.Machine.execSusp s := rfl
theorem exec_done (s : State) : exec (.done) s = Sys2Proof.Machine.execDone s := rfl
theorem exec_yield (s : State) : exec (.yield) s = Sys2Proof.Machine.execYield s := rfl
theorem exec_tsGet (d : Spec) (s : State) : exec (.tsGet d) s = Sys2Proof.Machine.execTsGet d s := rfl
theorem exec_abort (s : State) : exec (.abort) s = Sys2Proof.Machine.execAbort s := rfl
theorem exec_spt (n : BitVec 12) (s : State) : exec (.spt n) s = Sys2Proof.Machine.execSpt n s := rfl
theorem exec_launch (d a : Spec) (s : State) : exec (.launch d a) s = Sys2Proof.Machine.execLaunch d a s := rfl
theorem exec_kinfo (d a : Spec) (s : State) : exec (.kinfo d a) s = Sys2Proof.Machine.execKinfo d a s := rfl
theorem exec_snd (a b : Spec) (s : State) : exec (.snd a b) s = Sys2Proof.Machine.execSnd a b s := rfl
theorem exec_sndC (a b : Spec) (s : State) : exec (.sndC a b) s = Sys2Proof.Machine.execSndC a b s := rfl
theorem exec_rpl (a : Spec) (s : State) : exec (.rpl a) s = Sys2Proof.Machine.execRpl a s := rfl
theorem exec_tagBind (a b : Spec) (s : State) : exec (.tagBind a b) s = Sys2Proof.Machine.execTagBind a b s := rfl
theorem exec_rq (d a b : Spec) (s : State) : exec (.rq d a b) s = Sys2Proof.Machine.execRq d a b s := rfl
theorem exec_patBind (a b : Spec) (s : State) : exec (.patBind a b) s = Sys2Proof.Machine.execPatBind a b s := rfl
theorem exec_patDrop (a : Spec) (s : State) : exec (.patDrop a) s = Sys2Proof.Machine.execPatDrop a s := rfl
theorem exec_portCfg (a b : Spec) (s : State) : exec (.portCfg a b) s = Sys2Proof.Machine.execPortCfg a b s := rfl
theorem exec_portGive (a b : Spec) (s : State) : exec (.portGive a b) s = Sys2Proof.Machine.execPortGive a b s := rfl
theorem exec_portSt (d a : Spec) (w : BitVec 4) (s : State) : exec (.portSt d a w) s = Sys2Proof.Machine.execPortSt d a w s := rfl
theorem exec_portTake (d a : Spec) (k : PredNo) (s : State) : exec (.portTake d a k) s = Sys2Proof.Machine.execPortTake d a k s := rfl
theorem exec_portTakeW (d a : Spec) (s : State) : exec (.portTakeW d a) s = Sys2Proof.Machine.execPortTakeW d a s := rfl
theorem exec_portClr (d a : Spec) (s : State) : exec (.portClr d a) s = Sys2Proof.Machine.execPortClr d a s := rfl
theorem exec_sigAdd (d a b : Spec) (s : State) : exec (.sigAdd d a b) s = Sys2Proof.Machine.execSigAdd d a b s := rfl
theorem exec_sigSet (d a b : Spec) (s : State) : exec (.sigSet d a b) s = Sys2Proof.Machine.execSigSet d a b s := rfl
theorem exec_sigRd (d a : Spec) (s : State) : exec (.sigRd d a) s = Sys2Proof.Machine.execSigRd d a s := rfl
theorem exec_sigWait (d a b : Spec) (s : State) : exec (.sigWait d a b) s = Sys2Proof.Machine.execSigWait d a b s := rfl
theorem exec_sigCas (d a b : Spec) (s : State) : exec (.sigCas d a b) s = Sys2Proof.Machine.execSigCas d a b s := rfl
theorem exec_grpNew (d a : Spec) (s : State) : exec (.grpNew d a) s = Sys2Proof.Machine.execGrpNew d a s := rfl
theorem exec_grpEnd (a : Spec) (k : Bool) (s : State) : exec (.grpEnd a k) s = Sys2Proof.Machine.execGrpEnd a k s := rfl
theorem exec_grpRd (d a : Spec) (n : BitVec 4) (s : State) : exec (.grpRd d a n) s = Sys2Proof.Machine.execGrpRd d a n s := rfl
theorem exec_grpSet (n : BitVec 4) (a b : Spec) (s : State) : exec (.grpSet n a b) s = Sys2Proof.Machine.execGrpSet n a b s := rfl
theorem exec_ebudSet (a b : Spec) (s : State) : exec (.ebudSet a b) s = Sys2Proof.Machine.execEbudSet a b s := rfl
theorem exec_ebudRd (d a : Spec) (s : State) : exec (.ebudRd d a) s = Sys2Proof.Machine.execEbudRd d a s := rfl
theorem exec_mfs (d : Spec) (s : BitVec 6) (σ : State) : exec (.mfs d s) σ = Sys2Proof.Machine.execMfs d s σ := rfl
theorem exec_mts (a : Spec) (s : BitVec 6) (σ : State) : exec (.mts a s) σ = Sys2Proof.Machine.execMts a s σ := rfl
theorem exec_trap (a : Spec) (s : State) : exec (.trap a) s = Sys2Proof.Machine.execTrap a s := rfl
theorem exec_tlbWr (a b : Spec) (s : State) : exec (.tlbWr a b) s = Sys2Proof.Machine.execTlbWr a b s := rfl
theorem exec_tlbInvPage (a b : Spec) (s : State) : exec (.tlbInvPage a b) s = Sys2Proof.Machine.execTlbInvPage a b s := rfl
theorem exec_tlbInvContext (a b : Spec) (s : State) : exec (.tlbInvContext a b) s = Sys2Proof.Machine.execTlbInvContext a b s := rfl
theorem exec_tlbInvAll (a b : Spec) (s : State) : exec (.tlbInvAll a b) s = Sys2Proof.Machine.execTlbInvAll a b s := rfl
theorem exec_tlbPrb (d a b : Spec) (s : State) : exec (.tlbPrb d a b) s = Sys2Proof.Machine.execTlbPrb d a b s := rfl
theorem exec_pgWake (d a b : Spec) (s : State) : exec (.pgWake d a b) s = Sys2Proof.Machine.execPgWake d a b s := rfl
theorem exec_dlHv (d a b : Spec) (s : State) : exec (.dlHv d a b) s = Sys2Proof.Machine.execDlHv d a b s := rfl
theorem exec_errInj (a b : Spec) (s : State) : exec (.errInj a b) s = Sys2Proof.Machine.execErrInj a b s := rfl
theorem exec_clsQ (d a : Spec) (s : State) : exec (.clsQ d a) s = Sys2Proof.Machine.execClsQ d a s := rfl
theorem exec_ctxSv (d a b : Spec) (s : State) : exec (.ctxSv d a b) s = Sys2Proof.Machine.execCtxSv d a b s := rfl
theorem exec_ctxLdCreate (a b : Spec) (s : State) : exec (.ctxLdCreate a b) s = Sys2Proof.Machine.execCtxLdCreate a b s := rfl
theorem exec_ctxLdUpdate (a b : Spec) (s : State) : exec (.ctxLdUpdate a b) s = Sys2Proof.Machine.execCtxLdUpdate a b s := rfl
theorem exec_ctxLdDestroy (a b : Spec) (s : State) : exec (.ctxLdDestroy a b) s = Sys2Proof.Machine.execCtxLdDestroy a b s := rfl
theorem exec_queSubRegister (d a b : Spec) (s : State) : exec (.queSubRegister d a b) s = Sys2Proof.Machine.execQueSubRegister d a b s := rfl
theorem exec_queSubUnregister (d a b : Spec) (s : State) : exec (.queSubUnregister d a b) s = Sys2Proof.Machine.execQueSubUnregister d a b s := rfl
theorem exec_queSubResume (d a b : Spec) (s : State) : exec (.queSubResume d a b) s = Sys2Proof.Machine.execQueSubResume d a b s := rfl
theorem exec_slotMap (a b : Spec) (s : State) : exec (.slotMap a b) s = Sys2Proof.Machine.execSlotMap a b s := rfl
theorem exec_slotUnm (a b : Spec) (s : State) : exec (.slotUnm a b) s = Sys2Proof.Machine.execSlotUnm a b s := rfl
theorem exec_slotRd (d a : Spec) (s : State) : exec (.slotRd d a) s = Sys2Proof.Machine.execSlotRd d a s := rfl
theorem exec_dlogWr (a b : Spec) (s : State) : exec (.dlogWr a b) s = Sys2Proof.Machine.execDlogWr a b s := rfl
theorem exec_dlogRd (d a : Spec) (s : State) : exec (.dlogRd d a) s = Sys2Proof.Machine.execDlogRd d a s := rfl
theorem exec_dbgBrk (k : BitVec 6) (s : State) : exec (.dbgBrk k) s = Sys2Proof.Machine.execDbgBrk k s := rfl
theorem exec_dbgMark (a : Spec) (s : State) : exec (.dbgMark a) s = Sys2Proof.Machine.execDbgMark a s := rfl
theorem exec_profRd (d a : Spec) (s : State) : exec (.profRd d a) s = Sys2Proof.Machine.execProfRd d a s := rfl
theorem exec_dbgStopStop (a b : Spec) (s : State) : exec (.dbgStopStop a b) s = Sys2Proof.Machine.execDbgStopStop a b s := rfl
theorem exec_dbgStopGo (a b : Spec) (s : State) : exec (.dbgStopGo a b) s = Sys2Proof.Machine.execDbgStopGo a b s := rfl
theorem exec_dbgStopStep (a b : Spec) (s : State) : exec (.dbgStopStep a b) s = Sys2Proof.Machine.execDbgStopStep a b s := rfl
theorem exec_xld (n : XNo) (a : Spec) (o : BitVec 6) (s : State) : exec (.xld n a o) s = Sys2Proof.Machine.execXld n a o s := rfl
theorem exec_xld4 (a : Spec) (o : BitVec 6) (s : State) : exec (.xld4 a o) s = Sys2Proof.Machine.execXld4 a o s := rfl
theorem exec_xmv (n : XNo) (a : Spec) (s : State) : exec (.xmv n a) s = Sys2Proof.Machine.execXmv n a s := rfl
theorem exec_xrd (d : Spec) (n : XNo) (s : State) : exec (.xrd d n) s = Sys2Proof.Machine.execXrd d n s := rfl
theorem exec_xst (n : XNo) (a : Spec) (o : BitVec 6) (s : State) : exec (.xst n a o) s = Sys2Proof.Machine.execXst n a o s := rfl
theorem exec_xst4 (a : Spec) (o : BitVec 6) (s : State) : exec (.xst4 a o) s = Sys2Proof.Machine.execXst4 a o s := rfl
theorem exec_cAdd (w : Bool) (b a d : CReg) (s : State) : exec (.cAdd w b a d) s = Sys2Proof.Machine.execCAdd w b a d s := rfl
theorem exec_cSub (w : Bool) (b a d : CReg) (s : State) : exec (.cSub w b a d) s = Sys2Proof.Machine.execCSub w b a d s := rfl
theorem exec_cMov (r : Bool) (m : Spec) (d : CReg) (s : State) : exec (.cMov r m d) s = Sys2Proof.Machine.execCMov r m d s := rfl
theorem exec_cAddi (i : BitVec 5) (a d : CReg) (s : State) : exec (.cAddi i a d) s = Sys2Proof.Machine.execCAddi i a d s := rfl
theorem exec_cLi (i : BitVec 8) (d : CReg) (s : State) : exec (.cLi i d) s = Sys2Proof.Machine.execCLi i d s := rfl
theorem exec_cLd (z : Bool) (o : BitVec 4) (b t : CReg) (s : State) : exec (.cLd z o b t) s = Sys2Proof.Machine.execCLd z o b t s := rfl
theorem exec_cSt (z : Bool) (o : BitVec 4) (b t : CReg) (s : State) : exec (.cSt z o b t) s = Sys2Proof.Machine.execCSt z o b t s := rfl
theorem exec_cCmp (c : BitVec 2) (b a : CReg) (p : PredNo) (s : State) : exec (.cCmp c b a p) s = Sys2Proof.Machine.execCCmp c b a p s := rfl
theorem exec_cBr (o : BitVec 7) (n : Bool) (p : PredNo) (s : State) : exec (.cBr o n p) s = Sys2Proof.Machine.execCBr o n p s := rfl
theorem exec_cJmp (o : BitVec 11) (s : State) : exec (.cJmp o) s = Sys2Proof.Machine.execCJmp o s := rfl
theorem exec_cVadd (t : BitVec 2) (b a d : CReg) (s : State) : exec (.cVadd t b a d) s = Sys2Proof.Machine.execCVadd t b a d s := rfl
theorem exec_cVfma (t : BitVec 2) (b a d : CReg) (s : State) : exec (.cVfma t b a d) s = Sys2Proof.Machine.execCVfma t b a d s := rfl
theorem exec_cXmv (m : Spec) (x : XNo) (s : State) : exec (.cXmv m x) s = Sys2Proof.Machine.execCXmv m x s := rfl
theorem exec_cWait (n : BitVec 4) (s : BitVec 2) (σ : State) : exec (.cWait n s) σ = Sys2Proof.Machine.execCWait n s σ := rfl
theorem exec_cSpt (n : BitVec 11) (s : State) : exec (.cSpt n) s = Sys2Proof.Machine.execCSpt n s := rfl
theorem exec_cSusp (s : State) : exec (.cSusp) s = Sys2Proof.Machine.execCSusp s := rfl
theorem exec_cDone (s : State) : exec (.cDone) s = Sys2Proof.Machine.execCDone s := rfl
theorem exec_cIf (n : Bool) (p : PredNo) (s : State) : exec (.cIf n p) s = Sys2Proof.Machine.execCIf n p s := rfl
theorem exec_cNop (s : State) : exec (.cNop) s = Sys2Proof.Machine.execCNop s := rfl
theorem exec_instructionFetch (place : Nat) (s : State) : exec (.instructionFetch place) s = Sys2Proof.Machine.execInstructionFetch place s := rfl
theorem exec_inboxRecordArrival (msg : Nat) (s : State) : exec (.inboxRecordArrival msg) s = Sys2Proof.Machine.execInboxRecordArrival msg s := rfl
theorem exec_taskUnitRecordArrival (msg : Nat) (s : State) : exec (.taskUnitRecordArrival msg) s = Sys2Proof.Machine.execTaskUnitRecordArrival msg s := rfl
theorem exec_portArrival (msg : Nat) (s : State) : exec (.portArrival msg) s = Sys2Proof.Machine.execPortArrival msg s := rfl
theorem exec_admission (place : Nat) (s : State) : exec (.admission place) s = Sys2Proof.Machine.execAdmission place s := rfl
theorem exec_sendStallTimeout (place : Nat) (s : State) : exec (.sendStallTimeout place) s = Sys2Proof.Machine.execSendStallTimeout place s := rfl
theorem exec_xqEntryArrival (place : Nat) (s : State) : exec (.xqEntryArrival place) s = Sys2Proof.Machine.execXqEntryArrival place s := rfl
theorem exec_loadValueReturn (acc : Nat) (s : State) : exec (.loadValueReturn acc) s = Sys2Proof.Machine.execLoadValueReturn acc s := rfl
theorem exec_storePerformed (acc : Nat) (s : State) : exec (.storePerformed acc) s = Sys2Proof.Machine.execStorePerformed acc s := rfl
theorem exec_homeRequest (req : HomeReq) (s : State) : exec (.homeRequest req) s = Sys2Proof.Machine.execHomeRequest req s := rfl
theorem exec_engineClaim (tok line : Nat) (s : State) : exec (.engineClaim tok line) s = Sys2Proof.Machine.execEngineClaim tok line s := rfl
theorem exec_engineRelease (tok line : Nat) (s : State) : exec (.engineRelease tok line) s = Sys2Proof.Machine.execEngineRelease tok line s := rfl
theorem exec_scrubRead (pa : Nat) (s : State) : exec (.scrubRead pa) s = Sys2Proof.Machine.execScrubRead pa s := rfl
theorem exec_clsBlkWrite (j : Nat) (v : BitVec 64) (s : State) : exec (.clsBlkWrite j v) s = Sys2Proof.Machine.execClsBlkWrite j v s := rfl
theorem exec_classClearDone (s : State) : exec (.classClearDone) s = Sys2Proof.Machine.execClassClearDone s := rfl
theorem exec_tlbMiss (place : Nat) (s : State) : exec (.tlbMiss place) s = Sys2Proof.Machine.execTlbMiss place s := rfl
theorem exec_walkReply (place : Nat) (s : State) : exec (.walkReply place) s = Sys2Proof.Machine.execWalkReply place s := rfl
theorem exec_preemptionRequest (ctx : Nat) (s : State) : exec (.preemptionRequest ctx) s = Sys2Proof.Machine.execPreemptionRequest ctx s := rfl
theorem exec_noSafePointTimeout (place : Nat) (s : State) : exec (.noSafePointTimeout place) s = Sys2Proof.Machine.execNoSafePointTimeout place s := rfl
theorem exec_contextSuspended (ctx : Nat) (s : State) : exec (.contextSuspended ctx) s = Sys2Proof.Machine.execContextSuspended ctx s := rfl
theorem exec_contextResume (ctx : Nat) (s : State) : exec (.contextResume ctx) s = Sys2Proof.Machine.execContextResume ctx s := rfl
theorem exec_contextAreasResident (ctx : Nat) (s : State) : exec (.contextAreasResident ctx) s = Sys2Proof.Machine.execContextAreasResident ctx s := rfl
theorem exec_contextDiscardComplete (ctx : Nat) (s : State) : exec (.contextDiscardComplete ctx) s = Sys2Proof.Machine.execContextDiscardComplete ctx s := rfl
theorem exec_freeze (stack : Nat) (temp : Nat) (s : State) : exec (.freeze stack temp) s = Sys2Proof.Machine.execFreeze stack temp s := rfl
theorem exec_thaw (temps : List Nat) (s : State) : exec (.thaw temps) s = Sys2Proof.Machine.execThaw temps s := rfl
theorem exec_weirSample (s : State) : exec (.weirSample) s = Sys2Proof.Machine.execWeirSample s := rfl
theorem exec_weirDieReduction (s : State) : exec (.weirDieReduction) s = Sys2Proof.Machine.execWeirDieReduction s := rfl
theorem exec_weirDeviceReduction (s : State) : exec (.weirDeviceReduction) s = Sys2Proof.Machine.execWeirDeviceReduction s := rfl
theorem exec_weirFrontierApply (s : State) : exec (.weirFrontierApply) s = Sys2Proof.Machine.execWeirFrontierApply s := rfl
theorem exec_weirCommit (s : State) : exec (.weirCommit) s = Sys2Proof.Machine.execWeirCommit s := rfl
theorem exec_spillFullAbort (cl : Nat) (s : State) : exec (.spillFullAbort cl) s = Sys2Proof.Machine.execSpillFullAbort cl s := rfl
theorem exec_tokenStart (tok engine : Nat) (s : State) : exec (.tokenStart tok engine) s = Sys2Proof.Machine.execTokenStart tok engine s := rfl
theorem exec_streamGroupFetch (tok : Nat) (s : State) : exec (.streamGroupFetch tok) s = Sys2Proof.Machine.execStreamGroupFetch tok s := rfl
theorem exec_tileGroupStep (tok : Nat) (s : State) : exec (.tileGroupStep tok) s = Sys2Proof.Machine.execTileGroupStep tok s := rfl
theorem exec_tileDrain (tok : Nat) (s : State) : exec (.tileDrain tok) s = Sys2Proof.Machine.execTileDrain tok s := rfl
theorem exec_copyLineStep (tok : Nat) (s : State) : exec (.copyLineStep tok) s = Sys2Proof.Machine.execCopyLineStep tok s := rfl
theorem exec_collectiveTimeout (tok : Nat) (s : State) : exec (.collectiveTimeout tok) s = Sys2Proof.Machine.execCollectiveTimeout tok s := rfl
theorem exec_drainBoundExceeded (tok : Nat) (s : State) : exec (.drainBoundExceeded tok) s = Sys2Proof.Machine.execDrainBoundExceeded tok s := rfl
theorem exec_tokenSlotStallTimeout (place : Nat) (s : State) : exec (.tokenSlotStallTimeout place) s = Sys2Proof.Machine.execTokenSlotStallTimeout place s := rfl
theorem exec_tokenDone (tok : Nat) (s : State) : exec (.tokenDone tok) s = Sys2Proof.Machine.execTokenDone tok s := rfl
theorem exec_tokenFault (tok : Nat) (s : State) : exec (.tokenFault tok) s = Sys2Proof.Machine.execTokenFault tok s := rfl
theorem exec_rowWindow (tok : Nat) (s : State) : exec (.rowWindow tok) s = Sys2Proof.Machine.execRowWindow tok s := rfl
theorem exec_rowCombinerUpdate (tok elem : Nat) (s : State) : exec (.rowCombinerUpdate tok elem) s = Sys2Proof.Machine.execRowCombinerUpdate tok elem s := rfl
theorem exec_rowCounterHalving (slice : Nat) (s : State) : exec (.rowCounterHalving slice) s = Sys2Proof.Machine.execRowCounterHalving slice s := rfl
theorem exec_rowEntryReread (tok elem : Nat) (s : State) : exec (.rowEntryReread tok elem) s = Sys2Proof.Machine.execRowEntryReread tok elem s := rfl
theorem exec_launchAdmit (sub : Nat) (s : State) : exec (.launchAdmit sub) s = Sys2Proof.Machine.execLaunchAdmit sub s := rfl
theorem exec_launchCheck (launch : Nat) (s : State) : exec (.launchCheck launch) s = Sys2Proof.Machine.execLaunchCheck launch s := rfl
theorem exec_launchResident (launch : Nat) (backed : Bool) (s : State) : exec (.launchResident launch backed) s = Sys2Proof.Machine.execLaunchResident launch backed s := rfl
theorem exec_launchWeirSlot (launch : Nat) (s : State) : exec (.launchWeirSlot launch) s = Sys2Proof.Machine.execLaunchWeirSlot launch s := rfl
theorem exec_launchPlace (launch cl : Nat) (s : State) : exec (.launchPlace launch cl) s = Sys2Proof.Machine.execLaunchPlace launch cl s := rfl
theorem exec_launchEnd (launch : Nat) (s : State) : exec (.launchEnd launch) s = Sys2Proof.Machine.execLaunchEnd launch s := rfl
theorem exec_groupEnded (launch slot : Nat) (s : State) : exec (.groupEnded launch slot) s = Sys2Proof.Machine.execGroupEnded launch slot s := rfl
theorem exec_sluiceGovernorVisit (launch : Nat) (s : State) : exec (.sluiceGovernorVisit launch) s = Sys2Proof.Machine.execSluiceGovernorVisit launch s := rfl
theorem exec_queueWiNotice (queue : Nat) (s : State) : exec (.queueWiNotice queue) s = Sys2Proof.Machine.execQueueWiNotice queue s := rfl
theorem exec_packetHeaderReady (queue : Nat) (s : State) : exec (.packetHeaderReady queue) s = Sys2Proof.Machine.execPacketHeaderReady queue s := rfl
theorem exec_packetStart (queue : Nat) (s : State) : exec (.packetStart queue) s = Sys2Proof.Machine.execPacketStart queue s := rfl
theorem exec_packetComplete (queue idx : Nat) (s : State) : exec (.packetComplete queue idx) s = Sys2Proof.Machine.execPacketComplete queue idx s := rfl
theorem exec_stageRingHandoff (queue cl : Nat) (s : State) : exec (.stageRingHandoff queue cl) s = Sys2Proof.Machine.execStageRingHandoff queue cl s := rfl
theorem exec_agingTick (die : Nat) (s : State) : exec (.agingTick die) s = Sys2Proof.Machine.execAgingTick die s := rfl
theorem exec_quantumExpiry (slot : Nat) (s : State) : exec (.quantumExpiry slot) s = Sys2Proof.Machine.execQuantumExpiry slot s := rfl
theorem exec_boundMissed (queue : Nat) (s : State) : exec (.boundMissed queue) s = Sys2Proof.Machine.execBoundMissed queue s := rfl
theorem exec_trtCtlGo (die : Nat) (s : State) : exec (.trtCtlGo die) s = Sys2Proof.Machine.execTrtCtlGo die s := rfl
theorem exec_turatLoadComplete (die err key : Nat) (s : State) : exec (.turatLoadComplete die err key) s = Sys2Proof.Machine.execTuratLoadComplete die err key s := rfl
theorem exec_signalNotify (loc : Nat) (s : State) : exec (.signalNotify loc) s = Sys2Proof.Machine.execSignalNotify loc s := rfl
theorem exec_signalPollChip (watch : Nat) (s : State) : exec (.signalPollChip watch) s = Sys2Proof.Machine.execSignalPollChip watch s := rfl
theorem exec_signalPollRemote (watch : Nat) (s : State) : exec (.signalPollRemote watch) s = Sys2Proof.Machine.execSignalPollRemote watch s := rfl
theorem exec_hostBar2Write (off : Nat) (bytes : List (BitVec 8)) (s : State) : exec (.hostBar2Write off bytes) s = Sys2Proof.Machine.execHostBar2Write off bytes s := rfl
theorem exec_hostBar2Read (off n : Nat) (s : State) : exec (.hostBar2Read off n) s = Sys2Proof.Machine.execHostBar2Read off n s := rfl
theorem exec_dbCmdRegister (set : Nat) (qcb cmd : BitVec 64) (s : State) : exec (.dbCmdRegister set qcb cmd) s = Sys2Proof.Machine.execDbCmdRegister set qcb cmd s := rfl
theorem exec_dbCmdUnregister (set : Nat) (qcb cmd : BitVec 64) (s : State) : exec (.dbCmdUnregister set qcb cmd) s = Sys2Proof.Machine.execDbCmdUnregister set qcb cmd s := rfl
theorem exec_dbCmdResume (set : Nat) (qcb cmd : BitVec 64) (s : State) : exec (.dbCmdResume set qcb cmd) s = Sys2Proof.Machine.execDbCmdResume set qcb cmd s := rfl
theorem exec_hostLinkCompletion (acc : Nat) (err : Bool) (bytes : List (BitVec 8)) (s : State) : exec (.hostLinkCompletion acc err bytes) s = Sys2Proof.Machine.execHostLinkCompletion acc err bytes s := rfl
theorem exec_hostLinkTimeout (acc : Nat) (s : State) : exec (.hostLinkTimeout acc) s = Sys2Proof.Machine.execHostLinkTimeout acc s := rfl
theorem exec_d2dRetrain (enda endb : Nat) (s : State) : exec (.d2dRetrain enda endb) s = Sys2Proof.Machine.execD2dRetrain enda endb s := rfl
theorem exec_d2dRetrainDone (enda endb : Nat) (s : State) : exec (.d2dRetrainDone enda endb) s = Sys2Proof.Machine.execD2dRetrainDone enda endb s := rfl
theorem exec_d2dRetrainTimeout (enda endb : Nat) (s : State) : exec (.d2dRetrainTimeout enda endb) s = Sys2Proof.Machine.execD2dRetrainTimeout enda endb s := rfl
theorem exec_noturFlitReceive (port : Nat) (flit : NoturFlit) (s : State) : exec (.noturFlitReceive port flit) s = Sys2Proof.Machine.execNoturFlitReceive port flit s := rfl
theorem exec_noturEnable (port : Nat) (s : State) : exec (.noturEnable port) s = Sys2Proof.Machine.execNoturEnable port s := rfl
theorem exec_noturDisable (port : Nat) (s : State) : exec (.noturDisable port) s = Sys2Proof.Machine.execNoturDisable port s := rfl
theorem exec_noturTrainingDone (port : Nat) (bad : Option (Fin 8)) (s : State) : exec (.noturTrainingDone port bad) s = Sys2Proof.Machine.execNoturTrainingDone port bad s := rfl
theorem exec_noturTrainingTimeout (port : Nat) (s : State) : exec (.noturTrainingTimeout port) s = Sys2Proof.Machine.execNoturTrainingTimeout port s := rfl
theorem exec_noturRetrainTimeout (port : Nat) (s : State) : exec (.noturRetrainTimeout port) s = Sys2Proof.Machine.execNoturRetrainTimeout port s := rfl
theorem exec_coldReset (s : State) : exec (.coldReset) s = Sys2Proof.Machine.execColdReset s := rfl
theorem exec_powerGoodChange (good : Bool) (s : State) : exec (.powerGoodChange good) s = Sys2Proof.Machine.execPowerGoodChange good s := rfl
theorem exec_bootVerifyComplete (code : Nat) (s : State) : exec (.bootVerifyComplete code) s = Sys2Proof.Machine.execBootVerifyComplete code s := rfl
theorem exec_attReqReport (v : BitVec 64) (s : State) : exec (.attReqReport v) s = Sys2Proof.Machine.execAttReqReport v s := rfl
theorem exec_attReqPubkey (v : BitVec 64) (s : State) : exec (.attReqPubkey v) s = Sys2Proof.Machine.execAttReqPubkey v s := rfl
theorem exec_attReqComplete (ok : Bool) (s : State) : exec (.attReqComplete ok) s = Sys2Proof.Machine.execAttReqComplete ok s := rfl
theorem exec_eyeMarginAlert (lane : HbmLane) (hor : BitVec 8) (ver : BitVec 8) (s : State) : exec (.eyeMarginAlert lane hor ver) s = Sys2Proof.Machine.execEyeMarginAlert lane hor ver s := rfl
theorem exec_hostIrqWrite (v : BitVec 64) (s : State) : exec (.hostIrqWrite v) s = Sys2Proof.Machine.execHostIrqWrite v s := rfl
theorem exec_pwrLimWrite (v : BitVec 64) (s : State) : exec (.pwrLimWrite v) s = Sys2Proof.Machine.execPwrLimWrite v s := rfl
theorem exec_throttleChange (die : Nat) (cause : BitVec 4) (quantity : BitVec 4) (v : BitVec 64) (s : State) : exec (.throttleChange die cause quantity v) s = Sys2Proof.Machine.execThrottleChange die cause quantity v s := rfl
theorem exec_smbusBlockRead (off : Nat) (s : State) : exec (.smbusBlockRead off) s = Sys2Proof.Machine.execSmbusBlockRead off s := rfl
theorem exec_dbgCtlStop (core : Nat) (s : State) : exec (.dbgCtlStop core) s = Sys2Proof.Machine.execDbgCtlStop core s := rfl
theorem exec_dbgCtlGo (core : Nat) (s : State) : exec (.dbgCtlGo core) s = Sys2Proof.Machine.execDbgCtlGo core s := rfl
theorem exec_dbgCtlStep (core : Nat) (s : State) : exec (.dbgCtlStep core) s = Sys2Proof.Machine.execDbgCtlStep core s := rfl
theorem exec_dbgDatWrite (core : Nat) (v : BitVec 64) (s : State) : exec (.dbgDatWrite core v) s = Sys2Proof.Machine.execDbgDatWrite core v s := rfl
theorem exec_registerWrite (addr : Nat) (data : RegData) (s : State) : exec (.registerWrite addr data) s = Sys2Proof.Machine.execRegisterWrite addr data s := rfl
theorem exec_contextAreasUnbacked (ctx : Nat) (s : State) : exec (.contextAreasUnbacked ctx) s = Sys2Proof.Machine.execContextAreasUnbacked ctx s := rfl
theorem exec_hostLinkTraining (ltssm : BitVec 6) (rate : BitVec 3) (wid : BitVec 5) (s : State) : exec (.hostLinkTraining ltssm rate wid) s = Sys2Proof.Machine.execHostLinkTraining ltssm rate wid s := rfl
theorem exec_hbmInterfaceRetrainDone (stack : Nat) (s : State) : exec (.hbmInterfaceRetrainDone stack) s = Sys2Proof.Machine.execHbmInterfaceRetrainDone stack s := rfl

end Sys2Proof.Machine
end

