-- ==== Sys2Proof/Laws/Lanes.lean ====
section
/-! SUPPORT. Lanes of a register that is built from lanes (R95, R126). -/

namespace Sys2Proof.Machine

theorem packCodes_lane (w : Nat) (xs : List Nat) : ∀ i, i < xs.length →
    packCodes w xs / 2 ^ (w * i) % 2 ^ w = (xs[i]?).getD 0 % 2 ^ w := by
  induction xs with
  | nil => intro i h; simp at h
  | cons x xs ih =>
    intro i hi
    cases i with
    | zero => simp [packCodes, Nat.add_mul_mod_self_left]
    | succ i =>
      have h := ih i (by simpa using hi)
      simp only [packCodes, List.getElem?_cons_succ]
      rw [← h, Nat.mul_succ, Nat.add_comm (w * i) w, Nat.pow_add, ← Nat.div_div_eq_div_mul]
      congr 2
      rw [Nat.add_mul_div_left _ _ (Nat.two_pow_pos w), Nat.div_eq_of_lt (Nat.mod_lt _ (Nat.two_pow_pos w)), Nat.zero_add]

theorem packCodes_lt (w : Nat) (xs : List Nat) : packCodes w xs < 2 ^ (w * xs.length) := by
  induction xs with
  | nil => simp [packCodes]
  | cons x xs ih =>
    simp only [packCodes, List.length_cons]
    have h1 : x % 2 ^ w < 2 ^ w := Nat.mod_lt _ (Nat.two_pow_pos w)
    calc x % 2 ^ w + 2 ^ w * packCodes w xs < 2 ^ w + 2 ^ w * packCodes w xs := by omega
      _ = 2 ^ w * (packCodes w xs + 1) := by ring
      _ ≤ 2 ^ w * 2 ^ (w * xs.length) := Nat.mul_le_mul_left _ ih
      _ = 2 ^ (w * (xs.length + 1)) := by rw [← Nat.pow_add]; ring_nf

/-- A lane of a register made of lanes. -/
theorem lane_ofLanes (w : Nat) (xs : List Nat) (i : Nat) (hi : i < xs.length) (hw : w * xs.length ≤ 128) :
    lane w (ofLanes w xs) i = (xs[i]?).getD 0 % 2 ^ w := by
  have hlt : packCodes w xs < 2 ^ 128 := lt_of_lt_of_le (packCodes_lt w xs) (Nat.pow_le_pow_right (by omega) hw)
  simp only [lane, bits, ofLanes, BitVec.toNat_ofNat, Nat.mod_eq_of_lt hlt]
  exact packCodes_lane w xs i hi

/-- A lane of a register given by a function of the lane's index. -/
theorem lane_mkLanes (w n : Nat) (f : Nat → Nat) (i : Nat) (hi : i < n) (hw : w * n ≤ 128) :
    lane w (mkLanes w n f) i = f i % 2 ^ w := by
  have := lane_ofLanes w ((List.range n).map f) i (by simpa using hi) (by simpa using hw)
  simpa [mkLanes, hi] using this

end Sys2Proof.Machine
end

