-- ==== Sys2Proof/Laws/Memory.lean ====
section
/-! SUPPORT. Laws of memory: a read after a write to the same place gives the value written, a write leaves every other place
alone, and every memory operation keeps the canonical form. -/

namespace Sys2Proof.Machine

/-- The first listed location is above `i`. -/
def above (i : Nat) (m : List Host.Cell) : Prop := ∀ e ∈ m.head?, i < e.1

theorem Memory.wf_cons (i : Nat) (b : Byte) (m : List Host.Cell) :
    Memory.wf ((i, b) :: m) = true ↔ b ≠ 0 ∧ above i m ∧ Memory.wf m = true := by
  cases m with
  | nil => simp [Memory.wf, above]
  | cons e m => simp [Memory.wf, above, and_assoc]

/-- In canonical form nothing below the first location is listed. -/
theorem memGet_above (m : List Host.Cell) : ∀ i, above i m → Memory.wf m = true → ∀ a, a ≤ i → memGet m a = 0 := by
  induction m with
  | nil => intros; rfl
  | cons e m ih =>
    obtain ⟨j, c⟩ := e
    intro i h hw a ha
    rw [Memory.wf_cons] at hw
    have hj : i < j := by simpa [above] using h
    simp only [memGet]
    rw [if_neg (by omega)]
    exact ih j hw.2.1 hw.2.2 a (by omega)

/-- A byte after a store of one byte. -/
theorem memGet_memPut (m : List Host.Cell) (a : Nat) (b : Byte) (hw : Memory.wf m = true) (j : Nat) :
    memGet (memPut m a b) j = if j = a then b else memGet m j := by
  induction m with
  | nil =>
    simp only [memPut]
    split
    · rename_i hb; subst hb; simp [memGet]
    · by_cases h : j = a
      · simp [memGet, h]
      · simp [memGet, h, Ne.symm h]
  | cons e m ih =>
    obtain ⟨i, c⟩ := e
    have hc := (Memory.wf_cons i c m).1 hw
    simp only [memPut]
    by_cases h1 : i = a
    · subst h1
      rw [if_pos rfl]
      by_cases hb : b = 0
      · rw [if_pos hb]
        by_cases h : j = i
        · subst h; rw [if_pos rfl, hb]
          exact memGet_above m _ hc.2.1 hc.2.2 _ (le_refl _)
        · simp [memGet, h, Ne.symm h]
      · rw [if_neg hb]
        by_cases h : j = i
        · simp [memGet, h]
        · simp [memGet, h, Ne.symm h]
    · rw [if_neg h1]
      by_cases h2 : a < i
      · rw [if_pos h2]
        by_cases hb : b = 0
        · rw [if_pos hb]
          by_cases h : j = a
          · subst h; rw [if_pos rfl, hb]
            exact memGet_above _ j (by simpa [above] using h2) hw j (le_refl _)
          · rw [if_neg h]
        · rw [if_neg hb]
          by_cases h : j = a
          · simp [memGet, h]
          · simp [memGet, h, Ne.symm h]
      · rw [if_neg h2]
        simp only [memGet]
        by_cases h3 : i = j
        · subst h3; simp [h1]
        · rw [if_neg h3, if_neg h3]; exact ih hc.2.2

theorem above_memPut (m : List Host.Cell) (a i : Nat) (b : Byte) (h : above i m) (hw : Memory.wf m = true) (ha : i < a) :
    above i (memPut m a b) := by
  cases m with
  | nil => simp only [memPut]; split <;> simp [above, ha]
  | cons e m =>
    obtain ⟨j, c⟩ := e
    have hc := (Memory.wf_cons j c m).1 hw
    have hj : i < j := by simpa [above] using h
    simp only [memPut]
    split
    · split
      · intro e he
        exact lt_trans hj (hc.2.1 e he)
      · simpa [above] using ha
    · split
      · split
        · simpa [above] using hj
        · simpa [above] using ha
      · simpa [above] using hj

/-- A store of one byte keeps the canonical form. -/
theorem Memory.wf_memPut (m : List Host.Cell) (a : Nat) (b : Byte) (hw : Memory.wf m = true) :
    Memory.wf (memPut m a b) = true := by
  induction m with
  | nil => simp only [memPut]; split <;> simp_all [Memory.wf]
  | cons e m ih =>
    obtain ⟨i, c⟩ := e
    have hc := (Memory.wf_cons i c m).1 hw
    simp only [memPut]
    split
    · rename_i h; subst h
      split
      · exact hc.2.2
      · rename_i hb; rw [Memory.wf_cons]; exact ⟨hb, hc.2⟩
    · split
      · rename_i h2
        split
        · exact hw
        · rename_i hb
          rw [Memory.wf_cons]
          exact ⟨hb, by simpa [above] using h2, hw⟩
      · rename_i h1 h2
        rw [Memory.wf_cons]
        exact ⟨hc.1, above_memPut m a i b hc.2.1 hc.2.2 (by omega), ih hc.2.2⟩

theorem Memory.wf_memPutN (bs : List Byte) : ∀ (m : List Host.Cell) (a : Nat), Memory.wf m = true →
    Memory.wf (memPutN m a bs) = true := by
  induction bs with
  | nil => intro m a h; exact h
  | cons b bs ih => intro m a h; exact ih _ _ (Memory.wf_memPut m a b h)

/-- A byte after a store of several. -/
theorem memGet_memPutN (bs : List Byte) : ∀ (m : List Host.Cell) (a : Nat), Memory.wf m = true → ∀ j,
    memGet (memPutN m a bs) j = if a ≤ j ∧ j < a + bs.length then (bs[j - a]?).getD 0 else memGet m j := by
  induction bs with
  | nil => intro m a _ j; simp [memPutN]
  | cons b bs ih =>
    intro m a h j
    rw [memPutN, ih _ _ (Memory.wf_memPut m a b h), memGet_memPut m a b h]
    by_cases h1 : a + 1 ≤ j ∧ j < a + 1 + bs.length
    · rw [if_pos h1, if_pos (by simp only [List.length_cons]; omega)]
      obtain ⟨k, hk⟩ : ∃ k, j - a = k + 1 := ⟨j - a - 1, by omega⟩
      rw [hk, show j - (a + 1) = k by omega]; simp
    · rw [if_neg h1]
      by_cases h2 : j = a
      · subst h2; simp
      · rw [if_neg h2, if_neg (by simp only [List.length_cons]; omega)]

theorem above_filter (p : Host.Cell → Bool) (i : Nat) (m : List Host.Cell) (h : above i m) (hw : Memory.wf m = true) :
    above i (m.filter p) := by
  induction m with
  | nil => simpa using h
  | cons e m ih =>
    obtain ⟨j, c⟩ := e
    have hc := (Memory.wf_cons j c m).1 hw
    have hj : i < j := by simpa [above] using h
    rw [List.filter_cons]
    split
    · simpa [above] using hj
    · exact ih (fun e he => lt_trans hj (hc.2.1 e he)) hc.2.2

/-- Memory that loses some of its bytes, as at a reset, keeps the canonical form. -/
theorem Memory.wf_filter (p : Host.Cell → Bool) (m : List Host.Cell) (hw : Memory.wf m = true) :
    Memory.wf (m.filter p) = true := by
  induction m with
  | nil => exact hw
  | cons e m ih =>
    obtain ⟨i, c⟩ := e
    have hc := (Memory.wf_cons i c m).1 hw
    rw [List.filter_cons]
    split
    · rw [Memory.wf_cons]
      exact ⟨hc.1, above_filter p i m hc.2.1 hc.2.2, ih hc.2.2⟩
    · exact ih hc.2.2

theorem State.wf_putByte (s : State) (a : Nat) (b : Byte) (h : Memory.wf s.mem = true) :
    Memory.wf (s.putByte a b).mem = true := by
  unfold State.putByte
  split
  · exact h
  · exact Memory.wf_memPut _ _ _ h

theorem State.wf_putBytes (bs : List Byte) : ∀ (s : State) (a : Nat), Memory.wf s.mem = true →
    Memory.wf (s.putBytes a bs).mem = true := by
  induction bs with
  | nil => intro s a h; exact h
  | cons b bs ih => intro s a h; exact ih _ _ (State.wf_putByte s a b h)

theorem State.wf_writeN (s : State) (a n v : Nat) (h : Memory.wf s.mem = true) : Memory.wf (s.writeN a n v).mem = true :=
  State.wf_putBytes _ _ _ h

end Sys2Proof.Machine
end

