-- ==== Sys2Proof/Laws/State.lean ====
section
/-! SUPPORT. One lemma per field and per update of State and of Thread, so that no later proof unfolds a record update. -/

namespace Sys2Proof.Machine

@[simp] theorem setThread_cyc (s : State) (p : Nat) (v : Thread) : (s.setThread p v).cyc = s.cyc := rfl
@[simp] theorem setThread_fresh (s : State) (p : Nat) (v : Thread) : (s.setThread p v).fresh = s.fresh := rfl
@[simp] theorem setThread_agenda (s : State) (p : Nat) (v : Thread) : (s.setThread p v).agenda = s.agenda := rfl
@[simp] theorem setThread_cur (s : State) (p : Nat) (v : Thread) : (s.setThread p v).cur = s.cur := rfl
@[simp] theorem setThread_nextId (s : State) (p : Nat) (v : Thread) : (s.setThread p v).nextId = s.nextId := rfl
@[simp] theorem setThread_threads (s : State) (p : Nat) (v : Thread) : (s.setThread p v).threads = Tab.put s.threads p v := rfl
@[simp] theorem setThread_cores (s : State) (p : Nat) (v : Thread) : (s.setThread p v).cores = s.cores := rfl
@[simp] theorem setThread_clus (s : State) (p : Nat) (v : Thread) : (s.setThread p v).clus = s.clus := rfl
@[simp] theorem setThread_dies (s : State) (p : Nat) (v : Thread) : (s.setThread p v).dies = s.dies := rfl
@[simp] theorem setThread_hub (s : State) (p : Nat) (v : Thread) : (s.setThread p v).hub = s.hub := rfl
@[simp] theorem setThread_mem (s : State) (p : Nat) (v : Thread) : (s.setThread p v).mem = s.mem := rfl
@[simp] theorem setThread_gran (s : State) (p : Nat) (v : Thread) : (s.setThread p v).gran = s.gran := rfl
@[simp] theorem setThread_copies (s : State) (p : Nat) (v : Thread) : (s.setThread p v).copies = s.copies := rfl
@[simp] theorem setThread_dir (s : State) (p : Nat) (v : Thread) : (s.setThread p v).dir = s.dir := rfl
@[simp] theorem setThread_marks (s : State) (p : Nat) (v : Thread) : (s.setThread p v).marks = s.marks := rfl
@[simp] theorem setThread_acc (s : State) (p : Nat) (v : Thread) : (s.setThread p v).acc = s.acc := rfl
@[simp] theorem setThread_mesh (s : State) (p : Nat) (v : Thread) : (s.setThread p v).mesh = s.mesh := rfl
@[simp] theorem setThread_toks (s : State) (p : Nat) (v : Thread) : (s.setThread p v).toks = s.toks := rfl
@[simp] theorem setThread_accum (s : State) (p : Nat) (v : Thread) : (s.setThread p v).accum = s.accum := rfl
@[simp] theorem setThread_launches (s : State) (p : Nat) (v : Thread) : (s.setThread p v).launches = s.launches := rfl
@[simp] theorem setThread_subs (s : State) (p : Nat) (v : Thread) : (s.setThread p v).subs = s.subs := rfl
@[simp] theorem setThread_groups (s : State) (p : Nat) (v : Thread) : (s.setThread p v).groups = s.groups := rfl
@[simp] theorem setThread_ctxs (s : State) (p : Nat) (v : Thread) : (s.setThread p v).ctxs = s.ctxs := rfl
@[simp] theorem setThread_queues (s : State) (p : Nat) (v : Thread) : (s.setThread p v).queues = s.queues := rfl
@[simp] theorem setThread_walks (s : State) (p : Nat) (v : Thread) : (s.setThread p v).walks = s.walks := rfl
@[simp] theorem setThread_frames (s : State) (p : Nat) (v : Thread) : (s.setThread p v).frames = s.frames := rfl
@[simp] theorem setThread_colls (s : State) (p : Nat) (v : Thread) : (s.setThread p v).colls = s.colls := rfl
@[simp] theorem setThread_round (s : State) (p : Nat) (v : Thread) : (s.setThread p v).round = s.round := rfl
@[simp] theorem setThread_wstage (s : State) (p : Nat) (v : Thread) : (s.setThread p v).wstage = s.wstage := rfl
@[simp] theorem setThread_faults (s : State) (p : Nat) (v : Thread) : (s.setThread p v).faults = s.faults := rfl
@[simp] theorem setThread_waits (s : State) (p : Nat) (v : Thread) : (s.setThread p v).waits = s.waits := rfl
@[simp] theorem setThread_past (s : State) (p : Nat) (v : Thread) : (s.setThread p v).past = s.past := rfl
@[simp] theorem setThread_rels (s : State) (p : Nat) (v : Thread) : (s.setThread p v).rels = s.rels := rfl
@[simp] theorem setThread_late (s : State) (p : Nat) (v : Thread) : (s.setThread p v).late = s.late := rfl

@[simp] theorem setCore_cyc (s : State) (c : Nat) (v : Core) : (s.setCore c v).cyc = s.cyc := rfl
@[simp] theorem setCore_fresh (s : State) (c : Nat) (v : Core) : (s.setCore c v).fresh = s.fresh := rfl
@[simp] theorem setCore_agenda (s : State) (c : Nat) (v : Core) : (s.setCore c v).agenda = s.agenda := rfl
@[simp] theorem setCore_cur (s : State) (c : Nat) (v : Core) : (s.setCore c v).cur = s.cur := rfl
@[simp] theorem setCore_nextId (s : State) (c : Nat) (v : Core) : (s.setCore c v).nextId = s.nextId := rfl
@[simp] theorem setCore_threads (s : State) (c : Nat) (v : Core) : (s.setCore c v).threads = s.threads := rfl
@[simp] theorem setCore_cores (s : State) (c : Nat) (v : Core) : (s.setCore c v).cores = Tab.put s.cores c v := rfl
@[simp] theorem setCore_clus (s : State) (c : Nat) (v : Core) : (s.setCore c v).clus = s.clus := rfl
@[simp] theorem setCore_dies (s : State) (c : Nat) (v : Core) : (s.setCore c v).dies = s.dies := rfl
@[simp] theorem setCore_hub (s : State) (c : Nat) (v : Core) : (s.setCore c v).hub = s.hub := rfl
@[simp] theorem setCore_mem (s : State) (c : Nat) (v : Core) : (s.setCore c v).mem = s.mem := rfl
@[simp] theorem setCore_gran (s : State) (c : Nat) (v : Core) : (s.setCore c v).gran = s.gran := rfl
@[simp] theorem setCore_copies (s : State) (c : Nat) (v : Core) : (s.setCore c v).copies = s.copies := rfl
@[simp] theorem setCore_dir (s : State) (c : Nat) (v : Core) : (s.setCore c v).dir = s.dir := rfl
@[simp] theorem setCore_marks (s : State) (c : Nat) (v : Core) : (s.setCore c v).marks = s.marks := rfl
@[simp] theorem setCore_acc (s : State) (c : Nat) (v : Core) : (s.setCore c v).acc = s.acc := rfl
@[simp] theorem setCore_mesh (s : State) (c : Nat) (v : Core) : (s.setCore c v).mesh = s.mesh := rfl
@[simp] theorem setCore_toks (s : State) (c : Nat) (v : Core) : (s.setCore c v).toks = s.toks := rfl
@[simp] theorem setCore_accum (s : State) (c : Nat) (v : Core) : (s.setCore c v).accum = s.accum := rfl
@[simp] theorem setCore_launches (s : State) (c : Nat) (v : Core) : (s.setCore c v).launches = s.launches := rfl
@[simp] theorem setCore_subs (s : State) (c : Nat) (v : Core) : (s.setCore c v).subs = s.subs := rfl
@[simp] theorem setCore_groups (s : State) (c : Nat) (v : Core) : (s.setCore c v).groups = s.groups := rfl
@[simp] theorem setCore_ctxs (s : State) (c : Nat) (v : Core) : (s.setCore c v).ctxs = s.ctxs := rfl
@[simp] theorem setCore_queues (s : State) (c : Nat) (v : Core) : (s.setCore c v).queues = s.queues := rfl
@[simp] theorem setCore_walks (s : State) (c : Nat) (v : Core) : (s.setCore c v).walks = s.walks := rfl
@[simp] theorem setCore_frames (s : State) (c : Nat) (v : Core) : (s.setCore c v).frames = s.frames := rfl
@[simp] theorem setCore_colls (s : State) (c : Nat) (v : Core) : (s.setCore c v).colls = s.colls := rfl
@[simp] theorem setCore_round (s : State) (c : Nat) (v : Core) : (s.setCore c v).round = s.round := rfl
@[simp] theorem setCore_wstage (s : State) (c : Nat) (v : Core) : (s.setCore c v).wstage = s.wstage := rfl
@[simp] theorem setCore_faults (s : State) (c : Nat) (v : Core) : (s.setCore c v).faults = s.faults := rfl
@[simp] theorem setCore_waits (s : State) (c : Nat) (v : Core) : (s.setCore c v).waits = s.waits := rfl
@[simp] theorem setCore_past (s : State) (c : Nat) (v : Core) : (s.setCore c v).past = s.past := rfl
@[simp] theorem setCore_rels (s : State) (c : Nat) (v : Core) : (s.setCore c v).rels = s.rels := rfl
@[simp] theorem setCore_late (s : State) (c : Nat) (v : Core) : (s.setCore c v).late = s.late := rfl

@[simp] theorem setClu_cyc (s : State) (k : Nat) (v : Cluster) : (s.setClu k v).cyc = s.cyc := rfl
@[simp] theorem setClu_fresh (s : State) (k : Nat) (v : Cluster) : (s.setClu k v).fresh = s.fresh := rfl
@[simp] theorem setClu_agenda (s : State) (k : Nat) (v : Cluster) : (s.setClu k v).agenda = s.agenda := rfl
@[simp] theorem setClu_cur (s : State) (k : Nat) (v : Cluster) : (s.setClu k v).cur = s.cur := rfl
@[simp] theorem setClu_nextId (s : State) (k : Nat) (v : Cluster) : (s.setClu k v).nextId = s.nextId := rfl
@[simp] theorem setClu_threads (s : State) (k : Nat) (v : Cluster) : (s.setClu k v).threads = s.threads := rfl
@[simp] theorem setClu_cores (s : State) (k : Nat) (v : Cluster) : (s.setClu k v).cores = s.cores := rfl
@[simp] theorem setClu_clus (s : State) (k : Nat) (v : Cluster) : (s.setClu k v).clus = Tab.put s.clus k v := rfl
@[simp] theorem setClu_dies (s : State) (k : Nat) (v : Cluster) : (s.setClu k v).dies = s.dies := rfl
@[simp] theorem setClu_hub (s : State) (k : Nat) (v : Cluster) : (s.setClu k v).hub = s.hub := rfl
@[simp] theorem setClu_mem (s : State) (k : Nat) (v : Cluster) : (s.setClu k v).mem = s.mem := rfl
@[simp] theorem setClu_gran (s : State) (k : Nat) (v : Cluster) : (s.setClu k v).gran = s.gran := rfl
@[simp] theorem setClu_copies (s : State) (k : Nat) (v : Cluster) : (s.setClu k v).copies = s.copies := rfl
@[simp] theorem setClu_dir (s : State) (k : Nat) (v : Cluster) : (s.setClu k v).dir = s.dir := rfl
@[simp] theorem setClu_marks (s : State) (k : Nat) (v : Cluster) : (s.setClu k v).marks = s.marks := rfl
@[simp] theorem setClu_acc (s : State) (k : Nat) (v : Cluster) : (s.setClu k v).acc = s.acc := rfl
@[simp] theorem setClu_mesh (s : State) (k : Nat) (v : Cluster) : (s.setClu k v).mesh = s.mesh := rfl
@[simp] theorem setClu_toks (s : State) (k : Nat) (v : Cluster) : (s.setClu k v).toks = s.toks := rfl
@[simp] theorem setClu_accum (s : State) (k : Nat) (v : Cluster) : (s.setClu k v).accum = s.accum := rfl
@[simp] theorem setClu_launches (s : State) (k : Nat) (v : Cluster) : (s.setClu k v).launches = s.launches := rfl
@[simp] theorem setClu_subs (s : State) (k : Nat) (v : Cluster) : (s.setClu k v).subs = s.subs := rfl
@[simp] theorem setClu_groups (s : State) (k : Nat) (v : Cluster) : (s.setClu k v).groups = s.groups := rfl
@[simp] theorem setClu_ctxs (s : State) (k : Nat) (v : Cluster) : (s.setClu k v).ctxs = s.ctxs := rfl
@[simp] theorem setClu_queues (s : State) (k : Nat) (v : Cluster) : (s.setClu k v).queues = s.queues := rfl
@[simp] theorem setClu_walks (s : State) (k : Nat) (v : Cluster) : (s.setClu k v).walks = s.walks := rfl
@[simp] theorem setClu_frames (s : State) (k : Nat) (v : Cluster) : (s.setClu k v).frames = s.frames := rfl
@[simp] theorem setClu_colls (s : State) (k : Nat) (v : Cluster) : (s.setClu k v).colls = s.colls := rfl
@[simp] theorem setClu_round (s : State) (k : Nat) (v : Cluster) : (s.setClu k v).round = s.round := rfl
@[simp] theorem setClu_wstage (s : State) (k : Nat) (v : Cluster) : (s.setClu k v).wstage = s.wstage := rfl
@[simp] theorem setClu_faults (s : State) (k : Nat) (v : Cluster) : (s.setClu k v).faults = s.faults := rfl
@[simp] theorem setClu_waits (s : State) (k : Nat) (v : Cluster) : (s.setClu k v).waits = s.waits := rfl
@[simp] theorem setClu_past (s : State) (k : Nat) (v : Cluster) : (s.setClu k v).past = s.past := rfl
@[simp] theorem setClu_rels (s : State) (k : Nat) (v : Cluster) : (s.setClu k v).rels = s.rels := rfl
@[simp] theorem setClu_late (s : State) (k : Nat) (v : Cluster) : (s.setClu k v).late = s.late := rfl

@[simp] theorem setDie_cyc (s : State) (d : Nat) (v : Die) : (s.setDie d v).cyc = s.cyc := rfl
@[simp] theorem setDie_fresh (s : State) (d : Nat) (v : Die) : (s.setDie d v).fresh = s.fresh := rfl
@[simp] theorem setDie_agenda (s : State) (d : Nat) (v : Die) : (s.setDie d v).agenda = s.agenda := rfl
@[simp] theorem setDie_cur (s : State) (d : Nat) (v : Die) : (s.setDie d v).cur = s.cur := rfl
@[simp] theorem setDie_nextId (s : State) (d : Nat) (v : Die) : (s.setDie d v).nextId = s.nextId := rfl
@[simp] theorem setDie_threads (s : State) (d : Nat) (v : Die) : (s.setDie d v).threads = s.threads := rfl
@[simp] theorem setDie_cores (s : State) (d : Nat) (v : Die) : (s.setDie d v).cores = s.cores := rfl
@[simp] theorem setDie_clus (s : State) (d : Nat) (v : Die) : (s.setDie d v).clus = s.clus := rfl
@[simp] theorem setDie_dies (s : State) (d : Nat) (v : Die) : (s.setDie d v).dies = Tab.put s.dies d v := rfl
@[simp] theorem setDie_hub (s : State) (d : Nat) (v : Die) : (s.setDie d v).hub = s.hub := rfl
@[simp] theorem setDie_mem (s : State) (d : Nat) (v : Die) : (s.setDie d v).mem = s.mem := rfl
@[simp] theorem setDie_gran (s : State) (d : Nat) (v : Die) : (s.setDie d v).gran = s.gran := rfl
@[simp] theorem setDie_copies (s : State) (d : Nat) (v : Die) : (s.setDie d v).copies = s.copies := rfl
@[simp] theorem setDie_dir (s : State) (d : Nat) (v : Die) : (s.setDie d v).dir = s.dir := rfl
@[simp] theorem setDie_marks (s : State) (d : Nat) (v : Die) : (s.setDie d v).marks = s.marks := rfl
@[simp] theorem setDie_acc (s : State) (d : Nat) (v : Die) : (s.setDie d v).acc = s.acc := rfl
@[simp] theorem setDie_mesh (s : State) (d : Nat) (v : Die) : (s.setDie d v).mesh = s.mesh := rfl
@[simp] theorem setDie_toks (s : State) (d : Nat) (v : Die) : (s.setDie d v).toks = s.toks := rfl
@[simp] theorem setDie_accum (s : State) (d : Nat) (v : Die) : (s.setDie d v).accum = s.accum := rfl
@[simp] theorem setDie_launches (s : State) (d : Nat) (v : Die) : (s.setDie d v).launches = s.launches := rfl
@[simp] theorem setDie_subs (s : State) (d : Nat) (v : Die) : (s.setDie d v).subs = s.subs := rfl
@[simp] theorem setDie_groups (s : State) (d : Nat) (v : Die) : (s.setDie d v).groups = s.groups := rfl
@[simp] theorem setDie_ctxs (s : State) (d : Nat) (v : Die) : (s.setDie d v).ctxs = s.ctxs := rfl
@[simp] theorem setDie_queues (s : State) (d : Nat) (v : Die) : (s.setDie d v).queues = s.queues := rfl
@[simp] theorem setDie_walks (s : State) (d : Nat) (v : Die) : (s.setDie d v).walks = s.walks := rfl
@[simp] theorem setDie_frames (s : State) (d : Nat) (v : Die) : (s.setDie d v).frames = s.frames := rfl
@[simp] theorem setDie_colls (s : State) (d : Nat) (v : Die) : (s.setDie d v).colls = s.colls := rfl
@[simp] theorem setDie_round (s : State) (d : Nat) (v : Die) : (s.setDie d v).round = s.round := rfl
@[simp] theorem setDie_wstage (s : State) (d : Nat) (v : Die) : (s.setDie d v).wstage = s.wstage := rfl
@[simp] theorem setDie_faults (s : State) (d : Nat) (v : Die) : (s.setDie d v).faults = s.faults := rfl
@[simp] theorem setDie_waits (s : State) (d : Nat) (v : Die) : (s.setDie d v).waits = s.waits := rfl
@[simp] theorem setDie_past (s : State) (d : Nat) (v : Die) : (s.setDie d v).past = s.past := rfl
@[simp] theorem setDie_rels (s : State) (d : Nat) (v : Die) : (s.setDie d v).rels = s.rels := rfl
@[simp] theorem setDie_late (s : State) (d : Nat) (v : Die) : (s.setDie d v).late = s.late := rfl

@[simp] theorem setGran_cyc (s : State) (g : Nat) (v : Gran) : (s.setGran g v).cyc = s.cyc := rfl
@[simp] theorem setGran_fresh (s : State) (g : Nat) (v : Gran) : (s.setGran g v).fresh = s.fresh := rfl
@[simp] theorem setGran_agenda (s : State) (g : Nat) (v : Gran) : (s.setGran g v).agenda = s.agenda := rfl
@[simp] theorem setGran_cur (s : State) (g : Nat) (v : Gran) : (s.setGran g v).cur = s.cur := rfl
@[simp] theorem setGran_nextId (s : State) (g : Nat) (v : Gran) : (s.setGran g v).nextId = s.nextId := rfl
@[simp] theorem setGran_threads (s : State) (g : Nat) (v : Gran) : (s.setGran g v).threads = s.threads := rfl
@[simp] theorem setGran_cores (s : State) (g : Nat) (v : Gran) : (s.setGran g v).cores = s.cores := rfl
@[simp] theorem setGran_clus (s : State) (g : Nat) (v : Gran) : (s.setGran g v).clus = s.clus := rfl
@[simp] theorem setGran_dies (s : State) (g : Nat) (v : Gran) : (s.setGran g v).dies = s.dies := rfl
@[simp] theorem setGran_hub (s : State) (g : Nat) (v : Gran) : (s.setGran g v).hub = s.hub := rfl
@[simp] theorem setGran_mem (s : State) (g : Nat) (v : Gran) : (s.setGran g v).mem = s.mem := rfl
@[simp] theorem setGran_gran (s : State) (g : Nat) (v : Gran) : (s.setGran g v).gran = if v = Gran.clean then Tab.del s.gran g else Tab.put s.gran g v := rfl
@[simp] theorem setGran_copies (s : State) (g : Nat) (v : Gran) : (s.setGran g v).copies = s.copies := rfl
@[simp] theorem setGran_dir (s : State) (g : Nat) (v : Gran) : (s.setGran g v).dir = s.dir := rfl
@[simp] theorem setGran_marks (s : State) (g : Nat) (v : Gran) : (s.setGran g v).marks = s.marks := rfl
@[simp] theorem setGran_acc (s : State) (g : Nat) (v : Gran) : (s.setGran g v).acc = s.acc := rfl
@[simp] theorem setGran_mesh (s : State) (g : Nat) (v : Gran) : (s.setGran g v).mesh = s.mesh := rfl
@[simp] theorem setGran_toks (s : State) (g : Nat) (v : Gran) : (s.setGran g v).toks = s.toks := rfl
@[simp] theorem setGran_accum (s : State) (g : Nat) (v : Gran) : (s.setGran g v).accum = s.accum := rfl
@[simp] theorem setGran_launches (s : State) (g : Nat) (v : Gran) : (s.setGran g v).launches = s.launches := rfl
@[simp] theorem setGran_subs (s : State) (g : Nat) (v : Gran) : (s.setGran g v).subs = s.subs := rfl
@[simp] theorem setGran_groups (s : State) (g : Nat) (v : Gran) : (s.setGran g v).groups = s.groups := rfl
@[simp] theorem setGran_ctxs (s : State) (g : Nat) (v : Gran) : (s.setGran g v).ctxs = s.ctxs := rfl
@[simp] theorem setGran_queues (s : State) (g : Nat) (v : Gran) : (s.setGran g v).queues = s.queues := rfl
@[simp] theorem setGran_walks (s : State) (g : Nat) (v : Gran) : (s.setGran g v).walks = s.walks := rfl
@[simp] theorem setGran_frames (s : State) (g : Nat) (v : Gran) : (s.setGran g v).frames = s.frames := rfl
@[simp] theorem setGran_colls (s : State) (g : Nat) (v : Gran) : (s.setGran g v).colls = s.colls := rfl
@[simp] theorem setGran_round (s : State) (g : Nat) (v : Gran) : (s.setGran g v).round = s.round := rfl
@[simp] theorem setGran_wstage (s : State) (g : Nat) (v : Gran) : (s.setGran g v).wstage = s.wstage := rfl
@[simp] theorem setGran_faults (s : State) (g : Nat) (v : Gran) : (s.setGran g v).faults = s.faults := rfl
@[simp] theorem setGran_waits (s : State) (g : Nat) (v : Gran) : (s.setGran g v).waits = s.waits := rfl
@[simp] theorem setGran_past (s : State) (g : Nat) (v : Gran) : (s.setGran g v).past = s.past := rfl
@[simp] theorem setGran_rels (s : State) (g : Nat) (v : Gran) : (s.setGran g v).rels = s.rels := rfl
@[simp] theorem setGran_late (s : State) (g : Nat) (v : Gran) : (s.setGran g v).late = s.late := rfl

@[simp] theorem setCtx_cyc (s : State) (n : Nat) (v : Ctx) : (s.setCtx n v).cyc = s.cyc := rfl
@[simp] theorem setCtx_fresh (s : State) (n : Nat) (v : Ctx) : (s.setCtx n v).fresh = s.fresh := rfl
@[simp] theorem setCtx_agenda (s : State) (n : Nat) (v : Ctx) : (s.setCtx n v).agenda = s.agenda := rfl
@[simp] theorem setCtx_cur (s : State) (n : Nat) (v : Ctx) : (s.setCtx n v).cur = s.cur := rfl
@[simp] theorem setCtx_nextId (s : State) (n : Nat) (v : Ctx) : (s.setCtx n v).nextId = s.nextId := rfl
@[simp] theorem setCtx_threads (s : State) (n : Nat) (v : Ctx) : (s.setCtx n v).threads = s.threads := rfl
@[simp] theorem setCtx_cores (s : State) (n : Nat) (v : Ctx) : (s.setCtx n v).cores = s.cores := rfl
@[simp] theorem setCtx_clus (s : State) (n : Nat) (v : Ctx) : (s.setCtx n v).clus = s.clus := rfl
@[simp] theorem setCtx_dies (s : State) (n : Nat) (v : Ctx) : (s.setCtx n v).dies = s.dies := rfl
@[simp] theorem setCtx_hub (s : State) (n : Nat) (v : Ctx) : (s.setCtx n v).hub = s.hub := rfl
@[simp] theorem setCtx_mem (s : State) (n : Nat) (v : Ctx) : (s.setCtx n v).mem = s.mem := rfl
@[simp] theorem setCtx_gran (s : State) (n : Nat) (v : Ctx) : (s.setCtx n v).gran = s.gran := rfl
@[simp] theorem setCtx_copies (s : State) (n : Nat) (v : Ctx) : (s.setCtx n v).copies = s.copies := rfl
@[simp] theorem setCtx_dir (s : State) (n : Nat) (v : Ctx) : (s.setCtx n v).dir = s.dir := rfl
@[simp] theorem setCtx_marks (s : State) (n : Nat) (v : Ctx) : (s.setCtx n v).marks = s.marks := rfl
@[simp] theorem setCtx_acc (s : State) (n : Nat) (v : Ctx) : (s.setCtx n v).acc = s.acc := rfl
@[simp] theorem setCtx_mesh (s : State) (n : Nat) (v : Ctx) : (s.setCtx n v).mesh = s.mesh := rfl
@[simp] theorem setCtx_toks (s : State) (n : Nat) (v : Ctx) : (s.setCtx n v).toks = s.toks := rfl
@[simp] theorem setCtx_accum (s : State) (n : Nat) (v : Ctx) : (s.setCtx n v).accum = s.accum := rfl
@[simp] theorem setCtx_launches (s : State) (n : Nat) (v : Ctx) : (s.setCtx n v).launches = s.launches := rfl
@[simp] theorem setCtx_subs (s : State) (n : Nat) (v : Ctx) : (s.setCtx n v).subs = s.subs := rfl
@[simp] theorem setCtx_groups (s : State) (n : Nat) (v : Ctx) : (s.setCtx n v).groups = s.groups := rfl
@[simp] theorem setCtx_ctxs (s : State) (n : Nat) (v : Ctx) : (s.setCtx n v).ctxs = Tab.put s.ctxs n v := rfl
@[simp] theorem setCtx_queues (s : State) (n : Nat) (v : Ctx) : (s.setCtx n v).queues = s.queues := rfl
@[simp] theorem setCtx_walks (s : State) (n : Nat) (v : Ctx) : (s.setCtx n v).walks = s.walks := rfl
@[simp] theorem setCtx_frames (s : State) (n : Nat) (v : Ctx) : (s.setCtx n v).frames = s.frames := rfl
@[simp] theorem setCtx_colls (s : State) (n : Nat) (v : Ctx) : (s.setCtx n v).colls = s.colls := rfl
@[simp] theorem setCtx_round (s : State) (n : Nat) (v : Ctx) : (s.setCtx n v).round = s.round := rfl
@[simp] theorem setCtx_wstage (s : State) (n : Nat) (v : Ctx) : (s.setCtx n v).wstage = s.wstage := rfl
@[simp] theorem setCtx_faults (s : State) (n : Nat) (v : Ctx) : (s.setCtx n v).faults = s.faults := rfl
@[simp] theorem setCtx_waits (s : State) (n : Nat) (v : Ctx) : (s.setCtx n v).waits = s.waits := rfl
@[simp] theorem setCtx_past (s : State) (n : Nat) (v : Ctx) : (s.setCtx n v).past = s.past := rfl
@[simp] theorem setCtx_rels (s : State) (n : Nat) (v : Ctx) : (s.setCtx n v).rels = s.rels := rfl
@[simp] theorem setCtx_late (s : State) (n : Nat) (v : Ctx) : (s.setCtx n v).late = s.late := rfl

@[simp] theorem setTok_cyc (s : State) (k : Nat) (v : Token) : (s.setTok k v).cyc = s.cyc := rfl
@[simp] theorem setTok_fresh (s : State) (k : Nat) (v : Token) : (s.setTok k v).fresh = s.fresh := rfl
@[simp] theorem setTok_agenda (s : State) (k : Nat) (v : Token) : (s.setTok k v).agenda = s.agenda := rfl
@[simp] theorem setTok_cur (s : State) (k : Nat) (v : Token) : (s.setTok k v).cur = s.cur := rfl
@[simp] theorem setTok_nextId (s : State) (k : Nat) (v : Token) : (s.setTok k v).nextId = s.nextId := rfl
@[simp] theorem setTok_threads (s : State) (k : Nat) (v : Token) : (s.setTok k v).threads = s.threads := rfl
@[simp] theorem setTok_cores (s : State) (k : Nat) (v : Token) : (s.setTok k v).cores = s.cores := rfl
@[simp] theorem setTok_clus (s : State) (k : Nat) (v : Token) : (s.setTok k v).clus = s.clus := rfl
@[simp] theorem setTok_dies (s : State) (k : Nat) (v : Token) : (s.setTok k v).dies = s.dies := rfl
@[simp] theorem setTok_hub (s : State) (k : Nat) (v : Token) : (s.setTok k v).hub = s.hub := rfl
@[simp] theorem setTok_mem (s : State) (k : Nat) (v : Token) : (s.setTok k v).mem = s.mem := rfl
@[simp] theorem setTok_gran (s : State) (k : Nat) (v : Token) : (s.setTok k v).gran = s.gran := rfl
@[simp] theorem setTok_copies (s : State) (k : Nat) (v : Token) : (s.setTok k v).copies = s.copies := rfl
@[simp] theorem setTok_dir (s : State) (k : Nat) (v : Token) : (s.setTok k v).dir = s.dir := rfl
@[simp] theorem setTok_marks (s : State) (k : Nat) (v : Token) : (s.setTok k v).marks = s.marks := rfl
@[simp] theorem setTok_acc (s : State) (k : Nat) (v : Token) : (s.setTok k v).acc = s.acc := rfl
@[simp] theorem setTok_mesh (s : State) (k : Nat) (v : Token) : (s.setTok k v).mesh = s.mesh := rfl
@[simp] theorem setTok_toks (s : State) (k : Nat) (v : Token) : (s.setTok k v).toks = Tab.put s.toks k v := rfl
@[simp] theorem setTok_accum (s : State) (k : Nat) (v : Token) : (s.setTok k v).accum = s.accum := rfl
@[simp] theorem setTok_launches (s : State) (k : Nat) (v : Token) : (s.setTok k v).launches = s.launches := rfl
@[simp] theorem setTok_subs (s : State) (k : Nat) (v : Token) : (s.setTok k v).subs = s.subs := rfl
@[simp] theorem setTok_groups (s : State) (k : Nat) (v : Token) : (s.setTok k v).groups = s.groups := rfl
@[simp] theorem setTok_ctxs (s : State) (k : Nat) (v : Token) : (s.setTok k v).ctxs = s.ctxs := rfl
@[simp] theorem setTok_queues (s : State) (k : Nat) (v : Token) : (s.setTok k v).queues = s.queues := rfl
@[simp] theorem setTok_walks (s : State) (k : Nat) (v : Token) : (s.setTok k v).walks = s.walks := rfl
@[simp] theorem setTok_frames (s : State) (k : Nat) (v : Token) : (s.setTok k v).frames = s.frames := rfl
@[simp] theorem setTok_colls (s : State) (k : Nat) (v : Token) : (s.setTok k v).colls = s.colls := rfl
@[simp] theorem setTok_round (s : State) (k : Nat) (v : Token) : (s.setTok k v).round = s.round := rfl
@[simp] theorem setTok_wstage (s : State) (k : Nat) (v : Token) : (s.setTok k v).wstage = s.wstage := rfl
@[simp] theorem setTok_faults (s : State) (k : Nat) (v : Token) : (s.setTok k v).faults = s.faults := rfl
@[simp] theorem setTok_waits (s : State) (k : Nat) (v : Token) : (s.setTok k v).waits = s.waits := rfl
@[simp] theorem setTok_past (s : State) (k : Nat) (v : Token) : (s.setTok k v).past = s.past := rfl
@[simp] theorem setTok_rels (s : State) (k : Nat) (v : Token) : (s.setTok k v).rels = s.rels := rfl
@[simp] theorem setTok_late (s : State) (k : Nat) (v : Token) : (s.setTok k v).late = s.late := rfl

@[simp] theorem setAcc_cyc (s : State) (k : Nat) (v : Access) : (s.setAcc k v).cyc = s.cyc := rfl
@[simp] theorem setAcc_fresh (s : State) (k : Nat) (v : Access) : (s.setAcc k v).fresh = s.fresh := rfl
@[simp] theorem setAcc_agenda (s : State) (k : Nat) (v : Access) : (s.setAcc k v).agenda = s.agenda := rfl
@[simp] theorem setAcc_cur (s : State) (k : Nat) (v : Access) : (s.setAcc k v).cur = s.cur := rfl
@[simp] theorem setAcc_nextId (s : State) (k : Nat) (v : Access) : (s.setAcc k v).nextId = s.nextId := rfl
@[simp] theorem setAcc_threads (s : State) (k : Nat) (v : Access) : (s.setAcc k v).threads = s.threads := rfl
@[simp] theorem setAcc_cores (s : State) (k : Nat) (v : Access) : (s.setAcc k v).cores = s.cores := rfl
@[simp] theorem setAcc_clus (s : State) (k : Nat) (v : Access) : (s.setAcc k v).clus = s.clus := rfl
@[simp] theorem setAcc_dies (s : State) (k : Nat) (v : Access) : (s.setAcc k v).dies = s.dies := rfl
@[simp] theorem setAcc_hub (s : State) (k : Nat) (v : Access) : (s.setAcc k v).hub = s.hub := rfl
@[simp] theorem setAcc_mem (s : State) (k : Nat) (v : Access) : (s.setAcc k v).mem = s.mem := rfl
@[simp] theorem setAcc_gran (s : State) (k : Nat) (v : Access) : (s.setAcc k v).gran = s.gran := rfl
@[simp] theorem setAcc_copies (s : State) (k : Nat) (v : Access) : (s.setAcc k v).copies = s.copies := rfl
@[simp] theorem setAcc_dir (s : State) (k : Nat) (v : Access) : (s.setAcc k v).dir = s.dir := rfl
@[simp] theorem setAcc_marks (s : State) (k : Nat) (v : Access) : (s.setAcc k v).marks = s.marks := rfl
@[simp] theorem setAcc_acc (s : State) (k : Nat) (v : Access) : (s.setAcc k v).acc = Tab.put s.acc k v := rfl
@[simp] theorem setAcc_mesh (s : State) (k : Nat) (v : Access) : (s.setAcc k v).mesh = s.mesh := rfl
@[simp] theorem setAcc_toks (s : State) (k : Nat) (v : Access) : (s.setAcc k v).toks = s.toks := rfl
@[simp] theorem setAcc_accum (s : State) (k : Nat) (v : Access) : (s.setAcc k v).accum = s.accum := rfl
@[simp] theorem setAcc_launches (s : State) (k : Nat) (v : Access) : (s.setAcc k v).launches = s.launches := rfl
@[simp] theorem setAcc_subs (s : State) (k : Nat) (v : Access) : (s.setAcc k v).subs = s.subs := rfl
@[simp] theorem setAcc_groups (s : State) (k : Nat) (v : Access) : (s.setAcc k v).groups = s.groups := rfl
@[simp] theorem setAcc_ctxs (s : State) (k : Nat) (v : Access) : (s.setAcc k v).ctxs = s.ctxs := rfl
@[simp] theorem setAcc_queues (s : State) (k : Nat) (v : Access) : (s.setAcc k v).queues = s.queues := rfl
@[simp] theorem setAcc_walks (s : State) (k : Nat) (v : Access) : (s.setAcc k v).walks = s.walks := rfl
@[simp] theorem setAcc_frames (s : State) (k : Nat) (v : Access) : (s.setAcc k v).frames = s.frames := rfl
@[simp] theorem setAcc_colls (s : State) (k : Nat) (v : Access) : (s.setAcc k v).colls = s.colls := rfl
@[simp] theorem setAcc_round (s : State) (k : Nat) (v : Access) : (s.setAcc k v).round = s.round := rfl
@[simp] theorem setAcc_wstage (s : State) (k : Nat) (v : Access) : (s.setAcc k v).wstage = s.wstage := rfl
@[simp] theorem setAcc_faults (s : State) (k : Nat) (v : Access) : (s.setAcc k v).faults = s.faults := rfl
@[simp] theorem setAcc_waits (s : State) (k : Nat) (v : Access) : (s.setAcc k v).waits = s.waits := rfl
@[simp] theorem setAcc_past (s : State) (k : Nat) (v : Access) : (s.setAcc k v).past = s.past := rfl
@[simp] theorem setAcc_rels (s : State) (k : Nat) (v : Access) : (s.setAcc k v).rels = s.rels := rfl
@[simp] theorem setAcc_late (s : State) (k : Nat) (v : Access) : (s.setAcc k v).late = s.late := rfl

@[simp] theorem delAcc_cyc (s : State) (k : Nat) : (s.delAcc k).cyc = s.cyc := rfl
@[simp] theorem delAcc_fresh (s : State) (k : Nat) : (s.delAcc k).fresh = s.fresh := rfl
@[simp] theorem delAcc_agenda (s : State) (k : Nat) : (s.delAcc k).agenda = s.agenda := rfl
@[simp] theorem delAcc_cur (s : State) (k : Nat) : (s.delAcc k).cur = s.cur := rfl
@[simp] theorem delAcc_nextId (s : State) (k : Nat) : (s.delAcc k).nextId = s.nextId := rfl
@[simp] theorem delAcc_threads (s : State) (k : Nat) : (s.delAcc k).threads = s.threads := rfl
@[simp] theorem delAcc_cores (s : State) (k : Nat) : (s.delAcc k).cores = s.cores := rfl
@[simp] theorem delAcc_clus (s : State) (k : Nat) : (s.delAcc k).clus = s.clus := rfl
@[simp] theorem delAcc_dies (s : State) (k : Nat) : (s.delAcc k).dies = s.dies := rfl
@[simp] theorem delAcc_hub (s : State) (k : Nat) : (s.delAcc k).hub = s.hub := rfl
@[simp] theorem delAcc_mem (s : State) (k : Nat) : (s.delAcc k).mem = s.mem := rfl
@[simp] theorem delAcc_gran (s : State) (k : Nat) : (s.delAcc k).gran = s.gran := rfl
@[simp] theorem delAcc_copies (s : State) (k : Nat) : (s.delAcc k).copies = s.copies := rfl
@[simp] theorem delAcc_dir (s : State) (k : Nat) : (s.delAcc k).dir = s.dir := rfl
@[simp] theorem delAcc_marks (s : State) (k : Nat) : (s.delAcc k).marks = s.marks := rfl
@[simp] theorem delAcc_acc (s : State) (k : Nat) : (s.delAcc k).acc = Tab.del s.acc k := rfl
@[simp] theorem delAcc_mesh (s : State) (k : Nat) : (s.delAcc k).mesh = s.mesh := rfl
@[simp] theorem delAcc_toks (s : State) (k : Nat) : (s.delAcc k).toks = s.toks := rfl
@[simp] theorem delAcc_accum (s : State) (k : Nat) : (s.delAcc k).accum = s.accum := rfl
@[simp] theorem delAcc_launches (s : State) (k : Nat) : (s.delAcc k).launches = s.launches := rfl
@[simp] theorem delAcc_subs (s : State) (k : Nat) : (s.delAcc k).subs = s.subs := rfl
@[simp] theorem delAcc_groups (s : State) (k : Nat) : (s.delAcc k).groups = s.groups := rfl
@[simp] theorem delAcc_ctxs (s : State) (k : Nat) : (s.delAcc k).ctxs = s.ctxs := rfl
@[simp] theorem delAcc_queues (s : State) (k : Nat) : (s.delAcc k).queues = s.queues := rfl
@[simp] theorem delAcc_walks (s : State) (k : Nat) : (s.delAcc k).walks = s.walks := rfl
@[simp] theorem delAcc_frames (s : State) (k : Nat) : (s.delAcc k).frames = s.frames := rfl
@[simp] theorem delAcc_colls (s : State) (k : Nat) : (s.delAcc k).colls = s.colls := rfl
@[simp] theorem delAcc_round (s : State) (k : Nat) : (s.delAcc k).round = s.round := rfl
@[simp] theorem delAcc_wstage (s : State) (k : Nat) : (s.delAcc k).wstage = s.wstage := rfl
@[simp] theorem delAcc_faults (s : State) (k : Nat) : (s.delAcc k).faults = s.faults := rfl
@[simp] theorem delAcc_waits (s : State) (k : Nat) : (s.delAcc k).waits = s.waits := rfl
@[simp] theorem delAcc_past (s : State) (k : Nat) : (s.delAcc k).past = s.past := rfl
@[simp] theorem delAcc_rels (s : State) (k : Nat) : (s.delAcc k).rels = s.rels := rfl
@[simp] theorem delAcc_late (s : State) (k : Nat) : (s.delAcc k).late = s.late := rfl

@[simp] theorem setLaunch_cyc (s : State) (l : Nat) (v : Launch) : (s.setLaunch l v).cyc = s.cyc := rfl
@[simp] theorem setLaunch_fresh (s : State) (l : Nat) (v : Launch) : (s.setLaunch l v).fresh = s.fresh := rfl
@[simp] theorem setLaunch_agenda (s : State) (l : Nat) (v : Launch) : (s.setLaunch l v).agenda = s.agenda := rfl
@[simp] theorem setLaunch_cur (s : State) (l : Nat) (v : Launch) : (s.setLaunch l v).cur = s.cur := rfl
@[simp] theorem setLaunch_nextId (s : State) (l : Nat) (v : Launch) : (s.setLaunch l v).nextId = s.nextId := rfl
@[simp] theorem setLaunch_threads (s : State) (l : Nat) (v : Launch) : (s.setLaunch l v).threads = s.threads := rfl
@[simp] theorem setLaunch_cores (s : State) (l : Nat) (v : Launch) : (s.setLaunch l v).cores = s.cores := rfl
@[simp] theorem setLaunch_clus (s : State) (l : Nat) (v : Launch) : (s.setLaunch l v).clus = s.clus := rfl
@[simp] theorem setLaunch_dies (s : State) (l : Nat) (v : Launch) : (s.setLaunch l v).dies = s.dies := rfl
@[simp] theorem setLaunch_hub (s : State) (l : Nat) (v : Launch) : (s.setLaunch l v).hub = s.hub := rfl
@[simp] theorem setLaunch_mem (s : State) (l : Nat) (v : Launch) : (s.setLaunch l v).mem = s.mem := rfl
@[simp] theorem setLaunch_gran (s : State) (l : Nat) (v : Launch) : (s.setLaunch l v).gran = s.gran := rfl
@[simp] theorem setLaunch_copies (s : State) (l : Nat) (v : Launch) : (s.setLaunch l v).copies = s.copies := rfl
@[simp] theorem setLaunch_dir (s : State) (l : Nat) (v : Launch) : (s.setLaunch l v).dir = s.dir := rfl
@[simp] theorem setLaunch_marks (s : State) (l : Nat) (v : Launch) : (s.setLaunch l v).marks = s.marks := rfl
@[simp] theorem setLaunch_acc (s : State) (l : Nat) (v : Launch) : (s.setLaunch l v).acc = s.acc := rfl
@[simp] theorem setLaunch_mesh (s : State) (l : Nat) (v : Launch) : (s.setLaunch l v).mesh = s.mesh := rfl
@[simp] theorem setLaunch_toks (s : State) (l : Nat) (v : Launch) : (s.setLaunch l v).toks = s.toks := rfl
@[simp] theorem setLaunch_accum (s : State) (l : Nat) (v : Launch) : (s.setLaunch l v).accum = s.accum := rfl
@[simp] theorem setLaunch_launches (s : State) (l : Nat) (v : Launch) : (s.setLaunch l v).launches = Tab.put s.launches l v := rfl
@[simp] theorem setLaunch_subs (s : State) (l : Nat) (v : Launch) : (s.setLaunch l v).subs = s.subs := rfl
@[simp] theorem setLaunch_groups (s : State) (l : Nat) (v : Launch) : (s.setLaunch l v).groups = s.groups := rfl
@[simp] theorem setLaunch_ctxs (s : State) (l : Nat) (v : Launch) : (s.setLaunch l v).ctxs = s.ctxs := rfl
@[simp] theorem setLaunch_queues (s : State) (l : Nat) (v : Launch) : (s.setLaunch l v).queues = s.queues := rfl
@[simp] theorem setLaunch_walks (s : State) (l : Nat) (v : Launch) : (s.setLaunch l v).walks = s.walks := rfl
@[simp] theorem setLaunch_frames (s : State) (l : Nat) (v : Launch) : (s.setLaunch l v).frames = s.frames := rfl
@[simp] theorem setLaunch_colls (s : State) (l : Nat) (v : Launch) : (s.setLaunch l v).colls = s.colls := rfl
@[simp] theorem setLaunch_round (s : State) (l : Nat) (v : Launch) : (s.setLaunch l v).round = s.round := rfl
@[simp] theorem setLaunch_wstage (s : State) (l : Nat) (v : Launch) : (s.setLaunch l v).wstage = s.wstage := rfl
@[simp] theorem setLaunch_faults (s : State) (l : Nat) (v : Launch) : (s.setLaunch l v).faults = s.faults := rfl
@[simp] theorem setLaunch_waits (s : State) (l : Nat) (v : Launch) : (s.setLaunch l v).waits = s.waits := rfl
@[simp] theorem setLaunch_past (s : State) (l : Nat) (v : Launch) : (s.setLaunch l v).past = s.past := rfl
@[simp] theorem setLaunch_rels (s : State) (l : Nat) (v : Launch) : (s.setLaunch l v).rels = s.rels := rfl
@[simp] theorem setLaunch_late (s : State) (l : Nat) (v : Launch) : (s.setLaunch l v).late = s.late := rfl

@[simp] theorem setHub_cyc (s : State) (h : Hub) : (s.setHub h).cyc = s.cyc := rfl
@[simp] theorem setHub_fresh (s : State) (h : Hub) : (s.setHub h).fresh = s.fresh := rfl
@[simp] theorem setHub_agenda (s : State) (h : Hub) : (s.setHub h).agenda = s.agenda := rfl
@[simp] theorem setHub_cur (s : State) (h : Hub) : (s.setHub h).cur = s.cur := rfl
@[simp] theorem setHub_nextId (s : State) (h : Hub) : (s.setHub h).nextId = s.nextId := rfl
@[simp] theorem setHub_threads (s : State) (h : Hub) : (s.setHub h).threads = s.threads := rfl
@[simp] theorem setHub_cores (s : State) (h : Hub) : (s.setHub h).cores = s.cores := rfl
@[simp] theorem setHub_clus (s : State) (h : Hub) : (s.setHub h).clus = s.clus := rfl
@[simp] theorem setHub_dies (s : State) (h : Hub) : (s.setHub h).dies = s.dies := rfl
@[simp] theorem setHub_hub (s : State) (h : Hub) : (s.setHub h).hub = h := rfl
@[simp] theorem setHub_mem (s : State) (h : Hub) : (s.setHub h).mem = s.mem := rfl
@[simp] theorem setHub_gran (s : State) (h : Hub) : (s.setHub h).gran = s.gran := rfl
@[simp] theorem setHub_copies (s : State) (h : Hub) : (s.setHub h).copies = s.copies := rfl
@[simp] theorem setHub_dir (s : State) (h : Hub) : (s.setHub h).dir = s.dir := rfl
@[simp] theorem setHub_marks (s : State) (h : Hub) : (s.setHub h).marks = s.marks := rfl
@[simp] theorem setHub_acc (s : State) (h : Hub) : (s.setHub h).acc = s.acc := rfl
@[simp] theorem setHub_mesh (s : State) (h : Hub) : (s.setHub h).mesh = s.mesh := rfl
@[simp] theorem setHub_toks (s : State) (h : Hub) : (s.setHub h).toks = s.toks := rfl
@[simp] theorem setHub_accum (s : State) (h : Hub) : (s.setHub h).accum = s.accum := rfl
@[simp] theorem setHub_launches (s : State) (h : Hub) : (s.setHub h).launches = s.launches := rfl
@[simp] theorem setHub_subs (s : State) (h : Hub) : (s.setHub h).subs = s.subs := rfl
@[simp] theorem setHub_groups (s : State) (h : Hub) : (s.setHub h).groups = s.groups := rfl
@[simp] theorem setHub_ctxs (s : State) (h : Hub) : (s.setHub h).ctxs = s.ctxs := rfl
@[simp] theorem setHub_queues (s : State) (h : Hub) : (s.setHub h).queues = s.queues := rfl
@[simp] theorem setHub_walks (s : State) (h : Hub) : (s.setHub h).walks = s.walks := rfl
@[simp] theorem setHub_frames (s : State) (h : Hub) : (s.setHub h).frames = s.frames := rfl
@[simp] theorem setHub_colls (s : State) (h : Hub) : (s.setHub h).colls = s.colls := rfl
@[simp] theorem setHub_round (s : State) (h : Hub) : (s.setHub h).round = s.round := rfl
@[simp] theorem setHub_wstage (s : State) (h : Hub) : (s.setHub h).wstage = s.wstage := rfl
@[simp] theorem setHub_faults (s : State) (h : Hub) : (s.setHub h).faults = s.faults := rfl
@[simp] theorem setHub_waits (s : State) (h : Hub) : (s.setHub h).waits = s.waits := rfl
@[simp] theorem setHub_past (s : State) (h : Hub) : (s.setHub h).past = s.past := rfl
@[simp] theorem setHub_rels (s : State) (h : Hub) : (s.setHub h).rels = s.rels := rfl
@[simp] theorem setHub_late (s : State) (h : Hub) : (s.setHub h).late = s.late := rfl

@[simp] theorem setGroup_cyc (s : State) (l g : Nat) (v : Group) : (s.setGroup l g v).cyc = s.cyc := rfl
@[simp] theorem setGroup_fresh (s : State) (l g : Nat) (v : Group) : (s.setGroup l g v).fresh = s.fresh := rfl
@[simp] theorem setGroup_agenda (s : State) (l g : Nat) (v : Group) : (s.setGroup l g v).agenda = s.agenda := rfl
@[simp] theorem setGroup_cur (s : State) (l g : Nat) (v : Group) : (s.setGroup l g v).cur = s.cur := rfl
@[simp] theorem setGroup_nextId (s : State) (l g : Nat) (v : Group) : (s.setGroup l g v).nextId = s.nextId := rfl
@[simp] theorem setGroup_threads (s : State) (l g : Nat) (v : Group) : (s.setGroup l g v).threads = s.threads := rfl
@[simp] theorem setGroup_cores (s : State) (l g : Nat) (v : Group) : (s.setGroup l g v).cores = s.cores := rfl
@[simp] theorem setGroup_clus (s : State) (l g : Nat) (v : Group) : (s.setGroup l g v).clus = s.clus := rfl
@[simp] theorem setGroup_dies (s : State) (l g : Nat) (v : Group) : (s.setGroup l g v).dies = s.dies := rfl
@[simp] theorem setGroup_hub (s : State) (l g : Nat) (v : Group) : (s.setGroup l g v).hub = s.hub := rfl
@[simp] theorem setGroup_mem (s : State) (l g : Nat) (v : Group) : (s.setGroup l g v).mem = s.mem := rfl
@[simp] theorem setGroup_gran (s : State) (l g : Nat) (v : Group) : (s.setGroup l g v).gran = s.gran := rfl
@[simp] theorem setGroup_copies (s : State) (l g : Nat) (v : Group) : (s.setGroup l g v).copies = s.copies := rfl
@[simp] theorem setGroup_dir (s : State) (l g : Nat) (v : Group) : (s.setGroup l g v).dir = s.dir := rfl
@[simp] theorem setGroup_marks (s : State) (l g : Nat) (v : Group) : (s.setGroup l g v).marks = s.marks := rfl
@[simp] theorem setGroup_acc (s : State) (l g : Nat) (v : Group) : (s.setGroup l g v).acc = s.acc := rfl
@[simp] theorem setGroup_mesh (s : State) (l g : Nat) (v : Group) : (s.setGroup l g v).mesh = s.mesh := rfl
@[simp] theorem setGroup_toks (s : State) (l g : Nat) (v : Group) : (s.setGroup l g v).toks = s.toks := rfl
@[simp] theorem setGroup_accum (s : State) (l g : Nat) (v : Group) : (s.setGroup l g v).accum = s.accum := rfl
@[simp] theorem setGroup_launches (s : State) (l g : Nat) (v : Group) : (s.setGroup l g v).launches = s.launches := rfl
@[simp] theorem setGroup_subs (s : State) (l g : Nat) (v : Group) : (s.setGroup l g v).subs = s.subs := rfl
@[simp] theorem setGroup_groups (s : State) (l g : Nat) (v : Group) : (s.setGroup l g v).groups = Tab.put s.groups (groupKey l g) v := rfl
@[simp] theorem setGroup_ctxs (s : State) (l g : Nat) (v : Group) : (s.setGroup l g v).ctxs = s.ctxs := rfl
@[simp] theorem setGroup_queues (s : State) (l g : Nat) (v : Group) : (s.setGroup l g v).queues = s.queues := rfl
@[simp] theorem setGroup_walks (s : State) (l g : Nat) (v : Group) : (s.setGroup l g v).walks = s.walks := rfl
@[simp] theorem setGroup_frames (s : State) (l g : Nat) (v : Group) : (s.setGroup l g v).frames = s.frames := rfl
@[simp] theorem setGroup_colls (s : State) (l g : Nat) (v : Group) : (s.setGroup l g v).colls = s.colls := rfl
@[simp] theorem setGroup_round (s : State) (l g : Nat) (v : Group) : (s.setGroup l g v).round = s.round := rfl
@[simp] theorem setGroup_wstage (s : State) (l g : Nat) (v : Group) : (s.setGroup l g v).wstage = s.wstage := rfl
@[simp] theorem setGroup_faults (s : State) (l g : Nat) (v : Group) : (s.setGroup l g v).faults = s.faults := rfl
@[simp] theorem setGroup_waits (s : State) (l g : Nat) (v : Group) : (s.setGroup l g v).waits = s.waits := rfl
@[simp] theorem setGroup_past (s : State) (l g : Nat) (v : Group) : (s.setGroup l g v).past = s.past := rfl
@[simp] theorem setGroup_rels (s : State) (l g : Nat) (v : Group) : (s.setGroup l g v).rels = s.rels := rfl
@[simp] theorem setGroup_late (s : State) (l g : Nat) (v : Group) : (s.setGroup l g v).late = s.late := rfl

@[simp] theorem setMe_cyc (s : State) (v : Thread) : (s.setMe v).cyc = s.cyc := rfl
@[simp] theorem setMe_fresh (s : State) (v : Thread) : (s.setMe v).fresh = s.fresh := rfl
@[simp] theorem setMe_agenda (s : State) (v : Thread) : (s.setMe v).agenda = s.agenda := rfl
@[simp] theorem setMe_cur (s : State) (v : Thread) : (s.setMe v).cur = s.cur := rfl
@[simp] theorem setMe_nextId (s : State) (v : Thread) : (s.setMe v).nextId = s.nextId := rfl
@[simp] theorem setMe_threads (s : State) (v : Thread) : (s.setMe v).threads = Tab.put s.threads s.cur v := rfl
@[simp] theorem setMe_cores (s : State) (v : Thread) : (s.setMe v).cores = s.cores := rfl
@[simp] theorem setMe_clus (s : State) (v : Thread) : (s.setMe v).clus = s.clus := rfl
@[simp] theorem setMe_dies (s : State) (v : Thread) : (s.setMe v).dies = s.dies := rfl
@[simp] theorem setMe_hub (s : State) (v : Thread) : (s.setMe v).hub = s.hub := rfl
@[simp] theorem setMe_mem (s : State) (v : Thread) : (s.setMe v).mem = s.mem := rfl
@[simp] theorem setMe_gran (s : State) (v : Thread) : (s.setMe v).gran = s.gran := rfl
@[simp] theorem setMe_copies (s : State) (v : Thread) : (s.setMe v).copies = s.copies := rfl
@[simp] theorem setMe_dir (s : State) (v : Thread) : (s.setMe v).dir = s.dir := rfl
@[simp] theorem setMe_marks (s : State) (v : Thread) : (s.setMe v).marks = s.marks := rfl
@[simp] theorem setMe_acc (s : State) (v : Thread) : (s.setMe v).acc = s.acc := rfl
@[simp] theorem setMe_mesh (s : State) (v : Thread) : (s.setMe v).mesh = s.mesh := rfl
@[simp] theorem setMe_toks (s : State) (v : Thread) : (s.setMe v).toks = s.toks := rfl
@[simp] theorem setMe_accum (s : State) (v : Thread) : (s.setMe v).accum = s.accum := rfl
@[simp] theorem setMe_launches (s : State) (v : Thread) : (s.setMe v).launches = s.launches := rfl
@[simp] theorem setMe_subs (s : State) (v : Thread) : (s.setMe v).subs = s.subs := rfl
@[simp] theorem setMe_groups (s : State) (v : Thread) : (s.setMe v).groups = s.groups := rfl
@[simp] theorem setMe_ctxs (s : State) (v : Thread) : (s.setMe v).ctxs = s.ctxs := rfl
@[simp] theorem setMe_queues (s : State) (v : Thread) : (s.setMe v).queues = s.queues := rfl
@[simp] theorem setMe_walks (s : State) (v : Thread) : (s.setMe v).walks = s.walks := rfl
@[simp] theorem setMe_frames (s : State) (v : Thread) : (s.setMe v).frames = s.frames := rfl
@[simp] theorem setMe_colls (s : State) (v : Thread) : (s.setMe v).colls = s.colls := rfl
@[simp] theorem setMe_round (s : State) (v : Thread) : (s.setMe v).round = s.round := rfl
@[simp] theorem setMe_wstage (s : State) (v : Thread) : (s.setMe v).wstage = s.wstage := rfl
@[simp] theorem setMe_faults (s : State) (v : Thread) : (s.setMe v).faults = s.faults := rfl
@[simp] theorem setMe_waits (s : State) (v : Thread) : (s.setMe v).waits = s.waits := rfl
@[simp] theorem setMe_past (s : State) (v : Thread) : (s.setMe v).past = s.past := rfl
@[simp] theorem setMe_rels (s : State) (v : Thread) : (s.setMe v).rels = s.rels := rfl
@[simp] theorem setMe_late (s : State) (v : Thread) : (s.setMe v).late = s.late := rfl

@[simp] theorem bump_cyc (s : State) : (s.bump).cyc = s.cyc := rfl
@[simp] theorem bump_fresh (s : State) : (s.bump).fresh = s.fresh := rfl
@[simp] theorem bump_agenda (s : State) : (s.bump).agenda = s.agenda := rfl
@[simp] theorem bump_cur (s : State) : (s.bump).cur = s.cur := rfl
@[simp] theorem bump_nextId (s : State) : (s.bump).nextId = s.nextId + 1 := rfl
@[simp] theorem bump_threads (s : State) : (s.bump).threads = s.threads := rfl
@[simp] theorem bump_cores (s : State) : (s.bump).cores = s.cores := rfl
@[simp] theorem bump_clus (s : State) : (s.bump).clus = s.clus := rfl
@[simp] theorem bump_dies (s : State) : (s.bump).dies = s.dies := rfl
@[simp] theorem bump_hub (s : State) : (s.bump).hub = s.hub := rfl
@[simp] theorem bump_mem (s : State) : (s.bump).mem = s.mem := rfl
@[simp] theorem bump_gran (s : State) : (s.bump).gran = s.gran := rfl
@[simp] theorem bump_copies (s : State) : (s.bump).copies = s.copies := rfl
@[simp] theorem bump_dir (s : State) : (s.bump).dir = s.dir := rfl
@[simp] theorem bump_marks (s : State) : (s.bump).marks = s.marks := rfl
@[simp] theorem bump_acc (s : State) : (s.bump).acc = s.acc := rfl
@[simp] theorem bump_mesh (s : State) : (s.bump).mesh = s.mesh := rfl
@[simp] theorem bump_toks (s : State) : (s.bump).toks = s.toks := rfl
@[simp] theorem bump_accum (s : State) : (s.bump).accum = s.accum := rfl
@[simp] theorem bump_launches (s : State) : (s.bump).launches = s.launches := rfl
@[simp] theorem bump_subs (s : State) : (s.bump).subs = s.subs := rfl
@[simp] theorem bump_groups (s : State) : (s.bump).groups = s.groups := rfl
@[simp] theorem bump_ctxs (s : State) : (s.bump).ctxs = s.ctxs := rfl
@[simp] theorem bump_queues (s : State) : (s.bump).queues = s.queues := rfl
@[simp] theorem bump_walks (s : State) : (s.bump).walks = s.walks := rfl
@[simp] theorem bump_frames (s : State) : (s.bump).frames = s.frames := rfl
@[simp] theorem bump_colls (s : State) : (s.bump).colls = s.colls := rfl
@[simp] theorem bump_round (s : State) : (s.bump).round = s.round := rfl
@[simp] theorem bump_wstage (s : State) : (s.bump).wstage = s.wstage := rfl
@[simp] theorem bump_faults (s : State) : (s.bump).faults = s.faults := rfl
@[simp] theorem bump_waits (s : State) : (s.bump).waits = s.waits := rfl
@[simp] theorem bump_past (s : State) : (s.bump).past = s.past := rfl
@[simp] theorem bump_rels (s : State) : (s.bump).rels = s.rels := rfl
@[simp] theorem bump_late (s : State) : (s.bump).late = s.late := rfl

@[simp] theorem draw_cyc (s : State) : (s.draw).cyc = s.cyc := rfl
@[simp] theorem draw_fresh (s : State) : (s.draw).fresh = s.fresh + 1 := rfl
@[simp] theorem draw_agenda (s : State) : (s.draw).agenda = s.agenda := rfl
@[simp] theorem draw_cur (s : State) : (s.draw).cur = s.cur := rfl
@[simp] theorem draw_nextId (s : State) : (s.draw).nextId = s.nextId := rfl
@[simp] theorem draw_threads (s : State) : (s.draw).threads = s.threads := rfl
@[simp] theorem draw_cores (s : State) : (s.draw).cores = s.cores := rfl
@[simp] theorem draw_clus (s : State) : (s.draw).clus = s.clus := rfl
@[simp] theorem draw_dies (s : State) : (s.draw).dies = s.dies := rfl
@[simp] theorem draw_hub (s : State) : (s.draw).hub = s.hub := rfl
@[simp] theorem draw_mem (s : State) : (s.draw).mem = s.mem := rfl
@[simp] theorem draw_gran (s : State) : (s.draw).gran = s.gran := rfl
@[simp] theorem draw_copies (s : State) : (s.draw).copies = s.copies := rfl
@[simp] theorem draw_dir (s : State) : (s.draw).dir = s.dir := rfl
@[simp] theorem draw_marks (s : State) : (s.draw).marks = s.marks := rfl
@[simp] theorem draw_acc (s : State) : (s.draw).acc = s.acc := rfl
@[simp] theorem draw_mesh (s : State) : (s.draw).mesh = s.mesh := rfl
@[simp] theorem draw_toks (s : State) : (s.draw).toks = s.toks := rfl
@[simp] theorem draw_accum (s : State) : (s.draw).accum = s.accum := rfl
@[simp] theorem draw_launches (s : State) : (s.draw).launches = s.launches := rfl
@[simp] theorem draw_subs (s : State) : (s.draw).subs = s.subs := rfl
@[simp] theorem draw_groups (s : State) : (s.draw).groups = s.groups := rfl
@[simp] theorem draw_ctxs (s : State) : (s.draw).ctxs = s.ctxs := rfl
@[simp] theorem draw_queues (s : State) : (s.draw).queues = s.queues := rfl
@[simp] theorem draw_walks (s : State) : (s.draw).walks = s.walks := rfl
@[simp] theorem draw_frames (s : State) : (s.draw).frames = s.frames := rfl
@[simp] theorem draw_colls (s : State) : (s.draw).colls = s.colls := rfl
@[simp] theorem draw_round (s : State) : (s.draw).round = s.round := rfl
@[simp] theorem draw_wstage (s : State) : (s.draw).wstage = s.wstage := rfl
@[simp] theorem draw_faults (s : State) : (s.draw).faults = s.faults := rfl
@[simp] theorem draw_waits (s : State) : (s.draw).waits = s.waits := rfl
@[simp] theorem draw_past (s : State) : (s.draw).past = s.past := rfl
@[simp] theorem draw_rels (s : State) : (s.draw).rels = s.rels := rfl
@[simp] theorem draw_late (s : State) : (s.draw).late = s.late := rfl

@[simp] theorem tick_cyc (s : State) : (s.tick).cyc = s.cyc + 1 + Config.stepCycles s.fresh := rfl
@[simp] theorem tick_fresh (s : State) : (s.tick).fresh = s.fresh + 1 := rfl
@[simp] theorem tick_agenda (s : State) : (s.tick).agenda = s.agenda := rfl
@[simp] theorem tick_cur (s : State) : (s.tick).cur = s.cur := rfl
@[simp] theorem tick_nextId (s : State) : (s.tick).nextId = s.nextId := rfl
@[simp] theorem tick_threads (s : State) : (s.tick).threads = s.threads := rfl
@[simp] theorem tick_cores (s : State) : (s.tick).cores = s.cores := rfl
@[simp] theorem tick_clus (s : State) : (s.tick).clus = s.clus := rfl
@[simp] theorem tick_dies (s : State) : (s.tick).dies = s.dies := rfl
@[simp] theorem tick_hub (s : State) : (s.tick).hub = s.hub := rfl
@[simp] theorem tick_mem (s : State) : (s.tick).mem = s.mem := rfl
@[simp] theorem tick_gran (s : State) : (s.tick).gran = s.gran := rfl
@[simp] theorem tick_copies (s : State) : (s.tick).copies = s.copies := rfl
@[simp] theorem tick_dir (s : State) : (s.tick).dir = s.dir := rfl
@[simp] theorem tick_marks (s : State) : (s.tick).marks = s.marks := rfl
@[simp] theorem tick_acc (s : State) : (s.tick).acc = s.acc := rfl
@[simp] theorem tick_mesh (s : State) : (s.tick).mesh = s.mesh := rfl
@[simp] theorem tick_toks (s : State) : (s.tick).toks = s.heldColls (1 + Config.stepCycles s.fresh) := rfl
@[simp] theorem tick_accum (s : State) : (s.tick).accum = s.accum := rfl
@[simp] theorem tick_launches (s : State) : (s.tick).launches = s.launches := rfl
@[simp] theorem tick_subs (s : State) : (s.tick).subs = s.subs := rfl
@[simp] theorem tick_groups (s : State) : (s.tick).groups = s.groups := rfl
@[simp] theorem tick_ctxs (s : State) : (s.tick).ctxs = s.ctxs := rfl
@[simp] theorem tick_queues (s : State) : (s.tick).queues = s.queues := rfl
@[simp] theorem tick_walks (s : State) : (s.tick).walks = s.walks := rfl
@[simp] theorem tick_frames (s : State) : (s.tick).frames = s.frames := rfl
@[simp] theorem tick_colls (s : State) : (s.tick).colls = s.colls := rfl
@[simp] theorem tick_round (s : State) : (s.tick).round = s.round := rfl
@[simp] theorem tick_wstage (s : State) : (s.tick).wstage = s.wstage := rfl
@[simp] theorem tick_faults (s : State) : (s.tick).faults = s.faults := rfl
@[simp] theorem tick_waits (s : State) : (s.tick).waits = s.waits := rfl
@[simp] theorem tick_past (s : State) : (s.tick).past = s.past := rfl
@[simp] theorem tick_rels (s : State) : (s.tick).rels = s.rels := rfl
@[simp] theorem tick_late (s : State) : (s.tick).late = s.late := rfl

@[simp] theorem Thread.fin_regs (t : Thread) (len : Nat) : (t.fin len).regs = t.regs := rfl
@[simp] theorem Thread.fin_ltStale (t : Thread) (len : Nat) : (t.fin len).ltStale = t.ltStale := rfl
@[simp] theorem Thread.fin_preds (t : Thread) (len : Nat) : (t.fin len).preds = t.preds := rfl
@[simp] theorem Thread.fin_x (t : Thread) (len : Nat) : (t.fin len).x = t.x := rfl
@[simp] theorem Thread.fin_fm (t : Thread) (len : Nat) : (t.fin len).fm = t.fm := rfl
@[simp] theorem Thread.fin_f (t : Thread) (len : Nat) : (t.fin len).f = t.f := rfl
@[simp] theorem Thread.fin_tagbase (t : Thread) (len : Nat) : (t.fin len).tagbase = t.tagbase := rfl
@[simp] theorem Thread.fin_lc (t : Thread) (len : Nat) : (t.fin len).lc = t.lc := rfl
@[simp] theorem Thread.fin_srs (t : Thread) (len : Nat) : (t.fin len).srs = t.srs := rfl
@[simp] theorem Thread.fin_pc (t : Thread) (len : Nat) : (t.fin len).pc = t.pc + wd len := rfl
@[simp] theorem Thread.fin_h0 (t : Thread) (len : Nat) : (t.fin len).h0 = t.h0 := rfl
@[simp] theorem Thread.fin_h1 (t : Thread) (len : Nat) : (t.fin len).h1 = t.h1 := rfl
@[simp] theorem Thread.fin_ts (t : Thread) (len : Nat) : (t.fin len).ts = t.ts := rfl
@[simp] theorem Thread.fin_seq (t : Thread) (len : Nat) : (t.fin len).seq = t.seq := rfl
@[simp] theorem Thread.fin_grp (t : Thread) (len : Nat) : (t.fin len).grp = t.grp := rfl
@[simp] theorem Thread.fin_cld (t : Thread) (len : Nat) : (t.fin len).cld = t.cld := rfl
@[simp] theorem Thread.fin_cst (t : Thread) (len : Nat) : (t.fin len).cst = t.cst := rfl
@[simp] theorem Thread.fin_ccp (t : Thread) (len : Nat) : (t.fin len).ccp = t.ccp := rfl
@[simp] theorem Thread.fin_ctl (t : Thread) (len : Nat) : (t.fin len).ctl = t.ctl := rfl
@[simp] theorem Thread.fin_pfx (t : Thread) (len : Nat) : (t.fin len).pfx = none := rfl
@[simp] theorem Thread.fin_pfxRun (t : Thread) (len : Nat) : (t.fin len).pfxRun = t.pfxRun := rfl
@[simp] theorem Thread.fin_state (t : Thread) (len : Nat) : (t.fin len).state = t.state := rfl
@[simp] theorem Thread.fin_prev (t : Thread) (len : Nat) : (t.fin len).prev = t.prev := rfl
@[simp] theorem Thread.fin_pend (t : Thread) (len : Nat) : (t.fin len).pend = t.pend := rfl
@[simp] theorem Thread.fin_pendAt (t : Thread) (len : Nat) : (t.fin len).pendAt = t.pendAt := rfl
@[simp] theorem Thread.fin_task (t : Thread) (len : Nat) : (t.fin len).task = t.task := rfl
@[simp] theorem Thread.fin_blk (t : Thread) (len : Nat) : (t.fin len).blk = t.blk := rfl
@[simp] theorem Thread.fin_wait (t : Thread) (len : Nat) : (t.fin len).wait = t.wait := rfl
@[simp] theorem Thread.fin_region (t : Thread) (len : Nat) : (t.fin len).region = t.region := rfl
@[simp] theorem Thread.fin_failed (t : Thread) (len : Nat) : (t.fin len).failed = t.failed := rfl
@[simp] theorem Thread.fin_nfailed (t : Thread) (len : Nat) : (t.fin len).nfailed = t.nfailed := rfl
@[simp] theorem Thread.fin_sends (t : Thread) (len : Nat) : (t.fin len).sends = t.sends := rfl
@[simp] theorem Thread.fin_dmg (t : Thread) (len : Nat) : (t.fin len).dmg = t.dmg := rfl
@[simp] theorem Thread.fin_injTile (t : Thread) (len : Nat) : (t.fin len).injTile = t.injTile := rfl
@[simp] theorem Thread.fin_nextItem (t : Thread) (len : Nat) : (t.fin len).nextItem = t.nextItem := rfl
@[simp] theorem Thread.fin_retired (t : Thread) (len : Nat) : (t.fin len).retired = satAt (2 ^ 64 - 1) (t.retired + 1) := rfl

@[simp] theorem Thread.goto_regs (t : Thread) (a : Word) : (t.goto a).regs = t.regs := rfl
@[simp] theorem Thread.goto_ltStale (t : Thread) (a : Word) : (t.goto a).ltStale = t.ltStale := rfl
@[simp] theorem Thread.goto_preds (t : Thread) (a : Word) : (t.goto a).preds = t.preds := rfl
@[simp] theorem Thread.goto_x (t : Thread) (a : Word) : (t.goto a).x = t.x := rfl
@[simp] theorem Thread.goto_fm (t : Thread) (a : Word) : (t.goto a).fm = t.fm := rfl
@[simp] theorem Thread.goto_f (t : Thread) (a : Word) : (t.goto a).f = t.f := rfl
@[simp] theorem Thread.goto_tagbase (t : Thread) (a : Word) : (t.goto a).tagbase = t.tagbase := rfl
@[simp] theorem Thread.goto_lc (t : Thread) (a : Word) : (t.goto a).lc = t.lc := rfl
@[simp] theorem Thread.goto_srs (t : Thread) (a : Word) : (t.goto a).srs = t.srs := rfl
@[simp] theorem Thread.goto_pc (t : Thread) (a : Word) : (t.goto a).pc = a := rfl
@[simp] theorem Thread.goto_h0 (t : Thread) (a : Word) : (t.goto a).h0 = t.h0 := rfl
@[simp] theorem Thread.goto_h1 (t : Thread) (a : Word) : (t.goto a).h1 = t.h1 := rfl
@[simp] theorem Thread.goto_ts (t : Thread) (a : Word) : (t.goto a).ts = t.ts := rfl
@[simp] theorem Thread.goto_seq (t : Thread) (a : Word) : (t.goto a).seq = t.seq := rfl
@[simp] theorem Thread.goto_grp (t : Thread) (a : Word) : (t.goto a).grp = t.grp := rfl
@[simp] theorem Thread.goto_cld (t : Thread) (a : Word) : (t.goto a).cld = t.cld := rfl
@[simp] theorem Thread.goto_cst (t : Thread) (a : Word) : (t.goto a).cst = t.cst := rfl
@[simp] theorem Thread.goto_ccp (t : Thread) (a : Word) : (t.goto a).ccp = t.ccp := rfl
@[simp] theorem Thread.goto_ctl (t : Thread) (a : Word) : (t.goto a).ctl = t.ctl := rfl
@[simp] theorem Thread.goto_pfx (t : Thread) (a : Word) : (t.goto a).pfx = none := rfl
@[simp] theorem Thread.goto_pfxRun (t : Thread) (a : Word) : (t.goto a).pfxRun = t.pfxRun := rfl
@[simp] theorem Thread.goto_state (t : Thread) (a : Word) : (t.goto a).state = t.state := rfl
@[simp] theorem Thread.goto_prev (t : Thread) (a : Word) : (t.goto a).prev = t.prev := rfl
@[simp] theorem Thread.goto_pend (t : Thread) (a : Word) : (t.goto a).pend = t.pend := rfl
@[simp] theorem Thread.goto_pendAt (t : Thread) (a : Word) : (t.goto a).pendAt = t.pendAt := rfl
@[simp] theorem Thread.goto_task (t : Thread) (a : Word) : (t.goto a).task = t.task := rfl
@[simp] theorem Thread.goto_blk (t : Thread) (a : Word) : (t.goto a).blk = t.blk := rfl
@[simp] theorem Thread.goto_wait (t : Thread) (a : Word) : (t.goto a).wait = t.wait := rfl
@[simp] theorem Thread.goto_region (t : Thread) (a : Word) : (t.goto a).region = t.region := rfl
@[simp] theorem Thread.goto_failed (t : Thread) (a : Word) : (t.goto a).failed = t.failed := rfl
@[simp] theorem Thread.goto_nfailed (t : Thread) (a : Word) : (t.goto a).nfailed = t.nfailed := rfl
@[simp] theorem Thread.goto_sends (t : Thread) (a : Word) : (t.goto a).sends = t.sends := rfl
@[simp] theorem Thread.goto_dmg (t : Thread) (a : Word) : (t.goto a).dmg = t.dmg := rfl
@[simp] theorem Thread.goto_injTile (t : Thread) (a : Word) : (t.goto a).injTile = t.injTile := rfl
@[simp] theorem Thread.goto_nextItem (t : Thread) (a : Word) : (t.goto a).nextItem = t.nextItem := rfl
@[simp] theorem Thread.goto_retired (t : Thread) (a : Word) : (t.goto a).retired = satAt (2 ^ 64 - 1) (t.retired + 1) := rfl

@[simp] theorem Thread.result_preds (t : Thread) (d : Spec) (v : Reg) : (t.result d v).preds = t.preds := by unfold Thread.result; split <;> rfl
@[simp] theorem Thread.result_x (t : Thread) (d : Spec) (v : Reg) : (t.result d v).x = t.x := by unfold Thread.result; split <;> rfl
@[simp] theorem Thread.result_fm (t : Thread) (d : Spec) (v : Reg) : (t.result d v).fm = t.fm := by unfold Thread.result; split <;> rfl
@[simp] theorem Thread.result_f (t : Thread) (d : Spec) (v : Reg) : (t.result d v).f = t.f := by unfold Thread.result; split <;> rfl
@[simp] theorem Thread.result_tagbase (t : Thread) (d : Spec) (v : Reg) : (t.result d v).tagbase = t.tagbase := by unfold Thread.result; split <;> rfl
@[simp] theorem Thread.result_lc (t : Thread) (d : Spec) (v : Reg) : (t.result d v).lc = t.lc := by unfold Thread.result; split <;> rfl
@[simp] theorem Thread.result_srs (t : Thread) (d : Spec) (v : Reg) : (t.result d v).srs = t.srs := by unfold Thread.result; split <;> rfl
@[simp] theorem Thread.result_pc (t : Thread) (d : Spec) (v : Reg) : (t.result d v).pc = t.pc := by unfold Thread.result; split <;> rfl
@[simp] theorem Thread.result_h0 (t : Thread) (d : Spec) (v : Reg) : (t.result d v).h0 = t.h0 := by unfold Thread.result; split <;> rfl
@[simp] theorem Thread.result_h1 (t : Thread) (d : Spec) (v : Reg) : (t.result d v).h1 = t.h1 := by unfold Thread.result; split <;> rfl
@[simp] theorem Thread.result_ts (t : Thread) (d : Spec) (v : Reg) : (t.result d v).ts = t.ts := by unfold Thread.result; split <;> rfl
@[simp] theorem Thread.result_seq (t : Thread) (d : Spec) (v : Reg) : (t.result d v).seq = t.seq := by unfold Thread.result; split <;> rfl
@[simp] theorem Thread.result_grp (t : Thread) (d : Spec) (v : Reg) : (t.result d v).grp = t.grp := by unfold Thread.result; split <;> rfl
@[simp] theorem Thread.result_cld (t : Thread) (d : Spec) (v : Reg) : (t.result d v).cld = t.cld := by unfold Thread.result; split <;> rfl
@[simp] theorem Thread.result_cst (t : Thread) (d : Spec) (v : Reg) : (t.result d v).cst = t.cst := by unfold Thread.result; split <;> rfl
@[simp] theorem Thread.result_ccp (t : Thread) (d : Spec) (v : Reg) : (t.result d v).ccp = t.ccp := by unfold Thread.result; split <;> rfl
@[simp] theorem Thread.result_ctl (t : Thread) (d : Spec) (v : Reg) : (t.result d v).ctl = t.ctl := by unfold Thread.result; split <;> rfl
@[simp] theorem Thread.result_pfx (t : Thread) (d : Spec) (v : Reg) : (t.result d v).pfx = t.pfx := by unfold Thread.result; split <;> rfl
@[simp] theorem Thread.result_pfxRun (t : Thread) (d : Spec) (v : Reg) : (t.result d v).pfxRun = t.pfxRun := by unfold Thread.result; split <;> rfl
@[simp] theorem Thread.result_state (t : Thread) (d : Spec) (v : Reg) : (t.result d v).state = t.state := by unfold Thread.result; split <;> rfl
@[simp] theorem Thread.result_prev (t : Thread) (d : Spec) (v : Reg) : (t.result d v).prev = t.prev := by unfold Thread.result; split <;> rfl
@[simp] theorem Thread.result_pend (t : Thread) (d : Spec) (v : Reg) : (t.result d v).pend = t.pend := by unfold Thread.result; split <;> rfl
@[simp] theorem Thread.result_pendAt (t : Thread) (d : Spec) (v : Reg) : (t.result d v).pendAt = t.pendAt := by unfold Thread.result; split <;> rfl
@[simp] theorem Thread.result_task (t : Thread) (d : Spec) (v : Reg) : (t.result d v).task = t.task := by unfold Thread.result; split <;> rfl
@[simp] theorem Thread.result_blk (t : Thread) (d : Spec) (v : Reg) : (t.result d v).blk = t.blk := by unfold Thread.result; split <;> rfl
@[simp] theorem Thread.result_wait (t : Thread) (d : Spec) (v : Reg) : (t.result d v).wait = t.wait := by unfold Thread.result; split <;> rfl
@[simp] theorem Thread.result_region (t : Thread) (d : Spec) (v : Reg) : (t.result d v).region = t.region := by unfold Thread.result; split <;> rfl
@[simp] theorem Thread.result_failed (t : Thread) (d : Spec) (v : Reg) : (t.result d v).failed = t.failed := by unfold Thread.result; split <;> rfl
@[simp] theorem Thread.result_nfailed (t : Thread) (d : Spec) (v : Reg) : (t.result d v).nfailed = t.nfailed := by unfold Thread.result; split <;> rfl
@[simp] theorem Thread.result_sends (t : Thread) (d : Spec) (v : Reg) : (t.result d v).sends = t.sends := by unfold Thread.result; split <;> rfl
@[simp] theorem Thread.result_injTile (t : Thread) (d : Spec) (v : Reg) : (t.result d v).injTile = t.injTile := by unfold Thread.result; split <;> rfl
@[simp] theorem Thread.result_nextItem (t : Thread) (d : Spec) (v : Reg) : (t.result d v).nextItem = t.nextItem := by unfold Thread.result; split <;> rfl
@[simp] theorem Thread.result_retired (t : Thread) (d : Spec) (v : Reg) : (t.result d v).retired = t.retired := by unfold Thread.result; split <;> rfl

@[simp] theorem Thread.setPred_regs (t : Thread) (p : PredNo) (b : Bool) : (t.setPred p b).regs = t.regs := by unfold Thread.setPred; split <;> rfl
@[simp] theorem Thread.setPred_ltStale (t : Thread) (p : PredNo) (b : Bool) : (t.setPred p b).ltStale = t.ltStale := by unfold Thread.setPred; split <;> rfl
@[simp] theorem Thread.setPred_x (t : Thread) (p : PredNo) (b : Bool) : (t.setPred p b).x = t.x := by unfold Thread.setPred; split <;> rfl
@[simp] theorem Thread.setPred_fm (t : Thread) (p : PredNo) (b : Bool) : (t.setPred p b).fm = t.fm := by unfold Thread.setPred; split <;> rfl
@[simp] theorem Thread.setPred_f (t : Thread) (p : PredNo) (b : Bool) : (t.setPred p b).f = t.f := by unfold Thread.setPred; split <;> rfl
@[simp] theorem Thread.setPred_tagbase (t : Thread) (p : PredNo) (b : Bool) : (t.setPred p b).tagbase = t.tagbase := by unfold Thread.setPred; split <;> rfl
@[simp] theorem Thread.setPred_lc (t : Thread) (p : PredNo) (b : Bool) : (t.setPred p b).lc = t.lc := by unfold Thread.setPred; split <;> rfl
@[simp] theorem Thread.setPred_srs (t : Thread) (p : PredNo) (b : Bool) : (t.setPred p b).srs = t.srs := by unfold Thread.setPred; split <;> rfl
@[simp] theorem Thread.setPred_pc (t : Thread) (p : PredNo) (b : Bool) : (t.setPred p b).pc = t.pc := by unfold Thread.setPred; split <;> rfl
@[simp] theorem Thread.setPred_h0 (t : Thread) (p : PredNo) (b : Bool) : (t.setPred p b).h0 = t.h0 := by unfold Thread.setPred; split <;> rfl
@[simp] theorem Thread.setPred_h1 (t : Thread) (p : PredNo) (b : Bool) : (t.setPred p b).h1 = t.h1 := by unfold Thread.setPred; split <;> rfl
@[simp] theorem Thread.setPred_ts (t : Thread) (p : PredNo) (b : Bool) : (t.setPred p b).ts = t.ts := by unfold Thread.setPred; split <;> rfl
@[simp] theorem Thread.setPred_seq (t : Thread) (p : PredNo) (b : Bool) : (t.setPred p b).seq = t.seq := by unfold Thread.setPred; split <;> rfl
@[simp] theorem Thread.setPred_grp (t : Thread) (p : PredNo) (b : Bool) : (t.setPred p b).grp = t.grp := by unfold Thread.setPred; split <;> rfl
@[simp] theorem Thread.setPred_cld (t : Thread) (p : PredNo) (b : Bool) : (t.setPred p b).cld = t.cld := by unfold Thread.setPred; split <;> rfl
@[simp] theorem Thread.setPred_cst (t : Thread) (p : PredNo) (b : Bool) : (t.setPred p b).cst = t.cst := by unfold Thread.setPred; split <;> rfl
@[simp] theorem Thread.setPred_ccp (t : Thread) (p : PredNo) (b : Bool) : (t.setPred p b).ccp = t.ccp := by unfold Thread.setPred; split <;> rfl
@[simp] theorem Thread.setPred_ctl (t : Thread) (p : PredNo) (b : Bool) : (t.setPred p b).ctl = t.ctl := by unfold Thread.setPred; split <;> rfl
@[simp] theorem Thread.setPred_pfx (t : Thread) (p : PredNo) (b : Bool) : (t.setPred p b).pfx = t.pfx := by unfold Thread.setPred; split <;> rfl
@[simp] theorem Thread.setPred_pfxRun (t : Thread) (p : PredNo) (b : Bool) : (t.setPred p b).pfxRun = t.pfxRun := by unfold Thread.setPred; split <;> rfl
@[simp] theorem Thread.setPred_state (t : Thread) (p : PredNo) (b : Bool) : (t.setPred p b).state = t.state := by unfold Thread.setPred; split <;> rfl
@[simp] theorem Thread.setPred_prev (t : Thread) (p : PredNo) (b : Bool) : (t.setPred p b).prev = t.prev := by unfold Thread.setPred; split <;> rfl
@[simp] theorem Thread.setPred_pend (t : Thread) (p : PredNo) (b : Bool) : (t.setPred p b).pend = t.pend := by unfold Thread.setPred; split <;> rfl
@[simp] theorem Thread.setPred_pendAt (t : Thread) (p : PredNo) (b : Bool) : (t.setPred p b).pendAt = t.pendAt := by unfold Thread.setPred; split <;> rfl
@[simp] theorem Thread.setPred_task (t : Thread) (p : PredNo) (b : Bool) : (t.setPred p b).task = t.task := by unfold Thread.setPred; split <;> rfl
@[simp] theorem Thread.setPred_blk (t : Thread) (p : PredNo) (b : Bool) : (t.setPred p b).blk = t.blk := by unfold Thread.setPred; split <;> rfl
@[simp] theorem Thread.setPred_wait (t : Thread) (p : PredNo) (b : Bool) : (t.setPred p b).wait = t.wait := by unfold Thread.setPred; split <;> rfl
@[simp] theorem Thread.setPred_region (t : Thread) (p : PredNo) (b : Bool) : (t.setPred p b).region = t.region := by unfold Thread.setPred; split <;> rfl
@[simp] theorem Thread.setPred_failed (t : Thread) (p : PredNo) (b : Bool) : (t.setPred p b).failed = t.failed := by unfold Thread.setPred; split <;> rfl
@[simp] theorem Thread.setPred_nfailed (t : Thread) (p : PredNo) (b : Bool) : (t.setPred p b).nfailed = t.nfailed := by unfold Thread.setPred; split <;> rfl
@[simp] theorem Thread.setPred_sends (t : Thread) (p : PredNo) (b : Bool) : (t.setPred p b).sends = t.sends := by unfold Thread.setPred; split <;> rfl
@[simp] theorem Thread.setPred_dmg (t : Thread) (p : PredNo) (b : Bool) : (t.setPred p b).dmg = t.dmg := by unfold Thread.setPred; split <;> rfl
@[simp] theorem Thread.setPred_injTile (t : Thread) (p : PredNo) (b : Bool) : (t.setPred p b).injTile = t.injTile := by unfold Thread.setPred; split <;> rfl
@[simp] theorem Thread.setPred_nextItem (t : Thread) (p : PredNo) (b : Bool) : (t.setPred p b).nextItem = t.nextItem := by unfold Thread.setPred; split <;> rfl
@[simp] theorem Thread.setPred_retired (t : Thread) (p : PredNo) (b : Bool) : (t.setPred p b).retired = t.retired := by unfold Thread.setPred; split <;> rfl

@[simp] theorem Thread.become_regs (t : Thread) (st : TState) : (t.become st).regs = t.regs := by unfold Thread.become; split <;> rfl
@[simp] theorem Thread.become_ltStale (t : Thread) (st : TState) : (t.become st).ltStale = t.ltStale := by unfold Thread.become; split <;> rfl
@[simp] theorem Thread.become_preds (t : Thread) (st : TState) : (t.become st).preds = t.preds := by unfold Thread.become; split <;> rfl
@[simp] theorem Thread.become_x (t : Thread) (st : TState) : (t.become st).x = t.x := by unfold Thread.become; split <;> rfl
@[simp] theorem Thread.become_fm (t : Thread) (st : TState) : (t.become st).fm = t.fm := by unfold Thread.become; split <;> rfl
@[simp] theorem Thread.become_f (t : Thread) (st : TState) : (t.become st).f = t.f := by unfold Thread.become; split <;> rfl
@[simp] theorem Thread.become_tagbase (t : Thread) (st : TState) : (t.become st).tagbase = t.tagbase := by unfold Thread.become; split <;> rfl
@[simp] theorem Thread.become_lc (t : Thread) (st : TState) : (t.become st).lc = t.lc := by unfold Thread.become; split <;> rfl
@[simp] theorem Thread.become_srs (t : Thread) (st : TState) : (t.become st).srs = t.srs := by unfold Thread.become; split <;> rfl
@[simp] theorem Thread.become_pc (t : Thread) (st : TState) : (t.become st).pc = t.pc := by unfold Thread.become; split <;> rfl
@[simp] theorem Thread.become_h0 (t : Thread) (st : TState) : (t.become st).h0 = t.h0 := by unfold Thread.become; split <;> rfl
@[simp] theorem Thread.become_h1 (t : Thread) (st : TState) : (t.become st).h1 = t.h1 := by unfold Thread.become; split <;> rfl
@[simp] theorem Thread.become_ts (t : Thread) (st : TState) : (t.become st).ts = t.ts := by unfold Thread.become; split <;> rfl
@[simp] theorem Thread.become_seq (t : Thread) (st : TState) : (t.become st).seq = t.seq := by unfold Thread.become; split <;> rfl
@[simp] theorem Thread.become_grp (t : Thread) (st : TState) : (t.become st).grp = t.grp := by unfold Thread.become; split <;> rfl
@[simp] theorem Thread.become_cld (t : Thread) (st : TState) : (t.become st).cld = t.cld := by unfold Thread.become; split <;> rfl
@[simp] theorem Thread.become_cst (t : Thread) (st : TState) : (t.become st).cst = t.cst := by unfold Thread.become; split <;> rfl
@[simp] theorem Thread.become_ccp (t : Thread) (st : TState) : (t.become st).ccp = t.ccp := by unfold Thread.become; split <;> rfl
@[simp] theorem Thread.become_ctl (t : Thread) (st : TState) : (t.become st).ctl = t.ctl := by unfold Thread.become; split <;> rfl
@[simp] theorem Thread.become_pfx (t : Thread) (st : TState) : (t.become st).pfx = t.pfx := by unfold Thread.become; split <;> rfl
@[simp] theorem Thread.become_pfxRun (t : Thread) (st : TState) : (t.become st).pfxRun = t.pfxRun := by unfold Thread.become; split <;> rfl
@[simp] theorem Thread.become_pend (t : Thread) (st : TState) : (t.become st).pend = t.pend := by unfold Thread.become; split <;> rfl
@[simp] theorem Thread.become_pendAt (t : Thread) (st : TState) : (t.become st).pendAt = t.pendAt := by unfold Thread.become; split <;> rfl
@[simp] theorem Thread.become_task (t : Thread) (st : TState) : (t.become st).task = t.task := by unfold Thread.become; split <;> rfl
@[simp] theorem Thread.become_blk (t : Thread) (st : TState) : (t.become st).blk = t.blk := by unfold Thread.become; split <;> rfl
@[simp] theorem Thread.become_wait (t : Thread) (st : TState) : (t.become st).wait = t.wait := by unfold Thread.become; split <;> rfl
@[simp] theorem Thread.become_region (t : Thread) (st : TState) : (t.become st).region = t.region := by unfold Thread.become; split <;> rfl
@[simp] theorem Thread.become_failed (t : Thread) (st : TState) : (t.become st).failed = t.failed := by unfold Thread.become; split <;> rfl
@[simp] theorem Thread.become_nfailed (t : Thread) (st : TState) : (t.become st).nfailed = t.nfailed := by unfold Thread.become; split <;> rfl
@[simp] theorem Thread.become_sends (t : Thread) (st : TState) : (t.become st).sends = t.sends := by unfold Thread.become; split <;> rfl
@[simp] theorem Thread.become_dmg (t : Thread) (st : TState) : (t.become st).dmg = t.dmg := by unfold Thread.become; split <;> rfl
@[simp] theorem Thread.become_injTile (t : Thread) (st : TState) : (t.become st).injTile = t.injTile := by unfold Thread.become; split <;> rfl
@[simp] theorem Thread.become_nextItem (t : Thread) (st : TState) : (t.become st).nextItem = t.nextItem := by unfold Thread.become; split <;> rfl
@[simp] theorem Thread.become_retired (t : Thread) (st : TState) : (t.become st).retired = t.retired := by unfold Thread.become; split <;> rfl

@[simp] theorem Thread.rewind_regs (t : Thread) : (t.rewind).regs = t.regs := by unfold Thread.rewind; split <;> simp_all
@[simp] theorem Thread.rewind_ltStale (t : Thread) : (t.rewind).ltStale = t.ltStale := by unfold Thread.rewind; split <;> simp_all
@[simp] theorem Thread.rewind_preds (t : Thread) : (t.rewind).preds = t.preds := by unfold Thread.rewind; split <;> simp_all
@[simp] theorem Thread.rewind_x (t : Thread) : (t.rewind).x = t.x := by unfold Thread.rewind; split <;> simp_all
@[simp] theorem Thread.rewind_fm (t : Thread) : (t.rewind).fm = t.fm := by unfold Thread.rewind; split <;> simp_all
@[simp] theorem Thread.rewind_f (t : Thread) : (t.rewind).f = t.f := by unfold Thread.rewind; split <;> simp_all
@[simp] theorem Thread.rewind_tagbase (t : Thread) : (t.rewind).tagbase = t.tagbase := by unfold Thread.rewind; split <;> simp_all
@[simp] theorem Thread.rewind_lc (t : Thread) : (t.rewind).lc = t.lc := by unfold Thread.rewind; split <;> simp_all
@[simp] theorem Thread.rewind_srs (t : Thread) : (t.rewind).srs = t.srs := by unfold Thread.rewind; split <;> simp_all
@[simp] theorem Thread.rewind_h0 (t : Thread) : (t.rewind).h0 = t.h0 := by unfold Thread.rewind; split <;> simp_all
@[simp] theorem Thread.rewind_h1 (t : Thread) : (t.rewind).h1 = t.h1 := by unfold Thread.rewind; split <;> simp_all
@[simp] theorem Thread.rewind_ts (t : Thread) : (t.rewind).ts = t.ts := by unfold Thread.rewind; split <;> simp_all
@[simp] theorem Thread.rewind_seq (t : Thread) : (t.rewind).seq = t.seq := by unfold Thread.rewind; split <;> simp_all
@[simp] theorem Thread.rewind_grp (t : Thread) : (t.rewind).grp = t.grp := by unfold Thread.rewind; split <;> simp_all
@[simp] theorem Thread.rewind_cld (t : Thread) : (t.rewind).cld = t.cld := by unfold Thread.rewind; split <;> simp_all
@[simp] theorem Thread.rewind_cst (t : Thread) : (t.rewind).cst = t.cst := by unfold Thread.rewind; split <;> simp_all
@[simp] theorem Thread.rewind_ccp (t : Thread) : (t.rewind).ccp = t.ccp := by unfold Thread.rewind; split <;> simp_all
@[simp] theorem Thread.rewind_ctl (t : Thread) : (t.rewind).ctl = t.ctl := by unfold Thread.rewind; split <;> simp_all
@[simp] theorem Thread.rewind_pfx (t : Thread) : (t.rewind).pfx = none := by unfold Thread.rewind; split <;> simp_all
@[simp] theorem Thread.rewind_pfxRun (t : Thread) : (t.rewind).pfxRun = t.pfxRun := by unfold Thread.rewind; split <;> simp_all
@[simp] theorem Thread.rewind_state (t : Thread) : (t.rewind).state = t.state := by unfold Thread.rewind; split <;> simp_all
@[simp] theorem Thread.rewind_prev (t : Thread) : (t.rewind).prev = t.prev := by unfold Thread.rewind; split <;> simp_all
@[simp] theorem Thread.rewind_pend (t : Thread) : (t.rewind).pend = t.pend := by unfold Thread.rewind; split <;> simp_all
@[simp] theorem Thread.rewind_pendAt (t : Thread) : (t.rewind).pendAt = t.pendAt := by unfold Thread.rewind; split <;> simp_all
@[simp] theorem Thread.rewind_task (t : Thread) : (t.rewind).task = t.task := by unfold Thread.rewind; split <;> simp_all
@[simp] theorem Thread.rewind_blk (t : Thread) : (t.rewind).blk = t.blk := by unfold Thread.rewind; split <;> simp_all
@[simp] theorem Thread.rewind_wait (t : Thread) : (t.rewind).wait = t.wait := by unfold Thread.rewind; split <;> simp_all
@[simp] theorem Thread.rewind_region (t : Thread) : (t.rewind).region = t.region := by unfold Thread.rewind; split <;> simp_all
@[simp] theorem Thread.rewind_failed (t : Thread) : (t.rewind).failed = t.failed := by unfold Thread.rewind; split <;> simp_all
@[simp] theorem Thread.rewind_nfailed (t : Thread) : (t.rewind).nfailed = t.nfailed := by unfold Thread.rewind; split <;> simp_all
@[simp] theorem Thread.rewind_sends (t : Thread) : (t.rewind).sends = t.sends := by unfold Thread.rewind; split <;> simp_all
@[simp] theorem Thread.rewind_dmg (t : Thread) : (t.rewind).dmg = t.dmg := by unfold Thread.rewind; split <;> simp_all
@[simp] theorem Thread.rewind_injTile (t : Thread) : (t.rewind).injTile = t.injTile := by unfold Thread.rewind; split <;> simp_all
@[simp] theorem Thread.rewind_nextItem (t : Thread) : (t.rewind).nextItem = t.nextItem := by unfold Thread.rewind; split <;> simp_all
@[simp] theorem Thread.rewind_retired (t : Thread) : (t.rewind).retired = t.retired := by unfold Thread.rewind; split <;> simp_all

end Sys2Proof.Machine
end

