-- ==== Sys2Proof/Laws/Tab.lean ====
section
/-! SUPPORT. Laws of the sparse tables: what is put is read back, other keys are left alone, the keys go on rising. -/

namespace Sys2Proof.Machine

theorem Tab.get?_put {α : Type} (t : Tab α) (k j : Nat) (v : α) :
    Tab.get? (Tab.put t k v) j = if j = k then some v else Tab.get? t j := by
  induction t with
  | nil =>
    by_cases h : j = k
    · simp [Tab.put, Tab.get?, h]
    · simp [Tab.put, Tab.get?, h, Ne.symm h]
  | cons e t ih =>
    obtain ⟨i, w⟩ := e
    simp only [Tab.put]
    by_cases h1 : i = k
    · subst h1
      by_cases h : j = i
      · simp [Tab.get?, h]
      · simp [Tab.get?, h, Ne.symm h]
    · by_cases h2 : k < i
      · rw [if_neg h1, if_pos h2]
        by_cases h : j = k
        · simp [Tab.get?, h]
        · simp [Tab.get?, h, Ne.symm h]
      · rw [if_neg h1, if_neg h2]
        by_cases h3 : i = j
        · subst h3
          simp [Tab.get?, h1]
        · simp [Tab.get?, h3, ih]

@[simp] theorem Tab.get?_put_self {α : Type} (t : Tab α) (k : Nat) (v : α) : Tab.get? (Tab.put t k v) k = some v := by
  rw [Tab.get?_put, if_pos rfl]

theorem Tab.get?_put_ne {α : Type} (t : Tab α) (k j : Nat) (v : α) (h : j ≠ k) :
    Tab.get? (Tab.put t k v) j = Tab.get? t j := by rw [Tab.get?_put, if_neg h]

@[simp] theorem Tab.getD_put_self {α : Type} (t : Tab α) (k : Nat) (v d : α) : Tab.getD (Tab.put t k v) k d = v := by
  simp [Tab.getD]

theorem Tab.getD_put_ne {α : Type} (t : Tab α) (k j : Nat) (v d : α) (h : j ≠ k) :
    Tab.getD (Tab.put t k v) j d = Tab.getD t j d := by simp [Tab.getD, Tab.get?_put_ne t k j v h]

@[simp] theorem Tab.put_put {α : Type} (t : Tab α) (k : Nat) (v w : α) :
    Tab.put (Tab.put t k v) k w = Tab.put t k w := by
  induction t with
  | nil => simp [Tab.put]
  | cons e t ih =>
    obtain ⟨i, x⟩ := e
    simp only [Tab.put]
    by_cases h1 : i = k
    · subst h1; simp [Tab.put]
    · by_cases h2 : k < i
      · simp [Tab.put, h1, h2]
      · simp [Tab.put, h1, h2, ih]

/-- Every key of a table is above `k`. -/
theorem Tab.wf_cons {α : Type} (i : Nat) (v : α) (t : Tab α) :
    Tab.wf ((i, v) :: t) = true ↔ (∀ e ∈ t.head?, i < e.1) ∧ Tab.wf t = true := by
  cases t with
  | nil => simp [Tab.wf]
  | cons e t => simp [Tab.wf]

theorem Tab.head_put {α : Type} (t : Tab α) (k i : Nat) (v : α) (h : ∀ e ∈ t.head?, i < e.1) (hk : i < k) :
    ∀ e ∈ (Tab.put t k v).head?, i < e.1 := by
  cases t with
  | nil => simp [Tab.put, hk]
  | cons e t =>
    obtain ⟨j, w⟩ := e
    simp only [Tab.put]
    have hj : i < j := by simpa using h
    split
    · simpa using hk
    · split
      · simpa using hk
      · simpa using hj

theorem Tab.wf_put {α : Type} (t : Tab α) (k : Nat) (v : α) (h : Tab.wf t = true) : Tab.wf (Tab.put t k v) = true := by
  induction t with
  | nil => simp [Tab.put, Tab.wf]
  | cons e t ih =>
    obtain ⟨i, w⟩ := e
    rw [Tab.wf_cons] at h
    simp only [Tab.put]
    split
    · rename_i hk; subst hk
      rw [Tab.wf_cons]; exact h
    · split
      · rename_i hk
        rw [Tab.wf_cons, Tab.wf_cons]
        exact ⟨by simpa using hk, h⟩
      · rw [Tab.wf_cons]
        exact ⟨Tab.head_put t k i v h.1 (by omega), ih h.2⟩

end Sys2Proof.Machine
end

