-- ==== Sys2Proof/Laws/Ops.lean ====
section
/-! SUPPORT. What the shared operations do, said once: reading and writing registers and predicates, completing an instruction,
branching. -/

namespace Sys2Proof.Machine

@[simp] theorem settle_ok (s t : State) : settle s (.ok t) = .next t := rfl
@[simp] theorem settle_flt (s : State) (f : Flt) : settle s (.error (.flt f)) = .next (s.takeFault f) := rfl
@[simp] theorem settle_wait (s : State) : settle s (.error .wait) = .next s.rewind := rfl
@[simp] theorem settle_hold (s t : State) : settle s (.error (.hold t)) = .next t := rfl
@[simp] theorem settle_kept (s t : State) (f : Flt) : settle s (.error (.kept t f)) = .next (t.takeFault f) := rfl
@[simp] theorem bind_ok {ε α β : Type} (a : α) (f : α → Except ε β) : ((Except.ok a : Except ε α) >>= f) = f a := rfl
@[simp] theorem bind_error {ε α β : Type} (e : ε) (f : α → Except ε β) : ((Except.error e : Except ε α) >>= f) = .error e := rfl
@[simp] theorem pure_ok {ε α : Type} (a : α) : (pure a : Except ε α) = .ok a := rfl

/-! ### The running context -/

@[simp] theorem thread_setThread (s : State) (p : Nat) (v : Thread) : (s.setThread p v).thread p = v := by
  simp [State.thread]

theorem thread_setThread_ne (s : State) (p q : Nat) (v : Thread) (h : q ≠ p) :
    (s.setThread p v).thread q = s.thread q := by
  simp [State.thread, Tab.getD_put_ne _ _ _ _ _ h]

@[simp] theorem me_setMe (s : State) (v : Thread) : (s.setMe v).me = v := by simp [State.me, State.setMe]

theorem thread_setMe_ne (s : State) (q : Nat) (v : Thread) (h : q ≠ s.cur) : (s.setMe v).thread q = s.thread q :=
  thread_setThread_ne s _ _ _ h

@[simp] theorem setMe_setMe (s : State) (v w : Thread) : (s.setMe v).setMe w = s.setMe w := by
  simp [State.setMe, State.setThread]

theorem thread_eq (s t : State) (p : Nat) (h : t.threads = s.threads) : t.thread p = s.thread p := by
  simp [State.thread, h]

theorem me_eq (s t : State) (h : t.threads = s.threads) (hc : t.cur = s.cur) : t.me = s.me := by
  simp [State.me, State.thread, h, hc]

theorem fin_me (s : State) (len : Nat) : (s.fin len).me = s.me.fin len := by simp [State.fin]

/-! ### Reading and writing registers -/

theorem regVal_zero (s : State) : s.regVal 1 = 0 := rfl

/-- A register that is ready answers its value. -/
theorem readReg_ok (s : State) (r : Spec) (h : s.canRead r) : s.readReg r = .ok (s.regVal r) := by
  unfold State.readReg State.regVal
  rcases h with h | ⟨h1, h2, h3⟩
  · simp [h]
  · by_cases h0 : r = 1
    · simp [h0]
    · simp [h0, h1, h2, h3]

theorem read64_ok (s : State) (r : Spec) (h : s.canRead r) : s.read64 r = .ok (s.val64 r) := by
  simp [State.read64, readReg_ok s r h, State.val64]

theorem latch_ok (s : State) (rs : List Spec) (h : ∀ r ∈ rs, s.canRead r) : s.latch rs = .ok () := by
  unfold State.latch
  split
  · rename_i hc
    rw [Bool.and_eq_true, List.contains_iff_mem] at hc
    rcases h 0 hc.1 with h | ⟨h, -⟩
    · exact absurd h (by decide)
    · exact absurd ⟨rfl, hc.2⟩ h
  · rfl

theorem read2_ok (s : State) (a b : Spec) (ha : s.canRead a) (hb : s.canRead b) :
    s.read2 a b = .ok (s.regVal a, s.regVal b) := by
  have : ∀ r ∈ [a, b], s.canRead r := by simp [ha, hb]
  simp [State.read2, latch_ok s _ this, readReg_ok s a ha, readReg_ok s b hb]

theorem read3_ok (s : State) (a b c : Spec) (ha : s.canRead a) (hb : s.canRead b) (hc : s.canRead c) :
    s.read3 a b c = .ok (s.regVal a, s.regVal b, s.regVal c) := by
  have : ∀ r ∈ [a, b, c], s.canRead r := by simp [ha, hb, hc]
  simp [State.read3, latch_ok s _ this, readReg_ok s a ha, readReg_ok s b hb, readReg_ok s c hc]

/-- The state after a result has been written, before the instruction completes. -/
def State.wrote (s : State) (d : Spec) (v : Reg) : State := if d = 1 then s else (s.setMe (s.me.result d v)).clearWlt

/-- The state after an instruction that writes a result has completed. -/
def State.done (s : State) (len : Nat) (d : Spec) (v : Reg) : State := (s.wrote d v).fin len

theorem writeReg_ok (s : State) (d : Spec) (v : Reg) (h : s.canWrite d) : s.writeReg d v = .ok (s.wrote d v) := by
  unfold State.writeReg State.wrote
  by_cases h1 : d = 1
  · simp [h1]
  · have h2 : s.busy d = false := h.resolve_left h1
    simp [h1, h2]

theorem put_ok (s : State) (len : Nat) (d : Spec) (v : Reg) (h : s.canWrite d) : s.put len d v = .ok (s.done len d v) := by
  simp [State.put, writeReg_ok s d v h, State.done]

theorem alu1_ok (s : State) (len : Nat) (d a : Spec) (f : Word → Word) (ha : s.canRead a) (hd : s.canWrite d) :
    s.alu1 len d a f = .ok (s.done len d (scalar (f (s.val64 a)))) := by
  simp [State.alu1, readReg_ok s a ha, put_ok s len d _ hd, State.val64]

theorem alu2_ok (s : State) (len : Nat) (d a b : Spec) (f : Word → Word → Word) (ha : s.canRead a) (hb : s.canRead b)
    (hd : s.canWrite d) : s.alu2 len d a b f = .ok (s.done len d (scalar (f (s.val64 a) (s.val64 b)))) := by
  simp [State.alu2, read2_ok s a b ha hb, put_ok s len d _ hd, State.val64]

theorem cmp2_ok (s : State) (len : Nat) (p : PredNo) (a b : Spec) (f : Word → Word → Bool) (ha : s.canRead a)
    (hb : s.canRead b) : s.cmp2 len p a b f = .ok (s.putPred len p (f (s.val64 a) (s.val64 b))) := by
  simp [State.cmp2, read2_ok s a b ha hb, State.val64]

/-! ### What a result leaves -/

theorem clearWlt_rest (s : State) : s.clearWlt = { s with acc := s.clearWlt.acc } := by
  unfold State.clearWlt; split <;> rfl

theorem clearWlt_threads (s : State) : s.clearWlt.threads = s.threads := by unfold State.clearWlt; split <;> rfl
theorem clearWlt_cur (s : State) : s.clearWlt.cur = s.cur := by unfold State.clearWlt; split <;> rfl

theorem clearWlt_core (s : State) :
    s.clearWlt.acc.map (fun e => (e.1, e.2.core)) = s.acc.map (fun e => (e.1, e.2.core)) := by
  unfold State.clearWlt
  split
  · rw [List.map_map]
    apply List.map_congr_left
    intro e _
    simp only [Function.comp]
    split <;> rfl
  · rfl

theorem wrote_me (s : State) (d : Spec) (v : Reg) : (s.wrote d v).me = s.me.result d v := by
  unfold State.wrote
  split
  · rename_i h; simp [Thread.result, h]
  · rw [me_eq _ _ (clearWlt_threads _) (clearWlt_cur _), me_setMe]

theorem wrote_cur (s : State) (d : Spec) (v : Reg) : (s.wrote d v).cur = s.cur := by
  unfold State.wrote; split
  · rfl
  · rw [clearWlt_cur]; rfl

theorem wrote_only (s : State) (d : Spec) (v : Reg) : s.OnlyMe (s.wrote d v) := by
  unfold State.wrote
  split
  · exact ⟨rfl, fun _ _ => rfl, rfl⟩
  · refine ⟨?_, fun p h => ?_, ?_⟩
    · rw [clearWlt_rest]; rfl
    · rw [thread_eq _ _ _ (clearWlt_threads _), thread_setMe_ne _ _ _ h]
    · rw [clearWlt_core]; rfl

theorem rest_setMe (s t : State) (h : t = { s with threads := t.threads, acc := t.acc }) (v : Thread) :
    t.setMe v = { s with threads := (t.setMe v).threads, acc := (t.setMe v).acc } := by
  generalize t.threads = a, t.acc = b at h
  subst h; rfl

/-- The state after a result, in full. -/
theorem done_wrote (s : State) (len : Nat) (d : Spec) (v : Reg) : s.Wrote (s.done len d v) len d v := by
  have hm : (s.done len d v).me = (s.me.result d v).fin len := by rw [State.done, fin_me, wrote_me]
  have ho := wrote_only s d v
  refine ⟨fun h => ?_, fun h => ?_, fun h => ?_, fun r h h0 => ?_, ?_, fun r h h0 => ?_, ?_⟩
  · rw [hm]; simp [Thread.result, h]
    by_cases h0 : d = 0
    · subst h0; simp
    · have : (0 : Nat) ≠ d.val := fun e => h0 (Fin.ext e.symm)
      simp [this]
  · rw [hm]; simp [Thread.result, h]
  · rw [hm]; simp [Thread.result, h]
  · rw [hm]; simp only [Thread.fin_regs, Thread.result]
    split
    · rfl
    · have h1 : (0 : Nat) ≠ r.val := fun e => h0 (Fin.ext e.symm)
      have h2 : d.val ≠ r.val := fun e => h (Fin.ext e.symm)
      simp [h1, h2]
  · rw [hm]
    simp only [Thread.fin, Thread.result]
    split <;> rfl
  · rw [hm]; simp only [Thread.damage, Thread.fin_dmg, Thread.result]
    split
    · rfl
    · congr 1
      rw [List.filter_filter]
      apply List.filter_congr
      intro e _
      have h1 : (0 : Nat) ≠ r.val := fun e => h0 (Fin.ext e.symm)
      have h2 : r.val ≠ d.val := fun e => h (Fin.ext e)
      by_cases he : e.1 = r.val
      · simp [he, h2, Ne.symm h1]
      · simp [he]
  · refine ⟨?_, fun p h => ?_, ?_⟩
    · exact rest_setMe s _ ho.rest _
    · rw [State.done, State.fin, thread_setMe_ne _ _ _ (by rw [wrote_cur]; exact h), ho.others p h]
    · exact ho.accs

/-- A predicate result, in full. -/
theorem putPred_wrote (s : State) (len : Nat) (p : PredNo) (b : Bool) : s.WrotePred (s.putPred len p b) len p b 0 := by
  have hm : (s.putPred len p b).me = (s.me.setPred p b).fin len := by rw [State.putPred, fin_me, me_setMe]
  refine ⟨fun h => ?_, fun q h => ?_, ?_, ?_, fun q h => ?_⟩
  · rw [hm]
    have h7 : p.val < 8 := p.isLt
    simp only [Thread.pred, if_neg h, Thread.fin_preds, Thread.setPred]
    cases b <;> simp [h7]
  · rw [hm]
    simp only [Thread.pred, Thread.fin_preds, Thread.setPred]
    split
    · rfl
    · split
      · rfl
      · have h7 : q.val < 8 := q.isLt
        have hv : p.val ≠ q.val := fun e => h (Fin.ext e.symm)
        cases b
        · simp only [Bool.false_eq_true, if_false, BitVec.getLsbD_and, BitVec.getLsbD_not, BitVec.getLsbD_shiftLeft]
          simp [h7]; omega
        · simp only [if_true, BitVec.getLsbD_or, BitVec.getLsbD_shiftLeft]
          simp [h7]; omega
  · rw [hm]
    simp only [Thread.fin, Thread.setPred]
    split <;> simp
  · simp [State.putPred, State.fin, State.setMe, State.setThread]
  · rw [State.putPred, State.fin, thread_setMe_ne _ _ _ (by simpa using h), thread_setMe_ne _ _ _ h]

/-! ### Going on -/

theorem fin_went (s : State) (len : Nat) : s.WentTo (s.fin len) (s.me.pc + wd len) := by
  refine ⟨?_, ?_, fun p h => ?_⟩
  · rw [fin_me]; rfl
  · simp [State.fin, State.setMe, State.setThread]
  · rw [State.fin, thread_setMe_ne _ _ _ h]

/-- A taken branch while no trace is kept. -/
theorem jump_went (s : State) (a : Word) (h : (s.core (coreOf s.cur)).trcEn = false) : s.WentTo (s.jump a) a := by
  have hj : s.jump a = s.setMe (s.me.goto a) := by
    have hk : (s.setMe (s.me.goto a)).core (coreOf s.cur) = s.core (coreOf s.cur) := rfl
    simp [State.jump, State.trace, hk, h]
  refine ⟨?_, ?_, fun p h => ?_⟩
  · rw [hj, me_setMe]; rfl
  · rw [hj]; simp [State.setMe, State.setThread]
  · rw [hj, thread_setMe_ne _ _ _ h]

end Sys2Proof.Machine
end

