-- ==== Sys2Proof/Laws/PerInstr.lean ====
section
/-! SUPPORT. Statements made for every instruction, one lemma per constructor. Family F: the word of an instruction has the length
that its two lowest bits give (R26): 32 bits with 11 there, 16 bits with anything else. -/

namespace Sys2Proof.Laws.F

/-- A word of `i` has the length that R26 reads from its first halfword; a step with no encoding has no word. -/
def Statement (i : Instr) : Prop :=
  ∀ n w, i.encode = some (n, w) → (n = 32 ∧ w % 4 = 3) ∨ (n = 16 ∧ w % 4 ≠ 3)

theorem add (d a b : Spec) : Statement (.add d a b) := by rintro _ _ ⟨⟩; left; omega
theorem sub (d a b : Spec) : Statement (.sub d a b) := by rintro _ _ ⟨⟩; left; omega
theorem mul (d a b : Spec) : Statement (.mul d a b) := by rintro _ _ ⟨⟩; left; omega
theorem mulh (d a b : Spec) : Statement (.mulh d a b) := by rintro _ _ ⟨⟩; left; omega
theorem mulhu (d a b : Spec) : Statement (.mulhu d a b) := by rintro _ _ ⟨⟩; left; omega
theorem div (d a b : Spec) : Statement (.div d a b) := by rintro _ _ ⟨⟩; left; omega
theorem divu (d a b : Spec) : Statement (.divu d a b) := by rintro _ _ ⟨⟩; left; omega
theorem rem (d a b : Spec) : Statement (.rem d a b) := by rintro _ _ ⟨⟩; left; omega
theorem remu (d a b : Spec) : Statement (.remu d a b) := by rintro _ _ ⟨⟩; left; omega
theorem and (d a b : Spec) : Statement (.and d a b) := by rintro _ _ ⟨⟩; left; omega
theorem or (d a b : Spec) : Statement (.or d a b) := by rintro _ _ ⟨⟩; left; omega
theorem xor (d a b : Spec) : Statement (.xor d a b) := by rintro _ _ ⟨⟩; left; omega
theorem andn (d a b : Spec) : Statement (.andn d a b) := by rintro _ _ ⟨⟩; left; omega
theorem shl (d a b : Spec) : Statement (.shl d a b) := by rintro _ _ ⟨⟩; left; omega
theorem shr (d a b : Spec) : Statement (.shr d a b) := by rintro _ _ ⟨⟩; left; omega
theorem sar (d a b : Spec) : Statement (.sar d a b) := by rintro _ _ ⟨⟩; left; omega
theorem shli (d a : Spec) (s : BitVec 6) : Statement (.shli d a s) := by rintro _ _ ⟨⟩; left; omega
theorem shri (d a : Spec) (s : BitVec 6) : Statement (.shri d a s) := by rintro _ _ ⟨⟩; left; omega
theorem sari (d a : Spec) (s : BitVec 6) : Statement (.sari d a s) := by rintro _ _ ⟨⟩; left; omega
theorem min (d a b : Spec) : Statement (.min d a b) := by rintro _ _ ⟨⟩; left; omega
theorem max (d a b : Spec) : Statement (.max d a b) := by rintro _ _ ⟨⟩; left; omega
theorem minu (d a b : Spec) : Statement (.minu d a b) := by rintro _ _ ⟨⟩; left; omega
theorem maxu (d a b : Spec) : Statement (.maxu d a b) := by rintro _ _ ⟨⟩; left; omega
theorem clz (d a : Spec) : Statement (.clz d a) := by rintro _ _ ⟨⟩; left; omega
theorem ctz (d a : Spec) : Statement (.ctz d a) := by rintro _ _ ⟨⟩; left; omega
theorem popc (d a : Spec) : Statement (.popc d a) := by rintro _ _ ⟨⟩; left; omega
theorem leaS2 (d a b : Spec) : Statement (.leaS2 d a b) := by rintro _ _ ⟨⟩; left; omega
theorem leaS4 (d a b : Spec) : Statement (.leaS4 d a b) := by rintro _ _ ⟨⟩; left; omega
theorem leaS8 (d a b : Spec) : Statement (.leaS8 d a b) := by rintro _ _ ⟨⟩; left; omega
theorem leaS16 (d a b : Spec) : Statement (.leaS16 d a b) := by rintro _ _ ⟨⟩; left; omega
theorem sext (d a : Spec) (k : BitVec 6) : Statement (.sext d a k) := by rintro _ _ ⟨⟩; left; omega
theorem zext (d a : Spec) (k : BitVec 6) : Statement (.zext d a k) := by rintro _ _ ⟨⟩; left; omega
theorem addI32 (d a b : Spec) : Statement (.addI32 d a b) := by rintro _ _ ⟨⟩; left; omega
theorem subI32 (d a b : Spec) : Statement (.subI32 d a b) := by rintro _ _ ⟨⟩; left; omega
theorem mulI32 (d a b : Spec) : Statement (.mulI32 d a b) := by rintro _ _ ⟨⟩; left; omega
theorem mulhI32 (d a b : Spec) : Statement (.mulhI32 d a b) := by rintro _ _ ⟨⟩; left; omega
theorem mulhuI32 (d a b : Spec) : Statement (.mulhuI32 d a b) := by rintro _ _ ⟨⟩; left; omega
theorem divI32 (d a b : Spec) : Statement (.divI32 d a b) := by rintro _ _ ⟨⟩; left; omega
theorem divuI32 (d a b : Spec) : Statement (.divuI32 d a b) := by rintro _ _ ⟨⟩; left; omega
theorem remI32 (d a b : Spec) : Statement (.remI32 d a b) := by rintro _ _ ⟨⟩; left; omega
theorem remuI32 (d a b : Spec) : Statement (.remuI32 d a b) := by rintro _ _ ⟨⟩; left; omega
theorem andI32 (d a b : Spec) : Statement (.andI32 d a b) := by rintro _ _ ⟨⟩; left; omega
theorem orI32 (d a b : Spec) : Statement (.orI32 d a b) := by rintro _ _ ⟨⟩; left; omega
theorem xorI32 (d a b : Spec) : Statement (.xorI32 d a b) := by rintro _ _ ⟨⟩; left; omega
theorem andnI32 (d a b : Spec) : Statement (.andnI32 d a b) := by rintro _ _ ⟨⟩; left; omega
theorem shlI32 (d a b : Spec) : Statement (.shlI32 d a b) := by rintro _ _ ⟨⟩; left; omega
theorem shrI32 (d a b : Spec) : Statement (.shrI32 d a b) := by rintro _ _ ⟨⟩; left; omega
theorem sarI32 (d a b : Spec) : Statement (.sarI32 d a b) := by rintro _ _ ⟨⟩; left; omega
theorem shliI32 (d a : Spec) (s : BitVec 5) : Statement (.shliI32 d a s) := by rintro _ _ ⟨⟩; left; omega
theorem shriI32 (d a : Spec) (s : BitVec 5) : Statement (.shriI32 d a s) := by rintro _ _ ⟨⟩; left; omega
theorem sariI32 (d a : Spec) (s : BitVec 5) : Statement (.sariI32 d a s) := by rintro _ _ ⟨⟩; left; omega
theorem minI32 (d a b : Spec) : Statement (.minI32 d a b) := by rintro _ _ ⟨⟩; left; omega
theorem maxI32 (d a b : Spec) : Statement (.maxI32 d a b) := by rintro _ _ ⟨⟩; left; omega
theorem minuI32 (d a b : Spec) : Statement (.minuI32 d a b) := by rintro _ _ ⟨⟩; left; omega
theorem maxuI32 (d a b : Spec) : Statement (.maxuI32 d a b) := by rintro _ _ ⟨⟩; left; omega
theorem addi (d a : Spec) (i : BitVec 13) : Statement (.addi d a i) := by rintro _ _ ⟨⟩; left; omega
theorem lui (d : Spec) (i : BitVec 19) : Statement (.lui d i) := by rintro _ _ ⟨⟩; left; omega
theorem cmpEq (p : PredNo) (a b : Spec) : Statement (.cmpEq p a b) := by rintro _ _ ⟨⟩; left; omega
theorem cmpNe (p : PredNo) (a b : Spec) : Statement (.cmpNe p a b) := by rintro _ _ ⟨⟩; left; omega
theorem cmpLt (p : PredNo) (a b : Spec) : Statement (.cmpLt p a b) := by rintro _ _ ⟨⟩; left; omega
theorem cmpLe (p : PredNo) (a b : Spec) : Statement (.cmpLe p a b) := by rintro _ _ ⟨⟩; left; omega
theorem cmpLtu (p : PredNo) (a b : Spec) : Statement (.cmpLtu p a b) := by rintro _ _ ⟨⟩; left; omega
theorem cmpLeu (p : PredNo) (a b : Spec) : Statement (.cmpLeu p a b) := by rintro _ _ ⟨⟩; left; omega
theorem fcmpEq (p : PredNo) (a b : Spec) : Statement (.fcmpEq p a b) := by rintro _ _ ⟨⟩; left; omega
theorem fcmpLt (p : PredNo) (a b : Spec) : Statement (.fcmpLt p a b) := by rintro _ _ ⟨⟩; left; omega
theorem fcmpLe (p : PredNo) (a b : Spec) : Statement (.fcmpLe p a b) := by rintro _ _ ⟨⟩; left; omega
theorem fcmpUn (p : PredNo) (a b : Spec) : Statement (.fcmpUn p a b) := by rintro _ _ ⟨⟩; left; omega
theorem pand (p s q : PredNo) : Statement (.pand p s q) := by rintro _ _ ⟨⟩; left; omega
theorem por (p s q : PredNo) : Statement (.por p s q) := by rintro _ _ ⟨⟩; left; omega
theorem pxor (p s q : PredNo) : Statement (.pxor p s q) := by rintro _ _ ⟨⟩; left; omega
theorem pnot (p s : PredNo) : Statement (.pnot p s) := by rintro _ _ ⟨⟩; left; omega
theorem pmov (p s : PredNo) : Statement (.pmov p s) := by rintro _ _ ⟨⟩; left; omega
theorem pset (p : PredNo) (k : Bool) : Statement (.pset p k) := by rintro _ _ ⟨⟩; left; omega
theorem cmpEqI32 (p : PredNo) (a b : Spec) : Statement (.cmpEqI32 p a b) := by rintro _ _ ⟨⟩; left; omega
theorem cmpNeI32 (p : PredNo) (a b : Spec) : Statement (.cmpNeI32 p a b) := by rintro _ _ ⟨⟩; left; omega
theorem cmpLtI32 (p : PredNo) (a b : Spec) : Statement (.cmpLtI32 p a b) := by rintro _ _ ⟨⟩; left; omega
theorem cmpLeI32 (p : PredNo) (a b : Spec) : Statement (.cmpLeI32 p a b) := by rintro _ _ ⟨⟩; left; omega
theorem cmpLtuI32 (p : PredNo) (a b : Spec) : Statement (.cmpLtuI32 p a b) := by rintro _ _ ⟨⟩; left; omega
theorem cmpLeuI32 (p : PredNo) (a b : Spec) : Statement (.cmpLeuI32 p a b) := by rintro _ _ ⟨⟩; left; omega
theorem fcmpEqF64 (p : PredNo) (a b : Spec) : Statement (.fcmpEqF64 p a b) := by rintro _ _ ⟨⟩; left; omega
theorem fcmpLtF64 (p : PredNo) (a b : Spec) : Statement (.fcmpLtF64 p a b) := by rintro _ _ ⟨⟩; left; omega
theorem fcmpLeF64 (p : PredNo) (a b : Spec) : Statement (.fcmpLeF64 p a b) := by rintro _ _ ⟨⟩; left; omega
theorem fcmpUnF64 (p : PredNo) (a b : Spec) : Statement (.fcmpUnF64 p a b) := by rintro _ _ ⟨⟩; left; omega
theorem br (p : PredNo) (o : BitVec 19) : Statement (.br p o) := by rintro _ _ ⟨⟩; left; omega
theorem brNot (p : PredNo) (o : BitVec 19) : Statement (.brNot p o) := by rintro _ _ ⟨⟩; left; omega
theorem lpe (p : PredNo) (n : Bool) (o : BitVec 19) : Statement (.lpe p n o) := by rintro _ _ ⟨⟩; left; omega
theorem call (d a : Spec) (i : BitVec 13) : Statement (.call d a i) := by rintro _ _ ⟨⟩; left; omega
theorem ldN8 (t b : Spec) (o : BitVec 10) : Statement (.ldN8 t b o) := by rintro _ _ ⟨⟩; left; omega
theorem ldN16 (t b : Spec) (o : BitVec 10) : Statement (.ldN16 t b o) := by rintro _ _ ⟨⟩; left; omega
theorem ldN32 (t b : Spec) (o : BitVec 10) : Statement (.ldN32 t b o) := by rintro _ _ ⟨⟩; left; omega
theorem ld64 (t b : Spec) (o : BitVec 10) : Statement (.ld64 t b o) := by rintro _ _ ⟨⟩; left; omega
theorem ldI8 (t b : Spec) (o : BitVec 10) : Statement (.ldI8 t b o) := by rintro _ _ ⟨⟩; left; omega
theorem ldI16 (t b : Spec) (o : BitVec 10) : Statement (.ldI16 t b o) := by rintro _ _ ⟨⟩; left; omega
theorem ldI32 (t b : Spec) (o : BitVec 10) : Statement (.ldI32 t b o) := by rintro _ _ ⟨⟩; left; omega
theorem ldV (t b : Spec) (o : BitVec 10) : Statement (.ldV t b o) := by rintro _ _ ⟨⟩; left; omega
theorem st8 (t b : Spec) (o : BitVec 10) : Statement (.st8 t b o) := by rintro _ _ ⟨⟩; left; omega
theorem st16 (t b : Spec) (o : BitVec 10) : Statement (.st16 t b o) := by rintro _ _ ⟨⟩; left; omega
theorem st32 (t b : Spec) (o : BitVec 10) : Statement (.st32 t b o) := by rintro _ _ ⟨⟩; left; omega
theorem st64 (t b : Spec) (o : BitVec 10) : Statement (.st64 t b o) := by rintro _ _ ⟨⟩; left; omega
theorem stV (t b : Spec) (o : BitVec 10) : Statement (.stV t b o) := by rintro _ _ ⟨⟩; left; omega
theorem amoSwap (t b : Spec) (o : MOrd) (c : Scope) (z : Bool) : Statement (.amoSwap t b o c z) := by rintro _ _ ⟨⟩; left; omega
theorem amoAdd (t b : Spec) (o : MOrd) (c : Scope) (z : Bool) : Statement (.amoAdd t b o c z) := by rintro _ _ ⟨⟩; left; omega
theorem amoAnd (t b : Spec) (o : MOrd) (c : Scope) (z : Bool) : Statement (.amoAnd t b o c z) := by rintro _ _ ⟨⟩; left; omega
theorem amoOr (t b : Spec) (o : MOrd) (c : Scope) (z : Bool) : Statement (.amoOr t b o c z) := by rintro _ _ ⟨⟩; left; omega
theorem amoXor (t b : Spec) (o : MOrd) (c : Scope) (z : Bool) : Statement (.amoXor t b o c z) := by rintro _ _ ⟨⟩; left; omega
theorem amoMin (t b : Spec) (o : MOrd) (c : Scope) (z : Bool) : Statement (.amoMin t b o c z) := by rintro _ _ ⟨⟩; left; omega
theorem amoMax (t b : Spec) (o : MOrd) (c : Scope) (z : Bool) : Statement (.amoMax t b o c z) := by rintro _ _ ⟨⟩; left; omega
theorem amoMinu (t b : Spec) (o : MOrd) (c : Scope) (z : Bool) : Statement (.amoMinu t b o c z) := by rintro _ _ ⟨⟩; left; omega
theorem amoMaxu (t b : Spec) (o : MOrd) (c : Scope) (z : Bool) : Statement (.amoMaxu t b o c z) := by rintro _ _ ⟨⟩; left; omega
theorem amoFadd (t b : Spec) (o : MOrd) (c : Scope) (z : Bool) : Statement (.amoFadd t b o c z) := by rintro _ _ ⟨⟩; left; omega
theorem cas (t b : Spec) (o : MOrd) (c : Scope) (z : Bool) : Statement (.cas t b o c z) := by rintro _ _ ⟨⟩; left; omega
theorem fence (s : Scope) (o : MOrd) : Statement (.fence s o) := by rintro _ _ ⟨⟩; left; omega
theorem cwb (s : Scope) (a b : Spec) : Statement (.cwb s a b) := by rintro _ _ ⟨⟩; left; omega
theorem cinv (s : Scope) (a b : Spec) : Statement (.cinv s a b) := by rintro _ _ ⟨⟩; left; omega
theorem pf (a : Spec) (h : BitVec 3) : Statement (.pf a h) := by rintro _ _ ⟨⟩; left; omega
theorem lds (d a : Spec) (i : BitVec 6) : Statement (.lds d a i) := by rintro _ _ ⟨⟩; left; omega
theorem sts (t a : Spec) (i : BitVec 6) : Statement (.sts t a i) := by rintro _ _ ⟨⟩; left; omega
theorem wait (d s c l : BitVec 4) : Statement (.wait d s c l) := by rintro _ _ ⟨⟩; left; omega
theorem vaddF (t : FTy) (d a b : Spec) : Statement (.vaddF t d a b) := by rintro _ _ ⟨⟩; left; omega
theorem vsubF (t : FTy) (d a b : Spec) : Statement (.vsubF t d a b) := by rintro _ _ ⟨⟩; left; omega
theorem vmulF (t : FTy) (d a b : Spec) : Statement (.vmulF t d a b) := by rintro _ _ ⟨⟩; left; omega
theorem vdivF (t : FTy) (d a b : Spec) : Statement (.vdivF t d a b) := by rintro _ _ ⟨⟩; left; omega
theorem vminF (t : FTy) (d a b : Spec) : Statement (.vminF t d a b) := by rintro _ _ ⟨⟩; left; omega
theorem vmaxF (t : FTy) (d a b : Spec) : Statement (.vmaxF t d a b) := by rintro _ _ ⟨⟩; left; omega
theorem vabsF (t : FTy) (d a : Spec) : Statement (.vabsF t d a) := by rintro _ _ ⟨⟩; left; omega
theorem vnegF (t : FTy) (d a : Spec) : Statement (.vnegF t d a) := by rintro _ _ ⟨⟩; left; omega
theorem vceqF (t : FTy) (d a b : Spec) : Statement (.vceqF t d a b) := by rintro _ _ ⟨⟩; left; omega
theorem vcltF (t : FTy) (d a b : Spec) : Statement (.vcltF t d a b) := by rintro _ _ ⟨⟩; left; omega
theorem vcleF (t : FTy) (d a b : Spec) : Statement (.vcleF t d a b) := by rintro _ _ ⟨⟩; left; omega
theorem vcunF (t : FTy) (d a b : Spec) : Statement (.vcunF t d a b) := by rintro _ _ ⟨⟩; left; omega
theorem vrsumF (t : FTy) (d a : Spec) : Statement (.vrsumF t d a) := by rintro _ _ ⟨⟩; left; omega
theorem vrmaxF (t : FTy) (d a : Spec) : Statement (.vrmaxF t d a) := by rintro _ _ ⟨⟩; left; omega
theorem vrminF (t : FTy) (d a : Spec) : Statement (.vrminF t d a) := by rintro _ _ ⟨⟩; left; omega
theorem vaddI (t : IntTy) (d a b : Spec) : Statement (.vaddI t d a b) := by rintro _ _ ⟨⟩; left; omega
theorem vsubI (t : IntTy) (d a b : Spec) : Statement (.vsubI t d a b) := by rintro _ _ ⟨⟩; left; omega
theorem vadds (t : IntTy) (d a b : Spec) : Statement (.vadds t d a b) := by rintro _ _ ⟨⟩; left; omega
theorem vsubs (t : IntTy) (d a b : Spec) : Statement (.vsubs t d a b) := by rintro _ _ ⟨⟩; left; omega
theorem vmulI (t : IntTy) (d a b : Spec) : Statement (.vmulI t d a b) := by rintro _ _ ⟨⟩; left; omega
theorem vminI (t : IntTy) (d a b : Spec) : Statement (.vminI t d a b) := by rintro _ _ ⟨⟩; left; omega
theorem vmaxI (t : IntTy) (d a b : Spec) : Statement (.vmaxI t d a b) := by rintro _ _ ⟨⟩; left; omega
theorem vand (t : IntTy) (d a b : Spec) : Statement (.vand t d a b) := by rintro _ _ ⟨⟩; left; omega
theorem vor (t : IntTy) (d a b : Spec) : Statement (.vor t d a b) := by rintro _ _ ⟨⟩; left; omega
theorem vxor (t : IntTy) (d a b : Spec) : Statement (.vxor t d a b) := by rintro _ _ ⟨⟩; left; omega
theorem vshl (t : IntTy) (d a b : Spec) : Statement (.vshl t d a b) := by rintro _ _ ⟨⟩; left; omega
theorem vshr (t : IntTy) (d a b : Spec) : Statement (.vshr t d a b) := by rintro _ _ ⟨⟩; left; omega
theorem vceqI (t : IntTy) (d a b : Spec) : Statement (.vceqI t d a b) := by rintro _ _ ⟨⟩; left; omega
theorem vcltI (t : IntTy) (d a b : Spec) : Statement (.vcltI t d a b) := by rintro _ _ ⟨⟩; left; omega
theorem vsel (t : IntTy) (d a b : Spec) : Statement (.vsel t d a b) := by rintro _ _ ⟨⟩; left; omega
theorem vrsumI (t : IntTy) (d a : Spec) : Statement (.vrsumI t d a) := by rintro _ _ ⟨⟩; left; omega
theorem vshuf (d a b : Spec) : Statement (.vshuf d a b) := by rintro _ _ ⟨⟩; left; omega
theorem vzlo (d a b : Spec) : Statement (.vzlo d a b) := by rintro _ _ ⟨⟩; left; omega
theorem vzhi (d a b : Spec) : Statement (.vzhi d a b) := by rintro _ _ ⟨⟩; left; omega
theorem vuev (d a b : Spec) : Statement (.vuev d a b) := by rintro _ _ ⟨⟩; left; omega
theorem vuod (d a b : Spec) : Statement (.vuod d a b) := by rintro _ _ ⟨⟩; left; omega
theorem vbcst (d a : Spec) (n : BitVec 4) (w : BitVec 2) : Statement (.vbcst d a n w) := by rintro _ _ ⟨⟩; left; omega
theorem vext (d a : Spec) (n : BitVec 4) (w : BitVec 2) : Statement (.vext d a n w) := by rintro _ _ ⟨⟩; left; omega
theorem vins (d a : Spec) (n : BitVec 4) (w : BitVec 2) : Statement (.vins d a n w) := by rintro _ _ ⟨⟩; left; omega
theorem vexl (d a b : Spec) : Statement (.vexl d a b) := by rintro _ _ ⟨⟩; left; omega
theorem vrev (d a : Spec) : Statement (.vrev d a) := by rintro _ _ ⟨⟩; left; omega
theorem xqSnd (a b : Spec) : Statement (.xqSnd a b) := by rintro _ _ ⟨⟩; left; omega
theorem xqTry (d : Spec) (n : BitVec 3) (k : PredNo) : Statement (.xqTry d n k) := by rintro _ _ ⟨⟩; left; omega
theorem xqRcv (d : Spec) (n : BitVec 3) : Statement (.xqRcv d n) := by rintro _ _ ⟨⟩; left; omega
theorem vfma (t : FTy) (d a b : Spec) : Statement (.vfma t d a b) := by rintro _ _ ⟨⟩; left; omega
theorem vfms (t : FTy) (d a b : Spec) : Statement (.vfms t d a b) := by rintro _ _ ⟨⟩; left; omega
theorem vfnma (t : FTy) (d a b : Spec) : Statement (.vfnma t d a b) := by rintro _ _ ⟨⟩; left; omega
theorem vfnms (t : FTy) (d a b : Spec) : Statement (.vfnms t d a b) := by rintro _ _ ⟨⟩; left; omega
theorem vdot (t : FTy) (d a b : Spec) : Statement (.vdot t d a b) := by rintro _ _ ⟨⟩; left; omega
theorem vdoti (t : IntTy) (d a b : Spec) : Statement (.vdoti t d a b) := by rintro _ _ ⟨⟩; left; omega
theorem vrcp (t : FTy) (d a : Spec) : Statement (.vrcp t d a) := by rintro _ _ ⟨⟩; left; omega
theorem vrsqrt (t : FTy) (d a : Spec) : Statement (.vrsqrt t d a) := by rintro _ _ ⟨⟩; left; omega
theorem vsqrt (t : FTy) (d a : Spec) : Statement (.vsqrt t d a) := by rintro _ _ ⟨⟩; left; omega
theorem vexp2 (t : FTy) (d a : Spec) : Statement (.vexp2 t d a) := by rintro _ _ ⟨⟩; left; omega
theorem vlog2 (t : FTy) (d a : Spec) : Statement (.vlog2 t d a) := by rintro _ _ ⟨⟩; left; omega
theorem vsin (t : FTy) (d a : Spec) : Statement (.vsin t d a) := by rintro _ _ ⟨⟩; left; omega
theorem vcos (t : FTy) (d a : Spec) : Statement (.vcos t d a) := by rintro _ _ ⟨⟩; left; omega
theorem vtanh (t : FTy) (d a : Spec) : Statement (.vtanh t d a) := by rintro _ _ ⟨⟩; left; omega
theorem vsigm (t : FTy) (d a : Spec) : Statement (.vsigm t d a) := by rintro _ _ ⟨⟩; left; omega
theorem verf (t : FTy) (d a : Spec) : Statement (.verf t d a) := by rintro _ _ ⟨⟩; left; omega
theorem cvt (t s : FTy) (d a : Spec) : Statement (.cvt t s d a) := by rintro _ _ ⟨⟩; left; omega
theorem cvti (t : CvtInt) (s : FTy) (d a : Spec) : Statement (.cvti t s d a) := by rintro _ _ ⟨⟩; left; omega
theorem cvtf (t : FTy) (s : CvtInt) (d a : Spec) : Statement (.cvtf t s d a) := by rintro _ _ ⟨⟩; left; omega
theorem qnt (t s : FTy) (d a : Spec) : Statement (.qnt t s d a) := by rintro _ _ ⟨⟩; left; omega
theorem dqnt (t s : FTy) (d a : Spec) : Statement (.dqnt t s d a) := by rintro _ _ ⟨⟩; left; omega
theorem fclass (s : FTy) (d a : Spec) : Statement (.fclass s d a) := by rintro _ _ ⟨⟩; left; omega
theorem pack (d a : Spec) (w : Bool) : Statement (.pack d a w) := by rintro _ _ ⟨⟩; left; omega
theorem unpack (d a : Spec) (w : BitVec 2) : Statement (.unpack d a w) := by rintro _ _ ⟨⟩; left; omega
theorem mx (d a : Spec) (i : BitVec 7) : Statement (.mx d a i) := by rintro _ _ ⟨⟩; left; omega
theorem mxs (d a : Spec) (i : BitVec 7) : Statement (.mxs d a i) := by rintro _ _ ⟨⟩; left; omega
theorem mxDrn (d a : Spec) (i : BitVec 7) : Statement (.mxDrn d a i) := by rintro _ _ ⟨⟩; left; omega
theorem mxClr (d a : Spec) (i : BitVec 7) : Statement (.mxClr d a i) := by rintro _ _ ⟨⟩; left; omega
theorem cp (d a : Spec) (i : BitVec 7) : Statement (.cp d a i) := by rintro _ _ ⟨⟩; left; omega
theorem cpT (d a : Spec) (i : BitVec 7) : Statement (.cpT d a i) := by rintro _ _ ⟨⟩; left; omega
theorem cpRed (d a : Spec) (i : BitVec 7) : Statement (.cpRed d a i) := by rintro _ _ ⟨⟩; left; omega
theorem cpCls (d a : Spec) (i : BitVec 7) : Statement (.cpCls d a i) := by rintro _ _ ⟨⟩; left; omega
theorem strmA (d a : Spec) (i : BitVec 7) : Statement (.strmA d a i) := by rintro _ _ ⟨⟩; left; omega
theorem strmB (d a : Spec) (i : BitVec 7) : Statement (.strmB d a i) := by rintro _ _ ⟨⟩; left; omega
theorem cpGat (d a : Spec) (i : BitVec 7) : Statement (.cpGat d a i) := by rintro _ _ ⟨⟩; left; omega
theorem cpSca (d a : Spec) (i : BitVec 7) : Statement (.cpSca d a i) := by rintro _ _ ⟨⟩; left; omega
theorem colAr (d a : Spec) (i : BitVec 7) : Statement (.colAr d a i) := by rintro _ _ ⟨⟩; left; omega
theorem colAg (d a : Spec) (i : BitVec 7) : Statement (.colAg d a i) := by rintro _ _ ⟨⟩; left; omega
theorem colRs (d a : Spec) (i : BitVec 7) : Statement (.colRs d a i) := by rintro _ _ ⟨⟩; left; omega
theorem colBc (d a : Spec) (i : BitVec 7) : Statement (.colBc d a i) := by rintro _ _ ⟨⟩; left; omega
theorem colA2a (d a : Spec) (i : BitVec 7) : Statement (.colA2a d a i) := by rintro _ _ ⟨⟩; left; omega
theorem tokWait (d a : Spec) : Statement (.tokWait d a) := by rintro _ _ ⟨⟩; left; omega
theorem tokTest (d a : Spec) (k : PredNo) : Statement (.tokTest d a k) := by rintro _ _ ⟨⟩; left; omega
theorem tokDet (a : Spec) : Statement (.tokDet a) := by rintro _ _ ⟨⟩; left; omega
theorem tokAdop (a : Spec) : Statement (.tokAdop a) := by rintro _ _ ⟨⟩; left; omega
theorem tokDep (a b : Spec) : Statement (.tokDep a b) := by rintro _ _ ⟨⟩; left; omega
theorem tokDepGo (a b : Spec) : Statement (.tokDepGo a b) := by rintro _ _ ⟨⟩; left; omega
theorem tokCan (a : Spec) : Statement (.tokCan a) := by rintro _ _ ⟨⟩; left; omega
theorem tokCanR (a : Spec) : Statement (.tokCanR a) := by rintro _ _ ⟨⟩; left; omega
theorem tokPri (a b : Spec) : Statement (.tokPri a b) := by rintro _ _ ⟨⟩; left; omega
theorem tokRec (d a : Spec) (n : Bool) : Statement (.tokRec d a n) := by rintro _ _ ⟨⟩; left; omega
theorem tokPost (a b : Spec) : Statement (.tokPost a b) := by rintro _ _ ⟨⟩; left; omega
theorem rowGat (d a : Spec) (i : BitVec 7) : Statement (.rowGat d a i) := by rintro _ _ ⟨⟩; left; omega
theorem rowSca (d a : Spec) (i : BitVec 7) : Statement (.rowSca d a i) := by rintro _ _ ⟨⟩; left; omega
theorem rowPin (d a : Spec) (i : BitVec 7) : Statement (.rowPin d a i) := by rintro _ _ ⟨⟩; left; omega
theorem rowUnp (d a : Spec) (i : BitVec 7) : Statement (.rowUnp d a i) := by rintro _ _ ⟨⟩; left; omega
theorem rowHint (d a : Spec) (i : BitVec 7) : Statement (.rowHint d a i) := by rintro _ _ ⟨⟩; left; omega
theorem spawn (a b : Spec) : Statement (.spawn a b) := by rintro _ _ ⟨⟩; left; omega
theorem spawnO (d a b : Spec) : Statement (.spawnO d a b) := by rintro _ _ ⟨⟩; left; omega
theorem spawnD (a b : Spec) : Statement (.spawnD a b) := by rintro _ _ ⟨⟩; left; omega
theorem susp : Statement (.susp) := by rintro _ _ ⟨⟩; left; omega
theorem done : Statement (.done) := by rintro _ _ ⟨⟩; left; omega
theorem yield : Statement (.yield) := by rintro _ _ ⟨⟩; left; omega
theorem tsGet (d : Spec) : Statement (.tsGet d) := by rintro _ _ ⟨⟩; left; omega
theorem abort : Statement (.abort) := by rintro _ _ ⟨⟩; left; omega
theorem spt (n : BitVec 12) : Statement (.spt n) := by rintro _ _ ⟨⟩; left; omega
theorem launch (d a : Spec) : Statement (.launch d a) := by rintro _ _ ⟨⟩; left; omega
theorem kinfo (d a : Spec) : Statement (.kinfo d a) := by rintro _ _ ⟨⟩; left; omega
theorem snd (a b : Spec) : Statement (.snd a b) := by rintro _ _ ⟨⟩; left; omega
theorem sndC (a b : Spec) : Statement (.sndC a b) := by rintro _ _ ⟨⟩; left; omega
theorem rpl (a : Spec) : Statement (.rpl a) := by rintro _ _ ⟨⟩; left; omega
theorem tagBind (a b : Spec) : Statement (.tagBind a b) := by rintro _ _ ⟨⟩; left; omega
theorem rq (d a b : Spec) : Statement (.rq d a b) := by rintro _ _ ⟨⟩; left; omega
theorem patBind (a b : Spec) : Statement (.patBind a b) := by rintro _ _ ⟨⟩; left; omega
theorem patDrop (a : Spec) : Statement (.patDrop a) := by rintro _ _ ⟨⟩; left; omega
theorem portCfg (a b : Spec) : Statement (.portCfg a b) := by rintro _ _ ⟨⟩; left; omega
theorem portGive (a b : Spec) : Statement (.portGive a b) := by rintro _ _ ⟨⟩; left; omega
theorem portSt (d a : Spec) (w : BitVec 4) : Statement (.portSt d a w) := by rintro _ _ ⟨⟩; left; omega
theorem portTake (d a : Spec) (k : PredNo) : Statement (.portTake d a k) := by rintro _ _ ⟨⟩; left; omega
theorem portTakeW (d a : Spec) : Statement (.portTakeW d a) := by rintro _ _ ⟨⟩; left; omega
theorem portClr (d a : Spec) : Statement (.portClr d a) := by rintro _ _ ⟨⟩; left; omega
theorem sigAdd (d a b : Spec) : Statement (.sigAdd d a b) := by rintro _ _ ⟨⟩; left; omega
theorem sigSet (d a b : Spec) : Statement (.sigSet d a b) := by rintro _ _ ⟨⟩; left; omega
theorem sigRd (d a : Spec) : Statement (.sigRd d a) := by rintro _ _ ⟨⟩; left; omega
theorem sigWait (d a b : Spec) : Statement (.sigWait d a b) := by rintro _ _ ⟨⟩; left; omega
theorem sigCas (d a b : Spec) : Statement (.sigCas d a b) := by rintro _ _ ⟨⟩; left; omega
theorem grpNew (d a : Spec) : Statement (.grpNew d a) := by rintro _ _ ⟨⟩; left; omega
theorem grpEnd (a : Spec) (k : Bool) : Statement (.grpEnd a k) := by rintro _ _ ⟨⟩; left; omega
theorem grpRd (d a : Spec) (n : BitVec 4) : Statement (.grpRd d a n) := by rintro _ _ ⟨⟩; left; omega
theorem grpSet (n : BitVec 4) (a b : Spec) : Statement (.grpSet n a b) := by rintro _ _ ⟨⟩; left; omega
theorem ebudSet (a b : Spec) : Statement (.ebudSet a b) := by rintro _ _ ⟨⟩; left; omega
theorem ebudRd (d a : Spec) : Statement (.ebudRd d a) := by rintro _ _ ⟨⟩; left; omega
theorem mfs (d : Spec) (s : BitVec 6) : Statement (.mfs d s) := by rintro _ _ ⟨⟩; left; omega
theorem mts (a : Spec) (s : BitVec 6) : Statement (.mts a s) := by rintro _ _ ⟨⟩; left; omega
theorem trap (a : Spec) : Statement (.trap a) := by rintro _ _ ⟨⟩; left; omega
theorem tlbWr (a b : Spec) : Statement (.tlbWr a b) := by rintro _ _ ⟨⟩; left; omega
theorem tlbInvPage (a b : Spec) : Statement (.tlbInvPage a b) := by rintro _ _ ⟨⟩; left; omega
theorem tlbInvContext (a b : Spec) : Statement (.tlbInvContext a b) := by rintro _ _ ⟨⟩; left; omega
theorem tlbInvAll (a b : Spec) : Statement (.tlbInvAll a b) := by rintro _ _ ⟨⟩; left; omega
theorem tlbPrb (d a b : Spec) : Statement (.tlbPrb d a b) := by rintro _ _ ⟨⟩; left; omega
theorem pgWake (d a b : Spec) : Statement (.pgWake d a b) := by rintro _ _ ⟨⟩; left; omega
theorem dlHv (d a b : Spec) : Statement (.dlHv d a b) := by rintro _ _ ⟨⟩; left; omega
theorem errInj (a b : Spec) : Statement (.errInj a b) := by rintro _ _ ⟨⟩; left; omega
theorem clsQ (d a : Spec) : Statement (.clsQ d a) := by rintro _ _ ⟨⟩; left; omega
theorem ctxSv (d a b : Spec) : Statement (.ctxSv d a b) := by rintro _ _ ⟨⟩; left; omega
theorem ctxLdCreate (a b : Spec) : Statement (.ctxLdCreate a b) := by rintro _ _ ⟨⟩; left; omega
theorem ctxLdUpdate (a b : Spec) : Statement (.ctxLdUpdate a b) := by rintro _ _ ⟨⟩; left; omega
theorem ctxLdDestroy (a b : Spec) : Statement (.ctxLdDestroy a b) := by rintro _ _ ⟨⟩; left; omega
theorem queSubRegister (d a b : Spec) : Statement (.queSubRegister d a b) := by rintro _ _ ⟨⟩; left; omega
theorem queSubUnregister (d a b : Spec) : Statement (.queSubUnregister d a b) := by rintro _ _ ⟨⟩; left; omega
theorem queSubResume (d a b : Spec) : Statement (.queSubResume d a b) := by rintro _ _ ⟨⟩; left; omega
theorem slotMap (a b : Spec) : Statement (.slotMap a b) := by rintro _ _ ⟨⟩; left; omega
theorem slotUnm (a b : Spec) : Statement (.slotUnm a b) := by rintro _ _ ⟨⟩; left; omega
theorem slotRd (d a : Spec) : Statement (.slotRd d a) := by rintro _ _ ⟨⟩; left; omega
theorem dlogWr (a b : Spec) : Statement (.dlogWr a b) := by rintro _ _ ⟨⟩; left; omega
theorem dlogRd (d a : Spec) : Statement (.dlogRd d a) := by rintro _ _ ⟨⟩; left; omega
theorem dbgBrk (k : BitVec 6) : Statement (.dbgBrk k) := by rintro _ _ ⟨⟩; left; omega
theorem dbgMark (a : Spec) : Statement (.dbgMark a) := by rintro _ _ ⟨⟩; left; omega
theorem profRd (d a : Spec) : Statement (.profRd d a) := by rintro _ _ ⟨⟩; left; omega
theorem dbgStopStop (a b : Spec) : Statement (.dbgStopStop a b) := by rintro _ _ ⟨⟩; left; omega
theorem dbgStopGo (a b : Spec) : Statement (.dbgStopGo a b) := by rintro _ _ ⟨⟩; left; omega
theorem dbgStopStep (a b : Spec) : Statement (.dbgStopStep a b) := by rintro _ _ ⟨⟩; left; omega
theorem xld (n : XNo) (a : Spec) (o : BitVec 6) : Statement (.xld n a o) := by rintro _ _ ⟨⟩; left; omega
theorem xld4 (a : Spec) (o : BitVec 6) : Statement (.xld4 a o) := by rintro _ _ ⟨⟩; left; omega
theorem xmv (n : XNo) (a : Spec) : Statement (.xmv n a) := by rintro _ _ ⟨⟩; left; omega
theorem xrd (d : Spec) (n : XNo) : Statement (.xrd d n) := by rintro _ _ ⟨⟩; left; omega
theorem xst (n : XNo) (a : Spec) (o : BitVec 6) : Statement (.xst n a o) := by rintro _ _ ⟨⟩; left; omega
theorem xst4 (a : Spec) (o : BitVec 6) : Statement (.xst4 a o) := by rintro _ _ ⟨⟩; left; omega
theorem cAdd (w : Bool) (b a d : CReg) : Statement (.cAdd w b a d) := by rintro _ _ ⟨⟩; right; omega
theorem cSub (w : Bool) (b a d : CReg) : Statement (.cSub w b a d) := by rintro _ _ ⟨⟩; right; omega
theorem cMov (r : Bool) (m : Spec) (d : CReg) : Statement (.cMov r m d) := by rintro _ _ ⟨⟩; right; omega
theorem cAddi (i : BitVec 5) (a d : CReg) : Statement (.cAddi i a d) := by rintro _ _ ⟨⟩; right; omega
theorem cLi (i : BitVec 8) (d : CReg) : Statement (.cLi i d) := by rintro _ _ ⟨⟩; right; omega
theorem cLd (z : Bool) (o : BitVec 4) (b t : CReg) : Statement (.cLd z o b t) := by rintro _ _ ⟨⟩; right; omega
theorem cSt (z : Bool) (o : BitVec 4) (b t : CReg) : Statement (.cSt z o b t) := by rintro _ _ ⟨⟩; right; omega
theorem cCmp (c : BitVec 2) (b a : CReg) (p : PredNo) : Statement (.cCmp c b a p) := by rintro _ _ ⟨⟩; right; omega
theorem cBr (o : BitVec 7) (n : Bool) (p : PredNo) : Statement (.cBr o n p) := by rintro _ _ ⟨⟩; right; omega
theorem cJmp (o : BitVec 11) : Statement (.cJmp o) := by rintro _ _ ⟨⟩; right; omega
theorem cVadd (t : BitVec 2) (b a d : CReg) : Statement (.cVadd t b a d) := by rintro _ _ ⟨⟩; right; omega
theorem cVfma (t : BitVec 2) (b a d : CReg) : Statement (.cVfma t b a d) := by rintro _ _ ⟨⟩; right; omega
theorem cXmv (m : Spec) (x : XNo) : Statement (.cXmv m x) := by rintro _ _ ⟨⟩; right; omega
theorem cWait (n : BitVec 4) (s : BitVec 2) : Statement (.cWait n s) := by rintro _ _ ⟨⟩; right; omega
theorem cSpt (n : BitVec 11) : Statement (.cSpt n) := by rintro _ _ ⟨⟩; right; omega
theorem cSusp : Statement (.cSusp) := by rintro _ _ ⟨⟩; right; omega
theorem cDone : Statement (.cDone) := by rintro _ _ ⟨⟩; right; omega
theorem cIf (n : Bool) (p : PredNo) : Statement (.cIf n p) := by rintro _ _ ⟨⟩; right; omega
theorem cNop : Statement (.cNop) := by rintro _ _ ⟨⟩; right; omega
theorem instructionFetch (place : Nat) : Statement (.instructionFetch place) := nofun
theorem inboxRecordArrival (msg : Nat) : Statement (.inboxRecordArrival msg) := nofun
theorem taskUnitRecordArrival (msg : Nat) : Statement (.taskUnitRecordArrival msg) := nofun
theorem portArrival (msg : Nat) : Statement (.portArrival msg) := nofun
theorem admission (place : Nat) : Statement (.admission place) := nofun
theorem sendStallTimeout (place : Nat) : Statement (.sendStallTimeout place) := nofun
theorem xqEntryArrival (place : Nat) : Statement (.xqEntryArrival place) := nofun
theorem loadValueReturn (acc : Nat) : Statement (.loadValueReturn acc) := nofun
theorem storePerformed (acc : Nat) : Statement (.storePerformed acc) := nofun
theorem homeRequest (req : HomeReq) : Statement (.homeRequest req) := nofun
theorem engineClaim (tok line : Nat) : Statement (.engineClaim tok line) := nofun
theorem engineRelease (tok line : Nat) : Statement (.engineRelease tok line) := nofun
theorem scrubRead (pa : Nat) : Statement (.scrubRead pa) := nofun
theorem clsBlkWrite (j : Nat) (v : BitVec 64) : Statement (.clsBlkWrite j v) := nofun
theorem classClearDone : Statement (.classClearDone) := nofun
theorem tlbMiss (place : Nat) : Statement (.tlbMiss place) := nofun
theorem walkReply (place : Nat) : Statement (.walkReply place) := nofun
theorem preemptionRequest (ctx : Nat) : Statement (.preemptionRequest ctx) := nofun
theorem noSafePointTimeout (place : Nat) : Statement (.noSafePointTimeout place) := nofun
theorem contextSuspended (ctx : Nat) : Statement (.contextSuspended ctx) := nofun
theorem contextResume (ctx : Nat) : Statement (.contextResume ctx) := nofun
theorem contextAreasResident (ctx : Nat) : Statement (.contextAreasResident ctx) := nofun
theorem contextDiscardComplete (ctx : Nat) : Statement (.contextDiscardComplete ctx) := nofun
theorem freeze (stack : Nat) (temp : Nat) : Statement (.freeze stack temp) := nofun
theorem thaw (temps : List Nat) : Statement (.thaw temps) := nofun
theorem weirSample : Statement (.weirSample) := nofun
theorem weirDieReduction : Statement (.weirDieReduction) := nofun
theorem weirDeviceReduction : Statement (.weirDeviceReduction) := nofun
theorem weirFrontierApply : Statement (.weirFrontierApply) := nofun
theorem weirCommit : Statement (.weirCommit) := nofun
theorem spillFullAbort (cl : Nat) : Statement (.spillFullAbort cl) := nofun
theorem tokenStart (tok engine : Nat) : Statement (.tokenStart tok engine) := nofun
theorem streamGroupFetch (tok : Nat) : Statement (.streamGroupFetch tok) := nofun
theorem tileGroupStep (tok : Nat) : Statement (.tileGroupStep tok) := nofun
theorem tileDrain (tok : Nat) : Statement (.tileDrain tok) := nofun
theorem copyLineStep (tok : Nat) : Statement (.copyLineStep tok) := nofun
theorem collectiveTimeout (tok : Nat) : Statement (.collectiveTimeout tok) := nofun
theorem drainBoundExceeded (tok : Nat) : Statement (.drainBoundExceeded tok) := nofun
theorem tokenSlotStallTimeout (place : Nat) : Statement (.tokenSlotStallTimeout place) := nofun
theorem tokenDone (tok : Nat) : Statement (.tokenDone tok) := nofun
theorem tokenFault (tok : Nat) : Statement (.tokenFault tok) := nofun
theorem rowWindow (tok : Nat) : Statement (.rowWindow tok) := nofun
theorem rowCombinerUpdate (tok elem : Nat) : Statement (.rowCombinerUpdate tok elem) := nofun
theorem rowCounterHalving (slice : Nat) : Statement (.rowCounterHalving slice) := nofun
theorem rowEntryReread (tok elem : Nat) : Statement (.rowEntryReread tok elem) := nofun
theorem launchAdmit (sub : Nat) : Statement (.launchAdmit sub) := nofun
theorem launchCheck (launch : Nat) : Statement (.launchCheck launch) := nofun
theorem launchResident (launch : Nat) (backed : Bool) : Statement (.launchResident launch backed) := nofun
theorem launchWeirSlot (launch : Nat) : Statement (.launchWeirSlot launch) := nofun
theorem launchPlace (launch cl : Nat) : Statement (.launchPlace launch cl) := nofun
theorem launchEnd (launch : Nat) : Statement (.launchEnd launch) := nofun
theorem groupEnded (launch slot : Nat) : Statement (.groupEnded launch slot) := nofun
theorem sluiceGovernorVisit (launch : Nat) : Statement (.sluiceGovernorVisit launch) := nofun
theorem queueWiNotice (queue : Nat) : Statement (.queueWiNotice queue) := nofun
theorem packetHeaderReady (queue : Nat) : Statement (.packetHeaderReady queue) := nofun
theorem packetStart (queue : Nat) : Statement (.packetStart queue) := nofun
theorem packetComplete (queue idx : Nat) : Statement (.packetComplete queue idx) := nofun
theorem stageRingHandoff (queue cl : Nat) : Statement (.stageRingHandoff queue cl) := nofun
theorem agingTick (die : Nat) : Statement (.agingTick die) := nofun
theorem quantumExpiry (slot : Nat) : Statement (.quantumExpiry slot) := nofun
theorem boundMissed (queue : Nat) : Statement (.boundMissed queue) := nofun
theorem trtCtlGo (die : Nat) : Statement (.trtCtlGo die) := nofun
theorem turatLoadComplete (die err key : Nat) : Statement (.turatLoadComplete die err key) := nofun
theorem signalNotify (loc : Nat) : Statement (.signalNotify loc) := nofun
theorem signalPollChip (watch : Nat) : Statement (.signalPollChip watch) := nofun
theorem signalPollRemote (watch : Nat) : Statement (.signalPollRemote watch) := nofun
theorem hostBar2Write (off : Nat) (bytes : List (BitVec 8)) : Statement (.hostBar2Write off bytes) := nofun
theorem hostBar2Read (off n : Nat) : Statement (.hostBar2Read off n) := nofun
theorem dbCmdRegister (set : Nat) (qcb cmd : BitVec 64) : Statement (.dbCmdRegister set qcb cmd) := nofun
theorem dbCmdUnregister (set : Nat) (qcb cmd : BitVec 64) : Statement (.dbCmdUnregister set qcb cmd) := nofun
theorem dbCmdResume (set : Nat) (qcb cmd : BitVec 64) : Statement (.dbCmdResume set qcb cmd) := nofun
theorem hostLinkCompletion (acc : Nat) (err : Bool) (bytes : List (BitVec 8)) : Statement (.hostLinkCompletion acc err bytes) := nofun
theorem hostLinkTimeout (acc : Nat) : Statement (.hostLinkTimeout acc) := nofun
theorem d2dRetrain (enda endb : Nat) : Statement (.d2dRetrain enda endb) := nofun
theorem d2dRetrainDone (enda endb : Nat) : Statement (.d2dRetrainDone enda endb) := nofun
theorem d2dRetrainTimeout (enda endb : Nat) : Statement (.d2dRetrainTimeout enda endb) := nofun
theorem noturFlitReceive (port : Nat) (flit : NoturFlit) : Statement (.noturFlitReceive port flit) := nofun
theorem noturEnable (port : Nat) : Statement (.noturEnable port) := nofun
theorem noturDisable (port : Nat) : Statement (.noturDisable port) := nofun
theorem noturTrainingDone (port : Nat) (bad : Option (Fin 8)) : Statement (.noturTrainingDone port bad) := nofun
theorem noturTrainingTimeout (port : Nat) : Statement (.noturTrainingTimeout port) := nofun
theorem noturRetrainTimeout (port : Nat) : Statement (.noturRetrainTimeout port) := nofun
theorem coldReset : Statement (.coldReset) := nofun
theorem powerGoodChange (good : Bool) : Statement (.powerGoodChange good) := nofun
theorem bootVerifyComplete (code : Nat) : Statement (.bootVerifyComplete code) := nofun
theorem attReqReport (v : BitVec 64) : Statement (.attReqReport v) := nofun
theorem attReqPubkey (v : BitVec 64) : Statement (.attReqPubkey v) := nofun
theorem attReqComplete (ok : Bool) : Statement (.attReqComplete ok) := nofun
theorem eyeMarginAlert (lane : HbmLane) (hor : BitVec 8) (ver : BitVec 8) : Statement (.eyeMarginAlert lane hor ver) := nofun
theorem hostIrqWrite (v : BitVec 64) : Statement (.hostIrqWrite v) := nofun
theorem pwrLimWrite (v : BitVec 64) : Statement (.pwrLimWrite v) := nofun
theorem throttleChange (die : Nat) (cause : BitVec 4) (quantity : BitVec 4) (v : BitVec 64) : Statement (.throttleChange die cause quantity v) := nofun
theorem smbusBlockRead (off : Nat) : Statement (.smbusBlockRead off) := nofun
theorem dbgCtlStop (core : Nat) : Statement (.dbgCtlStop core) := nofun
theorem dbgCtlGo (core : Nat) : Statement (.dbgCtlGo core) := nofun
theorem dbgCtlStep (core : Nat) : Statement (.dbgCtlStep core) := nofun
theorem dbgDatWrite (core : Nat) (v : BitVec 64) : Statement (.dbgDatWrite core v) := nofun
theorem registerWrite (addr : Nat) (data : RegData) : Statement (.registerWrite addr data) := nofun
theorem contextAreasUnbacked (ctx : Nat) : Statement (.contextAreasUnbacked ctx) := nofun
theorem hostLinkTraining (ltssm : BitVec 6) (rate : BitVec 3) (wid : BitVec 5) : Statement (.hostLinkTraining ltssm rate wid) := nofun
theorem hbmInterfaceRetrainDone (stack : Nat) : Statement (.hbmInterfaceRetrainDone stack) := nofun

end Sys2Proof.Laws.F
end

