-- ==== Sys2Proof/Tests/Slice0.lean ====
section
/-! SUPPORT. Tests: words laid out from the spec's encodings decode to their instructions, ill-formed terms are refused, and a
concrete state meets the hypotheses of every statement that has hypotheses. -/

section
open Sys2Proof Sys2Proof.Machine

set_option Elab.async false

/-! ### Words (02_words.md)

Every instruction that has a word, with its word laid out field by field as R29, R32, R41, R44 and R45 (R285, R324 and R364 for their majors)
give it: each row decodes to its instruction, and its instruction encodes to it. -/

noncomputable def wordsIntR : List (Nat × Instr) :=
  [(0b0000000_010010_010001_010000_00000_11, .add 16 17 18),
   (0b0000001_010010_010001_010000_00000_11, .sub 16 17 18),
   (0b0000010_010010_010001_010000_00000_11, .mul 16 17 18),
   (0b0000011_010010_010001_010000_00000_11, .mulh 16 17 18),
   (0b0000100_010010_010001_010000_00000_11, .mulhu 16 17 18),
   (0b0000101_010010_010001_010000_00000_11, .div 16 17 18),
   (0b0000110_010010_010001_010000_00000_11, .divu 16 17 18),
   (0b0000111_010010_010001_010000_00000_11, .rem 16 17 18),
   (0b0001000_010010_010001_010000_00000_11, .remu 16 17 18),
   (0b0001001_010010_010001_010000_00000_11, .and 16 17 18),
   (0b0001010_010010_010001_010000_00000_11, .or 16 17 18),
   (0b0001011_010010_010001_010000_00000_11, .xor 16 17 18),
   (0b0001100_010010_010001_010000_00000_11, .andn 16 17 18),
   (0b0001101_010010_010001_010000_00000_11, .shl 16 17 18),
   (0b0001110_010010_010001_010000_00000_11, .shr 16 17 18),
   (0b0001111_010010_010001_010000_00000_11, .sar 16 17 18),
   (0b0010000_111110_010001_010000_00000_11, .shli 16 17 62),
   (0b0010001_111110_010001_010000_00000_11, .shri 16 17 62),
   (0b0010010_111110_010001_010000_00000_11, .sari 16 17 62),
   (0b0010011_010010_010001_010000_00000_11, .min 16 17 18),
   (0b0010100_010010_010001_010000_00000_11, .max 16 17 18),
   (0b0010101_010010_010001_010000_00000_11, .minu 16 17 18),
   (0b0010110_010010_010001_010000_00000_11, .maxu 16 17 18),
   (0b0010111_000000_010001_010000_00000_11, .clz 16 17),
   (0b0011000_000000_010001_010000_00000_11, .ctz 16 17),
   (0b0011001_000000_010001_010000_00000_11, .popc 16 17),
   (0b0011010_010010_010001_010000_00000_11, .leaS2 16 17 18),
   (0b0011011_010010_010001_010000_00000_11, .leaS4 16 17 18),
   (0b0011100_010010_010001_010000_00000_11, .leaS8 16 17 18),
   (0b0011101_010010_010001_010000_00000_11, .leaS16 16 17 18),
   (0b0011110_111110_010001_010000_00000_11, .sext 16 17 62),
   (0b0011111_111110_010001_010000_00000_11, .zext 16 17 62)]

theorem test_words_intR_decode : wordsIntR.map (fun e => decodeTableWord 32 e.1) = wordsIntR.map (fun e => some e.2) := rfl
theorem test_words_intR_encode : wordsIntR.map (fun e => e.2.encode) = wordsIntR.map (fun e => some (32, e.1)) := rfl

noncomputable def wordsIntI32 : List (Nat × Instr) :=
  [(0b1000000_010010_010001_010000_00000_11, .addI32 16 17 18),
   (0b1000001_010010_010001_010000_00000_11, .subI32 16 17 18),
   (0b1000010_010010_010001_010000_00000_11, .mulI32 16 17 18),
   (0b1000011_010010_010001_010000_00000_11, .mulhI32 16 17 18),
   (0b1000100_010010_010001_010000_00000_11, .mulhuI32 16 17 18),
   (0b1000101_010010_010001_010000_00000_11, .divI32 16 17 18),
   (0b1000110_010010_010001_010000_00000_11, .divuI32 16 17 18),
   (0b1000111_010010_010001_010000_00000_11, .remI32 16 17 18),
   (0b1001000_010010_010001_010000_00000_11, .remuI32 16 17 18),
   (0b1001001_010010_010001_010000_00000_11, .andI32 16 17 18),
   (0b1001010_010010_010001_010000_00000_11, .orI32 16 17 18),
   (0b1001011_010010_010001_010000_00000_11, .xorI32 16 17 18),
   (0b1001100_010010_010001_010000_00000_11, .andnI32 16 17 18),
   (0b1001101_010010_010001_010000_00000_11, .shlI32 16 17 18),
   (0b1001110_010010_010001_010000_00000_11, .shrI32 16 17 18),
   (0b1001111_010010_010001_010000_00000_11, .sarI32 16 17 18),
   (0b1010000_011111_010001_010000_00000_11, .shliI32 16 17 31),
   (0b1010001_011111_010001_010000_00000_11, .shriI32 16 17 31),
   (0b1010010_011111_010001_010000_00000_11, .sariI32 16 17 31),
   (0b1010011_010010_010001_010000_00000_11, .minI32 16 17 18),
   (0b1010100_010010_010001_010000_00000_11, .maxI32 16 17 18),
   (0b1010101_010010_010001_010000_00000_11, .minuI32 16 17 18),
   (0b1010110_010010_010001_010000_00000_11, .maxuI32 16 17 18)]

theorem test_words_intI32_decode : wordsIntI32.map (fun e => decodeTableWord 32 e.1) = wordsIntI32.map (fun e => some e.2) := rfl
theorem test_words_intI32_encode : wordsIntI32.map (fun e => e.2.encode) = wordsIntI32.map (fun e => some (32, e.1)) := rfl

noncomputable def wordsImmediates : List (Nat × Instr) :=
  [(0b1000000000001_010001_010000_00001_11, .addi 16 17 0x1001),
   (0b1000000000000000001_010000_00010_11, .lui 16 0x40001)]

theorem test_words_immediates_decode : wordsImmediates.map (fun e => decodeTableWord 32 e.1) = wordsImmediates.map (fun e => some e.2) := rfl
theorem test_words_immediates_encode : wordsImmediates.map (fun e => e.2.encode) = wordsImmediates.map (fun e => some (32, e.1)) := rfl

noncomputable def wordsCompares : List (Nat × Instr) :=
  [(0b0000000_010010_010001_000101_00011_11, .cmpEq 5 17 18),
   (0b0000001_010010_010001_000101_00011_11, .cmpNe 5 17 18),
   (0b0000010_010010_010001_000101_00011_11, .cmpLt 5 17 18),
   (0b0000011_010010_010001_000101_00011_11, .cmpLe 5 17 18),
   (0b0000100_010010_010001_000101_00011_11, .cmpLtu 5 17 18),
   (0b0000101_010010_010001_000101_00011_11, .cmpLeu 5 17 18),
   (0b0000110_010010_010001_000101_00011_11, .fcmpEq 5 17 18),
   (0b0000111_010010_010001_000101_00011_11, .fcmpLt 5 17 18),
   (0b0001000_010010_010001_000101_00011_11, .fcmpLe 5 17 18),
   (0b0001001_010010_010001_000101_00011_11, .fcmpUn 5 17 18),
   (0b0001010_000111_000110_000101_00011_11, .pand 5 6 7),
   (0b0001011_000111_000110_000101_00011_11, .por 5 6 7),
   (0b0001100_000111_000110_000101_00011_11, .pxor 5 6 7),
   (0b0001101_000000_000110_000101_00011_11, .pnot 5 6),
   (0b0001110_000000_000110_000101_00011_11, .pmov 5 6),
   (0b0001111_000001_000000_000101_00011_11, .pset 5 true),
   (0b1000000_010010_010001_000101_00011_11, .cmpEqI32 5 17 18),
   (0b1000001_010010_010001_000101_00011_11, .cmpNeI32 5 17 18),
   (0b1000010_010010_010001_000101_00011_11, .cmpLtI32 5 17 18),
   (0b1000011_010010_010001_000101_00011_11, .cmpLeI32 5 17 18),
   (0b1000100_010010_010001_000101_00011_11, .cmpLtuI32 5 17 18),
   (0b1000101_010010_010001_000101_00011_11, .cmpLeuI32 5 17 18),
   (0b1000110_010010_010001_000101_00011_11, .fcmpEqF64 5 17 18),
   (0b1000111_010010_010001_000101_00011_11, .fcmpLtF64 5 17 18),
   (0b1001000_010010_010001_000101_00011_11, .fcmpLeF64 5 17 18),
   (0b1001001_010010_010001_000101_00011_11, .fcmpUnF64 5 17 18)]

theorem test_words_compares_decode : wordsCompares.map (fun e => decodeTableWord 32 e.1) = wordsCompares.map (fun e => some e.2) := rfl
theorem test_words_compares_encode : wordsCompares.map (fun e => e.2.encode) = wordsCompares.map (fun e => some (32, e.1)) := rfl

noncomputable def wordsBranches : List (Nat × Instr) :=
  [(0b1000000000000000001_00_0_101_00100_11, .br 5 0x40001),
   (0b1000000000000000001_00_1_101_00100_11, .brNot 5 0x40001),
   (0b1000000000000000001_01_1_101_00100_11, .lpe 5 true 0x40001),
   (0b1000000000001_010001_010000_00101_11, .call 16 17 0x1001)]

theorem test_words_branches_decode : wordsBranches.map (fun e => decodeTableWord 32 e.1) = wordsBranches.map (fun e => some e.2) := rfl
theorem test_words_branches_encode : wordsBranches.map (fun e => e.2.encode) = wordsBranches.map (fun e => some (32, e.1)) := rfl

noncomputable def wordsLoadsAndStores : List (Nat × Instr) :=
  [(0b000_1000000001_010001_010000_00110_11, .ldN8 16 17 0x201),
   (0b001_1000000001_010001_010000_00110_11, .ldN16 16 17 0x201),
   (0b010_1000000001_010001_010000_00110_11, .ldN32 16 17 0x201),
   (0b011_1000000001_010001_010000_00110_11, .ld64 16 17 0x201),
   (0b100_1000000001_010001_010000_00110_11, .ldI8 16 17 0x201),
   (0b101_1000000001_010001_010000_00110_11, .ldI16 16 17 0x201),
   (0b110_1000000001_010001_010000_00110_11, .ldI32 16 17 0x201),
   (0b111_1000000001_010001_010000_00110_11, .ldV 16 17 0x201),
   (0b000_1000000001_010001_010000_00111_11, .st8 16 17 0x201),
   (0b001_1000000001_010001_010000_00111_11, .st16 16 17 0x201),
   (0b010_1000000001_010001_010000_00111_11, .st32 16 17 0x201),
   (0b011_1000000001_010001_010000_00111_11, .st64 16 17 0x201),
   (0b100_1000000001_010001_010000_00111_11, .stV 16 17 0x201)]

theorem test_words_loadsAndStores_decode : wordsLoadsAndStores.map (fun e => decodeTableWord 32 e.1) = wordsLoadsAndStores.map (fun e => some e.2) := rfl
theorem test_words_loadsAndStores_encode : wordsLoadsAndStores.map (fun e => e.2.encode) = wordsLoadsAndStores.map (fun e => some (32, e.1)) := rfl

noncomputable def wordsAtomics : List (Nat × Instr) :=
  [(0b1_0000_000_00000_010001_010000_01000_11, .amoSwap 16 17 .rlx .task true),
   (0b0_0001_001_00001_010001_010000_01000_11, .amoAdd 16 17 .acq .core false),
   (0b1_0010_010_00010_010001_010000_01000_11, .amoAnd 16 17 .rel .clu true),
   (0b0_0011_011_00011_010001_010000_01000_11, .amoOr 16 17 .ar .quad false),
   (0b1_0100_100_00100_010001_010000_01000_11, .amoXor 16 17 .sc .die true),
   (0b0_0101_000_00101_010001_010000_01000_11, .amoMin 16 17 .rlx .half false),
   (0b1_0110_001_00110_010001_010000_01000_11, .amoMax 16 17 .acq .dev true),
   (0b0_0111_010_00111_010001_010000_01000_11, .amoMinu 16 17 .rel .host false),
   (0b1_1000_011_01000_010001_010000_01000_11, .amoMaxu 16 17 .ar .link true),
   (0b0_1001_100_01001_010001_010000_01000_11, .amoFadd 16 17 .sc .fab false),
   (0b1_1010_000_01010_010001_010000_01000_11, .cas 16 17 .rlx .sys true)]

theorem test_words_atomics_decode : wordsAtomics.map (fun e => decodeTableWord 32 e.1) = wordsAtomics.map (fun e => some e.2) := rfl
theorem test_words_atomics_encode : wordsAtomics.map (fun e => e.2.encode) = wordsAtomics.map (fun e => some (32, e.1)) := rfl

noncomputable def wordsFences : List (Nat × Instr) :=
  [(0b0000000_000011_001010_000000_01001_11, .fence .sys .ar),
   (0b0000000_000100_000110_000000_01001_11, .fence .dev .sc),
   (0b0000001_010010_010001_001000_01001_11, .cwb .link 17 18),
   (0b0000010_010010_010001_001001_01001_11, .cinv .fab 17 18),
   (0b0000011_000010_010001_000000_01001_11, .pf 17 2),
   (0b0000100_100001_010001_010000_01001_11, .lds 16 17 33),
   (0b0000101_100001_010001_010000_01001_11, .sts 16 17 33),
   (0b0000110_00_0001_0010_0100_1000_01001_11, .wait 8 4 2 1)]

theorem test_words_fences_decode : wordsFences.map (fun e => decodeTableWord 32 e.1) = wordsFences.map (fun e => some e.2) := rfl
theorem test_words_fences_encode : wordsFences.map (fun e => e.2.encode) = wordsFences.map (fun e => some (32, e.1)) := rfl

noncomputable def wordsVecF : List (Nat × Instr) :=
  [(0b000_0000_010010_010001_010000_01010_11, .vaddF .f32 16 17 18),
   (0b001_0001_010010_010001_010000_01010_11, .vsubF .f64 16 17 18),
   (0b010_0010_010010_010001_010000_01010_11, .vmulF .b16 16 17 18),
   (0b001_0011_010010_010001_010000_01010_11, .vdivF .f64 16 17 18),
   (0b100_0100_010010_010001_010000_01010_11, .vminF (.fr 0) 16 17 18),
   (0b101_0101_010010_010001_010000_01010_11, .vmaxF (.fr 1) 16 17 18),
   (0b110_0110_000000_010001_010000_01010_11, .vabsF (.fr 2) 16 17),
   (0b111_0111_000000_010001_010000_01010_11, .vnegF (.fr 3) 16 17),
   (0b000_1000_010010_010001_010000_01010_11, .vceqF .f32 16 17 18),
   (0b001_1001_010010_010001_010000_01010_11, .vcltF .f64 16 17 18),
   (0b010_1010_010010_010001_010000_01010_11, .vcleF .b16 16 17 18),
   (0b011_1011_010010_010001_010000_01010_11, .vcunF .h16 16 17 18),
   (0b000_1100_000000_010001_010000_01010_11, .vrsumF .f32 16 17),
   (0b001_1101_000000_010001_010000_01010_11, .vrmaxF .f64 16 17),
   (0b010_1110_000000_010001_010000_01010_11, .vrminF .b16 16 17)]

theorem test_words_vecF_decode : wordsVecF.map (fun e => decodeTableWord 32 e.1) = wordsVecF.map (fun e => some e.2) := rfl
theorem test_words_vecF_encode : wordsVecF.map (fun e => e.2.encode) = wordsVecF.map (fun e => some (32, e.1)) := rfl

noncomputable def wordsVecI : List (Nat × Instr) :=
  [(0b000_0000_010010_010001_010000_01011_11, .vaddI .i8 16 17 18),
   (0b001_0001_010010_010001_010000_01011_11, .vsubI .i16 16 17 18),
   (0b010_0010_010010_010001_010000_01011_11, .vadds .i32 16 17 18),
   (0b011_0011_010010_010001_010000_01011_11, .vsubs .i64 16 17 18),
   (0b100_0100_010010_010001_010000_01011_11, .vmulI .n8 16 17 18),
   (0b101_0101_010010_010001_010000_01011_11, .vminI .n16 16 17 18),
   (0b110_0110_010010_010001_010000_01011_11, .vmaxI .n32 16 17 18),
   (0b111_0111_010010_010001_010000_01011_11, .vand .n64 16 17 18),
   (0b000_1000_010010_010001_010000_01011_11, .vor .i8 16 17 18),
   (0b001_1001_010010_010001_010000_01011_11, .vxor .i16 16 17 18),
   (0b010_1010_010010_010001_010000_01011_11, .vshl .i32 16 17 18),
   (0b011_1011_010010_010001_010000_01011_11, .vshr .i64 16 17 18),
   (0b100_1100_010010_010001_010000_01011_11, .vceqI .n8 16 17 18),
   (0b101_1101_010010_010001_010000_01011_11, .vcltI .n16 16 17 18),
   (0b110_1110_010010_010001_010000_01011_11, .vsel .n32 16 17 18),
   (0b111_1111_000000_010001_010000_01011_11, .vrsumI .n64 16 17)]

theorem test_words_vecI_decode : wordsVecI.map (fun e => decodeTableWord 32 e.1) = wordsVecI.map (fun e => some e.2) := rfl
theorem test_words_vecI_encode : wordsVecI.map (fun e => e.2.encode) = wordsVecI.map (fun e => some (32, e.1)) := rfl

noncomputable def wordsPermutes : List (Nat × Instr) :=
  [(0b0000000_010010_010001_010000_01100_11, .vshuf 16 17 18),
   (0b0000001_010010_010001_010000_01100_11, .vzlo 16 17 18),
   (0b0000010_010010_010001_010000_01100_11, .vzhi 16 17 18),
   (0b0000011_010010_010001_010000_01100_11, .vuev 16 17 18),
   (0b0000100_010010_010001_010000_01100_11, .vuod 16 17 18),
   (0b0000101_00_1111_010001_010000_01100_11, .vbcst 16 17 15 0),
   (0b0000110_01_0111_010001_010000_01100_11, .vext 16 17 7 1),
   (0b0000111_11_0001_010001_010000_01100_11, .vins 16 17 1 3),
   (0b0001000_010010_010001_010000_01100_11, .vexl 16 17 18),
   (0b0001001_000000_010001_010000_01100_11, .vrev 16 17),
   (0b0010000_010010_010001_000000_01100_11, .xqSnd 17 18),
   (0b0010001_110_011_000000_010000_01100_11, .xqTry 16 3 6),
   (0b0010010_000_011_000000_010000_01100_11, .xqRcv 16 3)]

theorem test_words_permutes_decode : wordsPermutes.map (fun e => decodeTableWord 32 e.1) = wordsPermutes.map (fun e => some e.2) := rfl
theorem test_words_permutes_encode : wordsPermutes.map (fun e => e.2.encode) = wordsPermutes.map (fun e => some (32, e.1)) := rfl

noncomputable def wordsFusedAndSpecial : List (Nat × Instr) :=
  [(0b010_0000_010010_010001_010000_01101_11, .vfma .b16 16 17 18),
   (0b011_0001_010010_010001_010000_01101_11, .vfms .h16 16 17 18),
   (0b100_0010_010010_010001_010000_01101_11, .vfnma (.fr 0) 16 17 18),
   (0b101_0011_010010_010001_010000_01101_11, .vfnms (.fr 1) 16 17 18),
   (0b110_0100_010010_010001_010000_01101_11, .vdot (.fr 2) 16 17 18),
   (0b101_0101_010010_010001_010000_01101_11, .vdoti .n16 16 17 18),
   (0b000_0000_000000_010001_010000_01110_11, .vrcp .f32 16 17),
   (0b010_0001_000000_010001_010000_01110_11, .vrsqrt .b16 16 17),
   (0b001_0010_000000_010001_010000_01110_11, .vsqrt .f64 16 17),
   (0b000_0011_000000_010001_010000_01110_11, .vexp2 .f32 16 17),
   (0b010_0100_000000_010001_010000_01110_11, .vlog2 .b16 16 17),
   (0b011_0101_000000_010001_010000_01110_11, .vsin .h16 16 17),
   (0b000_0110_000000_010001_010000_01110_11, .vcos .f32 16 17),
   (0b010_0111_000000_010001_010000_01110_11, .vtanh .b16 16 17),
   (0b011_1000_000000_010001_010000_01110_11, .vsigm .h16 16 17),
   (0b000_1001_000000_010001_010000_01110_11, .verf .f32 16 17)]

theorem test_words_fusedAndSpecial_decode : wordsFusedAndSpecial.map (fun e => decodeTableWord 32 e.1) = wordsFusedAndSpecial.map (fun e => some e.2) := rfl
theorem test_words_fusedAndSpecial_encode : wordsFusedAndSpecial.map (fun e => e.2.encode) = wordsFusedAndSpecial.map (fun e => some (32, e.1)) := rfl

noncomputable def wordsConversions : List (Nat × Instr) :=
  [(0b000_0100_00_0000_010001_010000_01111_11, .cvt .e4 .f32 16 17),
   (0b001_0010_00_1001_010001_010000_01111_11, .cvti (.int .i32) (.fr 1) 16 17),
   (0b010_0011_00_1011_010001_010000_01111_11, .cvtf .h16 (.fr 3) 16 17),
   (0b011_0101_00_0010_010001_010000_01111_11, .qnt .e5 .b16 16 17),
   (0b100_0011_00_1000_010001_010000_01111_11, .dqnt .h16 (.fr 0) 16 17),
   (0b101_0000_00_0101_010001_010000_01111_11, .fclass .e5 16 17),
   (0b110_0001_00_0000_010001_010000_01111_11, .pack 16 17 true),
   (0b111_0010_00_0000_010001_010000_01111_11, .unpack 16 17 2)]

theorem test_words_conversions_decode : wordsConversions.map (fun e => decodeTableWord 32 e.1) = wordsConversions.map (fun e => some e.2) := rfl
theorem test_words_conversions_encode : wordsConversions.map (fun e => e.2.encode) = wordsConversions.map (fun e => some (32, e.1)) := rfl

noncomputable def wordsChildren : List (Nat × Instr) :=
  [(0b0110000_000000_010001_010000_10000_11, .mx 16 17 0x30),
   (0b0110000_000001_010001_010000_10000_11, .mxs 16 17 0x30),
   (0b0110000_000010_010001_010000_10000_11, .mxDrn 16 17 0x30),
   (0b0110000_000011_010001_010000_10000_11, .mxClr 16 17 0x30),
   (0b0110000_000000_010001_010000_10001_11, .cp 16 17 0x30),
   (0b0110000_000001_010001_010000_10001_11, .cpT 16 17 0x30),
   (0b0110000_000010_010001_010000_10001_11, .cpRed 16 17 0x30),
   (0b0110000_000011_010001_010000_10001_11, .cpCls 16 17 0x30),
   (0b0000000_000100_010001_010000_10001_11, .strmA 16 17 0x00),
   (0b0000000_000101_010001_010000_10001_11, .strmB 16 17 0x00),
   (0b0110000_000110_010001_010000_10001_11, .cpGat 16 17 0x30),
   (0b0110000_000111_010001_010000_10001_11, .cpSca 16 17 0x30),
   (0b0110000_000000_010001_010000_10010_11, .colAr 16 17 0x30),
   (0b0110000_000001_010001_010000_10010_11, .colAg 16 17 0x30),
   (0b0110000_000010_010001_010000_10010_11, .colRs 16 17 0x30),
   (0b0110000_000011_010001_010000_10010_11, .colBc 16 17 0x30),
   (0b0110000_000100_010001_010000_10010_11, .colA2a 16 17 0x30),
   (0b0110000_000000_010001_010000_10100_11, .rowGat 16 17 0x30),
   (0b0110000_000001_010001_010000_10100_11, .rowSca 16 17 0x30),
   (0b0110000_000010_010001_010000_10100_11, .rowPin 16 17 0x30),
   (0b0110000_000011_010001_010000_10100_11, .rowUnp 16 17 0x30),
   (0b0110000_000100_010001_010000_10100_11, .rowHint 16 17 0x30)]

theorem test_words_children_decode : wordsChildren.map (fun e => decodeTableWord 32 e.1) = wordsChildren.map (fun e => some e.2) := rfl
theorem test_words_children_encode : wordsChildren.map (fun e => e.2.encode) = wordsChildren.map (fun e => some (32, e.1)) := rfl

noncomputable def wordsTokens : List (Nat × Instr) :=
  [(0b0000000_000000_010001_010000_10011_11, .tokWait 16 17),
   (0b0000001_000_110_010001_010000_10011_11, .tokTest 16 17 6),
   (0b0000010_000000_010001_000000_10011_11, .tokDet 17),
   (0b0000011_000000_010001_000000_10011_11, .tokAdop 17),
   (0b0000100_010010_010001_000000_10011_11, .tokDep 17 18),
   (0b0000100_010010_010001_00000_1_10011_11, .tokDepGo 17 18),
   (0b0000101_000000_010001_000000_10011_11, .tokCan 17),
   (0b0000101_000000_010001_00000_1_10011_11, .tokCanR 17),
   (0b0000110_010010_010001_000000_10011_11, .tokPri 17 18),
   (0b0000111_00000_1_010001_010000_10011_11, .tokRec 16 17 true),
   (0b0001000_010010_010001_000000_10011_11, .tokPost 17 18)]

theorem test_words_tokens_decode : wordsTokens.map (fun e => decodeTableWord 32 e.1) = wordsTokens.map (fun e => some e.2) := rfl
theorem test_words_tokens_encode : wordsTokens.map (fun e => e.2.encode) = wordsTokens.map (fun e => some (32, e.1)) := rfl

noncomputable def wordsTasks : List (Nat × Instr) :=
  [(0b0000000_010010_010001_000000_10101_11, .spawn 17 18),
   (0b0000001_010010_010001_010000_10101_11, .spawnO 16 17 18),
   (0b0000010_010010_010001_000000_10101_11, .spawnD 17 18),
   (0b0000011_000000_000000_000000_10101_11, .susp),
   (0b0000100_000000_000000_000000_10101_11, .done),
   (0b0000101_000000_000000_000000_10101_11, .yield),
   (0b0000110_000000_000000_010000_10101_11, .tsGet 16),
   (0b0000111_000000_000000_000000_10101_11, .abort),
   (0b0001000_100000000001_000000_10101_11, .spt 0x801),
   (0b0001001_000000_010001_010000_10101_11, .launch 16 17),
   (0b0001010_000000_010001_010000_10101_11, .kinfo 16 17),
   (0b0000000_010010_010001_000000_10110_11, .snd 17 18),
   (0b0000001_010010_010001_000000_10110_11, .sndC 17 18),
   (0b0000010_000000_010001_000000_10110_11, .rpl 17),
   (0b0000011_010010_010001_000000_10110_11, .tagBind 17 18),
   (0b0000100_010010_010001_010000_10110_11, .rq 16 17 18)]

theorem test_words_tasks_decode : wordsTasks.map (fun e => decodeTableWord 32 e.1) = wordsTasks.map (fun e => some e.2) := rfl
theorem test_words_tasks_encode : wordsTasks.map (fun e => e.2.encode) = wordsTasks.map (fun e => some (32, e.1)) := rfl

noncomputable def wordsPortsSignalsGroups : List (Nat × Instr) :=
  [(0b0000000_010010_010001_000000_10111_11, .patBind 17 18),
   (0b0000001_000000_010001_000000_10111_11, .patDrop 17),
   (0b0000010_010010_010001_000000_10111_11, .portCfg 17 18),
   (0b0000011_010010_010001_000000_10111_11, .portGive 17 18),
   (0b0000100_00_1001_010001_010000_10111_11, .portSt 16 17 9),
   (0b0000101_00_110_0_010001_010000_10111_11, .portTake 16 17 6),
   (0b0000101_00_000_1_010001_010000_10111_11, .portTakeW 16 17),
   (0b0000110_000000_010001_010000_10111_11, .portClr 16 17),
   (0b0000000_010010_010001_010000_11000_11, .sigAdd 16 17 18),
   (0b0000001_010010_010001_010000_11000_11, .sigSet 16 17 18),
   (0b0000010_000000_010001_010000_11000_11, .sigRd 16 17),
   (0b0000011_010010_010001_010000_11000_11, .sigWait 16 17 18),
   (0b0000100_010010_010001_010000_11000_11, .sigCas 16 17 18),
   (0b0000000_000000_010001_010000_11001_11, .grpNew 16 17),
   (0b0000001_00000_1_010001_000000_11001_11, .grpEnd 17 true),
   (0b0000010_00_1110_010001_010000_11001_11, .grpRd 16 17 14),
   (0b0000011_010010_010001_00_1011_11001_11, .grpSet 11 17 18),
   (0b0000100_010010_010001_000000_11001_11, .ebudSet 17 18),
   (0b0000101_000000_010001_010000_11001_11, .ebudRd 16 17)]

theorem test_words_portsSignalsGroups_decode : wordsPortsSignalsGroups.map (fun e => decodeTableWord 32 e.1) = wordsPortsSignalsGroups.map (fun e => some e.2) := rfl
theorem test_words_portsSignalsGroups_encode : wordsPortsSignalsGroups.map (fun e => e.2.encode) = wordsPortsSignalsGroups.map (fun e => some (32, e.1)) := rfl

noncomputable def wordsSystem : List (Nat × Instr) :=
  [(0b0000000_010001_000000_010000_11010_11, .mfs 16 0x11),
   (0b0000001_010001_010001_000000_11010_11, .mts 17 0x11),
   (0b0000010_000000_010001_000000_11010_11, .trap 17),
   (0b0000011_010010_010001_000000_11010_11, .tlbWr 17 18),
   (0b0000100_010010_010001_000000_11010_11, .tlbInvPage 17 18),
   (0b0000101_010010_010001_010000_11010_11, .tlbPrb 16 17 18),
   (0b0000110_010010_010001_010000_11010_11, .pgWake 16 17 18),
   (0b0000111_010010_010001_010000_11010_11, .dlHv 16 17 18),
   (0b0001000_010010_010001_000000_11010_11, .errInj 17 18),
   (0b0001001_000000_010001_010000_11010_11, .clsQ 16 17),
   (0b0001010_010010_010001_010000_11010_11, .ctxSv 16 17 18),
   (0b0001011_010010_010001_000000_11010_11, .ctxLdCreate 17 18),
   (0b0000000_010010_010001_010000_11011_11, .queSubRegister 16 17 18),
   (0b0000001_010010_010001_000000_11011_11, .slotMap 17 18),
   (0b0000010_010010_010001_000000_11011_11, .slotUnm 17 18),
   (0b0000011_000000_010001_010000_11011_11, .slotRd 16 17),
   (0b0000100_010010_010001_000000_11011_11, .dlogWr 17 18),
   (0b0000101_000000_010001_010000_11011_11, .dlogRd 16 17),
   (0b0000000_111110_000000_000000_11100_11, .dbgBrk 62),
   (0b0000001_000000_010001_000000_11100_11, .dbgMark 17),
   (0b0000010_000000_010001_010000_11100_11, .profRd 16 17),
   (0b0000011_010010_010001_000000_11100_11, .dbgStopStop 17 18),
   (0b0000000_111110_010001_0000_10_11101_11, .xld 2 17 62),
   (0b0000001_111110_010001_000000_11101_11, .xld4 17 62),
   (0b0000010_000000_010001_0000_10_11101_11, .xmv 2 17),
   (0b0000011_000000_0000_10_010000_11101_11, .xrd 16 2),
   (0b0000100_111110_010001_0000_10_11101_11, .xst 2 17 62),
   (0b0000101_111110_010001_000000_11101_11, .xst4 17 62)]

theorem test_words_system_decode : wordsSystem.map (fun e => decodeTableWord 32 e.1) = wordsSystem.map (fun e => some e.2) := rfl
theorem test_words_system_encode : wordsSystem.map (fun e => e.2.encode) = wordsSystem.map (fun e => some (32, e.1)) := rfl

noncomputable def wordsCompact : List (Nat × Instr) :=
  [(0b000_001_010_011_01_00, .cAdd true 3 2 1),
   (0b001_001_010_011_00_00, .cSub false 3 2 1),
   (0b010_001_010001_01_00, .cMov true 17 1),
   (0b011_001_010_10001_00, .cAddi 0x11 2 1),
   (0b100_001_10000001_00, .cLi 0x81 1),
   (0b101_001_010_1001_1_00, .cLd true 9 2 1),
   (0b110_001_010_1001_0_00, .cSt false 9 2 1),
   (0b111_101_010_011_10_00, .cCmp 2 3 2 5),
   (0b000_101_1_1000001_01, .cBr 0x41 true 5),
   (0b001_10000000001_01, .cJmp 0x401),
   (0b010_001_010_011_10_01, .cVadd 2 3 2 1),
   (0b011_001_010_011_10_01, .cVfma 2 3 2 1),
   (0b100_10_010001_000_01, .cXmv 17 2),
   (0b101_10_1001_00000_01, .cWait 9 2),
   (0b110_10000000001_01, .cSpt 0x401),
   (0b000_00000000000_10, .cSusp),
   (0b001_00000000000_10, .cDone),
   (0b010_101_1_0000000_10, .cIf true 5),
   (0b011_00000000000_10, .cNop)]

theorem test_words_compact_decode : wordsCompact.map (fun e => decodeTableWord 16 e.1) = wordsCompact.map (fun e => some e.2) := rfl
theorem test_words_compact_encode : wordsCompact.map (fun e => e.2.encode) = wordsCompact.map (fun e => some (16, e.1)) := rfl

/-- Words that the chapters of the spec print beside an instruction (R48, R84, R119, R142, R150, R285, R324, R364, R424 and others). -/
noncomputable def wordsPrinted : List (Nat × Instr) :=
  [(0x00528983, .add 19 20 10),
   (0xB3C26987, .addi 19 19 (-2440)),
   (0x1234698B, .lui 19 37283),
   (0xFFFF4813, .lpe 0 false (-6)),
   (0xC012CA9B, .ldI32 21 22 2),
   (0x7FF2CA9F, .st64 21 22 (-2)),
   (0xB10A89A3, .amoAdd 19 20 .acq .dev true),
   (0xB30F3C23, .amoAdd 56 57 .ar .dev true),
   (0xD452EB23, .cas 22 23 .sc .sys true),
   (0x0020C027, .fence .dev .sc),
   (0x02AA83A7, .cwb .host 20 21),
   (0x08026A27, .lds 20 19 0),
   (0x0C7F8027, .wait 0 0 15 15),
   (0x0D8A0AB3, .vext 21 16 1 3),
   (0x0F8B4DB3, .vins 27 26 1 3),
   (0x20B28033, .xqSnd 20 22),
   (0x241009B3, .xqRcv 19 2),
   (0x00D32C37, .vfma .f32 24 25 26),
   (0x080289BF, .cvt .e4 .f32 19 20),
   (0x6812CABF, .qnt .e4 .b16 21 22),
   (0x6002CAC3, .mx 21 22 0x30),
   (0x00083AC3, .mxs 53 1 0),
   (0x80036E47, .cp 28 27 0x40),
   (0x801D55C7, .cpCls 43 42 0x40),
   (0x002029C7, .strmA 19 1 0),
   (0x00282A47, .strmB 20 1 0),
   (0x0004C9CF, .tokWait 19 38),
   (0x0214C9CF, .tokTest 19 38 2),
   (0x092CC0CF, .tokDepGo 38 37),
   (0x0A04C0CF, .tokCanR 38),
   (0x0CACC04F, .tokPri 38 21),
   (0x0E0CD24F, .tokRec 36 38 true),
   (0x10ACC04F, .tokPost 38 21),
   (0x00AC8057, .spawn 36 21),
   (0x02AC89D7, .spawnO 19 36 21),
   (0x04AC8057, .spawnD 36 21),
   (0x0C0009D7, .tsGet 19),
   (0x10258057, .spt 300),
   (0x120489D7, .launch 19 36),
   (0x140289D7, .kinfo 19 20),
   (0x00AC805B, .snd 36 21),
   (0x0404805B, .rpl 36),
   (0x06AA805B, .tagBind 20 21),
   (0x08AC89DB, .rq 19 36 21),
   (0x00AC805F, .patBind 36 21),
   (0x080289DF, .portSt 19 20 0),
   (0x0A22925F, .portTake 36 20 2),
   (0x0A0A925F, .portTakeW 36 20),
   (0x0C0289DF, .portClr 19 20),
   (0x00AA89E3, .sigAdd 19 20 21),
   (0x06AA89E3, .sigWait 19 20 21),
   (0x020A8067, .grpEnd 20 true),
   (0x041289E7, .grpRd 19 20 2),
   (0x06AA8267, .grpSet 4 20 21),
   (0x06AA806B, .tlbWr 20 21),
   (0x08AA806B, .tlbInvPage 20 21),
   (0x0EAA89EB, .dlHv 19 20 21),
   (0x120289EB, .clsQ 19 20),
   (0x16AA806B, .ctxLdCreate 20 21),
   (0x00AA89EF, .queSubRegister 19 20 21),
   (0x060289EF, .slotRd 19 20),
   (0x08AA806F, .dlogWr 20 21),
   (0x00280073, .dbgBrk 5),
   (0x06AA8073, .dbgStopStop 20 21),
   (0x001A0077, .xld 0 16 3),
   (0x04032177, .xmv 2 25)]

theorem test_words_printed : wordsPrinted.map (fun e => decodeTableWord 32 e.1) = wordsPrinted.map (fun e => some e.2) := rfl

noncomputable def wordsPrintedCompact : List (Nat × Instr) :=
  [(0x64F4, .cAddi (-3) 1 1), (0x2002, .cDone), (0x4802, .cIf false 2), (0xC015, .cSpt 5), (0x0002, .cSusp), (0xA801, .cWait 0 1), (0x6002, .cNop)]

theorem test_words_printed_compact :
    wordsPrintedCompact.map (fun e => decodeTableWord 16 e.1) = wordsPrintedCompact.map (fun e => some e.2) := rfl

/-- Rows that share a word differ in an operand (R233, R373, R390, R424). -/
theorem test_words_shared : (Instr.tlbInvContext 17 18).encode = (Instr.tlbInvPage 17 18).encode ∧
    (Instr.tlbInvAll 17 18).encode = (Instr.tlbInvPage 17 18).encode ∧ (Instr.ctxLdUpdate 17 18).encode = (Instr.ctxLdCreate 17 18).encode ∧
    (Instr.ctxLdDestroy 17 18).encode = (Instr.ctxLdCreate 17 18).encode ∧
    (Instr.queSubUnregister 16 17 18).encode = (Instr.queSubRegister 16 17 18).encode ∧
    (Instr.queSubResume 16 17 18).encode = (Instr.queSubRegister 16 17 18).encode ∧
    (Instr.dbgStopGo 17 18).encode = (Instr.dbgStopStop 17 18).encode ∧ (Instr.dbgStopStep 17 18).encode = (Instr.dbgStopStop 17 18).encode :=
  ⟨rfl, rfl, rfl, rfl, rfl, rfl, rfl, rfl⟩

/-! ### Words that are none, and ill-formed terms (R28, R35, R39, R46, R47) -/

/-- Why a word of 32 bits is refused. -/
noncomputable def refusedFor (w : Nat) : Option Ill := match decodeWord w with | .error e => some e | .ok _ => none

theorem test_refused_words :
    refusedFor 0 = some .zeroHalfword ∧ refusedFor 0b0000000_000000_000000_000000_11110_11 = some .reservedMajor ∧
    refusedFor 0b0100000_010010_010001_010000_00000_11 = some .reservedFn ∧ refusedFor 0b111_00000000000_01 = some .reservedForm16 ∧
    refusedFor 0b001_001_010_011_10_00 = some .reservedField ∧ refusedFor 0b0010111_000001_010001_010000_00000_11 = some .reservedField ∧
    refusedFor 0b1_0110_101_00001_010110_010101_01000_11 = some .reservedOrd ∧
    refusedFor 0b1_1011_010_00001_010110_010101_01000_11 = some .reservedScope ∧
    refusedFor 0b0000100_00_0110_010001_010000_01111_11 = some .reservedType :=
  ⟨rfl, rfl, rfl, rfl, rfl, rfl, rfl, rfl, rfl⟩

/-- Three bytes hold no 32-bit word. -/
theorem test_truncated_word : decodeBytes [0x83, 0x89, 0x52] = .error .truncated := rfl

theorem test_ill_formed_terms :
    (Instr.add 2 17 18).illFormed = some .reservedSpec ∧ (Instr.add 16 7 18).illFormed = some .reservedSpec ∧
    (Instr.add 8 0 1).illFormed = none ∧ (Instr.sext 16 17 0).illFormed = some .badRange ∧ (Instr.zext 16 17 0).illFormed = some .badRange ∧
    (Instr.cmpEq 0 17 18).illFormed = some .destP0 ∧ (Instr.fence .dev .rlx).illFormed = some .reservedOrd ∧
    (Instr.cwb .dev 17 18).illFormed = some .reservedScope ∧ (Instr.pf 17 3).illFormed = some .badRange ∧
    (Instr.vaddF .e4 16 17 18).illFormed = some .reservedType ∧ (Instr.vdivF .b16 16 17 18).illFormed = some .reservedType ∧
    (Instr.vext 16 17 2 3).illFormed = some .badRange ∧ (Instr.vdot .f32 16 17 18).illFormed = some .reservedType ∧
    (Instr.vdoti .i32 16 17 18).illFormed = some .reservedType ∧ (Instr.vrcp (.fr 0) 16 17).illFormed = some .reservedType ∧
    (Instr.qnt .f32 .b16 16 17).illFormed = some .reservedType ∧ (Instr.mx 16 17 0x50).illFormed = some .badRange ∧
    (Instr.tokRec 61 17 true).illFormed = some .payloadReg ∧ (Instr.spawn 62 17).illFormed = some .payloadReg ∧
    (Instr.launch 16 15).illFormed = some .payloadReg ∧ (Instr.grpSet 3 17 18).illFormed = some .badRange ∧
    (Instr.mfs 16 28).illFormed = some .badSysReg ∧ (Instr.mts 17 7).illFormed = some .badSysReg ∧
    (Instr.cVfma 3 1 2 3).illFormed = some .reservedType :=
  ⟨rfl, rfl, rfl, rfl, rfl, rfl, rfl, rfl, rfl, rfl, rfl, rfl, rfl, rfl, rfl, rfl, rfl, rfl, rfl, rfl, rfl, rfl, rfl, rfl⟩

/-! ### A small state: the firmware task runs at place 0 -/

/-- Scratchpad address 0x40 in v1 and v5, 3 in v2, an HBM address in v3, a host address in v4; every other register 0. -/
def tRegs : Vector Reg 64 :=
  ((((Vector.replicate 64 (0 : Reg)).set 17 (scalar 0x7F0000000040)).set 18 3).set 19 (scalar 0x30000)).set 20 (scalar 0x40000)

def tTask : Task :=
  { ctx := 0, launch := none, kind := 0, entry := none, irrev := false, code := none, arrival := 0, admitted := 0, slot := 0 }

def tThread : Thread := { Thread.idle 0 with state := .ready, task := some tTask, ltStale := false, regs := tRegs, pc := 0x1000 }

/-- The part is live, and place 0 runs a firmware task. -/
def tState : State := { State.reset with hub := { Hub.reset with phase := 2, rate := 5 }, ctxs := [(0, Ctx.firmware)], threads := [(0, tThread)] }

/-- The same with the running context changed. -/
def tWith (f : Thread → Thread) : State := { tState with threads := [(0, f tThread)] }

/-- The running context with values in some registers. -/
def Sys2Proof.Machine.Thread.reg (t : Thread) (r : Spec) (v : Reg) : Thread := { t with regs := t.regs.set r v }

theorem tState_canRead (r : Spec) : tState.canRead r := Or.inr ⟨fun e => Bool.noConfusion e.2, rfl, rfl⟩
theorem tState_canWrite (r : Spec) : tState.canWrite r := Or.inr rfl
theorem tState_canLoad (r : Spec) : tState.canLoad r := ⟨by decide, Or.inr (Or.inr rfl)⟩
theorem tState_canPay (r : Spec) : tState.canPay r := ⟨tState_canRead _, tState_canRead _, tState_canRead _⟩
theorem tState_canSend : tState.canSend := ⟨rfl, rfl, by decide, rfl⟩
theorem tWith_canRead (f : Thread → Thread) (r : Spec) (h : (f tThread).ltStale = false) (hd : (f tThread).dmg = []) :
    (tWith f).canRead r := by
  refine Or.inr ⟨fun e => ?_, rfl, ?_⟩
  · exact absurd (h.symm.trans e.2) (by decide)
  · show ((f tThread).damage r) = []
    simp [Thread.damage, hd]

/-! ### Witnesses: integers, compares, branches -/

theorem witness_IntegerResults : tState.canRead 17 ∧ tState.canRead 18 ∧ tState.canWrite 63 ∧ tState.canWrite 1 ∧ tState.val64 18 = 3 :=
  ⟨tState_canRead _, tState_canRead _, tState_canWrite _, tState_canWrite _, rfl⟩
theorem witness_DivisionNeverFaults : tState.canRead 17 ∧ tState.canRead 1 ∧ tState.canWrite 16 ∧ tState.val64 1 = 0 :=
  ⟨tState_canRead _, tState_canRead _, tState_canWrite _, rfl⟩
theorem witness_IntegerImmediateAndCompactForms :
    tState.canRead (cReg 0) ∧ tState.canRead (cReg 7) ∧ tState.canWrite (cReg 7) ∧ tState.canRead 63 ∧ tState.canWrite 63 ∧ cReg 7 = 0 :=
  ⟨tState_canRead _, tState_canRead _, tState_canWrite _, tState_canRead _, tState_canWrite _, rfl⟩
theorem witness_ComparesWriteOnePredicate : tState.canRead 17 ∧ tState.canRead 1 := ⟨tState_canRead _, tState_canRead _⟩
theorem witness_PredicateLogic : tState.canRead (cReg 6) ∧ tState.canRead (cReg 7) := ⟨tState_canRead _, tState_canRead _⟩
/-- The targets of `call`: odd, beyond the 47-bit space, and even. -/
theorem witness_BranchesAndCalls :
    (tState.core (coreOf tState.cur)).trcEn = false ∧ tState.canRead 18 ∧ tState.canWrite 1 ∧
    (tState.val64 18 + BitVec.ofInt 64 (2 * (0 : BitVec 13).toInt)).getLsbD 0 = true ∧
    2 ^ 47 ≤ ((tWith (·.reg 18 (scalar 0x800000000000))).val64 18 + BitVec.ofInt 64 (2 * (0 : BitVec 13).toInt)).toNat ∧
    (tState.me.pc + BitVec.ofInt 64 (2 * (1 : BitVec 13).toInt)).toNat < 2 ^ 47 := by
  refine ⟨rfl, tState_canRead _, tState_canWrite _, ?_, ?_, ?_⟩ <;> decide
theorem witness_CountedLoop : (tState.core (coreOf tState.cur)).trcEn = false := rfl
theorem witness_PredicatePrefix : tState.me.pfx = none ∧ (tWith ({ · with pfx := some 0xFFE })).me.pfx ≠ none := ⟨rfl, by decide⟩

/-! ### Witnesses: accesses -/

theorem witness_AccessChecksInOrder :
    2 ^ 47 ≤ (0x800000000000 : Word).toNat ∧
    (0x7F0000020000 ≤ (0x7F0000020000 : Word).toNat ∧ (0x7F00FFFFFFFF : Word).toNat < 0x7F0100000000) ∧
    (0x7F0100000000 ≤ (0x7F0100020000 : Word).toNat ∧ (0x7F0100020000 : Word).toNat < 0x7F0140000000 ∧ AKind.read ≠ .write ∧
      validPlace (((0x7F0100020000 : Word).toNat - 0x7F0100000000) / 0x20000 * 8) = true ∧
      isDispatch (((0x7F0100020000 : Word).toNat - 0x7F0100000000) / 0x20000 * 8) = false ∧
      ((0x7F0100020000 : Word).toNat - 0x7F0100000000) % 0x20000 + 1 ≤ 0x20000) ∧
    (0x7FFF00000000 ≤ (0x7FFFFFFFFFF8 : Word).toNat ∧ (0x7FFFFFFFFFF8 : Word).toNat + 8 ≤ 2 ^ 47 ∧ tState.privileged 0 = true ∧
      (({ tState with ctxs := [] } : State).privileged 0 = false)) ∧
    (0x7FFF00000000 ≤ (0x7FFFFFFFFFFC : Word).toNat ∧ (0x7FFFFFFFFFFC : Word).toNat < 2 ^ 47 ∧ 2 ^ 47 < (0x7FFFFFFFFFFC : Word).toNat + 8) ∧
    ((0x7EFFFFFFFFFC : Word).toNat < 0x7F0000000000 ∧ (0x7EFFFFFFFFFC : Word).toNat % 8 ≠ 0 ∧ (0x7EFFFFFFFFF4 : Word).toNat + 8 ≤ 0x7F0000000000) ∧
    ((0x7F000001FFF0 : Word).toNat % 16 = 0 ∧ (tState.thread 0).launchNo = none) ∧
    (0x7F0100000000 ≤ (0x7F0100000040 : Word).toNat ∧ ((0x7F0100000040 : Word).toNat - 0x7F0100000000) / 0x20000 = 0 / 8 ∧
      validPlace (0 / 8 * 8) = true ∧ isDispatch (0 / 8 * 8) = false) ∧
    (1 ≠ 0 / 8 ∧ (0x7F0100020040 : Word).toNat = 0x7F0100000000 + 1 * 0x20000 + 0x40 ∧ validPlace (1 * 8) = true ∧ isDispatch (1 * 8) = false) ∧
    (0x7F0200000000 ≤ (0x7F02004FFFF0 : Word).toNat ∧ (0x7F02004FFFF0 : Word).toNat < 0x7F0200500000 ∧ (0x7F02004FFFF0 : Word).toNat % 16 = 0) ∧
    ((0x7F030FFFFFF0 : Word).toNat < 0x7F0310000000 ∧ (0x7F030FFFFFF0 : Word).toNat % 16 = 0) ∧
    ((0x7FFFFFFFFFF8 : Word).toNat < 2 ^ 47 ∧ (0x7FFFFFFFFFF8 : Word).toNat % 8 = 0) := by
  refine ⟨?_, ?_, ?_, ?_, ?_, ?_, ?_, ?_, ?_, ?_, ?_, ?_⟩ <;> decide
theorem witness_AccessChecksChangeOnlyTlbs :
    ∃ t loc, tState.access 0 .read true 0x7F0000000040 8 = .ok (loc, t) := ⟨_, _, rfl⟩
theorem witness_LoadsAndStoresIssue : tState.canRead 17 ∧ tState.canLoad 0 ∧ tState.me.cst < 63 ∧ tState.me.speculative = false ∧
    (∃ loc, tState.access tState.cur .read true (tState.val64 17 + BitVec.ofInt 64 ((-4 : BitVec 10).toInt * 16)) 16 = .ok (loc, tState)) ∧
    (∃ loc, tState.access tState.cur .write true (tState.val64 17 + BitVec.ofInt 64 ((3 : BitVec 10).toInt * 1)) 1 = .ok (loc, tState)) :=
  ⟨tState_canRead _, tState_canLoad _, by decide, rfl, ⟨_, rfl⟩, ⟨_, rfl⟩⟩
theorem witness_CompactLoadsAndStoresIssue : (tWith (·.reg 8 (scalar 0x7F0000000000))).canRead (cReg 0) ∧
    (∃ loc t, (tWith (·.reg 8 (scalar 0x7F0000000000))).access 0 .read true
      ((tWith (·.reg 8 (scalar 0x7F0000000000))).val64 (cReg 0) + BitVec.ofNat 64 ((15 : BitVec 4).toNat * 16)) 16 = .ok (loc, t)) ∧
    (∃ loc t, (tWith (·.reg 8 (scalar 0x7F0000000000))).access 0 .write true
      ((tWith (·.reg 8 (scalar 0x7F0000000000))).val64 (cReg 0) + BitVec.ofNat 64 ((15 : BitVec 4).toNat * 8)) 8 = .ok (loc, t)) :=
  ⟨tWith_canRead _ _ rfl rfl, ⟨_, _, rfl⟩, ⟨_, _, rfl⟩⟩
theorem witness_AtomicsIssue : tState.canRead 18 ∧ tState.canRead 17 ∧ tState.canLoad 18 ∧ tState.me.speculative = false ∧
    (∃ loc, tState.access tState.cur .rmw false (tState.val64 17) 8 = .ok (loc, tState) ∧ locTag loc ≠ 1) ∧
    MOrd.sc ≠ .rlx ∧ tState.anyAcc (fun _ => true) = false ∧ tState.me.failed = none ∧
    (tState.endRegion tState.cur).canLoad 18 ∧
    ({ tState with acc := [(0, tState.access0 .store 0x7F0000000040 8 (18 * 2 ^ 64 + 64))] } : State).anyAcc (fun _ => true) = true :=
  ⟨tState_canRead _, tState_canRead _, tState_canLoad _, rfl, ⟨_, rfl, by decide⟩, by decide, rfl, rfl, ⟨by decide, Or.inr (Or.inr rfl)⟩, rfl⟩
theorem witness_ExtensionRegisterForms : tState.canRead 17 ∧ tState.canWrite 16 ∧ tState.me.cst < 63 ∧
    (∃ loc, tState.access tState.cur .read true (tState.val64 17 + BitVec.ofNat 64 (8 * 1 * (63 : BitVec 6).toNat)) (8 * 1) = .ok (loc, tState)) ∧
    (∃ loc, tState.access tState.cur .read false (tState.val64 17 + BitVec.ofNat 64 (8 * 4 * (63 : BitVec 6).toNat)) (8 * 4) = .ok (loc, tState)) ∧
    (∃ loc, tState.access tState.cur .write false (tState.val64 17 + BitVec.ofNat 64 (8 * 4 * (0 : BitVec 6).toNat)) (8 * 4) = .ok (loc, tState)) :=
  ⟨tState_canRead _, tState_canWrite _, by decide, ⟨_, rfl⟩, ⟨_, rfl⟩, ⟨_, rfl⟩⟩

/-- A state with one access outstanding that its home has taken up. -/
def tAcc (k : AccKind) (homed : Bool) : State :=
  { tState with acc := [(0, { tState.access0 k 0x7F0000000040 8 (18 * 2 ^ 64 + 64) with homed })], nextId := 1 }

theorem witness_AccessesArePerformed :
    (∃ a, Tab.get? (tAcc (.load true) true).acc 0 = some a ∧ a.kind = .load true ∧ a.homed = true ∧ a.sent = false ∧ a.loose = false ∧ a.n = 8 ∧
      locTag a.loc ≠ 21 ∧ (tAcc (.load true) true).pathWaits a.place a.loc = false ∧ (tAcc (.load true) true).mayPerform 0 a = true ∧
      (tAcc (.load true) true).granule (a.loc / 64) = Gran.clean ∧ a.loc % a.n = 0 ∧
      ((tAcc (.load true) true).thread a.place).staleLines a.place (a.loc / 32) ((tAcc (.load true) true).bytesAt (a.loc / 32 * 32) 32)
        (Tab.getD (tAcc (.load true) true).past (a.loc / 32) []) = []) ∧
    (∃ a, Tab.get? (tAcc .store true).acc 0 = some a ∧ a.kind = .store ∧ a.homed = true ∧ a.sent = false ∧ a.loose = false ∧
      locTag a.loc = 18 ∧ locTag (a.loc + a.n) = locTag a.loc ∧ (tAcc .store true).pathWaits a.place a.loc = false ∧
      (tAcc .store true).mayPerform 0 a = true ∧ (tAcc .store true).granule (a.loc / 64) = Gran.clean ∧
      Memory.wf (tAcc .store true).mem = true) ∧
    (∃ a, Tab.get? (tAcc .store false).acc 0 = some a ∧ a.homed = false ∧ 18 ≤ locTag a.loc ∧ locTag a.loc ≠ 19 ∧
      (tAcc .store false).hub.frozen = false ∧ (tAcc .store false).linkHeld a.place a.loc = false ∧ (tAcc .store false).mayPerform 0 a = true ∧ Tab.get? (tAcc .store false).waits (a.loc / 32) = none) := by
  refine ⟨⟨_, rfl, ?_⟩, ⟨_, rfl, ?_⟩, ⟨_, rfl, ?_⟩⟩ <;> decide

/-! ### Witnesses: fences, ranges, banks, vectors -/

/-- Registers of a state with no access outstanding and none damaged can all be read and written. -/
theorem canRead_of (s : State) (h : s.me.ltStale = false) (hd : s.me.dmg = []) (ha : s.acc = []) (r : Spec) : s.canRead r :=
  Or.inr ⟨fun e => absurd (h.symm.trans e.2) (by decide), by simp [State.busy, ha], by simp [Thread.damage, hd]⟩
theorem canWrite_of (s : State) (ha : s.acc = []) (r : Spec) : s.canWrite r := Or.inr (by simp [State.busy, ha])
theorem canPay_of (s : State) (h : s.me.ltStale = false) (hd : s.me.dmg = []) (ha : s.acc = []) (r : Spec) : s.canPay r :=
  ⟨canRead_of s h hd ha _, canRead_of s h hd ha _, canRead_of s h hd ha _⟩

/-- An answer that is no error and meets a test. -/
def okAnd {ε α : Type} (x : Except ε α) (p : α → Bool) : Bool := match x with | .ok a => p a | .error _ => false
theorem ok_of {ε α : Type} {x : Except ε α} {p : α → Prop} [DecidablePred p] (h : okAnd x (fun a => decide (p a)) = true) :
    ∃ a, x = .ok a ∧ p a := by
  cases x with
  | ok a => exact ⟨a, rfl, of_decide_eq_true h⟩
  | error e => exact Bool.noConfusion h

theorem witness_FencesWaitAndEndTheRegion :
    ((tAcc .store true).me.speculative = false ∧ (tAcc .store true).anyAcc (fun _ => true) = true) ∧
    (tAcc (.load true) true).anyAcc (fun _ => true) = true ∧
    (tState.me.speculative = false ∧ tState.anyAcc (fun _ => true) = false ∧ tState.me.failed = none) :=
  ⟨⟨rfl, rfl⟩, rfl, ⟨rfl, rfl, rfl⟩⟩

/-- A TLB entry of context 0: page `vpn`, readable, writable and executable; `tgt` 0 is HBM, 1 the host. -/
def tEntry (vpn ppn tgt : Nat) : TlbEntry := BitVec.ofNat 128 (vpn * 2 ^ 80 + ppn * 2 ^ 16 + tgt * 2 ^ 14 + 0x39)

/-- Pages 3 (HBM) and 4 (host) are in the core's TLB; v5 holds 64. -/
def tPages : State :=
  { tWith (·.reg 21 (scalar 64)) with cores := [(0, { Core.idle with tlb := [tEntry 3 5 0, tEntry 4 9 1] })] }

/-- The same with a host line, 64 bytes into page 4's frame, whose copy is Modified. -/
def tDirty : State := { tPages with copies := [(576460752303441921, { bytes := List.replicate 32 1, dirty := true })] }

theorem witness_RangesAndPrefetch :
    tPages.canRead 19 ∧ tPages.canRead 20 ∧ tPages.me.ordered = false ∧ tPages.anyAcc (fun x => isRemote x.loc || isAcq x.ord) = false ∧
    (tPages.val64 1).toNat = 0 ∧ 0 < (tPages.val64 21).toNat ∧
    (tPages.val64 19).toNat % 0x10000 + (tPages.val64 21).toNat ≤ 0x10000 ∧
    (∃ loc s', tPages.access tPages.cur .read false (tPages.val64 19) 1 = .ok (loc, s') ∧ locTag loc = 0) ∧
    (∃ loc s', tPages.access tPages.cur .read false (tPages.val64 20) 1 = .ok (loc, s') ∧ locTag loc = 1 ∧ s'.portRefuses loc = false) ∧
    (tPages.val64 1).toNat < 0x7F0000000000 ∧ tPages.prefetchLoc (tPages.val64 1) = none ∧
    (∃ r, tPages.prefetchLoc (tPages.val64 19) = some r) ∧ tDirty.me.cst < 63 ∧ Tab.wf tDirty.copies = true ∧
    (∃ loc s', tDirty.access tDirty.cur .read false (tDirty.val64 20) 1 = .ok (loc, s') ∧ locTag loc = 1 ∧ (∀ l, s'.engineLine l = false) ∧
      ∃ l x, Tab.get? tDirty.copies l = some x ∧ loc < l * 32 + 32 ∧ l * 32 < loc + (tDirty.val64 21).toNat ∧ x.dirty = true) ∧
    0x7F0000000000 ≤ (tPages.val64 17).toNat ∧ (tPages.val64 17).toNat < 0x7F0000020000 ∧
    (0x7F0200000000 ≤ (0x7F0200000040 : Word).toNat ∧ (0x7F0200000040 : Word).toNat < 0x7F0200500000) :=
  ⟨canRead_of _ rfl rfl rfl _, canRead_of _ rfl rfl rfl _, rfl, rfl, by decide, by decide, by decide, ⟨_, _, rfl, by decide⟩,
    ⟨_, _, rfl, by decide, rfl⟩, by decide, rfl, ⟨_, rfl⟩, by decide, by decide,
    ⟨_, _, rfl, by decide, fun _ => rfl, 576460752303441921, _, rfl, by decide, by decide, rfl⟩, by decide, by decide, by decide⟩
theorem witness_WaitsOnCounters :
    (tState.me.cld ≤ (0 : BitVec 4).toNat ∧ tState.me.failed = none) ∧
    ¬((0 : BitVec 4) = 15 ∨ (tWith ({ · with cst := 63 })).me.cst ≤ (0 : BitVec 4).toNat) ∧
    ((14 : BitVec 4) ≠ 15 ∧ ¬(tWith ({ · with cst := 63 })).me.cst ≤ (14 : BitVec 4).toNat) ∧
    (tWith ({ · with failed := some (4, 0x30000, 0x1000), nfailed := 1 })).me.failed = some (4, 0x30000, 0x1000) := by decide

/-- Bank 0 of the core has a format. -/
def tBank (v : Word) : State := { tState with cores := [(0, { Core.idle with bf := (Vector.replicate 8 0).set 0 v })] }

theorem witness_BankDecodedAccesses :
    (tBank 0x30F294).scratchBusy = false ∧ (tBank 0x30F294).me.cld < 63 ∧ (tBank 0x30F294).me.cst < 63 ∧
    (tBank 0x30F294).canRead 1 ∧ (tBank 0x30F294).canRead 17 ∧
    (∃ c, (tBank 0x30F294).cursor ((tBank 0x30F294).val64 1 + BitVec.ofNat 64 (16 * (0 : BitVec 6).toNat)) = .ok c ∧
      bfSpar c.v = 0 ∧ bfBlockLen c.v = 0 ∧ ∃ r s' vals, (tBank 0x30F294).rawAt c = .ok (r, s') ∧ blockVals c.v r = some vals ∧
        r.scale ≠ 255 ∧ s'.canWrite 63) ∧
    (∃ c, (tBank 0x20030F294).cursor ((tBank 0x20030F294).val64 1 + BitVec.ofNat 64 (16 * (0 : BitVec 6).toNat)) = .ok c ∧
      bfSpar c.v = 0 ∧ bfBlockLen c.v ≠ 0 ∧ ∃ r s', (tBank 0x20030F294).rawAt c = .ok (r, s')) :=
  ⟨rfl, by decide, by decide, canRead_of _ rfl rfl rfl _, canRead_of _ rfl rfl rfl _,
    ⟨_, rfl, by decide, by decide, _, _, _, rfl, rfl, by decide, Or.inr rfl⟩, ⟨_, rfl, by decide, by decide, _, _, rfl⟩⟩
theorem witness_FloatArithmetic : tState.me.useCheck (tState.me.ftyBad 0 vecWidths .f32) = .ok () ∧
    tState.me.useCheck (tState.me.ftyBad 0 vecWidths .h16) = .ok () ∧
    (tWith (fun t => { t with f := t.f.set 3 0x30F294 })).me.useCheck ((tWith (fun t => { t with f := t.f.set 3 0x30F294 })).me.ftyBad 0 vecWidths (.fr 3)) = .ok () ∧
    tState.canRead 63 ∧ tState.canRead 1 ∧ tState.canWrite 1 ∧ tState.canRead (cReg 7) ∧ tState.canWrite (cReg 7) :=
  ⟨rfl, rfl, rfl, tState_canRead _, tState_canRead _, tState_canWrite _, tState_canRead _, tState_canWrite _⟩
theorem witness_FloatSelectionsAndSums : tState.me.useCheck (tState.me.ftyBad 0 vecWidths .b16) = .ok () ∧
    tState.me.useCheck (tState.me.ftyBad 0 [4, 8, 16] .b16) = .ok () ∧ tState.canRead 17 ∧ tState.canWrite 17 ∧
    (intW (IntTy.i8) = 8 ∨ intW IntTy.i8 = 16) := ⟨rfl, rfl, tState_canRead _, tState_canWrite _, Or.inl rfl⟩
theorem witness_IntegerLanes : tState.canRead 17 ∧ tState.canRead 63 ∧ tState.canWrite 1 := ⟨tState_canRead _, tState_canRead _, tState_canWrite _⟩
theorem witness_PermutesMoveElements : tState.canRead 17 ∧ tState.canRead 1 ∧ tState.canRead 63 ∧ tState.canWrite 63 ∧
    (15 : BitVec 4).toNat < 128 / (8 * 2 ^ (0 : BitVec 2).toNat) ∧ (1 : BitVec 4).toNat < 128 / (8 * 2 ^ (3 : BitVec 2).toNat) :=
  ⟨tState_canRead _, tState_canRead _, tState_canRead _, tState_canWrite _, by decide, by decide⟩
theorem witness_SpecialFunctionsWithinBounds : tState.me.useCheck (tState.me.ftyBad 0 vecWidths .h16) = .ok () ∧ tState.canRead 17 ∧
    tState.canWrite 63 := ⟨rfl, tState_canRead _, tState_canWrite _⟩
theorem witness_ConversionsLaneByLane :
    tState.me.useCheck (tState.me.ftyBad 0 vecWidths .f32 ++ tState.me.ftyBad 0 vecWidths .h16) = .ok () ∧
    tState.me.useCheck (tState.me.cvtBad (.int .n8) ++ tState.me.ftyBad 0 vecWidths .f32) = .ok () ∧
    tState.me.useCheck (tState.me.ftyBad 0 vecWidths .b16 ++ tState.me.cvtBad (.int .i64)) = .ok () ∧
    (tWith (fun t => { t with f := t.f.set 0 0x1040B5 })).me.useCheck
      ((tWith (fun t => { t with f := t.f.set 0 0x1040B5 })).me.ftyBad 2 [4, 6, 8] (.fr 0) ++
        (tWith (fun t => { t with f := t.f.set 0 0x1040B5 })).me.ftyBad 0 [16] .b16) = .ok () ∧
    tState.me.f[(3 : Fin 4)] = 0 ∧ tState.canRead 17 ∧ tState.canWrite 1 :=
  ⟨rfl, rfl, rfl, rfl, rfl, tState_canRead _, tState_canWrite _⟩

/-! ### Witnesses: records, ports, signals, groups -/

/-- A register's two halves in v32. -/
def tTwo (lo hi : Word) : State := tWith (·.reg 48 (mkReg lo hi))

/-- Launch 1 of context 7 runs, with ordered tasks; its root group is slot 0 with no limits and banks 0 and 1. -/
def tLaunch : Launch :=
  { Launch.new { desc := #v[0, 0, 0, 0], ctx := 7, die := 0, from? := none, queue := none } 0 0 with state := .running, ord := true, leases := [{ base := 0, size := 0x100000, perm := 1 }] }
def tGroup : Group := newGroup (Vector.replicate 16 0) (Vector.replicate 16 0) 3 0 0 0x30000 (5 * 0x10000)
/-- The state of a task of that launch: an unordered one at place 0; pages 3 and 4 are in the core's TLB for its context. -/
def tUser (f : Thread → Thread) : State :=
  { tState with
    launches := [(1, tLaunch)]
    groups := [(4096, { tGroup with gcb := (tGroup.gcb.set 2 3) })]
    ctxs := [(0, Ctx.firmware), (7, { Ctx.empty with st := .running })]
    threads := [(0, f { tThread with task := some { tTask with launch := some 1, ctx := 7 } })]
    cores := [(0, { Core.idle with tlb := [tEntry 3 5 0 + 7 * 2 ^ 112, tEntry 4 9 1 + 7 * 2 ^ 112] })] }

/-- Any group lies in its own subtree. -/
theorem inSubtree_self (s : State) (l g : Nat) : s.inSubtree l g g = true := by simp [State.inSubtree, State.under]
theorem tGroup_live : ({ tGroup with gcb := (tGroup.gcb.set 2 3) } : Group).st ≠ 4 := by decide +kernel
theorem tUser_groupCheck (f : Thread → Thread) (h : (f { tThread with task := some { tTask with launch := some 1, ctx := 7 } }).launchNo = some 1)
    (hg : (f { tThread with task := some { tTask with launch := some 1, ctx := 7 } }).grp = 0) : (tUser f).groupCheck 0 = .ok () := by
  have h1 : (tUser f).me.launchNo = some 1 := h
  have h2 : (tUser f).me.grp = 0 := hg
  have h3 : (tUser f).group? 1 0 = some { tGroup with gcb := (tGroup.gcb.set 2 3) } := rfl
  unfold State.groupCheck
  simp only [h1, h2, h3, inSubtree_self]
  exact if_pos ⟨tGroup_live, trivial⟩

/-- A kind 0 record for handler 0x2000, routed to core 3, to its own cluster and to the clusters of a die. -/
theorem witness_SpawnsAndSendsLeaveAsRecords :
    (let s := tTwo (mkH0 0 0 0x2000) (mkH1 24 0 0)
     let h0 := s.val64 48
     let h1 := hi64 (s.regVal 48)
     s.canRead 48 ∧ s.canPay 17 ∧ s.canPay 1 ∧ s.canSend ∧ hKind h0 = 0 ∧ h0.getLsbD 0 = false ∧ hPc h0 % 64 = 0 ∧
       s.groupCheck (hGrp h0) = .ok () ∧ s.routeCheck (hRoute h1) [0, 1, 2] = .ok () ∧ s.routeCheck (hRoute h1) [0, 2] = .ok () ∧
       s.tasksFull s.me.launchNo (hGrp h0) = false ∧ hKind ((tTwo (mkH0 1 0 0x2000) 0).val64 48) ≠ 0) ∧
    (let s := tTwo (mkH0 5 0 0) (mkH1 (3 * 2 ^ 22 + 23 * 2 ^ 10) 0 0)
     hKind (s.val64 48) = 5 ∧ s.routeCheck (hRoute (hi64 (s.regVal 48))) [0, 1, 2, 3] = .ok ()) ∧
    (let s := tTwo (mkH0 6 0 0x2002) (mkH1 (2 ^ 22 + 191) 0 0)
     hKind (s.val64 48) = 6 ∧ (s.val64 48).getLsbD 0 = false ∧ s.routeCheck (hRoute (hi64 (s.regVal 48))) [0, 1, 2, 3] = .ok ()) ∧
    (let s := tTwo (mkH0 0 0 0x2000) 0x7F0200000100
     s.canPay 17 ∧ ∃ loc s', s.access s.cur .read false (hi64 (s.regVal 48)) 1 = .ok (loc, s') ∧ s'.canSend ∧
       s'.tasksFull s'.me.launchNo (hGrp (s.val64 48)) = false) ∧
    (let s := tUser (·.reg 48 (mkReg (mkH0 0 0 0x2000) 0))
     s.canRead 48 ∧ s.canRead 18 ∧ s.canPay 18 ∧ hi64 (s.regVal 48) = 0 ∧ hKind (s.val64 48) = 0 ∧ s.groupCheck (hGrp (s.val64 48)) = .ok () ∧
       (∃ q, s.orderKey (s.val64 18) = .ok q) ∧ s.tasksFull s.me.launchNo (hGrp (s.val64 48)) = false ∧
       s.spilled (s.homeCluster / 24) < 131072 ∧ s.canSend ∧ s.me.ordered = false ∧ s.me.launchNo = some 1) := by
  refine ⟨⟨canRead_of _ rfl rfl rfl _, canPay_of _ rfl rfl rfl _, canPay_of _ rfl rfl rfl _, ⟨rfl, rfl, by decide, rfl⟩, by decide, by decide,
      by decide, rfl, rfl, rfl, rfl, by decide⟩, ⟨by decide, rfl⟩, ⟨by decide, by decide, rfl⟩,
    ⟨canPay_of _ rfl rfl rfl _, _, _, rfl, ⟨rfl, rfl, by decide, rfl⟩, rfl⟩,
    ⟨canRead_of _ rfl rfl rfl _, canRead_of _ rfl rfl rfl _, canPay_of _ rfl rfl rfl _, by decide, by decide, tUser_groupCheck _ rfl rfl, ⟨_, rfl⟩, by decide +kernel, by decide,
      ⟨rfl, rfl, by decide, rfl⟩, rfl, rfl⟩⟩

/-- The tag table lies in the scratchpad and its entry 0 holds a handler. -/
def tTags : State :=
  { tWith (fun t => { t.reg 48 (mkReg (mkH0 0 0 0x2000) (mkH1 24 0 0)) with tagbase := 0x7F0000000040 }) with
    mem := [(18 * 2 ^ 64 + 65, 0x20)] }
theorem witness_RepliesAndRequests :
    (tState.canPay 17 ∧ tState.canSend) ∧
    (tTags.canRead 18 ∧ tTags.canRead 48 ∧ (tTags.val64 18).toNat < 1024 ∧ hKind (tTags.val64 48) = 0 ∧ (tTags.val64 48).getLsbD 0 = false ∧
      tTags.me.tagbase ≠ 0 ∧ ∃ loc s', tTags.access tTags.cur .write false (tTags.me.tagbase + BitVec.ofNat 64 (16 * (tTags.val64 18).toNat)) 16 =
        .ok (loc, s') ∧ s'.canSend ∧ s'.me.cst < 63) ∧
    (tTags.canPay 17 ∧ tTags.groupCheck (hGrp (tTags.val64 48)) = .ok () ∧
      tTags.routeCheck (hRoute (hi64 (tTags.regVal 48))) [0, 1, 2, 3] = .ok () ∧ hRtag (hi64 (tTags.regVal 48)) = 0 * 64 ∧
      ∃ loc s', tTags.access tTags.cur .read false (tTags.me.tagbase + BitVec.ofNat 64 (16 * 0)) 16 = .ok (loc, s') ∧ s'.canSend ∧
        loc = 18 * 2 ^ 64 + 64 ∧ s'.busy 16 = false ∧ Tab.freeKey ((s'.endRegion s'.cur).core (coreOf s'.cur)).slots 0 64 = some 0 ∧
        ∃ q, (tTags.endRegion 0).fetchQuad (18 * 2 ^ 64 + 64) (tTags.me.tagbase + BitVec.ofNat 64 (16 * 0)) = .ok q ∧
          hPc (lo64 q.1) ≠ 0 ∧ q.2.anyAcc (fun _ => true) = false ∧ q.2.me.failed = none ∧ q.2.me.sends < 8 ∧ q.2.me.speculative = false ∧
          q.2.busy 16 = false) := by
  refine ⟨⟨tState_canPay _, tState_canSend⟩, ⟨canRead_of _ rfl rfl rfl _, canRead_of _ rfl rfl rfl _, by decide, by decide, by decide, by decide,
    _, _, rfl, ⟨rfl, rfl, by decide, rfl⟩, by decide⟩, ⟨canPay_of _ rfl rfl rfl _, rfl, rfl, by decide, _, _, rfl, ⟨rfl, rfl, by decide, rfl⟩,
    by decide +kernel, rfl, by decide +kernel, ok_of (by decide +kernel)⟩⟩

/-- Queue 2 of core 0 holds the given entries. -/
def tXq (es : List Reg) : State :=
  { tState with cores := [(0, { Core.idle with xq := [(2, { bound := some 0, owner := some 0, launch := none, entries := es })] })] }
theorem witness_InterCoreQueues :
    (tState.canRead 17 ∧ tState.canRead 18 ∧ tState.xqCheck (tState.val64 18) = .ok () ∧ tState.anyAcc (fun _ => true) = false ∧
      tState.me.failed = none) ∧
    (let s := tWith ({ · with wait := .xq 0 2 7 2 0 0 })
     (s.thread 0).wait = .xq 0 2 7 2 0 0 ∧ (s.xq 0 2).owner = none ∧ (s.xq 0 2).entries.length < 8 ∧
       (∀ x ∈ s.threads, x.1 ≠ 0 → ∀ e' w' z o, x.2.wait ≠ .xq 0 2 e' w' z o)) ∧
    ((tXq []).me.preempted = false ∧ (tXq []).me.state = .ready ∧
      ∃ s', (tXq []).xqBind (2 : BitVec 3).toNat = .ok s' ∧ (s'.xq (coreOf (tXq []).cur) (2 : BitVec 3).toNat).entries = [] ∧ s'.canWrite 16) ∧
    (∃ s', (tXq []).stale.xqBind (2 : BitVec 3).toNat = .ok s' ∧ (s'.xq (coreOf (tXq []).cur) (2 : BitVec 3).toNat).entries = [] ∧
      s'.anyAcc (fun _ => true) = false ∧ s'.me.failed = none) ∧
    (∃ s', (tXq [9]).xqBind (2 : BitVec 3).toNat = .ok s' ∧ (s'.xq (coreOf (tXq [9]).cur) (2 : BitVec 3).toNat).entries = [9] ∧
      s'.anyAcc (fun _ => true) = false ∧ s'.me.failed = none ∧ s'.canWrite 16) ∧
    (∃ s', (tXq [9]).stale.xqBind (2 : BitVec 3).toNat = .ok s' ∧ (s'.xq (coreOf (tXq [9]).cur) (2 : BitVec 3).toNat).entries = [9] ∧
      s'.anyAcc (fun _ => true) = false ∧ s'.me.failed = none ∧ s'.canWrite 16) := by
  refine ⟨⟨tState_canRead _, tState_canRead _, rfl, rfl, rfl⟩, ⟨rfl, rfl, by decide, ?_⟩,
    ⟨rfl, rfl, _, rfl, rfl, Or.inr rfl⟩, ⟨_, rfl, rfl, rfl, rfl⟩, ⟨_, rfl, rfl, rfl, rfl, Or.inr rfl⟩, ⟨_, rfl, rfl, rfl, rfl, Or.inr rfl⟩⟩
  intro x hx hn
  simp only [tWith, List.mem_singleton] at hx
  exact absurd (congrArg Prod.fst hx) hn

/-- Port 0 of the own cluster has the given messages and takers. -/
def tPort (pol : Nat) (ms : List PMsg) (ks : List Nat) : State :=
  { tState with
    clus := [(0, { Cluster.idle with ports := [(0, { cap := 1, pol, ovf := false, owner := 65536, msgs := ms, takers := ks })] })]
    mesh := [(5, { tState.recordOf (mkH0 0 0 0x2000) (mkH1 (3 * 2 ^ 22) 0 0) #v[1, 2, 3] (.port 0 0) with ord := 5, sender := 9 })] }
def tPMsg : PMsg := { pay := #v[1, 2, 3], sender := 9, h0 := 0, rtag := 0, stime := 0 }
def tPattern : Pattern := { ports := [0], pri := 0, grp := 0, pc := 0x2000, owner := 65536 }
theorem witness_PortAndPatternInstructions :
    (tState.canRead 1 ∧ tState.canWrite 16 ∧ tState.me.speculative = false ∧ tState.me.ordered = false ∧
      tState.anyAcc (fun _ => true) = false ∧ tState.me.failed = none ∧ tState.ownPort false (tState.val64 1) = .ok (0, 0) ∧
      (let v := (tWith (·.reg 22 (scalar 0x280))).val64 22
       v.toNat < 2 ^ 10 ∧ v.toNat % 16 = 0 ∧ wbits v 8 2 ≠ 3 ∧ wbits v 4 4 = 8 ∧ (tState.port 0 0).msgs.length ≤ wbits v 4 4 ∧
         (tState.clu 0).capSum - (tState.port 0 0).cap + wbits v 4 4 ≤ 2048) ∧
      wbits (tState.val64 1) 4 4 = 0 ∧ (tState.clu 0).listing 0 = []) ∧
    ((tPort 0 [tPMsg] []).ownPort false ((tPort 0 [tPMsg] []).val64 1) = .ok (0, 0) ∧ ((tPort 0 [tPMsg] []).port 0 0).cap ≠ 0) ∧
    (let s := { tState with clus := [(0, { Cluster.idle with patterns := [(0, tPattern)] })] }
     s.ownPort true (s.val64 1) = .ok (0, 0) ∧ Tab.get? (s.clu 0).patterns (wbits (s.val64 1) 0 8) = some tPattern ∧
       tPattern.owner = ownerNo s.me.launchNo) ∧
    (let s := { tPort 0 [] [] with threads := [(0, tThread.reg 48 (mkReg (mkH0 0 0 0x2000) 0))] }
     let hi := hi64 (s.regVal 48)
     s.ownPort true (s.val64 1) = .ok (0, 0) ∧ Tab.get? (s.clu 0).patterns (wbits (s.val64 1) 0 8) = none ∧ hi.toNat < 2 ^ 45 ∧
       bits hi.toNat (10 * (wbits hi 40 2 + 1)) (40 - 10 * (wbits hi 40 2 + 1)) = 0 ∧
       (List.range (wbits hi 40 2 + 1)).map (fun k => wbits hi (10 * k) 10) = [0] ∧ [0].eraseDups = [0] ∧ (s.port 0 0).cap ≠ 0 ∧
       (s.port 0 0).owner = ownerNo s.me.launchNo ∧ hKind (s.val64 48) = 0 ∧ (s.val64 48).getLsbD 0 = false ∧
       s.groupCheck (hGrp (s.val64 48)) = .ok ()) ∧
    (let s := tTwo (7 * 2 ^ 15 + 23 * 2 ^ 10 + 1023) (mkH0 0 0 0x2000)
     s.canRead 48 ∧ s.canPay 17 ∧ s.canSend ∧ hKind (hi64 (s.regVal 48)) = 0 ∧ (hi64 (s.regVal 48)).getLsbD 0 = false ∧
       (s.val64 48).toNat < 2 ^ 18 ∧ wbits (s.val64 48) 10 5 < 24) := by
  refine ⟨⟨tState_canRead _, tState_canWrite _, rfl, rfl, rfl, rfl, rfl, by decide, by decide, rfl⟩, ⟨rfl, by decide⟩, ⟨rfl, rfl, rfl⟩,
    ⟨rfl, rfl, by decide, by decide, by decide, by decide, by decide, rfl, by decide, by decide, rfl⟩,
    ⟨canRead_of _ rfl rfl rfl _, canPay_of _ rfl rfl rfl _, ⟨rfl, rfl, by decide, rfl⟩, by decide, by decide, by decide, by decide⟩⟩
theorem witness_PortTakesAndArrivals :
    ((tPort 0 [tPMsg] []).canRead 1 ∧ (tPort 0 [tPMsg] []).ownPort false ((tPort 0 [tPMsg] []).val64 1) = .ok (0, 0) ∧
      (tPort 0 [tPMsg] []).me.ordered = false ∧ (tPort 0 [tPMsg] []).anyAcc (fun _ => true) = false ∧ (tPort 0 [tPMsg] []).me.failed = none ∧
      (tPort 0 [tPMsg] []).busy 16 = false ∧ (tPort 0 [tPMsg] []).busy (specPlus 61 2) = false ∧
      ((tPort 0 [tPMsg] []).port 0 0).msgs = tPMsg :: [] ∧ (tPort 0 [tPMsg] []).me.preempted = false) ∧
    ((tPort 0 [] []).ownPort false ((tPort 0 [] []).val64 1) = .ok (0, 0) ∧ ((tPort 0 [] []).port 0 0).msgs = [] ∧
      (tPort 0 [] []).me.state = .ready) ∧
    (∃ m, Tab.get? (tPort 0 [] []).mesh 5 = some m ∧ m.dest = .port 0 0 ∧ (tPort 0 [] []).inOrder 5 m = true ∧ m.counted = false ∧
      m.parent = none ∧ m.ctx = 0 ∧ (tPort 0 [] []).hub.frozen = false ∧ droppedKind m.kind = false ∧
      (tPort 0 [] []).launch? ((tPort 0 [] []).port 0 0).owner = none ∧ ((tPort 0 [] []).port 0 0).cap ≠ 0 ∧
      ((tPort 0 [] []).port 0 0).takers = [] ∧ ((tPort 0 [] []).port 0 0).msgs.length < ((tPort 0 [] []).port 0 0).cap) ∧
    (∃ m, Tab.get? (tPort 0 [] [0]).mesh 5 = some m ∧ m.dest = .port 0 0 ∧ ((tPort 0 [] [0]).port 0 0).takers = 0 :: []) ∧
    (((tPort 2 [tPMsg] []).port 0 0).takers = [] ∧ ((tPort 2 [tPMsg] []).port 0 0).cap ≤ ((tPort 2 [tPMsg] []).port 0 0).msgs.length ∧
      ((tPort 2 [tPMsg] []).port 0 0).pol = 2) := by
  refine ⟨⟨canRead_of _ rfl rfl rfl _, rfl, rfl, rfl, rfl, rfl, rfl, rfl, rfl⟩, ⟨rfl, rfl, rfl⟩, ⟨_, rfl, rfl, rfl, rfl, rfl, rfl, rfl, rfl, rfl, by decide, rfl, by decide⟩,
    ⟨_, rfl, rfl, rfl⟩, ⟨rfl, by decide, rfl⟩⟩

/-- A signal of the chip scratchpad: v5 holds its address. -/
def tSig (v : Byte) (thr : Word) : State :=
  { tWith (fun t => (t.reg 21 (scalar 0x7F0300000000)).reg 22 (scalar thr)) with mem := if v = 0 then [] else [(20 * 2 ^ 64, v)] }
theorem witness_SignalInstructions :
    ((tSig 5 5).canRead 21 ∧ (tSig 5 5).canRead 22 ∧
      ∃ q, (tSig 5 5).sigLoc true ((tSig 5 5).val64 21) = .ok q ∧ q.2.me.speculative = false ∧
        q.2.anyAcc (fun _ => true) = false ∧ q.2.me.failed = none ∧ (q.2.endRegion q.2.cur).me.cld < 63 ∧
        (q.2.endRegion q.2.cur).busy 16 = false) ∧
    (∃ q, (tSig 5 5).sigLoc false ((tSig 5 5).val64 21) = .ok q ∧ q.1 = 20 * 2 ^ 64) ∧
    ((tSig 5 5).me.preempted = false ∧ ∃ q, (tSig 5 5).stale.sigLoc false ((tSig 5 5).val64 21) = .ok q ∧
      q.2.me.speculative = false ∧ q.2.anyAcc (fun _ => true) = false ∧ q.2.me.failed = none ∧ q.2.me.cld < 63 ∧
      okAnd ((q.2.endRegion q.2.cur).sigValue q.1 ((tSig 5 5).val64 21)) (fun r => r.1 == some 5 && !r.2.busy 16) = true) ∧
    toInt 64 5 ≤ ((tSig 5 5).val64 22).toInt ∧
    (∃ q, (tSig 5 4).stale.sigLoc false ((tSig 5 4).val64 21) = .ok q ∧
      okAnd ((q.2.endRegion q.2.cur).sigValue q.1 ((tSig 5 4).val64 21)) (fun r => r.1 == some 5 && decide (r.2.me.state = .ready)) = true) ∧
    ((tSig 5 4).val64 22).toInt < toInt 64 5 := by
  refine ⟨⟨canRead_of _ rfl rfl rfl _, canRead_of _ rfl rfl rfl _, ok_of (by decide +kernel)⟩, ok_of (by decide +kernel),
    ⟨rfl, ok_of (by decide +kernel)⟩, by decide +kernel, ok_of (by decide +kernel), by decide +kernel⟩

theorem witness_GroupInstructions :
    (let s := tUser id
     s.canRead 19 ∧ s.me.launchNo = some 1 ∧ ∃ q, s.access s.cur .read false (s.val64 19) 128 = .ok q ∧
       okAnd (q.2.access q.2.cur .write false (s.val64 19) 128) (fun q2 => !q2.2.me.speculative && q2.2.me.launchNo == some 1 &&
         okAnd (q2.2.readWords q.1 (s.val64 19) 16) (fun q3 => gcbBreach q3.2.mayRes (vec16 q3.1) == none && (q3.2.freeSlots 1).length == 4095 &&
           (q3.2.group? 1 q3.2.me.grp).all (fun b => b.st != 3) && !q3.2.busy 16)) = true) ∧
    (let s := tUser (·.reg 22 (scalar 0x300000001))
     ∃ g, s.slotOperand (s.val64 1) = .ok (1, 0, g) ∧ s.canRead 1 ∧ s.canWrite 16 ∧ s.me.speculative = false ∧
       gcbWordOk (g.stg != 0) s.mayRes 4 (s.val64 1) = true ∧ gcbWordOk (g.stg != 0) s.mayRes 1 (s.val64 22) = true ∧
       gcbWordOk (g.stg != 0) s.mayRes 2 (s.val64 18) = true ∧ (s.val64 18).toNat < 2 ^ 33 ∧ s.anyAcc (fun _ => true) = false) := by
  refine ⟨⟨canRead_of _ rfl rfl rfl _, rfl, ok_of (by decide +kernel)⟩,
    ⟨_, by with_unfolding_all rfl, canRead_of _ rfl rfl rfl _, canWrite_of _ rfl _, rfl, rfl, rfl, rfl, by decide, rfl⟩⟩

/-! ### Witnesses: system instructions, tasks, tokens, contexts, queues, debug -/

theorem witness_SystemRegisters :
    tState.canWrite 1 ∧ tState.canRead 1 ∧ (27 : BitVec 6).toNat < 28 ∧ 28 ≤ (28 : BitVec 6).toNat ∧
    ((0x7FFFFFFFFFC0 : Word).toNat < 2 ^ 47 ∧ (0x7FFFFFFFFFC0 : Word).toNat % 64 = 0) ∧ fmValid (0 : Word).toNat = true ∧
    fmValid (0xFFFFFFFFFFFFFFFF : Word).toNat = false ∧ fmtValid (0x30F294 : Word).toNat = true ∧ fmtValid (3 : Word).toNat = false ∧
    bfValid (0x30F294 : Word).toNat = true ∧ bfValid (0x8000000000000 : Word).toNat = false ∧ 2 ^ 47 ≤ (0x800000000000 : Word).toNat ∧
    (0x20 : Word).toNat % 64 ≠ 0 ∧ (tTwo 0x7FFFFFFFFFC0 0).canRead 48 ∧ (tTwo 0x7FFFFFFFFFC0 0).val64 48 = 0x7FFFFFFFFFC0 :=
  ⟨tState_canWrite _, tState_canRead _, by decide, by decide, by decide, by decide, by decide, by decide, by decide, by decide, by decide,
    by decide, by decide, canRead_of _ rfl rfl rfl _, by decide⟩
theorem witness_TrapRaisesItsFault : tState.canRead 63 := tState_canRead _

/-- Context at place 1 sleeps on its pager; v32 holds the place, v33 the code. -/
def tSleeper (code : Word) : State :=
  { tWith (fun t => (t.reg 48 1).reg 49 (scalar code)) with
    threads := [(0, (tThread.reg 48 1).reg 49 (scalar code)), (1, { tThread with wait := .pager 0x30000 0 })] }
theorem witness_TranslationAndPagers :
    (let s := tWith (·.reg 22 (tEntry 3 5 0))
     s.canRead 22 ∧ s.canRead 1 ∧ s.canWrite 16 ∧ s.me.ordered = false ∧ s.selCheck (s.val64 1) 0 [0, 1, 2] = .ok () ∧
       entryOk (s.regVal 22) = true ∧ selTgt (s.val64 1) = 0 ∧ s.selCheck (s.val64 1) 0 [0, 1] = .ok () ∧ s.acc = []) ∧
    (tState.selCheck 0x20000 0 [0, 1, 2] = .ok () ∧ selTgt 0x20000 = 2) ∧ entryOk (0x10000000000000000 : TlbEntry) = false ∧
    tState.selCheck 0x40000 1 [0, 1, 2, 3] = .ok () ∧ (tState.selCheck 0xB0000 2 [0, 1, 2, 3] = .ok () ∧ selTgt 0xB0000 = 3) ∧
    (let s := tSleeper 2
     s.canRead 48 ∧ s.canRead 49 ∧ validPlace (wbits (s.val64 48) 0 16) = true ∧ wbits (s.val64 48) 0 16 ≠ s.cur ∧
       (s.thread (wbits (s.val64 48) 0 16)).wait = .pager 0x30000 0 ∧ (s.thread (wbits (s.val64 48) 0 16)).speculative = false ∧ s.val64 49 = 2) ∧
    (validPlace (wbits (tState.val64 1) 0 16) = true ∧ (tState.val64 1).toNat ≤ 2 ∧
      ∀ va since, (tState.thread (wbits (tState.val64 1) 0 16)).wait ≠ .pager va since) ∧
    (cluOfPlace (tState.val64 1).toNat = cluOfPlace tState.cur ∧ isDispatch (tState.val64 1).toNat = isDispatch tState.cur ∧
      (tState.val64 1).toNat % 8 = 0 ∧ ∃ q, tState.hvBuffer (tState.val64 17) = .ok q ∧ q.2.2.busy 16 = false ∧ q.2.2.me.ordered = false ∧
        q.2.2.anyAcc (fun _ => true) = false ∧ (q.2.2.core ((tState.val64 1).toNat / 8)).dlog = []) := by
  refine ⟨⟨canRead_of _ rfl rfl rfl _, canRead_of _ rfl rfl rfl _, canWrite_of _ rfl _, rfl, rfl, by decide +kernel, by decide, rfl, rfl⟩,
    ⟨rfl, by decide⟩, by decide, rfl, ⟨rfl, by decide⟩,
    ⟨canRead_of _ rfl rfl rfl _, canRead_of _ rfl rfl rfl _, by decide, by decide, rfl, rfl, by decide⟩, ⟨by decide, by decide, ?_⟩,
    ⟨by decide, by decide, by decide, ok_of (by decide +kernel)⟩⟩
  intro va since h
  exact Wait.noConfusion h
theorem witness_InjectionAndClassQuery :
    (injBad 0x400014 0 = false ∧ injTgt 0x400014 = 4 ∧ tState.me.ordered = false) ∧ (injBad 0x13 0 = false ∧ injTgt 0x13 = 3) ∧
    (injBad 0x40 0x30000 = false ∧ injTgt 0x40 = 0 ∧
      ∃ loc s', tPages.access tPages.cur .write false (tPages.val64 19) 1 = .ok (loc, s') ∧ locTag loc = 0 ∧ s'.me.ordered = false ∧ s'.me.cst < 63) ∧
    (injBad 0x42 (tState.val64 17) = false ∧ injTgt 0x42 = 2 ∧
      ∃ loc s', tState.access tState.cur .write false (tState.val64 17) 1 = .ok (loc, s') ∧ 18 ≤ locTag loc) ∧
    ((tPages.val64 19).toNat < 0x7F0000000000 ∧ ∃ loc s', tPages.access tPages.cur .read false (tPages.val64 19) 1 = .ok (loc, s') ∧ s'.canLoad 1) ∧
    (0x7F0000000000 ≤ (tState.val64 17).toNat ∧ (tState.val64 17).toNat < 0x7F0000020000 ∧ tState.canLoad 1) :=
  ⟨⟨by decide, by decide, rfl⟩, by decide, ⟨by decide, by decide, _, _, rfl, by decide, rfl, by decide⟩,
    ⟨by decide, by decide, _, _, rfl, by decide⟩, ⟨by decide, _, _, rfl, by decide, Or.inr (Or.inl rfl)⟩,
    ⟨by decide, by decide, by decide, Or.inr (Or.inl rfl)⟩⟩

/-- A token of the task at place 0, in slot 3 of cluster 0: v32 holds its handle. -/
def tTok (maj fn : Nat) (st : TokSt) : Token :=
  { hdl := mkHdl 0 3 1, st, maj, fn, pri := 0, hold := 0, holder := some 0, grp := 0, launch := none, ctx := 0, place := 0, ipc := 0x1000, cur := 0,
    cnt := 0, fadr := 0, fc := 0, rpl := 0, qr := 0, qsat := false, refd := false, flg := 0, ack := false, nf := 0, carr := 0, syn := 0, tiss := 0,
    tend := 0, ntc := 0, target := 0, posted := false, deps := [], gate := false, defer := none, x := Vector.replicate 4 0, fm := 0,
    f := Vector.replicate 4 0, srs := 1, bf := Vector.replicate 8 0, cls := 0, scope := .dev, engine := none, lines := [], mask := [],
    susFault := false, susIssued := false, fifo := [], fetched := 0, claimed := 0, order := 0, inst := 0, desc := [], startedColl := false,
    inj := none, replayed := false, drainAt := 0, paused := 0 }
def tToks (u : Token) : State := { tTwo (BitVec.ofNat 64 (mkHdl 0 3 1)) 0 with toks := [(3, u)] }

theorem witness_TasksThatEnd :
    (tState.me.entry? = none ∧ tState.canEnd) ∧
    (let s := tToks (tTok 0x10 0 .waiting)
     s.me.entry? = none ∧ s.me.state = .ready ∧ s.me.inSave = false ∧ s.anyAcc (fun _ => true) = false ∧ s.me.failed = none ∧ 3 ∈ s.heldBy s.cur ∧
       s.tok? 3 = some (tTok 0x10 0 .waiting)) ∧
    (let s := tWith ({ · with task := some { tTask with entry := some 0, launch := some 1 } })
     s.canEnd ∧ s.me.entry? = some 0) :=
  ⟨⟨rfl, rfl, rfl, rfl, rfl, rfl, rfl, rfl⟩, ⟨rfl, rfl, rfl, rfl, rfl, by decide, rfl⟩, ⟨⟨rfl, rfl, rfl, rfl, rfl, rfl, rfl⟩, rfl⟩⟩

/-- A commit entry of launch 1 whose task runs at place 0, irrevocable or not. -/
def tCommit (irrev : Bool) : Commit :=
  { ts := 0, seq := 0, launch := 1, ctx := 7, state := .running, irrev, place := some 0, rdSig := 0, wrSig := 0, rdLines := [], wrLines := [], plainLines := [],
    undo := [], items := [], children := 0, msg := { tState.recordOf (mkH0 1 0 0x2000) 0 #v[0, 0, 0] (.task 0) with launch := some 1 }, parent := none }
def tOrdered : State :=
  { tUser ({ · with task := some { tTask with launch := some 1, ctx := 7, entry := some 0 } }) with
    clus := [(0, { Cluster.idle with commits := [(0, tCommit false)] })] }
theorem witness_TasksThatEndOrdered :
    tOrdered.canEnd ∧ tOrdered.me.entry? = some 0 ∧ Tab.get? (tOrdered.clu (cluOfPlace tOrdered.cur)).commits 0 = some (tCommit false) :=
  ⟨⟨rfl, rfl, rfl, rfl, rfl, rfl, rfl⟩, rfl, rfl⟩

/-- The firmware task runs on the first dispatch core of die 0. -/
def tDispatch : State := { tState with cur := dispatchPlace 0, threads := [(dispatchPlace 0, tThread)] }
theorem witness_ContinuationsAndAborts :
    (let s := tWith (fun t => { t with x := t.x.set 0 0x7F0000000040 })
     s.canRead 16 ∧ s.canRead 17 ∧ s.canRead 18 ∧ s.me.x[0] ≠ 0 ∧ s.me.x[0].toNat % 64 = 0 ∧
       ∃ q, s.access s.cur .write false s.me.x[0] 64 = .ok q ∧ q.2.me.ordered = false ∧ q.2.me.state = .ready ∧ q.2.me.inSave = false ∧ q.2.me.task.isSome = true ∧
         q.2.heldBy q.2.cur = [] ∧ q.2.anyAcc (fun _ => true) = false ∧ q.2.me.failed = none ∧
         (q.2.core (coreOf q.2.cur)).trcEn = false ∧ isRemote q.1 = false ∧ locTag q.1 ≠ tagDev ∧
         okAnd ((q.2.endRegion q.2.cur).syncCheck q.1 s.me.x[0] 2) (fun t => Memory.wf t.mem) = true) ∧
    (tState.me.ordered = false ∧ tState.canEnd ∧ (tState.clu (cluOfPlace tState.cur)).tu.length < 1024 ∧ tState.me.speculative = false ∧
      tState.suspending tState.me.ctxNo = false ∧ isDispatch tState.cur = false) ∧
    (tDispatch.canRead 16 ∧ tDispatch.me.ordered = false ∧ tDispatch.canEnd ∧ tDispatch.suspending tDispatch.me.ctxNo = false ∧
      isDispatch tDispatch.cur = true) ∧
    (let s := tState.setCtx tState.me.ctxNo { tState.context tState.me.ctxNo with st := .preempting }
     s.canRead 16 ∧ s.canRead 17 ∧ s.canRead 18 ∧ s.me.ordered = false ∧ s.canEnd ∧ s.suspending s.me.ctxNo = true) ∧
    (tOrdered.commits = [(cluOfPlace tOrdered.cur, 0, tCommit false)] ∧ tOrdered.me.speculative = true ∧
      (tCommit false).msg.launch = tOrdered.me.launchNo ∧ (tCommit false).ts = tOrdered.me.ts ∧ (tCommit false).seq = tOrdered.me.seq ∧
      (tOrdered.core (coreOf tOrdered.cur)).trcEn = false ∧ (tOrdered.clu (cluOfPlace tOrdered.cur)).tu.length < 1024 ∧
      (tCommit false).place = some tOrdered.cur ∧ (tCommit false).items = [] ∧ (tCommit false).parent = none) ∧
    ((tState.context tState.me.ctxNo).areaUsed < ({ tState.context tState.me.ctxNo with rqn := 1024 } : Ctx).rqn ∧
      (∀ e ∈ tState.mesh, e.2.sender = tState.cur → e.2.byTok = none → e.2.dest ≠ .task (cluOfPlace tState.cur)) ∧
      ∃ e ∈ ({ tState with mesh := [(5, tState.recordOf (mkH0 0 0 0x2000) 0 #v[0, 0, 0] (.task 0))] } : State).mesh,
        e.2.sender = tState.cur ∧ e.2.byTok = none ∧ e.2.dest = .task (cluOfPlace tState.cur)) :=
  ⟨⟨canRead_of _ rfl rfl rfl _, canRead_of _ rfl rfl rfl _, canRead_of _ rfl rfl rfl _, by decide, by decide,
      ok_of (by decide +kernel)⟩, ⟨rfl, ⟨rfl, rfl, rfl, rfl, rfl, rfl, rfl⟩, by decide, rfl, rfl, rfl⟩,
    ⟨canRead_of _ rfl rfl rfl _, rfl, ⟨rfl, rfl, rfl, rfl, rfl, rfl, rfl⟩, rfl, rfl⟩,
    ⟨canRead_of _ rfl rfl rfl _, canRead_of _ rfl rfl rfl _, canRead_of _ rfl rfl rfl _, rfl, ⟨rfl, rfl, rfl, rfl, rfl, rfl, rfl⟩, rfl⟩,
    ⟨rfl, rfl, rfl, rfl, rfl, rfl, by decide, rfl, rfl, rfl⟩,
    ⟨by decide, fun _ h => absurd h List.not_mem_nil, _, List.mem_singleton.mpr rfl, rfl, rfl, rfl⟩⟩
/-- The same for the completions of `susp`, `yield` and `abort`. -/
theorem witness_TasksThatHandOn :
    (let s := tWith (fun t => { t with x := t.x.set 0 0x7F0000000040 })
     s.canRead 16 ∧ s.me.ordered = false ∧ s.canEnd ∧ s.hub.frozen = false ∧ 0x40 < 0x20000 ∧ 0x40 % 64 = 0 ∧
       s.me.x[0] = BitVec.ofNat 64 (0x7F0000000000 + 0x40) ∧ s.bankOpen s.cur (0x40 / 16384) = true) ∧
    (tOrdered.me.entry? = some 0 ∧ tOrdered.me.speculative = true) :=
  ⟨⟨canRead_of _ rfl rfl rfl _, rfl, ⟨rfl, rfl, rfl, rfl, rfl, rfl, rfl⟩, rfl, by decide, by decide, by decide, by decide +kernel⟩, rfl, rfl⟩

/-- A task of launch 1 with a pending pre-emption stands at safe point 5. -/
def tSaving : State :=
  { tUser ({ · with pend := true }) with
    launches := [(1, { tLaunch with safes := [{ pc := 0x1000, n := 5, sv := 0x20, rs := 0x30, sz := 1 }] })]
    ctxs := [(0, Ctx.firmware), (7, { Ctx.empty with st := .preempting, sva := 0x7F0300000000, svs := 1 })] }
theorem witness_SafePointsAndLaunches :
    (tState.me.preempted = false ∧ tState.canWrite 16 ∧ tState.canRead 1 ∧ (tState.val64 1).toNat ≤ 7 ∧ 7 < (tState.val64 19).toNat ∧
      tState.anyAcc (fun _ => true) = false ∧ tState.me.failed = none ∧ tState.me.speculative = false ∧
      tState.descAddr .read 0x10000 (tState.val64 1) = .ok () ∧ tState.descAddr .rmw 8 0x7F0300000000 = .ok ()) ∧
    (tSaving.me.preempted = true ∧ tSaving.me.state = .ready ∧ tSaving.cyc < tSaving.me.pendAt + 2 ^ 21 ∧
      (∃ e h, tSaving.safeEntry tSaving.cur (some (5 : BitVec 12).toNat) = some (e, h) ∧ (tSaving.core (coreOf tSaving.cur)).trcEn = false ∧
        (tSaving.context tSaving.me.ctxNo).nsav + (64 + (e.sz * 16 + 63) / 64 * 64) ≤ 65536 * (tSaving.context tSaving.me.ctxNo).svs) ∧
      ∃ loc, tSaving.engLoc (cluOfPlace tSaving.cur) tSaving.me.ctxNo none tSaving.cur .write
        ((tSaving.context tSaving.me.ctxNo).sva + BitVec.ofNat 64 (tSaving.context tSaving.me.ctxNo).nsav) = .ok loc) ∧
    ((tUser id).me.launchNo = some 1 ∧ (tUser id).launch? 1 = some tLaunch) :=
  ⟨⟨rfl, tState_canWrite _, tState_canRead _, by decide, by decide, rfl, rfl, rfl, rfl, rfl⟩,
    ⟨rfl, rfl, by decide, ⟨_, _, rfl, rfl, by decide⟩, _, rfl⟩, rfl, rfl⟩

/-- The extension registers. -/
def tX (a b c d : Word) : State := tWith ({ · with x := #v[a, b, c, d] })
/-- A tile's operands: two streams of the running task. -/
def tStreams : State :=
  { tX (BitVec.ofNat 64 (mkHdl 0 3 1)) (BitVec.ofNat 64 (mkHdl 0 4 1)) 0 0x100000000 with
    toks := [(3, tTok 0x11 4 .running), (4, { tTok 0x11 5 .running with hdl := mkHdl 0 4 1 })] }
theorem witness_IssueMakesAToken :
    (tState.canRead 1 ∧ tState.canWrite 16 ∧ (mkOpts 0x0F (tState.regVal 1)).ntc < 5 ∧ (tState.val64 1).toNat < 2 ^ 32 ∧
      targetCheck (mkOpts 0x0F (tState.regVal 1)).ntc (mkOpts 0x0F (tState.regVal 1)).target = .ok () ∧
      (mkOpts 0x0F (tState.regVal 1)).dep = 0 ∧ tState.wakeCheck (mkOpts 0x0F (tState.regVal 1)).ntc (mkOpts 0x0F (tState.regVal 1)).target = .ok () ∧
      tState.anyAcc (fun _ => true) = false ∧ tState.me.speculative = false ∧ tState.slotsFull tState.me.launchNo tState.me.grp = false) ∧
    (∃ c, (tX 0 0 0 0).checkBank false (tX 0 0 0 0).me.x = .ok c ∧ c.core = .ok () ∧ c.after = .ok () ∧ (tX 0 0 0 0).me.countFull 0x10 = false) ∧
    (∃ c, tStreams.checkTile false tStreams.me.x = .ok c ∧ c.core = .ok () ∧ c.after = .ok ()) ∧
    (∃ c, (tX 0x30000 0x50000 64 0).checkCopy false (tX 0x30000 0x50000 64 0).me.x = .ok c ∧ c.core = .ok () ∧ c.after = .ok () ∧
      (tX 0x30000 0x50000 64 0).me.countFull 0x11 = false) ∧
    okAnd (State.checkColl (tX 0x30000 0x50000 0x60000 0x130000000) false (tX 0x30000 0x50000 0x60000 0x130000000).me.x)
      (fun c => okAnd c.after (fun _ => true)) = true ∧
    okAnd (State.checkRow (tX 0x30000 0x60000 0x50000 0x40) 0 (tX 0x30000 0x60000 0x50000 0x40).me.x) (fun c => okAnd c.after (fun _ => true)) = true ∧
    ∃ r, tState.takeSlot tState.homeCluster = some r := by
  refine ⟨⟨tState_canRead _, tState_canWrite _, by decide, by decide, rfl, by decide, rfl, rfl, rfl, rfl⟩, ⟨_, rfl, rfl, rfl, rfl⟩, ⟨_, rfl, rfl, rfl⟩,
    ⟨_, rfl, rfl, rfl, rfl⟩, by decide +kernel, by decide +kernel,
    Option.isSome_iff_exists.mp (by decide +kernel)⟩

/-! ### Witnesses: tokens, contexts, queues, debug -/

theorem witness_TokensSeenAndControlled :
    (let s := tToks (tTok 0x10 0 .waiting)
     let u := tTok 0x10 0 .waiting
     s.canRead 48 ∧ s.canRead 1 ∧ s.canWrite 16 ∧ s.handle false (s.val64 48) = .ok (3, u) ∧ s.me.ordered = false ∧ s.me.preempted = false ∧
       s.anyAcc (fun _ => true) = false ∧ s.me.failed = none ∧ s.me.state = .ready ∧ s.holds u = true ∧ (s.val64 1).toNat < 5 ∧
       targetCheck (s.val64 1).toNat (hi64 (s.regVal 1)) = .ok () ∧ s.wakeCheck (s.val64 1).toNat (hi64 (s.regVal 1)) = .ok () ∧
       u.st.terminal = false ∧ u.st ≠ .suspended ∧ u.st ≠ .done ∧ u.st ≠ .cancelled) ∧
    (let u := { tTok 0x10 0 .done with posted := true }
     (tToks u).handle false ((tToks u).val64 48) = .ok (3, u) ∧ u.st.terminal = true ∧ (tToks u).me.blk = none ∧
       (tToks u).busy 60 = false ∧ (tToks u).busy (specPlus 60 3) = false) ∧
    (let u := { tTok 0x10 0 .waiting with hold := 2, holder := none }
     (tToks u).handle false ((tToks u).val64 48) = .ok (3, u) ∧ u.grp = (tToks u).me.grp ∧ (tToks u).holds u = false) ∧
    (let u := { tTok 0x10 0 .issued with gate := true, deps := [1, 2, 3] }
     (tToks u).handle false ((tToks u).val64 48) = .ok (3, u) ∧ u.defer = none ∧ u.deps.length < 4 ∧ (tToks u).val64 48 ≠ 0) ∧
    (let u := tTok 0x11 0 .faulted
     (tToks u).handle false ((tToks u).val64 48) = .ok (3, u) ∧ u.copy = true ∧ (tToks u).me.countFull u.maj = false) :=
  ⟨⟨canRead_of _ rfl rfl rfl _, canRead_of _ rfl rfl rfl _, canWrite_of _ rfl _, rfl, rfl, rfl, rfl, rfl, rfl, rfl, by decide, rfl, rfl, rfl,
    by decide, by decide, by decide⟩, ⟨rfl, rfl, rfl, rfl, rfl⟩, ⟨rfl, rfl, rfl⟩, ⟨rfl, rfl, by decide, by decide⟩, ⟨rfl, rfl, rfl⟩⟩

/-- Words in memory from a location up. -/
def tWords (loc : Nat) (ws : List Nat) : List Host.Cell := memPutN [] loc (ws.flatMap (leBytes 8))
/-- An image of a context (R366) at v3 (page 3), and context 5 in a state. -/
def tCtx (op : Nat) (st : CState) : State :=
  { tPages with
    threads := [(0, (tThread.reg 48 (scalar (BitVec.ofNat 64 (op * 4096 + 5)))).reg 49 (scalar (if op = 2 then 0 else 0x30000)))]
    mem := tWords 0x50000 [0, 0, 0, 0x1000, 0, 0x50000, 2 ^ 32 + 1024, 0x40000]
    ctxs := [(0, Ctx.firmware), (5, { Ctx.empty with st := st, sva := 0x40000, svs := 1, rqn := 1024, rqa := 0x50000 })] }
theorem witness_ContextInstructions :
    ((tCtx 0 .destroyed).canRead 48 ∧ (tCtx 0 .destroyed).canRead 49 ∧ (tCtx 0 .destroyed).ldOperands 0 48 49 = .ok (5, 0x30000) ∧
      ∃ q, (tCtx 0 .destroyed).ldImage 0x30000 = .ok q ∧ (q.2.context 5).st = .destroyed ∧ q.2.me.ordered = false) ∧
    ((tCtx 1 .idle).ldOperands 1 48 49 = .ok (5, 0x30000) ∧
      ∃ q, (tCtx 1 .idle).ldImage 0x30000 = .ok q ∧ (q.2.context 5).st = .idle ∧ q.2.me.ordered = false ∧
        q.1 0 = (if (q.2.context 5).prv then 1 else 0) ∧ (∀ k ∈ [5, 6, 7], BitVec.ofNat 64 (q.1 k) = q.2.ctxWord 5 k)) ∧
    ((tCtx 2 .suspended).ldOperands 2 48 49 = .ok (5, 0) ∧ (tCtx 2 .suspended).me.ordered = false ∧
      ((tCtx 2 .suspended).context 5).st = .suspended ∧ (tCtx 2 .suspended).acc.any (fun e => e.2.ctx == 5) = false ∧
      (tCtx 2 .suspended).endsHeld 5 = false) ∧
    (((tCtx 0 .idle).val64 48).toNat < 2 ^ 10 ∧ ∃ q, (tCtx 0 .idle).access 0 .write false ((tCtx 0 .idle).val64 49) 64 = .ok q ∧
      q.2.me.ordered = false ∧ q.2.busy 16 = false ∧ q.2.me.cst < 63) :=
  ⟨⟨canRead_of _ rfl rfl rfl _, canRead_of _ rfl rfl rfl _, by with_unfolding_all rfl, ok_of (by decide +kernel)⟩,
    ⟨by with_unfolding_all rfl, ok_of (by decide +kernel)⟩, ⟨by with_unfolding_all rfl, rfl, rfl, rfl, rfl⟩, by decide, ok_of (by decide +kernel)⟩

/-- Context 5 is Idle; the dispatch pair of die 0 translates its page 3 (a control block) and page 4 (a ring), both in HBM. -/
def tRing (qs : List (Nat × Queue)) (hd : Nat) (b : Word) : State :=
  { tWith (fun t => (t.reg 48 (scalar 0x30000)).reg 49 (scalar b)) with
    mem := memPutN (tWords 0x50000 [0x40000, if qs.isEmpty then 0 else 1, 0, 6 + 5 * 2 ^ 16]) 0x90000 (leBytes 8 hd)
    ctxs := [(0, Ctx.firmware), (5, { Ctx.empty with st := .idle })]
    clus := [(192, { Cluster.idle with tlb := [tEntry 3 5 0 + 5 * 2 ^ 112, tEntry 4 9 0 + 5 * 2 ^ 112] })]
    queues := qs }
def tQueue (st : QState) : Queue :=
  { qcb := 0x30000, loc := 0x50000, ctx := 5, die := 0, base := 0x40000, lgn := 6, pri := 0, mode := 0, st, epri := 0, es := 0, dr := false, slot := 0,
    lst := 0, fidx := 0, nret := 0, nskip := 0, nmap := 0, npre := 0, ri := 0, si := 0, started := [], pendAt := 0, missed := false, mapAt := 0,
    leaving := false, waiting := false, bySoft := false }
def tPkt (kind : Nat) (done : Option (Option Nat)) : Pkt :=
  { idx := 0, words := Vector.replicate 8 0, kind, waitId := 0, done, skip := false, wrote := none, completed := false }
theorem witness_QueueInstructions :
    ((tRing [] 0 5).canRead 48 ∧ (tRing [] 0 5).canRead 49 ∧ (tRing [] 0 5).canWrite 16 ∧ (tRing [] 0 5).me.ordered = false ∧
      (∃ r, (tRing [] 0 5).subCheck 0 0x30000 5 = .ok r ∧ r = (5, 0, 0x50000)) ∧
      ((tRing [] 0 5).findQueue 5 0x30000).isNone = true ∧ ((tRing [] 0 5).queues.filter (fun e => e.2.die == 0)).length < 1024) ∧
    (let s := tRing [(0, tQueue .stopped)] 0 0x1005
     (∃ r, s.subCheck 1 0x30000 0x1005 = .ok r ∧ r = (5, 0, 0x50000)) ∧ s.findQueue 5 0x30000 = some (0, tQueue .stopped) ∧
       s.queue? 0 = some (tQueue .stopped) ∧ (tQueue .stopped).started = [] ∧ (tQueue .stopped).stale = false ∧ (s.qcbLoc (tQueue .stopped)).isSome = true ∧ ∀ e ∈ s.threads, ∀ d', e.2.wait ≠ .queue 0 d') ∧
    (let q := { tQueue .idle with started := [tPkt 0 none] }
     q.started ≠ [] ∧ (∃ r, (tRing [(0, q)] 0 0).subCheck 2 0x30000 0x2005 = .ok r ∧ r = (5, 0, 0x50000))) ∧
    (let s := tRing [(0, tQueue .pending)] 0 0
     (s.val64 49).toNat < 2 ^ 16 ∧ s.queues.find? (fun e => e.2.qcb == s.val64 48 && e.2.die == wbits (s.val64 49) 0 8 / 32) = some (0, tQueue .pending) ∧
       (s.context 5).st ≠ .destroyed ∧ (∃ loc, s.qcbAt 5 0 (s.val64 48) = .ok loc ∧ loc = 0x50000) ∧ (s.context 5).st ≠ .suspended ∧ s.logSound 0 ∧
       s.slotQueue (wbits (s.val64 49) 0 8) = none ∧ (s.val64 1).toNat < 2 ^ 8 ∧ (s.val64 1).toNat % 2 ^ 8 = 0) ∧
    (let s := tRing [(0, tQueue .mapped)] 0 0
     s.slotQueue (s.val64 1).toNat = some (0, tQueue .mapped) ∧ s.queue? 0 = some (tQueue .mapped)) ∧
    wbits (0x700 : Word) 3 5 = 0 := by
  refine ⟨⟨canRead_of _ rfl rfl rfl _, canRead_of _ rfl rfl rfl _, canWrite_of _ rfl _, rfl, ok_of (by decide +kernel), rfl, by decide⟩,
    ⟨ok_of (by decide +kernel), rfl, rfl, rfl, rfl, by decide +kernel, ?_⟩, ⟨by decide, ok_of (by decide +kernel)⟩,
    ⟨by decide, rfl, by decide, ok_of (by decide +kernel), by decide, ⟨rfl, rfl, rfl, rfl⟩, rfl, by decide, by decide⟩, ⟨rfl, rfl⟩, by decide⟩
  intro e he d'
  simp only [tRing, tWith, List.mem_singleton] at he
  subst he
  exact fun h => Wait.noConfusion h

def tDbg (w : Word) : State :=
  { tTwo w 0 with cores := [(0, { Core.idle with dbgEn := true, trcEn := true, trcCfg := 8, hlt := true, dbgSel := 0x1000 })] }
theorem witness_DebugInstructions :
    (tState.canRead 1 ∧ tState.canWrite 16 ∧ tState.me.speculative = false ∧ (tState.core (coreOf tState.cur)).dbgEn = false ∧
      (tState.core (coreOf tState.cur)).trcEn = false ∧ tState.me.task.isSome = true) ∧
    ((tDbg 0).canRead 48 ∧ (tDbg 0).me.speculative = false ∧ ((tDbg 0).core (coreOf (tDbg 0).cur)).dbgEn = true ∧
      ((tDbg 0).core (coreOf (tDbg 0).cur)).trcEn = true ∧ 8 ≤ ((tDbg 0).core (coreOf (tDbg 0).cur)).trcCfg.toNat ∧
      ((tDbg 0).core (coreOf (tDbg 0).cur)).trcCfg.toNat ≤ 20 ∧ (tDbg 0).sound (((tDbg 0).core (coreOf (tDbg 0).cur)).trcBase.toNat % 2 ^ 53)) ∧
    (∃ n, tState.profile 0 = some n) ∧ tState.profile 4 = none ∧
    (tState.dbgOperands 0 1 1 = .ok (0, 0) ∧ (tDbg 1).dbgOperands 1 1 48 = .ok (0, 1) ∧ (tDbg 2).dbgOperands 2 1 48 = .ok (0, 2)) ∧
    (validPlace (0 * 8) = true ∧ tState.hub.frozen = false) ∧
    (((tDbg 0).core 0).hlt = true ∧ ((tDbg 0).core 0).dbgSel = BitVec.ofNat 18 (16 * 256)) :=
  ⟨⟨tState_canRead _, tState_canWrite _, rfl, rfl, rfl, rfl⟩, ⟨canRead_of _ rfl rfl rfl _, rfl, rfl, rfl, by decide, by decide, ⟨rfl, rfl, rfl, rfl⟩⟩, ⟨_, rfl⟩, rfl,
    ⟨rfl, rfl, rfl⟩, ⟨rfl, rfl⟩, rfl, by decide⟩

/-! ### Witnesses: steps of the part -/

/-- A copy of 64 bytes from page 3 to page 4, Running; its cluster translates both into HBM. -/
def tCopy (st : TokSt) : Token :=
  { tTok 0x11 0 st with x := #v[0x30000, 0x40000, 64, 0], engine := some 0 }
def tEng (u : Token) : State :=
  { tToks u with clus := [(0, { Cluster.idle with tlb := [tEntry 3 5 0, tEntry 4 9 0] })] }
/-- Granule 0 of HBM with damaged symbols. -/
def tGran (ds : List Nat) : State := { tState with gran := [(0, { Gran.clean with hbm := ds })] }
/-- Place 0 waits for a walk of page 3 for context 5, whose root entry is not valid, or has no table. -/
def tWalk (ws : List (Nat × Walk)) (tlb : List TlbEntry) : State :=
  { tState with
    threads := [(0, { tThread with wait := .walk 0x30000, task := some { tTask with ctx := 5 } })]
    walks := ws
    cores := [(coreOf (placeOf (walkCluster 0) 16 0), { Core.idle with tlb := tlb })]
    ctxs := [(0, Ctx.firmware), (5, { Ctx.empty with st := .running, root := if tlb.isEmpty then 0 else 0x40000 })]
    mem := tWords (0x90000 + 0) [] }
def tWalkRec : Walk := { cl := walkCluster 0, ctx := 5, vpn := 3, places := [0], queued := false }
theorem witness_MemorySystemSteps :
    (let s := { tWith ({ · with pc := 0x7F0000000040 }) with mem := [(18 * 2 ^ 64 + 64, 3)] }
     s.canRun 0 = true ∧ (s.thread 0).state ≠ .blocked) ∧
    (∃ r, (tWith ({ · with pc := 0x30000 })).canRun 0 = true ∧
      ({ tPages with threads := [(0, { tThread with pc := 0x30000 })] } : State).fetchBytes 0 = .ok r) ∧
    (∃ line, (tEng (tCopy .running)).nextClaim (tCopy .running) = some line ∧ (tCopy .running).active = true ∧ (tCopy .running).copy = true ∧
      (tEng (tCopy .running)).hub.frozen = false ∧ covered (line * 32) = true ∧ Tab.getD (tEng (tCopy .running)).dir line .uncached = .uncached ∧
      (tEng (tCopy .running)).acc.any (fun e => e.2.homed && e.2.n != 0 && e.2.loc / 32 == line) = false ∧ (tEng (tCopy .running)).waiting line = []) ∧
    (let u := { tCopy .running with lines := [9], mask := [9] }
     (tEng u).tok? 3 = some u ∧ u.maj = 0x11 ∧ (tEng u).hub.frozen = false ∧ u.mask.contains 9 = true ∧ u.lines.contains 9 = true) ∧
    (0 < 2 ^ 64 ∧ (tGran [1, 2]).homeWaits 0 = false ∧ (tGran [1, 2]).frameClass 0 = 0 ∧ ((tGran [1, 2]).granule (0 / 64)).poison = false ∧
      ((tGran [1, 2]).granule (0 / 64)).hbm = [1, 2] ∧ ((tGran [7]).granule (0 / 64)).hbm = [7] ∧ (tState.granule (0 / 64)).hbm = []) ∧
    (let s := tWalk [] []
     (s.thread 0).wait = .walk 0x30000 ∧ s.walkOf 0 = none ∧ s.serves (walkCluster (cluOfPlace 0)) = true ∧
       s.walks.find? (fun e => e.2.cl == walkCluster 0 && e.2.ctx == (s.thread 0).ctxNo && e.2.vpn == (0x30000 : Word).toNat / 0x10000 && !e.2.queued) = none ∧
       (s.walks.filter (fun e => e.2.cl == walkCluster 0 && !e.2.queued)).length < 8 ∧ s.inboxUsed (coreOf (placeOf (walkCluster 0) 16 0)) < 32) ∧
    (let s := tWalk [(4, tWalkRec)] []
     s.walkOf 0 = some (4, tWalkRec) ∧ s.serves tWalkRec.cl = true ∧ tWalkRec.vpn = (0x30000 : Word).toNat / 0x10000 ∧ tWalkRec.queued = false ∧
       (s.checkTables { launch := none, grp := 0, place := 0 } (s.walkLocs tWalkRec.cl (tWalkRec.vpn * 0x10000) 4 (s.context 5).root.toNat)).1 = true ∧
       (match s.walkTable tWalkRec.cl tWalkRec.ctx (tWalkRec.vpn * 0x10000) with | .error _ => true | .ok _ => false) = true) := by
  refine ⟨⟨rfl, by decide⟩, ?_, ⟨_, by with_unfolding_all rfl, rfl, rfl, rfl, by decide, rfl, rfl, rfl⟩, ⟨rfl, rfl, rfl, rfl, rfl⟩, ⟨by decide, rfl, rfl, rfl, rfl, rfl, rfl⟩,
    ⟨rfl, rfl, by decide +kernel, by decide +kernel, by decide +kernel, by decide +kernel⟩, ⟨rfl, by decide +kernel, by decide, rfl, by decide +kernel, by decide +kernel⟩⟩
  obtain ⟨r, h, -⟩ := ok_of (p := fun _ => True) (x := ({ tPages with threads := [(0, { tThread with pc := 0x30000 })] } : State).fetchBytes 0) (by decide +kernel)
  exact ⟨r, rfl, h⟩
/-- A walk whose four tables lie from page 4 of HBM up, which the firmware context sees at its physical address, and lead to a leaf (R230). -/
def tTables : State :=
  { tWalk [(4, tWalkRec)] [tEntry 4 9 0] with
    mem := memPutN (memPutN (memPutN (tWords 0x40000 [0x41001]) 0x41000 (leBytes 8 0x42001)) 0x42000 (leBytes 8 0x43001)) 0x43018 (leBytes 8 0x5003B) }
theorem witness_MemorySystemStepsLeaf :
    tTables.walkOf 0 = some (4, tWalkRec) ∧
    (let q := tTables.checkTables { launch := none, grp := 0, place := 0 } (tTables.walkLocs tWalkRec.cl (tWalkRec.vpn * 0x10000) 4 (tTables.context 5).root.toNat)
     q.1 = true ∧ (q.2.thread 0).wait = .walk 0x30000) ∧ ∃ e, tTables.walkTable tWalkRec.cl tWalkRec.ctx (tWalkRec.vpn * 0x10000) = .ok e ∧ tePpn e = 5 ∧ teVpn e = 3 :=
  ⟨rfl, by decide +kernel, ok_of (by decide +kernel)⟩

/-- A record in the mesh for the inbox of core 0 or for the task unit of cluster 0. -/
def tMsg (k : Nat) (dest : Dest) : Msg := { tState.recordOf (mkH0 k 0 0x2000) (mkH1 24 0 0) #v[1, 2, 3] dest with ord := 5, sender := 24 }
def tMesh (m : Msg) : State :=
  { State.reset with
    hub := { Hub.reset with phase := 2, rate := 5 }, mesh := [(5, m)]
    cores := [(0, { Core.idle with inbox := [m], slots := [(0, { handler := 0x2000, grp := 0, tag := 0, launch := none })] })] }
theorem witness_RecordsAndAdmission :
    (let m := tMsg 8 (.core 0)
     let s := tMesh m
     Tab.get? s.mesh 5 = some m ∧ s.hub.frozen = false ∧ s.inOrder 5 m = true ∧ m.counted = false ∧ m.parent = none ∧ m.restore = false ∧
       s.suspending m.ctx = false ∧ s.inboxUsed 0 < 32 ∧ hKind m.h0 ∈ [0, 4, 5, 6, 8]) ∧
    (hKind { tMsg 2 (.core 0) with h0 := mkH0 2 0 0 }.h0 = 2 ∧ hPc { tMsg 2 (.core 0) with h0 := mkH0 2 0 0 }.h0 = 0 ∧
      (tMesh (tMsg 2 (.core 0))).groupGone { tMsg 2 (.core 0) with h0 := mkH0 2 0 0x2000, launch := none } = false ∧
      Tab.get? ((tMesh (tMsg 2 (.core 0))).core 0).slots (hRtag (tMsg 2 (.core 0)).h1 % 64) = some { handler := 0x2000, grp := 0, tag := 0, launch := none }) ∧
    (hKind (tMsg 9 (.core 0)).h0 = 9 ∧ hKind (tMsg 7 (.core 0)).h0 = 7 ∧ hPc (tMsg 5 (.core 0)).h0 ≠ 0 ∧ hKind (mkH0 5 0 0) = 5 ∧ hPc (mkH0 5 0 0) = 0) ∧
    (let m := tMsg 8 (.task 0)
     (tMesh m).inOrder 5 m = true ∧ hKind m.h0 ≠ 7 ∧ hKind m.h0 < 9 ∧ ((tMesh m).clu 0).tu.length < 1024) ∧
    (let m := tMsg 0 (.core 0)
     let s := tMesh m
     s.live = true ∧ validPlace 0 = true ∧ (s.core (coreOf 0)).hlt = false ∧ (s.core (coreOf 0)).trcEn = false ∧ m.restore = false ∧ s.nextRecord 0 = some m ∧ m.firing = none ∧ hPc m.h0 ≠ 0 ∧ hKind m.h0 ≠ 1) := by
  refine ⟨⟨rfl, rfl, rfl, rfl, rfl, rfl, rfl, by decide, by decide⟩, ⟨by decide, by decide, rfl, by decide +kernel⟩, by decide, ⟨rfl, by decide, by decide, by decide⟩,
    ⟨rfl, by decide, rfl, rfl, rfl, by decide +kernel, rfl, by decide, by decide⟩⟩
/-- A stage of the weir's round 1 with launch 1 running. -/
def tWeir (stage cyc : Nat) : State :=
  { tUser id with cyc := cyc, round := if stage = 0 then 0 else 1, wstage := stage
                  launches := [(1, { tLaunch with next := if stage = 3 then some ((0, 0), true) else none })] }
theorem witness_HeldSendsAndWeirRounds :
    (let s := { tWith ({ · with wait := .send 24 0 }) with cyc := 2 ^ 24 }
     (s.thread 0).wait = .send 24 0 ∧ s.hub.frozen = false ∧ s.hub.d2d = [] ∧ (s.core (coreOf 24)).hlt = false ∧ 0 + 2 ^ 24 ≤ s.cyc) ∧
    (tWith ({ · with wait := .send 24 0 })).cyc < 0 + 2 ^ 24 ∧
    (({ tOrdered.clu 0 with commits := (tOrdered.clu 0).commits.filter (fun x => !x.2.irrev) } : Cluster).latestEntry = some (0, tCommit false) ∧
      (({ tOrdered.clu 0 with fullSince := some 0 } : Cluster).fullSince = some 0)) ∧
    (let s := tWeir 0 256
     s.live = true ∧ s.wstage = 0 ∧ s.round < s.cyc / 256) ∧
    ((tWeir 1 320).wstage = 1 ∧ 256 * (tWeir 1 320).round + 64 ≤ (tWeir 1 320).cyc) ∧
    ((tWeir 2 384).wstage = 2 ∧ 256 * (tWeir 2 384).round + 128 ≤ (tWeir 2 384).cyc) ∧
    ((tWeir 3 416).wstage = 3 ∧ 256 * (tWeir 3 416).round + 160 ≤ (tWeir 3 416).cyc ∧ (∀ c ∈ (tWeir 3 416).commits, c.2.2.items = []) ∧
      ∃ L, (tWeir 3 416).launch? 1 = some L ∧ L.next = some ((0, 0), true)) ∧
    ((tWeir 4 448).wstage = 4 ∧ 256 * (tWeir 4 448).round + 192 ≤ (tWeir 4 448).cyc ∧ (∀ x ∈ (tWeir 4 448).commits, x.2.2.state ≠ .finished)) := by
  refine ⟨⟨rfl, rfl, rfl, by decide, by decide⟩, by decide, ⟨rfl, rfl⟩, ⟨rfl, rfl, by decide⟩, ⟨rfl, by decide⟩, ⟨rfl, by decide⟩,
    ⟨rfl, by decide, ?_, _, rfl, rfl⟩, ⟨rfl, by decide, ?_⟩⟩
  · intro c hc; exact absurd hc (by simp [tWeir, tUser, tState, State.reset, State.commits])
  · intro c hc; exact absurd hc (by simp [tWeir, tUser, tState, State.reset, State.commits])
/-- Context 5 in a state, no task of it running. -/
def tCst (st : CState) : State := { tState with ctxs := [(0, Ctx.firmware), (5, { Ctx.empty with st := st, pst := .running })] }
/-- Context 5 is Created; its save area has no page. -/
def tAreas : State := { tState with ctxs := [(0, Ctx.firmware), (5, { Ctx.empty with st := .created, svs := 1, rqn := 1024, rqa := 0x50000 })] }
/-- The same with an image on die 0 that no vendor has signed, which may ask for a pre-emption (R385, R386). -/
def tOwn (s : State) : State := { s with dies := [(0, { Die.idle with key := 2 })] }
theorem witness_ContextSteps :
    ((tCst .idle).live = true ∧ 5 < 1024 ∧ (tCst .idle).decides = true ∧ ((tCst .idle).context 5).st ≠ .running) ∧
    ((tOwn (tCst .running)).mayPreempt 5 = true ∧ ((tCst .running).context 5).st = .running ∧ (tCst .running).clus = [] ∧ (tCst .running).cores = [] ∧
      ∀ e ∈ (tCst .running).threads, e.2.real ≠ .blocked) ∧
    (let s := { tWith ({ · with pend := true }) with cyc := 2 ^ 21 }
     s.live = true ∧ (s.core (coreOf 0)).hlt = false ∧ (s.thread 0).task.isSome = true ∧ (s.thread 0).pend = true ∧ (s.thread 0).state = .ready ∧
       (s.thread 0).wait = .none ∧ (s.thread 0).pendAt + 2 ^ 21 ≤ s.cyc) ∧
    (((tCst .preempting).context 5).st = .preempting ∧ (tCst .preempting).quietContext 5 = true ∧ ∀ e ∈ (tCst .preempting).queues, e.2.ctx ≠ 5) ∧
    (((tCst .suspended).context 5).st = .suspended ∧ (tCst .suspended).decides = true) ∧
    (((tCst .created).context 5).st = .created ∧ (tCst .created).areasLeased 5 = true ∧
      ((tAreas.context 5).st = .created ∧ tAreas.areasLeased 5 = false)) ∧
    (((tCst .faulted).context 5).st = .faulted ∧ ((tCst .faulted).context 5).failed = [] ∧ (tCst .faulted).anySaving 5 = false ∧ ∀ e ∈ (tCst .faulted).launches, e.2.sub.ctx ≠ 5) ∧
    ((tCst .idle).hub.phase = 2 ∧ (tCst .idle).hub.fatal = 0 ∧ (tCst .idle).hub.frozen = false) ∧
    (let s : State := { tCst .frozen with hub := { Hub.reset with phase := 2, frozen := true } }
     s.hub.frozen = true ∧ [95, 0, 0, 0, 0, 0, 0, 0].length = 8 ∧ (∀ x ∈ [95, 0, 0, 0, 0, 0, 0, 0], x ≤ 95) ∧ (s.context 5).st = .frozen) := by
  refine ⟨⟨rfl, by decide, by decide +kernel, by decide⟩, ⟨by decide +kernel, rfl, rfl, rfl, ?_⟩, ⟨rfl, by decide, rfl, rfl, rfl, rfl, by decide⟩, ⟨rfl, rfl, ?_⟩, ⟨rfl, by decide +kernel⟩, ⟨rfl, by decide +kernel, rfl, by decide +kernel⟩, ⟨rfl, rfl, rfl, ?_⟩,
    ⟨rfl, rfl, rfl⟩, ⟨rfl, rfl, by decide, rfl⟩⟩
  · decide
  · intro e he; exact absurd he (by simp [tCst, tState, State.reset])
  · intro e he; exact absurd he (by simp [tCst, tState, State.reset])

/-- A drain of one row and column of bank 0 into the own scratchpad, and two streams with a group each at their heads. -/
def tTile (st : TokSt) (k : Nat) (fn : Nat) : Token := { tTok 0x11 fn st with hdl := mkHdl 0 k 1, fifo := [[[0]]], fetched := 1, engine := some 0 }
def tGroups : State :=
  { tToks { tTok 0x10 0 .running with x := #v[BitVec.ofNat 64 (mkHdl 0 4 1), BitVec.ofNat 64 (mkHdl 0 5 1), 0, 0x100000000], engine := some 0 } with
    toks := [(3, { tTok 0x10 0 .running with x := #v[BitVec.ofNat 64 (mkHdl 0 4 1), BitVec.ofNat 64 (mkHdl 0 5 1), 0, 0x100000000], engine := some 0 }),
      (4, tTile .running 4 4), (5, tTile .running 5 5)] }
theorem witness_TokensRunAndEnd :
    (let s := tEng { tCopy .waiting with engine := none }
     s.tok? 3 = some { tCopy .waiting with engine := none } ∧ s.hub.frozen = false ∧ (tCopy .waiting).copy = true ∧ (tCopy .waiting).deps = [] ∧ (tCopy .waiting).lost = none ∧
       (∀ x ∈ s.toks, x.1 = 3 ∨ rivals { tCopy .waiting with engine := none } x.2 0 = false) ∧ (s.context 0).st ≠ .suspended) ∧
    (let u := { tCopy .waiting with deps := [mkHdl 0 4 1] }
     let s := { tToks u with toks := [(3, u), (4, { tTok 0x11 0 .cancelled with hdl := mkHdl 0 4 1 })] }
     s.tok? 3 = some u ∧ s.depFailed u = some (mkHdl 0 4 1)) ∧
    (let u := { tTok 0x11 4 .running with engine := some 0, x := #v[0x30000, 0x100000000, 0, 0x30F294] }
     (tEng u).tok? 3 = some u ∧ u.stream = true ∧ u.engine.isSome = true ∧ u.fetched < u.groups ∧ u.fetched < u.cur + 8 ∧
       okAnd (State.fetchLines u u.fetched (wbits u.x[2] 0 7) 0 (tEng u)) (fun q => (q.2.tok? 3).isSome) = true) ∧
    (∃ u a b, tGroups.tok? 3 = some u ∧ u.tile = true ∧ u.active = true ∧ u.cur < u.tileGroups ∧ u.inj = none ∧
      tGroups.streamOf u.x[0].toNat = some (4, a) ∧ tGroups.streamOf u.x[1].toNat = some (5, b) ∧ a.st = .running ∧ b.st = .running ∧
      a.fifo.head? = some [[0]] ∧ b.fifo.head? = some [[0]]) ∧
    (let u := tTok 0x10 2 .running
     (tEng u).tok? 3 = some u ∧ u.active = true ∧ u.startedColl = false) ∧
    (let u := { tCopy .running with cur := 64, cnt := 64 }
     (tEng u).tok? 3 = some u ∧ (tEng u).hub.frozen = false ∧ u.active = true ∧ u.complete = true ∧ u.ntc = 0) ∧
    ((tEng (tCopy .faulted)).tok? 3 = some (tCopy .faulted) ∧ (tCopy .faulted).posted = false ∧ (tCopy .faulted).hold ≠ 2) ∧
    (let s := { tWith ({ · with wait := .slot 0 }) with cyc := 2 ^ 24 }
     (s.thread 0).wait = .slot 0 ∧ 0 + 2 ^ 24 ≤ s.cyc ∧ (s.thread 0).state ≠ .halted) := by
  refine ⟨⟨rfl, rfl, rfl, rfl, rfl, ?_, by decide⟩, ⟨rfl, rfl⟩, ⟨rfl, rfl, rfl, by decide, by decide, by decide +kernel⟩,
    ⟨_, _, _, rfl, rfl, rfl, by decide, rfl, rfl, rfl, rfl, rfl, rfl, rfl⟩, ⟨rfl, rfl, rfl⟩, ⟨rfl, rfl, rfl, rfl, rfl⟩, ⟨rfl, rfl, by decide⟩,
    ⟨rfl, by decide, by decide⟩⟩
  intro x hx
  simp only [tEng, tToks, List.mem_singleton] at hx
  exact Or.inl (congrArg Prod.fst hx)

theorem witness_TokensRunAndEndDrain :
    let u := { tTok 0x10 2 .running with x := #v[0, 0, 0, 0] }
    okAnd (State.drainRows u (dRows u.x[2]) 0 ((tEng u).engFp u).2 { bytes := [], scales := [], qr := 0, qsat := false, fp := ((tEng u).engFp u).1 })
      (fun q => (q.1.tok? 3).isSome) = true ∧ hdlKey u.hdl = 3 := by decide +kernel

/-- A gather of one row: map in page 3, rows in page 4, both in HBM (R333 to R335). -/
def tRowTok (fn claimed : Nat) : Token :=
  { tTok 0x14 fn .running with x := #v[0x30000, 0x40000, 0x30100, 1], claimed, engine := some 0, idx := [0], rows := [(0, { va := 0x30200, since := 0, bytes := [] })] }
def tRow (u : Token) : State := { tEng u with mem := tWords 0x50000 [0x30201] }
def tCollTok (st : TokSt) : Token := { tTok 0x12 0 st with x := #v[0x30000, 0x40000, 0x30100, 0x100000000], startedColl := st == .draining }
theorem witness_CopiesRowsAndCollectives :
    ((tEng (tCopy .running)).tok? 3 = some (tCopy .running) ∧ (tEng (tCopy .running)).hub.frozen = false ∧ (tCopy .running).maj = 0x11 ∧
      (tCopy .running).active = true ∧ (tCopy .running).cur < (tCopy .running).total ∧
      okAnd ((tEng (tCopy .running)).stepCp 3 (tCopy .running)) (fun _ => true) = true) ∧
    (let u := { tCopy .running with x := #v[0x60000, 0x40000, 64, 0] }
     okAnd ((tEng u).stepCp 3 u) (fun _ => true) = false) ∧
    (let s := { tEng (tCollTok .waiting) with cyc := 2 ^ 28 }
     s.tok? 3 = some (tCollTok .waiting) ∧ (tCollTok .waiting).startedColl = false ∧ (tCollTok .waiting).st.terminal = false ∧
       s.instHeld (tCollTok .waiting) = false ∧ (∀ x ∈ s.toks, sameInst (tCollTok .waiting) x.2 = true → x = (3, tCollTok .waiting)) ∧
       (tCollTok .waiting).tiss + (tCollTok .waiting).paused + 2 ^ 28 ≤ s.cyc) ∧
    (let u := tCollTok .draining
     u.maj = 0x12 ∧ u.st = .draining ∧ u.startedColl = true ∧ u.fn = 0 ∧
       u.drainAt + (65536 + 4096 * ((wbits u.x[3] 32 32 * (redBytes (wbits u.x[3] 24 4)).getD 1 + 65535) / 65536)) < 2 ^ 28) ∧
    ((tRow (tRowTok 0 0)).tok? 3 = some (tRowTok 0 0) ∧ (tRowTok 0 0).rowActive = true ∧ (tRowTok 0 0).claimed ≠ 1 ∧
      okAnd ((tRow (tRowTok 0 0)).rowOpen 3 (tRowTok 0 0)) (fun _ => true) = true) ∧
    ((tRowTok 0 1).claimed = 1 ∧ okAnd ((tRow (tRowTok 0 1)).gatherNext 3 (tRowTok 0 1)) (fun _ => true) = true) ∧
    ((tRowTok 2 1).claimed = 1 ∧ okAnd ((tRow (tRowTok 2 1)).rowOne 3 (tRowTok 2 1) (tRowTok 2 1).rowFirst) (fun _ => true) = true) ∧
    ((tRowTok 1 1).claimed = 1 ∧ (tRowTok 1 1).mask.contains 0 = false ∧ (tRowTok 1 1).window.1 ≤ 0 ∧
      0 < (tRowTok 1 1).window.1 + (tRowTok 1 1).window.2 ∧ okAnd ((tRow (tRowTok 1 1)).rowOne 3 (tRowTok 1 1) 0) (fun _ => true) = true) ∧
    ((match (tEng (tRowTok 0 0)).rowOpen 3 (tRowTok 0 0) with | .error (.fault _ 0x13 _ _) => true | _ => false) = true ∧
      (match ({ tRow (tRowTok 1 1) with mem := tWords 0x50000 [0x30203] } : State).rowOne 3 (tRowTok 1 1) 0 with | .error .wait => true | _ => false) = true) := by
  refine ⟨⟨rfl, rfl, rfl, rfl, by decide, by decide +kernel⟩, by decide +kernel, ⟨rfl, rfl, rfl, by decide +kernel, ?_, by decide⟩, ⟨rfl, rfl, rfl, rfl, by decide⟩,
    ⟨rfl, by decide +kernel, by decide, by decide +kernel⟩, ⟨rfl, by decide +kernel⟩, ⟨rfl, by decide +kernel⟩,
    ⟨rfl, rfl, by decide, by decide, by decide +kernel⟩, by decide +kernel, by decide +kernel⟩
  intro x hx _
  simpa [tEng, tToks] using hx

/-- Launch 1 of context 5 in a state, its image at page 3 and its group block in page 4, as the dispatch pair of die 0 reads them. -/
def tCheck (st : LState) (hd : Nat) : State :=
  let d : Vector Word 4 := #v[0x30000, 0x40000, 0, 0]
  { tRing [] 0 0 with
    launches := [(1, { tLaunch with state := st, sub := { tLaunch.sub with desc := d, ctx := 5 } })]
    subs := [(9, { tLaunch.sub with ctx := 5 })]
    threads := [(0, { tThread with wait := .launch 9 0 16 })]
    mem := memPutN (memPutN (tWords 0x50000 [hd, 1 * 2 ^ 32 + 2 ^ 56]) (0x50000 + 8 * 14) (leBytes 8 256)) 0x50018 (leBytes 8 0) }
/-- The same with no leases left to back. -/
def tBacked : State := { tCheck .residing 0 with launches := [(1, { tLaunch with state := .residing, leases := [] })] }
theorem witness_LaunchSteps :
    ((tCheck .checking 0).live = true ∧ Tab.get? (tCheck .checking 0).subs 9 = some { tLaunch.sub with ctx := 5 } ∧
      Tab.freeKey (tCheck .checking 0).launches 0 4096 = some 0 ∧
      (tCheck .checking 0).threads.find? (fun e => match e.2.wait with | .launch n _ _ => n == 9 | _ => false) = some (0, (tCheck .checking 0).thread 0) ∧
      ((tCheck .checking 0).thread 0).wait = .launch 9 0 16) ∧
    (∃ L, (tCheck .checking 0).launch? 1 = some L ∧ L.ending = false ∧ L.state = .checking ∧
      (match (tCheck .checking 0).checkLaunch L.sub with | .error (some w, t) => w == 0 && t.launch? 1 == some L | _ => false) = true) ∧
    (∃ L, (tCheck .checking 0x4B48000000000080).launch? 1 = some L ∧
      okAnd ((tCheck .checking 0x4B48000000000080).checkLaunch L.sub) (fun _ => true) = true ∧
      okAnd ((tCheck .checking 0x4B48000000000080).engLoc (192 + L.sub.die) L.sub.ctx none (dispatchPlace L.sub.die) .write L.sub.desc[1])
        (fun _ => true) = true ∧ ((tCheck .checking 0x4B48000000000080).freeSlots 1).length = 4096) ∧
    (({ tCheck .checking 0x4B48000000000080 with groups := [] } : State).freeSlots 1).head? = some 0 ∧
    (match ({ tCheck .checking 0x4B48000000000080 with hub := { tState.hub with retrain := (List.range 8).map (·, 0) } } : State).checkLaunch { tLaunch.sub with desc := #v[0x30000, 0x40000, 0, 0], ctx := 5 } with
      | .error (none, _) => true | _ => false) = true ∧
    (∃ L, (tCheck .residing 0).launch? 1 = some L ∧ L.state = .residing ∧ (tCheck .residing 0).allLeased L = false) ∧
    (∃ L, (tBacked).launch? 1 = some L ∧ L.state = .residing ∧ tBacked.allLeased L = true) ∧
    (∃ L, (tCheck .awaitWeir 0).launch? 1 = some L ∧ L.state = .awaitWeir ∧ (tCheck .awaitWeir 0).weirSlots < 64) ∧
    (∃ L, (tCheck .placing 0).launch? 1 = some L ∧ L.state = .placing ∧ 191 < 192 ∧ ((tCheck .placing 0).die L.sub.die).go = false ∧
      ((tCheck .placing 0).context L.sub.ctx).st = .idle ∧ (tCheck .placing 0).tasksFull (some 1) L.root = false ∧
      (∀ e ∈ (tCheck .placing 0).launches, e.2.state = .placing → e.1 = 1)) ∧
    (∃ L, (tCheck .running 0).launch? 1 = some L ∧ L.state = .running ∧ L.status = 0 ∧ (tCheck .running 0).launchQuiet 1 = true ∧
      (tCheck .running 0).subHeld L.sub = false ∧ (∀ e ∈ (tCheck .running 0).groups, e.1 / 4096 = 1 → ((tCheck .running 0).gcbLoc 1 e.2).isSome = true) ∧ (∀ e ∈ (tCheck .running 0).acc, e.2.launch ≠ some 1)) ∧
    (∃ L, ({ tCheck .running 0 with cyc := 4096 } : State).launch? 1 = some L ∧ L.visited < 4096 / 4096) ∧
    (let b := tGroup.put 0 60 4 3
     let s := { tCheck .running 0 with groups := [(4096, b)] }
     s.group? 1 0 = some b ∧ b.st = 3 ∧ s.kidCount 1 0 = 0 ∧ s.orphanCount 1 0 = 0 ∧ s.runningGroups 1 ++ s.savedGroups 1 = [] ∧ (s.gcbLoc 1 b).isSome = true) := by
  refine ⟨⟨rfl, rfl, by decide, rfl, rfl⟩, ⟨_, rfl, rfl, rfl, by decide +kernel⟩, ⟨_, rfl, by decide +kernel, by decide +kernel, by decide +kernel⟩,
    by decide +kernel, by decide +kernel,
    ⟨_, rfl, rfl, by decide +kernel⟩, ⟨_, rfl, rfl, by decide +kernel⟩, ⟨_, rfl, rfl, by decide +kernel⟩, ⟨_, rfl, rfl, by decide, rfl, rfl, by decide +kernel, by decide⟩,
    ⟨_, rfl, rfl, rfl, by decide +kernel, by decide +kernel, by decide +kernel, ?_⟩, ⟨_, rfl, by decide⟩,
    ⟨rfl, by decide +kernel, by decide +kernel, by decide +kernel, by decide +kernel, by decide +kernel⟩⟩
  intro e he
  exact absurd he (by simp [tCheck, tRing, tWith, tState, State.reset])

/-- An answer that is there and meets a test. -/
theorem some_of {α : Type} {x : Option α} {p : α → Prop} [DecidablePred p] (h : x.any (fun a => decide (p a)) = true) : ∃ a, x = some a ∧ p a := by
  cases x with
  | some a => exact ⟨a, rfl, of_decide_eq_true h⟩
  | none => exact Bool.noConfusion h

/-- A ring of die 0 with one entry whose header is `hd`. -/
def tRingQ (q : Queue) (hd : Nat) : State := tRing [(0, q)] hd 5
def tStage : Queue := { tQueue .mapped with mode := 1 }
theorem witness_QueueAndDoorbellSteps :
    (let s := tRingQ (tQueue .idle) 0
     s.live = true ∧ s.queue? 0 = some (tQueue .idle) ∧ (tQueue .idle).leaving = false ∧ (tQueue .idle).wiOk (s.wiOf (tQueue .idle)) = true ∧
       s.wiOf (tQueue .idle) ≠ (tQueue .idle).si ∧ ({ s with dies := [(0, { Die.idle with key := 2 })] } : State).vendorRuns 0 = false) ∧
    (let q := { tQueue .idle with ri := 2, si := 2 }
     q.wiOk ((tRingQ q 0).wiOf q) = false) ∧
    (let q := { tQueue .mapped with waiting := true }
     ∃ w, (tRingQ q 0).ringWords q q.si = some w ∧ pktKind w ≠ 15) ∧
    (∃ w, (tRingQ (tQueue .mapped) 0).ringWords (tQueue .mapped) 0 = some w ∧ pktKind w = 0 ∧ pktBad w = false ∧ (tQueue .mapped).dr = false ∧
      (tRingQ (tQueue .mapped) 0).queueOpen (tQueue .mapped) = true ∧ (tRingQ (tQueue .mapped) 0).ringHeld (tQueue .mapped) .read 0 = false ∧
      (tQueue .mapped).wiOk ((tRingQ (tQueue .mapped) 0).wiOf (tQueue .mapped)) = true ∧ (tQueue .mapped).si < (tRingQ (tQueue .mapped) 0).wiOf (tQueue .mapped)) ∧
    (∃ w, (tRingQ (tQueue .mapped) (15 * 2 ^ 60)).ringWords (tQueue .mapped) 0 = some w ∧ pktKind w = 15) ∧
    (∃ w, (tRingQ (tQueue .mapped) (2 ^ 60)).ringWords (tQueue .mapped) 0 = some w ∧ pktKind w = 1 ∧ pktBad w = false) ∧
    (∃ w, (tRingQ { tQueue .mapped with dr := true } (2 ^ 60)).ringWords (tQueue .mapped) 0 = some w ∧ pktKind w ≠ 15 ∧ pktC w = false ∧ pktSig w = 0) ∧
    ((tPkt 0 (some none)).completed = false ∧ (tPkt 0 (some none)).skip = false ∧ (tPkt 0 (some none)).kind ≠ 3 ∧ (tPkt 0 (some none)).wrote = none ∧
      pktSig (tPkt 0 (some none)).words = 0 ∧ (tPkt 4 (some (some 1))).done = some (some 1)) ∧
    (let s := { tRingQ tStage 0 with launches := [(1, { tLaunch with sub := { tLaunch.sub with ctx := 5 } })]
                                     groups := [(4096, { tGroup with gcb := ((tGroup.gcb.set 0 (tGroup.gcb[0] + 0x400)).set 7 1).set 8 1 })] }
     (∃ r, s.ringGroup tStage 0 = some r ∧ r.1 = 1 ∧ s.liveCount 1 0 < 2 * r.2.cap ∧ (s.clu 0).tu.length < 1024 ∧ (s.die 0).go = false ∧
         s.ringHeld tStage .write tStage.ri = false ∧ s.tasksFull (some 1) 0 = false ∧ s.queueOpen tStage = true) ∧
       ∃ w, s.ringWords tStage tStage.ri = some w ∧ pktKind w = 0 ∧ hGrp w[0] = 0 ∧ tStage.ri < s.wiOf tStage ∧ tStage.wiOk (s.wiOf tStage) = true) ∧
    (let s := tRingQ (tQueue .pending) 0
     s.queues = [(0, tQueue .pending)] ∧ s.vendorRuns 0 = true ∧ s.suspending 5 = false ∧
       ({ s with ctxs := [(5, { Ctx.empty with st := .suspended })] } : State).suspending 5 = true) ∧
    (let s := { tRing [(0, tQueue .mapped), (1, { tQueue .pending with qcb := 0x30080 })] 0 5 with cyc := 500 * 2000 }
     s.slotQueue 0 = some (0, tQueue .mapped) ∧ s.bestPending 0 = some (1, { tQueue .pending with qcb := 0x30080 }) ∧ s.vendorRuns 0 = true ∧
       (tQueue .mapped).mapAt + (s.die 0).qnt.toNat * 2000 ≤ s.cyc) ∧
    (∃ b, (tRingQ (tQueue .pending) 0).mapBound 0 = some b ∧ (tQueue .pending).missed = false ∧ 0 + b < 2 ^ 40) ∧
    ((tState.die 7).go = false ∧ ({ Die.idle with go := true } : Die).go = true) ∧
    (let th := { tThread with state := .blocked, blk := some (.sig (20 * 2 ^ 64) 0x7F0300000000 0 16) }
     let s := { tState with threads := [(0, th)] }
     s.queues = [] ∧ th.inSave = false ∧ s.locNow 0 th.ctxNo 0x7F0300000000 (20 * 2 ^ 64) = 20 * 2 ^ 64 ∧
       (∃ r, ({ s with cur := 0 } : State).lateLoc 0 th.ctxNo 0x7F0300000000 (20 * 2 ^ 64) false ({ s with cur := 0 } : State).myReader = .ok r ∧ r.1 = 20 * 2 ^ 64) ∧
       (∃ r, ({ s with cur := 0 } : State).sigValue (20 * 2 ^ 64) 0x7F0300000000 = .ok r ∧ r.1 = some 0 ∧ r.2.cur = 0 ∧ r.2.acc = []) ∧
       (locTag (20 * 2 ^ 64) == tagChip) = true ∧ (locTag 0 == 0) = true ∧ isRemote (2 ^ 64) = true) ∧
    (∃ r, (tRing [] 0 5).register 0x30000 5 = .ok r) ∧ (∃ r, (tRingQ (tQueue .stopped) 0).restartQueue 0x30000 0x2005 = .ok r) ∧
    (∃ k, (tRingQ (tQueue .stopped) 0).unregister 0x30000 0x1005 = .ok k) ∧
    (match (tRing [] 0 5).register 0x30000 0x2005 with | .error (.flt _) => true | _ => false) = true := by
  refine ⟨⟨rfl, rfl, rfl, by decide +kernel, by decide +kernel, rfl⟩, by decide +kernel, some_of (by decide +kernel),
    some_of (by decide +kernel), some_of (by decide +kernel), some_of (by decide +kernel), some_of (by decide +kernel), ⟨rfl, rfl, by decide, rfl, by decide, rfl⟩,
    ⟨?_, some_of (by decide +kernel)⟩, ⟨rfl, rfl, rfl, rfl⟩, ⟨rfl, rfl, rfl, by decide +kernel⟩,
    ⟨_, rfl, rfl, by decide⟩, ⟨rfl, rfl⟩, ⟨rfl, rfl, by decide +kernel, ok_of (by decide +kernel), ok_of (by decide +kernel), by decide, by decide, by decide⟩,
    ?_, ?_, ?_, by decide +kernel⟩
  · exact some_of (by decide +kernel)
  · obtain ⟨r, h, -⟩ := ok_of (p := fun _ => True) (x := (tRing [] 0 5).register 0x30000 5) (by decide +kernel)
    exact ⟨r, h⟩
  · obtain ⟨r, h, -⟩ := ok_of (p := fun _ => True) (x := (tRingQ (tQueue .stopped) 0).restartQueue 0x30000 0x2005) (by decide +kernel)
    exact ⟨r, h⟩
  · obtain ⟨r, h, -⟩ := ok_of (p := fun _ => True) (x := (tRingQ (tQueue .stopped) 0).unregister 0x30000 0x1005) (by decide +kernel)
    exact ⟨r, h⟩

/-- A load of a host line has left for the host. -/
def tHost : State :=
  { tState with acc := [(0, { tState.access0 (.load false) 0x40000 8 (2 ^ 64 + 64) with sent := true, homed := true, dst := some 16 })], cyc := 2 ^ 24 }
/-- A write-back of one host line has left. -/
def tWriteBack : State :=
  { tState with acc := [(0, { tState.access0 (.cwb [(2 ^ 64 + 64) / 32]) 0x40000 0 (2 ^ 64 + 64) with sent := true, homed := true })] }
def tNtr (st : Nat) (cyc : Nat) : State := { tState with hub := { tState.hub with ntr := [(15, { Notur.idle with st := st })] }, cyc := cyc }
theorem witness_LinksAndModuleEdge :
    (tState.live = true ∧ tState.hub.rate ≠ 0 ∧ tState.aperture 0 ([] : List Byte).length = none ∧
      (∃ pa, tState.aperture 0 8 = some pa ∧ tState.outerWaits (locIn 0 pa) 8 = false) ∧
      (match tState.readSpan (tState.locClass 0) outer (8 / 64 + 2) 0 8 with | (.ok _, _) => true | _ => false) = true) ∧
    (∃ a, Tab.get? tHost.acc 0 = some a ∧ locTag a.loc = 1 ∧ a.sent = true ∧ tHost.hub.frozen = false ∧ a.outside = false ∧ (∀ ls, a.kind ≠ .cwb ls) ∧
      a.issued + 2 ^ 24 ≤ tHost.cyc ∧ Tab.get? tHost.copies (a.loc / 32) = none) ∧
    (∃ a, Tab.get? tWriteBack.acc 0 = some a ∧ locTag a.loc = 1 ∧ a.sent = true ∧ a.outside = false ∧ a.kind = .cwb [a.loc / 32]) ∧
    (tState.hub.phase ≠ 0 ∧ (6 : BitVec 3) ≠ 7) ∧
    (0 < 8 ∧ 8 ≤ 8 ∧ Tab.get? tState.hub.d2d (16 * 0 + 8) = none) ∧
    (let s := { tState with hub := { tState.hub with d2d := [(8, 0)] }, cyc := 2 ^ 20 }
     Tab.get? s.hub.d2d (16 * 0 + 8) = some 0 ∧ 0 + 2 ^ 20 ≤ s.cyc ∧ s.hub.fatal = 0) ∧
    (tState.hub.phase = 2 ∧ (tState.ntr 15).st = 0 ∧ tState.acc = []) ∧
    (((tNtr 1 (2 ^ 22)).ntr 15).st = 1 ∧ ((tNtr 1 (2 ^ 22)).ntr 15).since + 2 ^ 22 ≤ (tNtr 1 (2 ^ 22)).cyc) ∧
    (((tNtr 3 (2 ^ 21)).ntr 15).st = 3 ∧ ((tNtr 3 (2 ^ 21)).ntr 15).since + 2 ^ 21 ≤ (tNtr 3 (2 ^ 21)).cyc) ∧
    ((tNtr 2 0).live = true ∧ ((tNtr 2 0).ntr 15).st = 2 ∧ (tNtr 2 0).frameClass 0 ≠ 3 ∧ (tNtr 2 0).flitWaits 15 (.read 0 8) = false) ∧
    (State.reset.hub.pwrgd = true ∧ State.reset.hub.phase = 1 ∧ ({ Hub.reset with pwrgd := false } : Hub).pwrgd = false) ∧
    ({ Hub.reset with attRun := true } : Hub).attRun = true ∧ (3 : BitVec 8) < Tab.getD [(7, (4 : BitVec 8))] 7 0 ∧
    (tState.hub.attRun = false ∧ (64 : Word).toNat % 64 = 0 ∧ (65 : Word).toNat % 64 = 1) ∧
    (5 ≤ (5 : Word).toNat ∧ (63 : Word).toNat < 64 ∧ (4 : Word).toNat < 5 ∧ 64 ≤ (64 : Word).toNat) ∧
    (1000 ≤ (1000 : Word).toNat % 4096 ∧ (2800 : Word).toNat % 4096 ≤ 2800 ∧ (999 : Word).toNat % 4096 < 1000 ∧ 2800 < (2801 : Word).toNat % 4096) ∧
    (tState.hub.fatal = 0 ∧ (3 : BitVec 4).toNat ≤ 3 ∧ (2 : BitVec 4).toNat ≤ 2 ∧ (tState.die 7).thrCfg.toNat < 8 ∧ 0xEFFF < 0xF000) := by
  refine ⟨⟨rfl, by decide, rfl, ⟨_, rfl, by decide +kernel⟩, by decide +kernel⟩, ⟨_, rfl, by decide, rfl, rfl, rfl, fun _ h => AccKind.noConfusion h, by decide, rfl⟩, ⟨_, rfl, by decide, rfl, rfl, rfl⟩, ⟨by decide, by decide⟩,
    ⟨by decide, by decide, rfl⟩, ⟨rfl, by decide, rfl⟩, ⟨rfl, rfl, rfl⟩, ⟨rfl, by decide⟩, ⟨rfl, by decide⟩, ⟨rfl, rfl, by decide +kernel, by decide +kernel⟩, ⟨rfl, rfl, rfl⟩, rfl, by decide,
    ⟨rfl, by decide, by decide⟩, by decide, by decide, ⟨rfl, by decide, by decide, by decide, by decide⟩⟩

/-- R412: with boot failed BAR 4 answers BOOT_STAT alone. -/
theorem test_bar4_boot_failed :
    let s : State := { State.reset with hub := { Hub.reset with phase := 4, rate := 5, boot := 2 } }
    s.bar4Read 0x7FFF00400300 8 = some 2 ∧ s.bar4Read 0x7FFF00400008 8 = none := by decide +kernel

/-! ### Witnesses: the machine as a whole -/

/-- The firmware task's next instruction is the word `w`, in the scratchpad page that the firmware may run from. -/
def tRun (w : Nat) : State :=
  { tPages with threads := [(0, { tThread with pc := 0x30000 })], mem := memPutN [] 0x50000 (leBytes 4 w) }
theorem witness_StepRunsTheDecodedInstruction :
    let s := { tRun 0x00528983 with agenda := [.run 0] }
    let u : State := { s.tick with agenda := [], cur := 0 }
    s.agenda = .run 0 :: [] ∧ u.canRun 0 = true ∧ (s.thread 0).state ≠ .blocked ∧ (∀ c q e w k o, (s.thread 0).wait ≠ .xq c q e w k o) ∧
      (∀ f y, (s.thread 0).wait ≠ .fault f y) ∧
      ∃ r, u.fetchBytes 0 = .ok r ∧ r.2.me.pfx = none ∧
        (match decodeBytes r.1 with | .ok (i, n) => n == 4 && !privilegedInstr i | .error _ => false) = true := by
  refine ⟨rfl, rfl, by decide, fun _ _ _ _ _ _ h => Wait.noConfusion h, fun _ _ h => Wait.noConfusion h, ok_of (by decide +kernel)⟩
theorem witness_StepRunsTheDecodedInstructionAlone :
    let s := tRun 0x00528983
    s.agenda = [] ∧ s.tick.oldestAcc s.cur = none ∧ ∀ va, (s.thread s.cur).wait ≠ .walk va :=
  ⟨rfl, rfl, fun _ h => Wait.noConfusion h⟩
theorem witness_WordsThatMayNotRunFault :
    (∃ r, (tRun 0).fetchBytes (tRun 0).cur = .ok r ∧ (match decodeBytes r.1 with | .error _ => true | .ok _ => false) = true) ∧
    (∃ r, ({ tRun ((Instr.tlbWr 1 1).encode.getD (0, 0)).2 with ctxs := [] } : State).fetchBytes 0 = .ok r ∧ r.2.privileged r.2.cur = false ∧
      (match decodeBytes r.1 with | .ok (i, _) => privilegedInstr i | .error _ => false) = true) :=
  ⟨ok_of (by decide +kernel), ok_of (by decide +kernel)⟩

/-- Group 1 of launch 1 is contained, below the root. -/
def tContained : State :=
  { tUser ({ · with grp := 1 }) with
    groups := [(4096, { tGroup with gcb := (tGroup.gcb.set 2 3) }),
      (4097, (((tGroup.put 0 36 12 0).put 0 48 12 1).put 0 9 1 1).put 4 0 48 0x2000)] }
theorem witness_FaultsAreTaken :
    (tState.core (coreOf 0)).trcEn = false ∧ ((tState.thread 0).task = some tTask ∧ tTask.entry = none ∧ (tState.thread 0).saving = false ∧ tTask.launch = none) ∧
    (∃ k, ((tUser id).thread 0).task = some k ∧ k.entry = none ∧ k.launch = some 1 ∧ (tUser id).launch? 1 = some tLaunch ∧ tLaunch.ending = false ∧
      ∃ b, (tUser id).group? 1 ((tUser id).thread 0).grp = some b ∧ b.st = 1 ∧ ((tUser id).thread 0).grp < 4096 ∧ b.par = ((tUser id).thread 0).grp) ∧
    (∃ b, tContained.group? 1 (tContained.thread 0).grp = some b ∧ b.st = 1 ∧ b.dom = true ∧ b.par ≠ (tContained.thread 0).grp ∧ b.frec = 0 ∧ b.fh ≠ 0) ∧
    (let s := { tOrdered with threads := [(0, { (tOrdered.thread 0) with seq := 9 })] }
     ∃ k, (s.thread 0).task = some k ∧ k.entry ≠ none ∧ k.irrev = false ∧ s.frontier k.launch ≠ (s.thread 0).key) := by
  refine ⟨rfl, ⟨rfl, rfl, by decide, rfl⟩, ⟨_, rfl, rfl, rfl, rfl, rfl, _, rfl, by decide +kernel, by decide, by decide +kernel⟩,
    ⟨_, rfl, by decide +kernel, by decide +kernel, by decide +kernel, by decide +kernel, by decide +kernel⟩, ⟨_, rfl, by decide, rfl, by decide +kernel⟩⟩
theorem witness_DecodingUndoesEncoding : (Instr.add 63 1 16).illFormed = none ∧ ∃ n w, (Instr.add 63 1 16).encode = some (n, w) := ⟨rfl, _, _, rfl⟩
theorem witness_MemoryFormIsKept : (tRun 0x00528983).memOk = true := by decide +kernel

/-! ### Behaviour on the spec's worked examples and on values computed by hand from its rules -/

/-- A test of the state that an instruction leaves. -/
noncomputable def after (i : Instr) (s : State) (p : State → Bool) : Bool := match exec i s with | .next t => p t | _ => false
/-- Two scalar operands in v32 and v33. -/
def tAB (a b : Word) : State := tWith (fun t => (t.reg 48 (scalar a)).reg 49 (scalar b))
/-- The scalar that register v0 holds. -/
def v0 (t : State) : Nat := (t.me.regs[(16 : Spec)]).toNat

/-- The worked example of R17: context t3 of core c9 in cluster k17 of die d5. -/
theorem test_place_id : placeOf (24 * 5 + 17) 9 3 = 0xB14B ∧ cluOfPlace 0xB14B = 24 * 5 + 17 ∧ coreOf 0xB14B * 8 = 0xB148 := by decide
/-- R64: `div` of −7 by 2 gives −3. -/
theorem test_div_truncates : after (.div 16 48 49) (tAB (-7) 2) (fun t => v0 t == 2 ^ 64 - 3) = true := by decide +kernel
/-- R64: `rem` of −7 by 2 gives −1. -/
theorem test_rem_sign : after (.rem 16 48 49) (tAB (-7) 2) (fun t => v0 t == 2 ^ 64 - 1) = true := by decide +kernel
/-- R64: `divu.i32` of 5 by 0 gives 0xFFFF_FFFF, sign-extended. -/
theorem test_divu_by_zero : after (.divuI32 16 48 49) (tAB 5 0) (fun t => v0 t == 2 ^ 64 - 1 && t.me.pc == 0x1004) = true := by decide +kernel
/-- R64: −2^63 by −1 wraps to −2^63, the remainder is 0. -/
theorem test_div_wraps : after (.div 16 48 49) (tAB 0x8000000000000000 (-1)) (fun t => v0 t == 2 ^ 63) = true ∧
    after (.rem 16 48 49) (tAB 0x8000000000000000 (-1)) (fun t => v0 t == 0) = true := by decide +kernel
/-- R61: `shl.i32` with b = 2^32 + 1 shifts by 1; a 64-bit shift by 64 gives 0; `sar` by 64 of a negative number gives ones. -/
theorem test_shifts : after (.shlI32 16 48 49) (tAB 3 0x100000001) (fun t => v0 t == 6) = true ∧
    after (.shl 16 48 49) (tAB 3 64) (fun t => v0 t == 0) = true ∧
    after (.sar 16 48 49) (tAB 0x8000000000000000 64) (fun t => v0 t == 2 ^ 64 - 1) = true := by decide +kernel
/-- R63: the 32-bit sum wraps and is sign-extended. -/
theorem test_add_wraps : after (.addI32 16 48 49) (tAB 0x7FFFFFFF 1) (fun t => v0 t == 0xFFFFFFFF80000000) = true := by decide +kernel
/-- R62: the high half of (2^64 − 1)² is 2^64 − 2, and of (−1)·(−1) 0. -/
theorem test_mulh : after (.mulhu 16 48 49) (tAB (-1) (-1)) (fun t => v0 t == 2 ^ 64 - 2) = true ∧
    after (.mulh 16 48 49) (tAB (-1) (-1)) (fun t => v0 t == 0) = true := by decide +kernel
/-- R35: a result to `zero` is discarded, and `lt` keeps its value. -/
theorem test_zero_discards : after (.add 1 48 49) (tAB 5 6) (fun t => t.me.regs[(1 : Spec)] == 0 && t.me.regs[(0 : Spec)] == 0 && t.me.pc == 0x1004) = true := by
  decide +kernel
/-- R36: a result also goes to `lt`; a source that is the destination is read first. -/
theorem test_latch : after (.add 48 48 48) (tAB 5 6) (fun t => t.me.regs[(0 : Spec)] == 10 && t.me.regs[(48 : Spec)] == 10) = true := by decide +kernel
/-- The worked pair of R105: 300.0 to E4M3 is 0x79 with nx (flag bit 0 by R100), 470.0 is 0x7E with of, nx and sat. -/
theorem test_e4m3 :
    (roundE e4m3 (decodeF fp32 0x43960000) { rm := 0, srs := 1, fl := 0 }).1 = 0x79 ∧
    (roundE e4m3 (decodeF fp32 0x43960000) { rm := 0, srs := 1, fl := 0 }).2.fl = fNx ∧
    (roundE e4m3 (decodeF fp32 0x43EB0000) { rm := 0, srs := 1, fl := 0 }).1 = 0x7E ∧
    (roundE e4m3 (decodeF fp32 0x43EB0000) { rm := 0, srs := 1, fl := 0 }).2.fl = (fOf ||| fNx ||| fSat) := by decide +kernel
/-- R104 by hand: from state 2^63 the 24 draws are all 0 and the state has moved down 24 places. -/
theorem test_draw : lfsrDraw 0x8000000000000000 = (0, 0x8000000000) := by decide +kernel
/-- R104 by hand: the state 1 draws a 1 first, and is then the feedback word. -/
theorem test_draw_feedback : (drawBits 1 0 1 0) = (1, 0xD800000000000000) := by decide +kernel
/-- R130 by hand: 1.0 + 1.0 in FP32 lanes is 2.0; with no exception the flags stay 0. -/
theorem test_vadd : after (.vaddF .f32 16 48 49) (tAB 0x3F8000003F800000 0x3F8000003F800000) (fun t => v0 t == 0x4000000040000000 && t.me.fm == 0) = true := by
  decide +kernel
/-- R101 by hand: 1 / 0 is +inf with dz; 0 / 0 the canonical NaN with nv (lanes 2 and 3 here). -/
theorem test_vdiv : after (.vdivF .f32 16 48 1) (tAB 0x3F8000003F800000 0) (fun t => v0 t % 2 ^ 64 == 0x7F8000007F800000 && t.me.fm == ((fDz ||| fNv).setWidth 64 <<< 8)) = true := by
  decide +kernel
/-- R138 by hand: saturating sum of signed bytes 127 and 1. -/
theorem test_vadds : after (.vadds .i8 16 48 49) (tAB 0x7F 1) (fun t => v0 t == 0x7F && t.me.fm == (fSat.setWidth 64 <<< 8)) = true := by decide +kernel
/-- R142 by hand: `vext.n64` of lane 1. -/
theorem test_vext : after (.vext 16 48 1 3) (tWith (·.reg 48 (mkReg 7 9))) (fun t => v0 t == 9) = true := by decide +kernel
/-- R143 by hand: `vexl` with n = 16 is the old destination. -/
theorem test_vexl : after (.vexl 16 48 49) (tWith (fun t => ((t.reg 16 77).reg 48 5).reg 49 16)) (fun t => v0 t == 77) = true := by decide +kernel
/-- R87, R360, R74: a trap of the firmware task is recorded with its operand, and the context is Free. -/
theorem test_trap : after (.trap 48) (tAB 0x1234 0) (fun t => (match t.faults with | [f] => f.code == 6 && f.syn == 0x1234 && f.pc == 0x1000 | _ => false) &&
    t.me.task.isNone && t.me.state == .free) = true := by decide +kernel
/-- R72: a call writes the return address to its destination and goes to the sum of its base and twice its offset. -/
theorem test_call : after (.call 16 48 (-2)) (tAB 0x2000 0) (fun t => t.me.pc == 0x1FFC && v0 t == 0x1004) = true := by decide +kernel
/-- The worked case of R178: the word holds 5, v6 holds 5 and 9; after the `cas` the word is 9 and v6 is 5 with 1 above. -/
theorem test_cas : after (.loadValueReturn 0) { tState with
    acc := [(0, { tState.access0 (.rmw .cas) 0x7F0300000000 8 (20 * 2 ^ 64) with homed := true, dst := some 22, data := (mkReg 5 9).setWidth 256, ord := .sc, scope := .sys })]
    mem := [(20 * 2 ^ 64, 5)] }
    (fun t => t.mem == [(20 * 2 ^ 64, 9)] && t.me.regs[(22 : Spec)] == mkReg 5 1) = true := by decide +kernel
/-- The worked corner of R364: after the charge the group is Degraded with 3 of 3; `ebud.set` of 0x1_0000_0008 makes it Live with 0 of 8. -/
theorem test_ebud_set : after (.ebudSet 1 48) { tUser (·.reg 48 (scalar 0x100000008)) with
    groups := [(4096, (tGroup.put 3 0 64 (3 * 2 ^ 32 + 3)).put 0 60 4 2)] }
    (fun t => (t.group? 1 0).any (fun g => g.ecnt == 0 && g.elim == 8 && g.st == 1)) = true := by decide +kernel
/-- The example of R387: default parameters, 80 queues and 32 slots give 4,600,000 cycles. -/
theorem test_map_bound : (tRing ((List.range 80).map (fun k => (k, tQueue .pending))) 0 0).mapBound 0 = some 4600000 := by decide +kernel
/-- The header worked through in 14_kernel.md, read at H = 0x10_0000 by die 0 for context 5, with the word of bf3. -/
def tHeader (bf3 : Nat) : State :=
  { tRing [] 0 0 with
    clus := [(192, { Cluster.idle with tlb := [tEntry 16 5 0 + 5 * 2 ^ 112, tEntry 4 9 0 + 5 * 2 ^ 112] })]
    mem := memPutN (memPutN (memPutN (tWords 0x50000
      [0x4B48000000000100, 0x0101041800010001, 0x00001A0000001A10, 0, 0x2074D0, 0, 0, 0, 0x0000000300000002, bf3])
      0x50070 (leBytes 8 0x1A20)) 0x51A00 (leBytes 8 0x40000000 ++ leBytes 8 0x0001000000200000)) 0x51A10
      (leBytes 8 0x0070000000000184 ++ leBytes 8 0x0004000C00000C80) }
def tHeaderSub : Submit := { tLaunch.sub with desc := #v[0x100000, 0x40000, 0, 0], ctx := 5 }
/-- It passes, with its lease and its safe point. -/
theorem test_header : okAnd ((tHeader 0).checkLaunch tHeaderSub) (fun r =>
    r.1.leases == [{ base := 0x40000000, size := 0x200000, perm := 1 }] &&
    r.1.safes == [{ pc := 0x184, n := 7, sv := 0xC00, rs := 0xC80, sz := 4 }] && Header.w r.1.head 0 0 48 == 0x100) = true := by decide +kernel
/-- With bf3 nonzero the failing word is 9. -/
theorem test_header_bank : (match (tHeader 0x30F294).checkLaunch tHeaderSub with | .error (some w, _) => w == 9 | _ => false) = true := by decide +kernel
/-- R71 by hand: `lpe` counts lc down and branches back while it is not 0. -/
theorem test_loop : after (.lpe 0 false (-4)) (tWith ({ · with lc := 2 })) (fun t => t.me.lc == 1 && t.me.pc == 0xFF8) = true := by decide +kernel

/-- R411: a word that holds 10, and a peer's add of 1 performed once: the word is 11 and the answer 10. -/
theorem test_peer_atomic :
    (let s : State := { tState with mem := memPutN [] (locIn 0 0x400000) (leBytes 8 10) }
     let t := s.outerAtomic (locIn 0 0x400000) 8 (peerOp 1) 1
     (t.readN (locIn 0 0x400000) 8, t.hub.answer)) = (11, 10) := by decide +kernel

/-- R205, message passing with a scope that does not reach the reader: the old value may still be read; one that reaches it rules that
out. -/
theorem test_narrow_release :
    (let e : Past := { old := [0], new := [7], writer := 0, num := 3 }
     let r (c : Scope) : Rel := { place := 0, scope := c, loc := 0, n := 8, clock := [(0, 4)] }
     let at_ (c : Scope) := (tThread.acquire (placeOf 1 0 0) c (r c)).staleLines (placeOf 1 0 0) 9 [7] [e]
     (at_ .clu, at_ .dev)) = ([[0]], []) := by decide +kernel

end
end

section
/-! PROOFS. Every step keeps memory's canonical form (O59).

Memory changes in few places only: a byte or a run of bytes is put (`Memory.wf_memPut`, `Memory.wf_memPutN`) or the list is filtered
(`Memory.wf_filter`). Everything else passes a state on. So there is one predicate, `Tidy`, for each type by which a function of the model
hands a state back, rules that carry it through `if`, `do` and folds, and then one lemma per function, in the order of the model's files.
A lemma `State.Tidy.f` says that `State.f` keeps the form, so that its proof reads as the code of `f` does: `h.setMe.fin` is about
`(s.setMe t).fin len`. A lemma `f_tidy` is about a function whose result needs no such premise, or whose name is not of that form. -/

namespace Sys2Proof.Machine

/-! ### What it means that a result keeps memory's form -/

/-- Memory is in its canonical form (log entry 14). -/
structure State.Tidy (s : State) : Prop where
  wf : Memory.wf s.mem = true

/-- The state that a stop carries, if it carries one, has memory in its form. -/
inductive Stop.Tidy : Stop → Prop
  | flt {f : Flt} : Tidy (.flt f)
  | wait : Tidy .wait
  | hold {s : State} (h : s.Tidy) : Tidy (.hold s)
  | kept {s : State} {f : Flt} (h : s.Tidy) : Tidy (.kept s f)

/-- The same of what stops an engine's step. -/
inductive EngErr.Tidy : EngErr → Prop
  | wait : Tidy .wait
  | fault {s : State} {fc : Nat} {a v : Word} (h : s.Tidy) : Tidy (.fault s fc a v)
  | ended {s : State} (h : s.Tidy) : Tidy (.ended s)

/-- The same of an outcome. -/
inductive Out.Tidy : Out → Prop
  | next {s : State} (h : s.Tidy) : Tidy (.next s)
  | fault {f : Fault} : Tidy (.fault f)
  | refused {r : Refusal} : Tidy (.refused r)

/-- The value meets `P`, or the error meets `E`. -/
inductive Ends {ε α : Type} (E : ε → Prop) (P : α → Prop) : Except ε α → Prop
  | ok {a : α} (h : P a) : Ends E P (.ok a)
  | error {e : ε} (h : E e) : Ends E P (.error e)

/-- The checks of an issue that are still to be made stop in states with memory in its form. -/
structure Checked.Tidy (c : Checked) : Prop where
  core : Ends Stop.Tidy (fun _ => True) c.core
  after : Ends Stop.Tidy (fun _ => True) c.after

/-- The value, if there is one, meets `P`. -/
inductive Holds {α : Type} (P : α → Prop) : Option α → Prop
  | some {a : α} (h : P a) : Holds P (.some a)
  | none : Holds P .none

section
variable {ε α β : Type} {E : ε → Prop} {P : α → Prop} {Q : β → Prop} {s t : State}

theorem State.Tidy.ite {c : Prop} [Decidable c] (hs : s.Tidy) (ht : t.Tidy) : (if c then s else t).Tidy := by
  split
  exacts [hs, ht]

theorem State.Tidy.ite2 {c : Prop} [Decidable c] {r u : α × State} (hr : r.2.Tidy) (hu : u.2.Tidy) :
    (if c then r else u).2.Tidy := by
  split
  exacts [hr, hu]

theorem Out.Tidy.ite {c : Prop} [Decidable c] {o p : Out} (ho : Out.Tidy o) (hp : Out.Tidy p) :
    Out.Tidy (if c then o else p) := by
  split
  exacts [ho, hp]

theorem EngErr.Tidy.ite {c : Prop} [Decidable c] {e f : EngErr} (he : e.Tidy) (hf : f.Tidy) : (if c then e else f).Tidy := by
  split
  exacts [he, hf]

theorem Ends.ite {c : Prop} [Decidable c] {x y : Except ε α} (hx : Ends E P x) (hy : Ends E P y) :
    Ends E P (if c then x else y) := by
  split
  exacts [hx, hy]

theorem Holds.ite {c : Prop} [Decidable c] {x y : Option α} (hx : Holds P x) (hy : Holds P y) :
    Holds P (if c then x else y) := by
  split
  exacts [hx, hy]

section
/-! A state written out field by field, as `{ s with … }` unfolds to: of its fields only the memory matters. -/

variable {cyc fresh cur nextId round wstage : Nat} {agenda : List Sched} {threads : Tab Thread} {cores : Tab Core} {clus : Tab Cluster}
  {dies : Tab Die} {hub : Hub} {gran : Tab Gran} {copies : Tab Copy} {dir : Tab DirState} {marks : Tab (List Mark)} {acc : Tab Access}
  {mesh : Tab Msg} {toks : Tab Token} {accum : Tab (BitVec 96)} {launches : Tab Launch} {subs : Tab Submit} {groups : Tab Group}
  {ctxs : Tab Ctx} {queues : Tab Queue} {walks : Tab Walk} {frames colls : Tab Nat} {faults : List FltRec} {waits : Tab (List Nat)}
  {past : Tab (List Past)} {rels : Tab (List Rel)} {late : List Token}

theorem State.Tidy.of_mem {m : List Host.Cell} (h : Memory.wf m = true) :
    State.Tidy ⟨cyc, fresh, agenda, cur, nextId, threads, cores, clus, dies, hub, m, gran, copies, dir, marks, acc, mesh, toks, accum,
      launches, subs, groups, ctxs, queues, walks, frames, colls, round, wstage, faults, waits, past, rels, late⟩ := ⟨h⟩

theorem State.Tidy.upd (h : s.Tidy) :
    State.Tidy ⟨cyc, fresh, agenda, cur, nextId, threads, cores, clus, dies, hub, s.mem, gran, copies, dir, marks, acc, mesh, toks, accum,
      launches, subs, groups, ctxs, queues, walks, frames, colls, round, wstage, faults, waits, past, rels, late⟩ := ⟨h.wf⟩

end

theorem Holds.getD {x : Option α} {a : α} (hx : Holds P x) (ha : P a) : P (x.getD a) := by
  cases hx with
  | none => exact ha
  | some h => exact h

theorem State.Tidy.snd {r : α × State} {a : α} (h : r.2.Tidy) (e : r = (a, t)) : t.Tidy := by rwa [e] at h
theorem State.Tidy.fst {r : State × α} {a : α} (h : r.1.Tidy) (e : r = (t, a)) : t.Tidy := by rwa [e] at h

theorem Out.Tidy.of_next {o : Out} (h : Out.Tidy o) (e : o = .next t) : t.Tidy := by
  subst e
  cases h with | next h => exact h

theorem Ends.of_ok {x : Except ε α} {a : α} (h : Ends E P x) (e : x = .ok a) : P a := by
  subst e
  cases h with | ok h => exact h

theorem Ends.of_error {x : Except ε α} {a : ε} (h : Ends E P x) (e : x = .error a) : E a := by
  subst e
  cases h with | error h => exact h

theorem Ends.of_hold {x : Except Stop α} (h : Ends Stop.Tidy P x) (e : x = .error (.hold t)) : t.Tidy := by
  cases h.of_error e with | hold h => exact h

theorem Ends.of_kept {x : Except Stop α} {f : Flt} (h : Ends Stop.Tidy P x) (e : x = .error (.kept t f)) : t.Tidy := by
  cases h.of_error e with | kept h => exact h

theorem Ends.of_fault {x : Except EngErr α} {fc : Nat} {a v : Word} (h : Ends EngErr.Tidy P x) (e : x = .error (.fault t fc a v)) :
    t.Tidy := by
  cases h.of_error e with | fault h => exact h

theorem Ends.of_ended {x : Except EngErr α} (h : Ends EngErr.Tidy P x) (e : x = .error (.ended t)) : t.Tidy := by
  cases h.of_error e with | ended h => exact h

theorem Holds.of_some {x : Option α} {a : α} (h : Holds P x) (e : x = .some a) : P a := by
  subst e
  cases h with | some h => exact h

theorem Ends.pure {a : α} (h : P a) : Ends E P (Pure.pure a) := .ok h

theorem Ends.bind {x : Except ε α} {f : α → Except ε β} (hx : Ends E P x) (hf : ∀ a, P a → Ends E Q (f a)) :
    Ends E Q (x >>= f) := by
  cases hx with
  | ok h => exact hf _ h
  | error h => exact .error h

theorem Ends.pure_bind {a : α} {f : α → Except ε β} (h : Ends E Q (f a)) : Ends E Q (Pure.pure a >>= f) := h
theorem Ends.error_bind {e : ε} {f : α → Except ε β} (h : E e) : Ends E Q (Except.error e >>= f) := .error h

/-- A check first, whose value carries no state. -/
theorem Ends.andThen {x : Except ε α} {f : α → Except ε β} (hx : Ends E (fun _ => True) x) (hf : ∀ a, Ends E Q (f a)) :
    Ends E Q (x >>= f) :=
  hx.bind fun a _ => hf a

theorem Ends.any {x : Except ε α} (h : Ends E P x) : Ends E (fun _ => True) x := by
  cases h with
  | ok h => exact .ok trivial
  | error h => exact .error h

/-- A check made only where `c` holds. -/
theorem Ends.checkIf {c : Prop} [Decidable c] {x : Except ε α} {y : Except ε β} (hx : Ends E (fun _ => True) x)
    (hy : Ends E Q y) : Ends E Q (if c then x >>= fun _ => y else y) :=
  .ite (hx.andThen fun _ => hy) hy

theorem Ends.ite_bind {c : Prop} [Decidable c] {x y : Except ε α} {f : α → Except ε β} (hx : Ends E P x) (hy : Ends E P y)
    (hf : ∀ a, P a → Ends E Q (f a)) : Ends E Q (if c then x >>= f else y >>= f) :=
  .ite (hx.bind hf) (hy.bind hf)

theorem Ends.forM {f : α → Except ε PUnit} {l : List α} (hf : ∀ a, Ends E (fun _ => True) (f a)) :
    Ends E (fun _ => True) (l.forM f) := by
  induction l with
  | nil => exact .ok trivial
  | cons a l ih => exact (hf a).andThen fun _ => ih

theorem State.Tidy.foldl {f : State → α → State} {l : List α} (h : s.Tidy) (hf : ∀ s a, s.Tidy → (f s a).Tidy) :
    (l.foldl f s).Tidy := by
  induction l generalizing s with
  | nil => exact h
  | cons a l ih => exact ih (hf s a h)

theorem State.Tidy.foldl1 {f : State × β → α → State × β} {l : List α} {r : State × β} (h : r.1.Tidy)
    (hf : ∀ r a, r.1.Tidy → (f r a).1.Tidy) : (l.foldl f r).1.Tidy := by
  induction l generalizing r with
  | nil => exact h
  | cons a l ih => exact ih (hf r a h)

theorem Ends.foldlM {f : β → α → Except ε β} {l : List α} {b : β} (h : Q b) (hf : ∀ b a, Q b → Ends E Q (f b a)) :
    Ends E Q (l.foldlM f b) := by
  induction l generalizing b with
  | nil => exact .ok h
  | cons a l ih =>
    rw [List.foldlM_cons]
    exact (hf b a h).bind fun _ hc => ih hc

end
section
variable {s : State}

/-! ### The functions of Machine/Base.lean -/

theorem State.Tidy.setThread {p : Nat} {t : Thread} (h : s.Tidy) : (s.setThread p t).Tidy := h.upd
theorem State.Tidy.setMe {t : Thread} (h : s.Tidy) : (s.setMe t).Tidy := h.setThread
theorem State.Tidy.setCore {c : Nat} {v : Core} (h : s.Tidy) : (s.setCore c v).Tidy := h.upd
theorem State.Tidy.setClu {k : Nat} {v : Cluster} (h : s.Tidy) : (s.setClu k v).Tidy := h.upd
theorem State.Tidy.setDie {d : Nat} {v : Die} (h : s.Tidy) : (s.setDie d v).Tidy := h.upd
theorem State.Tidy.setGran {g : Nat} {v : Gran} (h : s.Tidy) : (s.setGran g v).Tidy := h.upd
theorem State.Tidy.setCtx {n : Nat} {v : Ctx} (h : s.Tidy) : (s.setCtx n v).Tidy := h.upd
theorem State.Tidy.setPort {cl i : Nat} {p : Port} (h : s.Tidy) : (s.setPort cl i p).Tidy := h.setClu
theorem State.Tidy.setTok {k : Nat} {t : Token} (h : s.Tidy) : (s.setTok k t).Tidy := h.upd
theorem State.Tidy.setAcc {k : Nat} {a : Access} (h : s.Tidy) : (s.setAcc k a).Tidy := h.upd
theorem State.Tidy.delAcc {k : Nat} (h : s.Tidy) : (s.delAcc k).Tidy := h.upd
theorem State.Tidy.setLaunch {l : Nat} {v : Launch} (h : s.Tidy) : (s.setLaunch l v).Tidy := h.upd
theorem State.Tidy.setHub {v : Hub} (h : s.Tidy) : (s.setHub v).Tidy := h.upd
theorem State.Tidy.setGroup {l g : Nat} {v : Group} (h : s.Tidy) : (s.setGroup l g v).Tidy := h.upd
theorem State.Tidy.bump (h : s.Tidy) : s.bump.Tidy := h.upd
theorem State.Tidy.draw (h : s.Tidy) : s.draw.Tidy := h.upd

theorem State.Tidy.putByte {a : Nat} {b : Byte} (h : s.Tidy) : (s.putByte a b).Tidy :=
  .ite h.upd (.of_mem (Memory.wf_memPut _ _ _ h.wf))

theorem State.Tidy.putBytes {a : Nat} {bs : List Byte} (h : s.Tidy) : (s.putBytes a bs).Tidy := by
  induction bs generalizing s a with
  | nil => exact h
  | cons b bs ih => exact ih h.putByte

theorem State.Tidy.writeN {a n v : Nat} (h : s.Tidy) : (s.writeN a n v).Tidy := h.putBytes
theorem fltC_tidy {code : Nat} : (fltC code).Tidy := .flt
theorem fltA_tidy {code : Nat} {a : Word} : (fltA code a).Tidy := .flt
theorem fltS_tidy {code : Nat} {v : Word} : (fltS code v).Tidy := .flt

/-! ### The functions of Machine/Scope.lean -/

theorem State.Tidy.putRels {loc n : Nat} {atomic : Bool} {rs : List Rel} (h : s.Tidy) : (s.putRels loc n atomic rs).Tidy :=
  .ite h.upd h.upd

theorem State.Tidy.notePast {p loc : Nat} {old new : List Byte} (h : s.Tidy) : (s.notePast p loc old new).Tidy := h.upd
theorem State.Tidy.seenLine {p line : Nat} (h : s.Tidy) : (s.seenLine p line).2.Tidy := .ite2 h (.setThread (.ite h h.draw))

theorem State.Tidy.hearAt {p loc n : Nat} {acq : Option Scope} (h : s.Tidy) : (s.hearAt p loc n acq).Tidy := by
  unfold State.hearAt
  split
  exacts [h, h.setThread]

theorem State.Tidy.fenceAt {c : Scope} {acq rel : Bool} (h : s.Tidy) : (s.fenceAt c acq rel).Tidy :=
  .ite (.setMe (.ite h.setMe h)) (.ite h.setMe h)

/-! ### The functions of Machine/Translate.lean -/

theorem windowCheck_tidy {priv : Bool} {k : AKind} {a : Nat} {log : Word} :
    Ends Stop.Tidy (fun _ => True) (windowCheck priv k a log) := by
  unfold windowCheck
  split
  · exact .error fltA_tidy
  · exact .ite (.error fltA_tidy) (.ite (.ok trivial) (.error fltA_tidy))
  · exact .ite (.ok trivial) (.error fltA_tidy)
  · exact .ok trivial

theorem devCheck_tidy {plain : Bool} {n : Nat} {w : Win} {a : Word} :
    Ends Stop.Tidy (fun _ => True) (devCheck plain n w a) := by
  unfold devCheck
  split
  exacts [.ite (.ok trivial) (.error fltA_tidy), .ok trivial]

theorem byteCheck_tidy {priv : Bool} {k : AKind} {a : Nat} {log : Word} :
    Ends Stop.Tidy (fun _ => True) (byteCheck priv k a log) :=
  .ite windowCheck_tidy (.error fltA_tidy)

theorem addrCheck_tidy {priv plain : Bool} {k : AKind} {a : Word} {n al : Nat} :
    Ends Stop.Tidy (fun _ => True) (addrCheck priv plain k a n al) := by
  unfold addrCheck
  dsimp only
  split
  · refine byteCheck_tidy.andThen fun _ => byteCheck_tidy.andThen fun _ => ?_
    exact devCheck_tidy.andThen fun _ => .ite (.error_bind fltA_tidy) (.pure trivial)
  · exact byteCheck_tidy.andThen fun _ => devCheck_tidy.andThen fun _ => .ite (.error_bind fltA_tidy) (.pure trivial)

theorem State.Tidy.tlbLookup {c ctx vpn : Nat} (h : s.Tidy) : Holds (fun r => r.2.Tidy) (s.tlbLookup c ctx vpn) := by
  unfold State.tlbLookup
  dsimp only
  split
  · exact .some h
  · split
    exacts [.none, .some h.setClu.setCore]

theorem State.Tidy.askPager {c : Nat} {r : PagerReq} (h : s.Tidy) : (s.askPager c r).Tidy := h.setCore
theorem State.Tidy.pagerTook {f : PagerReq → Bool} (h : s.Tidy) : (s.pagerTook f).Tidy := h.upd
theorem State.Tidy.sleep {p : Nat} {a : Word} (h : s.Tidy) : (s.sleep p a).Tidy := h.setThread.askPager

theorem State.Tidy.logPage {c ctx : Nat} {e : TlbEntry} (h : s.Tidy) : Holds State.Tidy (s.logPage c ctx e) :=
  .ite .none (.some (.setClu (.ite h.setCore.askPager h.setCore)))

theorem State.Tidy.logDirty {p ctx : Nat} {e : TlbEntry} (h : s.Tidy) : Ends Stop.Tidy State.Tidy (s.logDirty p ctx e) := by
  unfold State.logDirty
  dsimp only
  split
  next heq => exact .ok (h.logPage.of_some heq)
  · exact .error (.hold h.setThread)

theorem State.Tidy.useEntry {p : Nat} {e : TlbEntry} {k : AKind} {a : Word} (h : s.Tidy) :
    Ends Stop.Tidy (fun r => r.2.Tidy) (s.useEntry p e k a) := by
  unfold State.useEntry
  refine .ite (.error fltA_tidy) (.ite (.error fltA_tidy) (.ite (.error (.hold h.sleep)) (.ite (.error fltA_tidy) ?_)))
  refine .ite ?_ (.ok h)
  split
  next heq => exact .ok (h.logDirty.of_ok heq)
  next heq => exact .error (h.logDirty.of_error heq)

theorem State.Tidy.translate {p : Nat} {k : AKind} {a : Word} (h : s.Tidy) :
    Ends Stop.Tidy (fun r => r.2.Tidy) (s.translate p k a) := by
  unfold State.translate
  refine .ite (.error fltA_tidy) ?_
  dsimp only
  split
  · exact .error fltA_tidy
  · split
    next heq =>
      have h1 := h.tlbLookup.of_some heq
      split
      exacts [.error (.kept h1), h1.useEntry]
    · exact .error (.hold h.setCore.setThread)

theorem State.Tidy.accessAl {p : Nat} {k : AKind} {plain : Bool} {a : Word} {n al : Nat} (h : s.Tidy) :
    Ends Stop.Tidy (fun r => r.2.Tidy) (s.accessAl p k plain a n al) := by
  unfold State.accessAl
  split
  next heq => exact .error (addrCheck_tidy.of_error heq)
  · exact h.translate
  · split
    exacts [.ite (.ok h) (.error fltA_tidy), .ok h]

theorem State.Tidy.access {p : Nat} {k : AKind} {plain : Bool} {a : Word} {n : Nat} (h : s.Tidy) :
    Ends Stop.Tidy (fun r => r.2.Tidy) (s.access p k plain a n) :=
  h.accessAl

/-! ### The functions of Machine/Ops.lean -/

theorem State.Tidy.fin {len : Nat} (h : s.Tidy) : (s.fin len).Tidy := h.setMe
theorem State.Tidy.rewind (h : s.Tidy) : s.rewind.Tidy := h.setMe

theorem State.Tidy.dropHolder {c line : Nat} (h : s.Tidy) : (s.dropHolder c line).Tidy := by
  unfold State.dropHolder
  split
  exacts [h.upd, h]

theorem State.Tidy.endRegion {p : Nat} (h : s.Tidy) : (s.endRegion p).Tidy :=
  .ite (h.upd.setThread.setCore.foldl fun _ _ h1 => h1.dropHolder) h.upd.setThread

theorem State.Tidy.post {m : Msg} (h : s.Tidy) : (s.post m).Tidy := h.upd.bump

theorem State.Tidy.accepted {m : Msg} (h : s.Tidy) : (s.accepted m).Tidy := by
  unfold State.accepted
  dsimp only
  split
  · exact .ite h.setThread h
  · split
    exacts [.ite h.setThread h, .setClu (.ite h.setThread h)]

theorem State.Tidy.releaseLine {l : Nat} (h : s.Tidy) : (s.releaseLine l).Tidy := by
  unfold State.releaseLine
  refine .upd ?_
  split
  exacts [.ite h h.upd, h]

theorem State.Tidy.releaseLines {ls : List Nat} (h : s.Tidy) : (s.releaseLines ls).Tidy :=
  h.foldl fun _ _ h1 => h1.releaseLine

theorem State.Tidy.endOne {key : Nat} {st : TokSt} (h : s.Tidy) : (s.endOne key st).Tidy := by
  unfold State.endOne
  split
  · exact h
  · refine .ite h (.setTok ?_)
    split
    exacts [.ite h.releaseLines.setThread h.releaseLines, h.releaseLines]

theorem State.Tidy.settleSus {key : Nat} (h : s.Tidy) : (s.settleSus key).Tidy := by
  unfold State.settleSus
  split
  exacts [.ite h h.setTok, h]

theorem State.Tidy.leaveStream {v : Nat} (h : s.Tidy) : (s.leaveStream v).Tidy := by
  unfold State.leaveStream
  split
  exacts [.ite (.ite h.setTok.endOne h.setTok.settleSus) h, h]

theorem State.Tidy.leaveStreams {t : Token} (h : s.Tidy) : (s.leaveStreams t).Tidy := .ite h.leaveStream.leaveStream h

theorem State.Tidy.failMates {key : Nat} {t : Token} (h : s.Tidy) : (s.failMates key t).Tidy := by
  unfold State.failMates
  refine .ite (h.foldl fun _ _ h1 => ?_) h
  split
  exacts [h1.setTok.endOne, h1]

theorem State.Tidy.endTok {key : Nat} {st : TokSt} (h : s.Tidy) : (s.endTok key st).Tidy := by
  unfold State.endTok
  split
  exacts [h, .ite h (.ite h.endOne h.endOne.failMates.leaveStreams)]

theorem State.Tidy.wakeTok {t : Token} (h : s.Tidy) : (s.wakeTok t).Tidy := .ite h.upd h

theorem State.Tidy.freeTok {key : Nat} (h : s.Tidy) : (s.freeTok key).Tidy := by
  unfold State.freeTok
  split
  exacts [h, h.wakeTok.releaseLines.setClu.upd]

theorem State.Tidy.orphanToks {p : Nat} (h : s.Tidy) : (s.orphanToks p).Tidy := by
  unfold State.orphanToks
  refine h.foldl fun _ _ h1 => ?_
  split
  exacts [h1.setTok, h1]

theorem State.Tidy.fafenAdd {p : Nat} (h : s.Tidy) : (s.fafenAdd p).Tidy := by
  unfold State.fafenAdd
  dsimp only
  split
  exacts [h, .ite h.setCore h]

theorem State.Tidy.unbindXq {p : Nat} (h : s.Tidy) : (s.unbindXq p).Tidy := .ite h.setCore h
theorem State.Tidy.untake {p : Nat} (h : s.Tidy) : (s.untake p).Tidy := .ite h.setClu h
theorem State.Tidy.ignoreLoads {p : Nat} (h : s.Tidy) : (s.ignoreLoads p).Tidy := h.upd
theorem State.Tidy.vacate {p : Nat} (h : s.Tidy) : (s.vacate p).Tidy := h.endRegion.unbindXq.untake.ignoreLoads.setThread

theorem State.Tidy.launchHears {l : Option Nat} {c : Clock} (h : s.Tidy) : (s.launchHears l c).Tidy := by
  unfold State.launchHears
  split
  · exact h
  · split
    exacts [h.setLaunch, h]

theorem State.Tidy.freeThread {p : Nat} (h : s.Tidy) : (s.freeThread p).Tidy := h.launchHears.fafenAdd.vacate
theorem State.Tidy.countLoss {cl n : Nat} (h : s.Tidy) : (s.countLoss cl n).Tidy := .ite h h.setClu

theorem State.Tidy.dropMsgs {f : Msg → Bool} {count : Bool} (h : s.Tidy) : (s.dropMsgs f count).Tidy := by
  unfold State.dropMsgs
  refine .foldl ?_ fun _ _ h3 => .ite h3.setClu.countLoss h3.setClu
  refine .foldl ?_ fun _ _ h2 => .ite h2.setCore.countLoss h2.setCore
  exact (h.foldl fun _ _ h1 => .ite h1.accepted.countLoss h1.accepted).upd

theorem State.Tidy.dropSaved {f : Msg → Bool} {count : Bool} (h : s.Tidy) : (s.dropSaved f count).Tidy :=
  h.upd.foldl fun _ _ h1 => h1.countLoss

theorem State.Tidy.dropJoin {l : Nat} (h : s.Tidy) : (s.dropJoin l).Tidy := h.dropMsgs.dropSaved.upd
theorem State.Tidy.dropCommits {f : Commit → Bool} (h : s.Tidy) : (s.dropCommits f).Tidy := h.upd

theorem State.Tidy.killLaunch {l status : Nat} (h : s.Tidy) : (s.killLaunch l status).Tidy := by
  unfold State.killLaunch
  split
  · exact h
  · refine .ite h (.ite ?_ ?_)
    · refine .upd (.setCtx (.upd (.foldl ?_ fun _ _ h2 => h2.freeTok)))
      exact (h.setLaunch.dropMsgs.dropSaved.dropJoin.foldl fun _ _ h1 => h1.freeThread).dropCommits
    · refine .upd (.foldl ?_ fun _ _ h4 => h4.freeTok)
      exact (h.setLaunch.dropMsgs.dropSaved.dropJoin.foldl fun _ _ h3 => h3.freeThread).dropCommits

theorem State.Tidy.endGroup {l g : Nat} {k : Bool} (h : s.Tidy) : (s.endGroup l g k).Tidy := by
  unfold State.endGroup
  refine .ite ?_ ?_
  · refine h.foldl fun _ _ h1 => ?_
    split
    exacts [.ite h1 h1.setGroup, h1]
  · refine .foldl ?_ fun _ _ h5 => ?_
    · refine .foldl (.foldl (.dropSaved (.dropMsgs ?_)) fun _ _ h3 => h3.freeThread) fun _ _ h4 => h4.setClu
      refine h.foldl fun _ _ h2 => ?_
      split
      exacts [.ite h2 h2.setGroup, h2]
    · split
      · exact h5
      · refine .ite h5.setTok ?_
        dsimp only
        split
        exacts [h5.endTok.setTok, h5.endTok]

theorem State.Tidy.storeRec {l ctx cl p va : Nat} {r : FltRec} (h : s.Tidy) : (s.storeRec l ctx cl p va r).Tidy := by
  unfold State.storeRec
  split
  exacts [h.foldl fun _ _ h1 => h1.writeN, h]

theorem State.Tidy.report {l g : Nat} {r : FltRec} (h : s.Tidy) : (s.report l g r).Tidy := by
  unfold State.report
  dsimp only
  split
  · refine .ite h.upd.countLoss ?_
    split
    · exact h.upd.killLaunch
    · refine .ite h.upd.killLaunch ?_
      exact .ite (.endGroup (.ite h.upd.storeRec h.upd)) (.post (.endGroup (.ite h.upd.storeRec h.upd)))
  · exact h.upd.killLaunch

theorem State.Tidy.charge {l : Option Nat} {g p : Nat} (h : s.Tidy) : (s.charge l g p).Tidy := by
  unfold State.charge
  split
  · exact h.setHub
  · split
    exacts [.ite (.ite h.setGroup.report h.setGroup.post) h.setGroup, h]

theorem State.Tidy.repost {m : Msg} (h : s.Tidy) : (s.repost m).Tidy := h.upd.bump
theorem State.Tidy.offer {cl : Nat} {m : Msg} (h : s.Tidy) : (s.offer cl m).Tidy := .ite h.setClu.bump h.upd.bump

theorem State.Tidy.backToFiring {cl : Nat} {m : Msg} {ms : List PMsg} (h : s.Tidy) : (s.backToFiring cl m ms).Tidy :=
  h.setClu.offer

theorem State.Tidy.resumeRecords {n : Nat} (h : s.Tidy) : (s.resumeRecords n).Tidy :=
  ((h.setCtx.upd.foldl fun _ _ h1 => h1.repost).foldl fun _ _ h2 => h2.repost).foldl fun _ _ h3 => h3.backToFiring

theorem State.Tidy.abandoned {n : Nat} (h : s.Tidy) : (s.abandoned n).Tidy :=
  .ite h ((h.setCtx.foldl fun _ _ h1 => h1.killLaunch).resumeRecords)

theorem State.Tidy.saveLost {n : Nat} {l : Option Nat} (h : s.Tidy) : (s.saveLost n l).Tidy :=
  ((h.foldl fun _ _ h1 => h1.setThread).setCtx).abandoned

theorem State.Tidy.saveFail {p : Nat} (h : s.Tidy) : (s.saveFail p).Tidy := h.freeThread.saveLost

theorem State.Tidy.areaWrite {ctx cl i n : Nat} (h : s.Tidy) : (s.areaWrite ctx cl i n).Tidy := by
  unfold State.areaWrite
  refine .draw (h.foldl fun _ _ h1 => ?_)
  split
  exacts [h1.foldl fun _ _ h2 => h2.writeN, h1]

theorem State.Tidy.requeueMsg {cl : Nat} {m : Msg} (h : s.Tidy) : (s.requeueMsg cl m).Tidy := by
  unfold State.requeueMsg
  refine .ite h.saveLost ?_
  dsimp only
  split
  exacts [.setClu (.setCtx (.areaWrite h)), .setCtx (.areaWrite h)]

theorem State.Tidy.chargeBad {l : Option Nat} {g p : Nat} (h : s.Tidy) : (s.chargeBad l g p).Tidy := by
  unfold State.chargeBad
  split
  exacts [h.setHub, h.charge]

theorem State.Tidy.chargeTo {w : Reader} (h : s.Tidy) : (s.chargeTo w).Tidy := h.charge

theorem State.Tidy.checkGran {loc cls : Nat} {w : Reader} (h : s.Tidy) : (s.checkGran loc cls w).2.Tidy := by
  unfold State.checkGran
  refine h.ite2 ?_
  dsimp only
  split
  · exact .ite h.setGran.chargeTo h
  · exact .chargeTo (.ite (.ite h.setGran.chargeTo h) (.setGran (.ite h.setGran.chargeTo h)))
  · exact .chargeBad (.setGran (.ite h.setGran.chargeTo h))
  · exact .ite2 (.chargeTo (.ite h.setGran.chargeTo h)) (.chargeTo (.setGran (.putBytes (.ite h.setGran.chargeTo h))))
  · exact .ite h.setGran.chargeTo h

theorem State.Tidy.storeGran {loc cls : Nat} {bs : List Byte} {w : Reader} (h : s.Tidy) :
    (s.storeGran loc cls bs w).2.Tidy := by
  unfold State.storeGran
  refine h.setGran.putBytes.ite2 ?_
  split
  next heq => exact h.checkGran.snd heq
  next heq =>
    have h2 := h.checkGran.snd heq
    refine .putBytes (.ite ?_ ?_)
    · refine .setGran ?_
      split
      exacts [h2.putBytes, h2.putBytes, h2]
    · refine .setGran ?_
      split
      exacts [h2.putBytes, h2.putBytes, h2]

theorem State.Tidy.putRecord {p loc lo hi : Nat} (h : s.Tidy) : (s.putRecord p loc lo hi).Tidy := h.storeGran
theorem State.Tidy.trace {p ev : Nat} {v : Word} (h : s.Tidy) : (s.trace p ev v).Tidy := .ite h.putRecord.setCore h

theorem State.Tidy.makeIrrev {p : Nat} (h : s.Tidy) : (s.makeIrrev p).Tidy := by
  unfold State.makeIrrev
  dsimp only
  split
  · exact h
  · split
    · exact h
    · split
      exacts [h.setThread, h.setThread.setClu]

theorem State.Tidy.waitFrontier {p : Nat} (h : s.Tidy) : (s.waitFrontier p).Tidy := .ite h.makeIrrev h.setThread
theorem State.Tidy.awaitFrontier {p : Nat} (h : s.Tidy) : (s.awaitFrontier p).Tidy := h.setThread.waitFrontier

theorem State.Tidy.holdFault {p : Nat} {ipc : Word} {f : Flt} (h : s.Tidy) : (s.holdFault p ipc f).Tidy :=
  .ite (.makeIrrev (.setThread (.ite h.chargeBad h))) (.setThread (.ite h.chargeBad h))

theorem State.Tidy.takeFaultAt {p : Nat} {ipc : Word} {f : Flt} (h : s.Tidy) : (s.takeFaultAt p ipc f).Tidy := by
  unfold State.takeFaultAt
  refine .ite h.holdFault (.ite (.saveFail (.upd (.trace (.ite h.chargeBad h)))) (.ite ?_ ?_))
  · dsimp only
    split
    · refine .setClu (.freeThread (.orphanToks ?_))
      split
      exacts [.report (.trace (.ite h.chargeBad h)), .upd (.trace (.ite h.chargeBad h))]
    · refine .freeThread (.orphanToks ?_)
      split
      exacts [.report (.trace (.ite h.chargeBad h)), .upd (.trace (.ite h.chargeBad h))]
  · split
    exacts [.report (.trace (.ite h.chargeBad h)), .upd (.trace (.ite h.chargeBad h))]

theorem State.Tidy.takeFault {f : Flt} (h : s.Tidy) : (s.takeFault f).Tidy := h.takeFaultAt

theorem settle_tidy {x : Res} (h : s.Tidy) (hx : Ends Stop.Tidy State.Tidy x) : Out.Tidy (settle s x) := by
  unfold settle
  split
  · exact .next (hx.of_ok rfl)
  · exact .next h.takeFault
  · exact .next h.rewind
  · exact .next (hx.of_hold rfl)
  · exact .next (.takeFault (hx.of_kept rfl))

theorem State.Tidy.readReg {r : Spec} (h : s.Tidy) : Ends Stop.Tidy (fun _ => True) (s.readReg r) := by
  unfold State.readReg
  refine .ite (.ok trivial) (.ite (.error fltC_tidy) (.ite (.error .wait) (.ite (.ok trivial) ?_)))
  exact .ite (.ite (.error (.hold h.setMe.charge.rewind)) (.error .flt)) (.ite (.error .flt) (.ok trivial))

theorem State.Tidy.read64 {r : Spec} (h : s.Tidy) : Ends Stop.Tidy (fun _ => True) (s.read64 r) := by
  unfold State.read64
  split
  · exact .ok trivial
  next heq => exact .error (h.readReg.of_error heq)

theorem State.Tidy.clearWlt (h : s.Tidy) : s.clearWlt.Tidy := .ite h.upd h

theorem State.Tidy.writeReg {d : Spec} {v : Reg} (h : s.Tidy) : Ends Stop.Tidy State.Tidy (s.writeReg d v) :=
  .ite (.ok h) (.ite (.error .wait) (.ok h.setMe.clearWlt))

theorem State.Tidy.stale (h : s.Tidy) : s.stale.Tidy := h.setMe.clearWlt

/-! ### The functions of Machine/Flags.lean -/

theorem State.Tidy.sysWrite {p n : Nat} {v : Word} (h : s.Tidy) : Ends Stop.Tidy State.Tidy (s.sysWrite p n v) := by
  unfold State.sysWrite
  refine .ite (.ite (.ok h.setThread) (.error .flt)) (.ite (.ite (.ok h.setThread) (.error .flt)) (.ite ?_ ?_))
  · exact .ite (.error fltA_tidy) (.ite (.error fltA_tidy) (.ok h.setThread))
  · exact .ite (.ok h.setThread) (.ite (.ok h.setThread) (.ite (.ite (.ok h.setCore) (.error .flt)) (.error fltC_tidy)))

/-! ### The functions of Machine/Dev.lean -/

theorem State.Tidy.clsWrite {j : Nat} {v : Word} (h : s.Tidy) : (s.clsWrite j v).Tidy :=
  .ite h.setHub (.setHub (.of_mem (Memory.wf_filter _ _ h.wf)))

theorem State.Tidy.raiseMsix {v : Nat} (h : s.Tidy) : (s.raiseMsix v).Tidy :=
  .ite h.setHub (.setHub (.of_mem (Memory.wf_memPutN _ _ _ h.wf)))

theorem State.Tidy.flushMsix (h : s.Tidy) : s.flushMsix.Tidy := h.foldl fun _ _ h1 => h1.raiseMsix

theorem State.Tidy.msixWrite {k : Nat} {v : Word} (h : s.Tidy) : (s.msixWrite k v).Tidy :=
  .ite h.setHub (.ite h.setHub.raiseMsix h.setHub)

theorem State.Tidy.haltCore {c : Nat} (h : s.Tidy) : (s.haltCore c).Tidy := h.upd
theorem State.Tidy.unhaltCore {c : Nat} (h : s.Tidy) : (s.unhaltCore c).Tidy := h.upd
theorem State.Tidy.pauseCounts {f : Nat → Bool} {a b : Nat} (h : s.Tidy) : (s.pauseCounts f a b).Tidy := h.upd
theorem State.Tidy.dbgStop {c : Nat} {cause : BitVec 3} (h : s.Tidy) : (s.dbgStop c cause).Tidy := h.setCore.haltCore

theorem State.Tidy.dbgGo {c : Nat} (h : s.Tidy) : (s.dbgGo c).Tidy :=
  .ite (.setCore (.ite h.pauseCounts h)) (.unhaltCore (.setCore (.ite h.pauseCounts h)))

theorem State.Tidy.dbgCheck {c : Nat} (h : s.Tidy) : (s.dbgCheck c).Tidy := by
  unfold State.dbgCheck
  split
  exacts [h, .ite h (.ite h.setThread.charge h.chargeBad)]

theorem State.Tidy.dbgDatWrite {c : Nat} {v : Word} (h : s.Tidy) : (s.dbgDatWrite c v).Tidy := by
  unfold State.dbgDatWrite
  refine .ite h ?_
  dsimp only
  split
  · exact .ite h h.setThread
  · exact .ite h.setThread h
  · exact .ite h.setThread h
  · split
    next heq => exact Ends.of_ok (State.Tidy.sysWrite h) heq
    · exact h

theorem State.Tidy.ctlStop {c : Nat} (h : s.Tidy) : (s.ctlStop c).Tidy := h.setCore.dbgStop
theorem State.Tidy.ctlGo {c : Nat} (h : s.Tidy) : (s.ctlGo c).Tidy := h.setCore.dbgGo

theorem State.Tidy.dbgCtl {c : Nat} {v mask : Word} (h : s.Tidy) : (s.dbgCtl c v mask).Tidy := by
  unfold State.dbgCtl
  refine .ite ?_ ?_
  · exact .setCore (.ite (.ctlGo (.ite h.setCore.ctlStop h.setCore)) (.ite h.setCore.ctlStop h.setCore))
  · exact .ite (.ctlGo (.ite h.setCore.ctlStop h.setCore)) (.ite h.setCore.ctlStop h.setCore)

theorem State.Tidy.dbgWrite {c k : Nat} {v mask : Word} (h : s.Tidy) : (s.dbgWrite c k v mask).Tidy := by
  unfold State.dbgWrite
  dsimp only
  split
  exacts [h.dbgCtl, h.setCore, .dbgDatWrite h, h.setCore, h.setCore, h]

theorem State.Tidy.trtGo {d : Nat} (h : s.Tidy) : (s.trtGo d).Tidy := .ite h h.setDie

theorem State.Tidy.trtWrite {d k : Nat} {v mask : Word} (h : s.Tidy) : (s.trtWrite d k v mask).Tidy := by
  unfold State.trtWrite
  dsimp only
  split
  exacts [h.setDie, .ite h.trtGo h, h.setDie, h.setDie, h.setDie, h]

theorem State.Tidy.setNtr {p : Nat} {n : Notur} (h : s.Tidy) : (s.setNtr p n).Tidy := h.setHub
theorem State.Tidy.ntrEnable {p : Nat} (h : s.Tidy) : (s.ntrEnable p).Tidy := .ite h.setNtr h.setNtr
theorem State.Tidy.eyeWrite {k : Nat} {v mask : Word} (h : s.Tidy) : (s.eyeWrite k v mask).Tidy := h.setHub
theorem State.Tidy.attWrite {v : Word} (h : s.Tidy) : (s.attWrite v).Tidy := .ite h (.ite h.setHub h.setHub)
theorem State.Tidy.pwrWrite {v : Word} (h : s.Tidy) : (s.pwrWrite v).Tidy := .ite h.setHub h
theorem State.Tidy.irqWrite {v : Word} (h : s.Tidy) : (s.irqWrite v).Tidy := .ite h.raiseMsix h
theorem State.Tidy.ntrDisable {p : Nat} (h : s.Tidy) : (s.ntrDisable p).Tidy := h.setNtr

theorem State.Tidy.ntrWrite {p : Nat} {v mask : Word} (h : s.Tidy) : (s.ntrWrite p v mask).Tidy :=
  .ite (.ite h.setNtr.ntrEnable (.ite h.setNtr.ntrDisable h.setNtr)) h.setNtr

theorem State.Tidy.hubWrite {o : Nat} {v mask : Word} (h : s.Tidy) : (s.hubWrite o v mask).Tidy := by
  unfold State.hubWrite
  refine .ite h.setHub (.ite h.setHub (.ite (.ite h.setHub h) (.ite (.ntrWrite h) (.ite (.eyeWrite h) ?_))))
  refine .ite (.attWrite h) (.ite (.irqWrite h) (.ite ?_ (.ite (.pwrWrite h) (.ite (.msixWrite h) h))))
  dsimp only
  split
  exacts [h.setDie, h.setDie, h]

theorem State.Tidy.devWordWrite {o : Nat} {v mask : Word} (h : s.Tidy) : (s.devWordWrite o v mask).Tidy :=
  .ite (.clsWrite h) (.ite (.ite h.setHub h) (.ite (.trtWrite h) (.ite (.hubWrite h) (.ite (.ite (.dbgWrite h) h) h))))

theorem State.Tidy.devTouch {o : Nat} (h : s.Tidy) : (s.devTouch o).Tidy := .ite h.dbgCheck h
theorem State.Tidy.devWrite {o n v : Nat} (h : s.Tidy) : (s.devWrite o n v).Tidy := .ite (.devWordWrite h) (.devWordWrite h)

/-! ### The functions of Machine/Home.lean -/

theorem State.Tidy.writeBackL2 {loc : Nat} (h : s.Tidy) : (s.writeBackL2 loc).Tidy := by
  unfold State.writeBackL2
  refine .ite h.setGran ?_
  dsimp only
  split
  exacts [.setGran (.putBytes (.ite2 h h.checkGran)), .setGran (.ite2 h h.checkGran)]

theorem State.Tidy.storeWhole {loc : Nat} {bs : List Byte} (h : s.Tidy) : (s.storeWhole loc bs).Tidy := h.setGran.putBytes

theorem State.Tidy.readSpan {cls k loc n : Nat} {w : Reader} (h : s.Tidy) : (s.readSpan cls w k loc n).2.Tidy := by
  induction k generalizing s loc n with
  | zero => exact h
  | succ k ih =>
    unfold State.readSpan
    refine .ite2 h ?_
    dsimp only
    split
    next heq => exact h.checkGran.snd heq
    next heq =>
      have h1 := h.checkGran.snd heq
      split
      next heq => exact (ih h1).snd heq
      · exact ih h1

theorem State.Tidy.writeSpan {cls k loc : Nat} {w : Reader} {bs : List Byte} (h : s.Tidy) :
    (s.writeSpan cls w k loc bs).2.Tidy := by
  induction k generalizing s loc bs with
  | zero => exact h
  | succ k ih =>
    unfold State.writeSpan
    refine .ite2 h (.ite2 (ih h.storeWhole) ?_)
    split
    next heq => exact ih (h.storeGran.snd heq)
    next heq => exact h.storeGran.snd heq

theorem State.Tidy.checkTables {w : Reader} {ls : List Nat} (h : s.Tidy) : (s.checkTables w ls).2.Tidy := by
  induction ls generalizing s with
  | nil => exact h
  | cons l ls ih =>
    unfold State.checkTables
    split
    next heq => exact h.checkGran.snd heq
    next heq => exact ih (h.checkGran.snd heq)

theorem State.Tidy.walkFor {cl ctx va : Nat} {w : Reader} (h : s.Tidy) : (s.walkFor cl ctx va w).2.Tidy := by
  unfold State.walkFor
  dsimp only
  split
  exacts [h.checkTables.setClu, h.checkTables]

theorem State.Tidy.tableEntry {p ctx vpn : Nat} {w : Reader} (h : s.Tidy) :
    Ends (fun r => r.2.Tidy) (fun r => r.2.Tidy) (s.tableEntry p ctx vpn w) := by
  unfold State.tableEntry
  split
  next heq => exact .ok (h.tlbLookup.of_some heq)
  · refine .ite (.error h) ?_
    split
    next heq => exact .error (h.walkFor.snd heq)
    next heq => exact .ok (h.walkFor.snd heq).setCore.setClu

theorem State.Tidy.lateLoc {p ctx : Nat} {a : Word} {loc : Nat} {wr : Bool} {w : Reader} (h : s.Tidy) :
    Ends (fun r => r.2.Tidy) (fun r => r.2.Tidy) (s.lateLoc p ctx a loc wr w) := by
  unfold State.lateLoc
  refine .ite (.ok h) ?_
  split
  next heq => exact .error (h.tableEntry.of_error heq)
  next heq =>
    have h2 := h.tableEntry.of_ok heq
    refine .ite (.error h2) (.ite (.error h2) (.ite (.error h2) (.ite (.error h2) (.ite ?_ (.ok h2)))))
    split
    next heq => exact .ok (h2.logPage.of_some heq)
    · exact .error h2

theorem State.Tidy.spillOver {cl n : Nat} (h : s.Tidy) : (s.spillOver cl n).Tidy := by
  induction n generalizing s with
  | zero => exact h
  | succ n ih =>
    unfold State.spillOver
    refine .ite h ?_
    split
    · exact ih h.setClu
    · exact h

theorem State.Tidy.abortEntry {n : Nat} {x : Nat × Nat} {gone : Bool} (h : s.Tidy) : (State.abortEntry n s x gone).Tidy := by
  induction n generalizing s x gone with
  | zero => exact h
  | succ n ih =>
    obtain ⟨cl, e⟩ := x
    unfold State.abortEntry
    split
    · exact h
    next c _ =>
      refine .ite h ?_
      extract_lets bound s1 s2 kids s3 s4 s5 s6 s7 k k'
      have h1 : s1.Tidy := by
        unfold s1
        split
        · exact .ite (.ite h.trace.freeThread h.trace.vacate) h
        · exact h
      have h2 : s2.Tidy := by
        unfold s2
        split
        · exact h1.upd
        · exact h1
      have h4 : s4.Tidy := (h2.foldl fun _ _ h => ih h).dropMsgs
      have h5 : s5.Tidy := by
        refine h4.foldl fun _ _ h => ?_
        split
        · exact .ite h.freeTok h
        · exact h
      have h6 : s6.Tidy := .ite (h5.foldl fun _ _ h => h.putBytes) h5
      have h7 : s7.Tidy := h6.foldl fun _ _ h => (h.foldl fun _ _ h => ih h).putBytes
      exact .ite h7.setClu h7.setClu.spillOver

theorem State.Tidy.abortAll {xs : List (Nat × Nat)} (h : s.Tidy) : (s.abortAll xs).Tidy :=
  h.foldl fun _ _ h1 => h1.abortEntry

theorem State.Tidy.overflow {line : Nat} {hs : List Nat} (h : s.Tidy) : (s.overflow line hs).Tidy := by
  unfold State.overflow
  dsimp only
  split
  exacts [h.setClu, .ite h.setClu h.upd.setClu]

theorem State.Tidy.shareLine {line : Nat} {hs : List Nat} (h : s.Tidy) : (s.shareLine line hs).Tidy :=
  .ite h.upd (.ite h.upd h.overflow.upd)

theorem State.Tidy.dirStepAs {line c : Nat} {wr shared : Bool} (h : s.Tidy) : (s.dirStepAs line c wr shared).Tidy := by
  unfold State.dirStepAs
  dsimp only
  split
  · exact .ite h.upd h.shareLine
  · exact .ite h.upd (.ite h.upd h.shareLine)
  · exact .ite h.upd (.ite h h.shareLine)
  · exact .ite h.setClu.upd h.overflow
  · exact h.upd

theorem State.Tidy.dirStep {line c : Nat} {wr : Bool} (h : s.Tidy) : (s.dirStep line c wr).Tidy := h.dirStepAs

theorem State.Tidy.retireAcc {id : Nat} {a : Access} (h : s.Tidy) : (s.retireAcc id a).Tidy :=
  .ite h.delAcc.launchHears h.delAcc.setThread

theorem State.Tidy.accFault {id : Nat} {a : Access} {f : Flt} (h : s.Tidy) : (s.accFault id a f).Tidy := by
  unfold State.accFault
  refine .ite h.delAcc ?_
  split
  exacts [h.delAcc, h.delAcc.takeFaultAt]

theorem State.Tidy.unlog {cl e line : Nat} {a : Access} (h : s.Tidy) : (s.unlog cl e line a).Tidy := by
  unfold State.unlog
  dsimp only
  split
  exacts [h.setAcc, h.setClu, h]

theorem State.Tidy.recordAccess {cl e loc : Nat} {rd wr atomic : Bool} (h : s.Tidy) :
    Holds State.Tidy (s.recordAccess cl e loc rd wr atomic) := by
  unfold State.recordAccess
  split
  exacts [.some h, .ite .none (.some h.setClu)]

theorem State.Tidy.unqueue {id line : Nat} (h : s.Tidy) : (s.unqueue id line).Tidy := by
  unfold State.unqueue
  split
  exacts [h, h.upd]

theorem State.Tidy.mark {a : Access} {rd wr : Bool} (h : s.Tidy) : (s.mark a rd wr).Tidy := .ite h.upd h

theorem State.Tidy.homeAccess {id : Nat} (h : s.Tidy) : (s.homeAccess id).Tidy := by
  unfold State.homeAccess
  split
  · exact h
  · refine .ite h (.ite h.setAcc (.ite h ?_))
    split
    · exact h.upd
    · dsimp only
      split
      · refine .ite h.accFault (.ite h.abortAll ?_)
        split
        · split
          exacts [h.abortAll, h.abortAll.waitFrontier]
        next heq =>
          have h1 := h.abortAll.recordAccess.of_some heq
          split <;> exact .setAcc (.ite h1.unqueue h1.unqueue.dirStep)
      · refine .ite ?_ ?_
        · split <;> exact .setAcc (.ite h.unqueue h.unqueue.dirStep)
        · split
          · exact h.accFault
          · refine .ite h.accFault ?_
            split <;> exact .setAcc (.ite h.mark.unqueue h.mark.unqueue.dirStep)

/-! ### The functions of Machine/Operands.lean -/

theorem latch_tidy {rs : List Spec} : Ends Stop.Tidy (fun _ => True) (s.latch rs) := .ite (.error fltC_tidy) (.ok trivial)

theorem State.Tidy.read2 {a b : Spec} (h : s.Tidy) : Ends Stop.Tidy (fun _ => True) (s.read2 a b) :=
  latch_tidy.andThen fun _ => h.readReg.andThen fun _ => h.readReg.andThen fun _ => .pure trivial

theorem State.Tidy.read3 {a b c : Spec} (h : s.Tidy) : Ends Stop.Tidy (fun _ => True) (s.read3 a b c) :=
  latch_tidy.andThen fun _ => h.readReg.andThen fun _ => h.readReg.andThen fun _ => h.readReg.andThen fun _ => .pure trivial

theorem State.Tidy.put {len : Nat} {d : Spec} {v : Reg} (h : s.Tidy) : Ends Stop.Tidy State.Tidy (s.put len d v) :=
  h.writeReg.bind fun _ h1 => .pure h1.fin

theorem State.Tidy.alu1 {len : Nat} {d a : Spec} {f : Word → Word} (h : s.Tidy) :
    Ends Stop.Tidy State.Tidy (s.alu1 len d a f) :=
  h.readReg.andThen fun _ => h.put

theorem State.Tidy.alu2 {len : Nat} {d a b : Spec} {f : Word → Word → Word} (h : s.Tidy) :
    Ends Stop.Tidy State.Tidy (s.alu2 len d a b f) :=
  h.read2.andThen fun _ => h.put

theorem State.Tidy.putPred {len : Nat} {p : PredNo} {b : Bool} (h : s.Tidy) : (s.putPred len p b).Tidy := h.setMe.fin

theorem State.Tidy.cmp2 {len : Nat} {p : PredNo} {a b : Spec} {f : Word → Word → Bool} (h : s.Tidy) :
    Ends Stop.Tidy State.Tidy (s.cmp2 len p a b f) :=
  h.read2.andThen fun _ => .pure h.putPred

theorem State.Tidy.withFp {p : Fp} (h : s.Tidy) : (s.withFp p).Tidy := h.setMe

theorem useCheck_tidy {t : Thread} {bad : List (Fin 4)} : Ends Stop.Tidy (fun _ => True) (Thread.useCheck t bad) := by
  unfold Thread.useCheck
  split
  exacts [.ok trivial, .error .flt]

theorem State.Tidy.vecF1 {t : FTy} {d a : Spec} {f : FFmt → Nat → Fp → Nat × Fp} (h : s.Tidy) :
    Ends Stop.Tidy State.Tidy (s.vecF1 t d a f) :=
  latch_tidy.andThen fun _ => useCheck_tidy.andThen fun _ => h.readReg.andThen fun _ => h.withFp.put

theorem State.Tidy.vecF2 {len : Nat} {t : FTy} {d a b : Spec} {f : FFmt → Nat → Nat → Fp → Nat × Fp} (h : s.Tidy) :
    Ends Stop.Tidy State.Tidy (s.vecF2 len t d a b f) :=
  latch_tidy.andThen fun _ => useCheck_tidy.andThen fun _ => h.read2.andThen fun _ => h.withFp.put

theorem State.Tidy.vecF3 {len : Nat} {t : FTy} {d a b : Spec} {f : FFmt → Nat → Nat → Nat → Fp → Nat × Fp} (h : s.Tidy) :
    Ends Stop.Tidy State.Tidy (s.vecF3 len t d a b f) :=
  latch_tidy.andThen fun _ => useCheck_tidy.andThen fun _ => h.read3.andThen fun _ => h.withFp.put

theorem State.Tidy.vecFR {t : FTy} {d a : Spec} {f : FFmt → List Nat → Fp → Nat × Fp} (h : s.Tidy) :
    Ends Stop.Tidy State.Tidy (s.vecFR t d a f) :=
  latch_tidy.andThen fun _ => useCheck_tidy.andThen fun _ => h.readReg.andThen fun _ => h.withFp.put

theorem State.Tidy.vecI2 {len : Nat} {t : IntTy} {d a b : Spec} {f : Nat → Bool → Nat → Nat → Nat} (h : s.Tidy) :
    Ends Stop.Tidy State.Tidy (s.vecI2 len t d a b f) :=
  h.read2.andThen fun _ => h.put

theorem State.Tidy.perm3 {d a b : Spec} {f : Reg → Reg → Reg → Reg} (h : s.Tidy) :
    Ends Stop.Tidy State.Tidy (s.perm3 d a b f) :=
  h.read3.andThen fun _ => h.put

theorem State.Tidy.perm2 {d a b : Spec} {f : Reg → Reg → Reg} (h : s.Tidy) : Ends Stop.Tidy State.Tidy (s.perm2 d a b f) :=
  h.read2.andThen fun _ => h.put

theorem State.Tidy.perm1 {d a : Spec} {f : Reg → Reg} (h : s.Tidy) : Ends Stop.Tidy State.Tidy (s.perm1 d a f) :=
  h.readReg.andThen fun _ => h.put

/-! ### The functions of Machine/Access.lean -/

theorem State.Tidy.file {a : Access} (h : s.Tidy) : (s.file a).Tidy := h.setAcc.bump

theorem State.Tidy.issueLoad {len : Nat} {t : Spec} {a : Access} (h : s.Tidy) :
    Ends Stop.Tidy State.Tidy (s.issueLoad len t a) :=
  .ite (.error .wait) (.ite (.error .wait) (.ok (.fin (.setMe (.file (.ite h h.setMe.clearWlt))))))

theorem State.Tidy.issueStore {len : Nat} {a : Access} (h : s.Tidy) : Ends Stop.Tidy State.Tidy (s.issueStore len a) :=
  .ite (.error .wait) (.ok h.file.setMe.fin)

theorem orderedPlace_tidy {loc : Nat} {va : Word} : Ends Stop.Tidy (fun _ => True) (s.orderedPlace loc va) :=
  .ite (.error fltA_tidy) (.ok trivial)

theorem storeReport_tidy : Ends Stop.Tidy (fun _ => True) s.storeReport := by
  unfold State.storeReport
  dsimp only
  split
  exacts [.ok trivial, .error .flt]

theorem State.Tidy.regionEnd (h : s.Tidy) : Ends Stop.Tidy State.Tidy s.regionEnd :=
  .ite (.error_bind .wait) (storeReport_tidy.andThen fun _ => .pure h.endRegion)

theorem State.Tidy.release (h : s.Tidy) : Ends Stop.Tidy State.Tidy s.release := h.regionEnd
theorem State.Tidy.deliver {a : Access} {v : Reg} (h : s.Tidy) : (s.deliver a v).Tidy := h.setThread

theorem State.Tidy.sawLatest {p line : Nat} (h : s.Tidy) : (s.sawLatest p line).Tidy := by
  unfold State.sawLatest
  split
  exacts [h, h.setThread]

theorem State.Tidy.accBytes {a : Access} (h : s.Tidy) : (s.accBytes a).2.Tidy := .ite2 h.seenLine (.ite h.sawLatest h)
theorem State.Tidy.hear {a : Access} (h : s.Tidy) : (s.hear a).Tidy := .ite h h.hearAt

theorem State.Tidy.readFor {a : Access} (h : s.Tidy) : Ends (fun r => r.2.Tidy) (fun r => r.2.Tidy) (s.readFor a) := by
  unfold State.readFor
  refine .ite (.ok h.devTouch) ?_
  dsimp only
  split
  next heq => exact .error (h.checkGran.snd heq)
  next heq => exact .ok (h.checkGran.snd heq).accBytes.hear

theorem State.Tidy.failPort {p : Nat} (h : s.Tidy) : (s.failPort p).Tidy := .ite h (h.foldl fun _ _ h1 => h1.accFault)
theorem State.Tidy.failPorts (h : s.Tidy) : s.failPorts.Tidy := h.foldl fun _ _ h1 => h1.failPort

theorem State.Tidy.keepScratch {old : State} {p : Nat} {e : Option Nat} {loc n : Nat} (h : s.Tidy) :
    (s.keepScratch old p e loc n).Tidy := by
  unfold State.keepScratch
  dsimp only
  split
  exacts [.ite h.setClu h, h]

theorem State.Tidy.stored {old : State} {a : Access} (h : s.Tidy) : (s.stored old a).Tidy := by
  unfold State.stored
  dsimp only
  split
  exacts [h.keepScratch, .putRels (.ite h.notePast h)]

theorem State.Tidy.writeFor {a : Access} {v : Nat} (h : s.Tidy) : (s.writeFor a v).2.Tidy := by
  unfold State.writeFor
  split
  · dsimp only
    exact h.devWrite.failPorts
  · split
    next heq => exact (h.storeGran.snd heq).stored
    · exact h.storeGran

theorem State.Tidy.dropCopy {line : Nat} (h : s.Tidy) : (s.dropCopy line).Tidy := by
  unfold State.dropCopy
  split
  · exact h
  · refine .upd (.ite (.ite (.of_mem (Memory.wf_memPutN _ _ _ h.wf)) h) ?_)
    exact .setGran (.ite (.of_mem (Memory.wf_memPutN _ _ _ h.wf)) h)

theorem State.Tidy.cleanCopy {line : Nat} (h : s.Tidy) : (s.cleanCopy line).Tidy := by
  unfold State.cleanCopy
  split
  exacts [h, .ite (.of_mem (Memory.wf_memPutN _ _ _ h.wf)) h]

theorem State.Tidy.clsResult {a : Access} (h : s.Tidy) : (s.clsResult a).2.Tidy := h.checkGran

theorem State.Tidy.recall {line : Nat} (h : s.Tidy) : (s.recall line).Tidy := by
  unfold State.recall
  split
  exacts [h, h.upd.setClu, h.upd]

theorem State.Tidy.inject {loc tgt sym cnt : Nat} (h : s.Tidy) : (s.inject loc tgt sym cnt).Tidy := by
  unfold State.inject
  dsimp only
  split <;> exact .setGran (.ite h.recall.recall.writeBackL2 h.recall.recall)

theorem State.Tidy.finishRmw {id : Nat} {a : Access} {op : RmwOp} {old : Nat} (h : s.Tidy) :
    (s.finishRmw id a op old).Tidy :=
  .ite h.writeFor.deliver.retireAcc h.writeFor.accFault

theorem State.Tidy.storeFailed {id : Nat} {a : Access} (h : s.Tidy) : (s.storeFailed id a).Tidy := by
  unfold State.storeFailed
  refine .ite ?_ ?_
  · split
    exacts [.ite h.unlog h, h]
  · refine .setThread ?_
    split
    exacts [.ite h.unlog h, h]

theorem State.Tidy.streamIn {c block : Nat} (h : s.Tidy) : (s.streamIn c block).Tidy :=
  .ite h (.ite h.setCore (h.setCore.foldl fun _ _ h1 => h1.dropHolder))

theorem State.Tidy.prefetched {a : Access} {hint : Nat} (h : s.Tidy) : (s.prefetched a hint).Tidy := by
  unfold State.prefetched
  split
  next heq => exact h.checkGran.snd heq
  next heq =>
    have h2 := h.checkGran.snd heq
    exact .ite h2.dirStep (.ite h2.streamIn.dirStepAs h2)

theorem State.Tidy.storeWide {a : Access} {bs : List Byte} (h : s.Tidy) : (s.storeWide a bs).Tidy :=
  .ite h h.storeWhole.stored.stored

theorem State.Tidy.performAcc {id : Nat} (h : s.Tidy) : (s.performAcc id).Tidy := by
  unfold State.performAcc
  split
  · exact h
  · refine .ite h ?_
    split
    · exact .ite h.writeFor.retireAcc h.writeFor.retireAcc.storeFailed
    · exact h.storeWide.retireAcc
    · exact h
    · exact .ite h h.prefetched.delAcc
    · exact h.inject.retireAcc
    · exact h.clsResult.deliver.retireAcc
    · split
      next heq => exact (h.readFor.of_error heq).accFault
      next heq => exact (h.readFor.of_ok heq).deliver.retireAcc
    · split
      next heq => exact (Ends.of_error (State.Tidy.readFor (.ite h.dropCopy h)) heq).accFault
      next heq => exact (Ends.of_ok (State.Tidy.readFor (.ite h.dropCopy h)) heq).deliver.retireAcc
    · split
      next heq => exact (h.readFor.of_error heq).accFault
      next heq => exact (h.readFor.of_ok heq).setThread.retireAcc
    · split
      next heq => exact (h.readFor.of_error heq).accFault
      next heq => exact (h.readFor.of_ok heq).finishRmw
    · split
      next heq => exact (h.readFor.of_error heq).accFault
      next heq => exact (h.readFor.of_ok heq).finishRmw

theorem State.Tidy.homeNow {loc : Nat} {va : Word} {wr checked : Bool} (h : s.Tidy) :
    Ends Stop.Tidy State.Tidy (s.homeNow loc va wr checked) := by
  unfold State.homeNow
  refine .ite (.error_bind .wait) (.ite (.error_bind .wait) (.ite (.pure h) ?_))
  dsimp only
  split
  · refine .ite (.error_bind fltA_tidy) ?_
    split
    next heq => exact .pure (h.abortAll.recordAccess.of_some heq).dirStep
    · exact .error (.hold h.abortAll.awaitFrontier)
  · refine .ite ?_ (.pure h.dirStep)
    split
    exacts [.error_bind .flt, .ite (.error_bind fltA_tidy) (.pure h.dirStep)]

theorem State.Tidy.peerStore {a : Access} (h : s.Tidy) : (s.peerStore a).Tidy := by
  unfold State.peerStore
  dsimp only
  split <;> exact .of_mem (Memory.wf_memPutN _ _ _ h.wf)

theorem State.Tidy.linkAnswer {id : Nat} {bytes : List Byte} (h : s.Tidy) : (s.linkAnswer id bytes).Tidy := by
  have put : ∀ {a bs}, State.Tidy { s with mem := memPutN s.mem a bs } := .of_mem (Memory.wf_memPutN _ _ _ h.wf)
  unfold State.linkAnswer
  split
  · exact h
  · refine .ite h (.ite ?_ ?_)
    · split
      · exact put.hear.stored.deliver.retireAcc
      · exact put.hear.stored.deliver.retireAcc
      · exact h.peerStore.stored.retireAcc
      · exact h
    · split
      · have h1 : ∀ {ls}, (List.foldl State.cleanCopy s ls).Tidy := h.foldl fun _ _ h1 => h1.cleanCopy
        dsimp only
        split
        · exact h1.retireAcc
        · exact h1.setAcc
      · exact .setAcc (.ite put put.upd)

theorem State.Tidy.hostFail {id : Nat} (h : s.Tidy) : (s.hostFail id).Tidy := by
  unfold State.hostFail
  split
  exacts [h, .ite h.accFault h]

theorem State.Tidy.emit {p : Nat} {seq : BitVec 12} {b : NoturBody} (h : s.Tidy) : (s.emit p seq b).Tidy := h.setHub
theorem State.Tidy.flitOut {p : Nat} {b : NoturBody} (h : s.Tidy) : (s.flitOut p b).Tidy := h.setNtr.emit

theorem State.Tidy.countBurst {id : Nat} (h : s.Tidy) : (s.countBurst id).Tidy := by
  unfold State.countBurst
  split
  exacts [h, .ite h h.upd.setClu]

theorem State.Tidy.startAcc {id : Nat} (h : s.Tidy) : (s.startAcc id).Tidy := by
  unfold State.startAcc
  split
  · exact h
  · refine .ite h (.ite h.accFault ?_)
    dsimp only
    split
    · exact h.countBurst.homeAccess
    · refine .ite ?_ ?_
      · refine .flitOut ?_
        exact .ite (.setAcc (.ite h.countBurst.homeAccess h.countBurst.homeAccess.dropCopy)) h.countBurst.homeAccess
      · exact .ite (.setAcc (.ite h.countBurst.homeAccess h.countBurst.homeAccess.dropCopy)) h.countBurst.homeAccess

theorem State.Tidy.advance {id : Nat} (h : s.Tidy) : (s.advance id).Tidy := by
  unfold State.advance
  split
  · exact h
  · exact .ite h.startAcc (.ite (.ite h.hostFail (.ite h (.ite h.linkAnswer h.linkAnswer))) h.performAcc)

/-! ### The functions of Machine/SafePoint.lean -/

theorem State.Tidy.kernelFault {p code status : Nat} {addr : Word} (h : s.Tidy) :
    (s.kernelFault p code status addr).Tidy := by
  unfold State.kernelFault
  dsimp only
  split
  exacts [h.trace.upd.killLaunch, h.trace.upd.freeThread]

theorem State.Tidy.writeHeader {loc : Nat} {ws : List Word} (h : s.Tidy) : (s.writeHeader loc ws).Tidy :=
  h.foldl fun _ _ h1 => h1.writeN

theorem State.Tidy.enterSaving {p : Nat} {n : Option Nat} (h : s.Tidy) : (s.enterSaving p n).Tidy := by
  unfold State.enterSaving
  dsimp only
  split
  · exact h.kernelFault
  · refine .ite h.saveFail ?_
    split
    exacts [h.setThread, h.saveFail, h.writeHeader.setCtx.untake.trace.upd.setThread]

theorem State.Tidy.reachSafePoint {p : Nat} {n : Option Nat} (h : s.Tidy) : (s.reachSafePoint p n).Tidy :=
  .ite h.kernelFault h.enterSaving

theorem State.Tidy.block {b : Blk} (h : s.Tidy) : (s.block b).Tidy := h.setMe

theorem State.Tidy.blocking {α : Type} {operands : State → Except Stop α} {act : State → α → Res} (h : s.Tidy)
    (hoperands : ∀ t, t.Tidy → Ends Stop.Tidy (fun _ => True) (operands t))
    (hact : ∀ t y, t.Tidy → Ends Stop.Tidy State.Tidy (act t y)) : Ends Stop.Tidy State.Tidy (s.blocking operands act) :=
  .ite (.error (.hold h.reachSafePoint)) ((hoperands _ h).andThen fun _ => hact _ _ h.stale)

theorem State.Tidy.unblock {d : Spec} {v : Reg} (h : s.Tidy) : Ends Stop.Tidy State.Tidy (s.unblock d v) :=
  h.writeReg.bind fun _ h1 => .pure h1.setMe.fin

/-! ### The functions of Machine/Send.lean -/

theorem free1_tidy {d : Spec} : Ends Stop.Tidy (fun _ => True) (s.free1 d) := .ite (.error .wait) (.ok trivial)

theorem State.Tidy.payload {a : Spec} (h : s.Tidy) : Ends Stop.Tidy (fun _ => True) (s.payload a) :=
  .ite (.pure trivial) (h.readReg.andThen fun _ => h.readReg.andThen fun _ => h.readReg.andThen fun _ => .pure trivial)

theorem groupCheck_tidy {g : Nat} : Ends Stop.Tidy (fun _ => True) (s.groupCheck g) := by
  unfold State.groupCheck
  dsimp only
  split
  · exact .ok trivial
  · split
    exacts [.ite (.ok trivial) (.error fltC_tidy), .error fltC_tidy]

theorem coreCheck_tidy {id : Nat} : Ends Stop.Tidy (fun _ => True) (s.coreCheck id) :=
  .ite (.error fltC_tidy) (.ite (.ok trivial) (.ite (.error fltC_tidy) (.ite (.error fltC_tidy) (.ok trivial))))

theorem routeCheck_tidy {r : Nat} {modes : List Nat} : Ends Stop.Tidy (fun _ => True) (s.routeCheck r modes) := by
  unfold State.routeCheck
  refine .ite (.error fltC_tidy) ?_
  split
  · exact .ite (.error fltC_tidy) coreCheck_tidy
  · exact .ite (.error fltC_tidy) (.ok trivial)
  · exact .ite (.error fltC_tidy) (.ok trivial)
  · exact .ite (.error fltC_tidy) (.ok trivial)

theorem pcCheck_tidy {h0 : Word} : Ends Stop.Tidy (fun _ => True) (pcCheck h0) := .ite (.error fltA_tidy) (.ok trivial)

theorem State.Tidy.holdSend {d : Dest} (h : s.Tidy) : Ends Stop.Tidy State.Tidy (s.holdSend d) :=
  .error (.hold h.setMe.rewind)

theorem State.Tidy.launchMsg {m : Msg} (h : s.Tidy) : (s.launchMsg m).Tidy := h.post.setMe

theorem State.Tidy.defer {i : Deferred} (h : s.Tidy) : Ends Stop.Tidy State.Tidy (s.defer i) := by
  unfold State.defer
  dsimp only
  split
  · exact .ok h
  · split
    exacts [.ok h, .ite (.error (.hold h.awaitFrontier)) (.ok h.setClu)]

theorem State.Tidy.send {m : Msg} (h : s.Tidy) : Ends Stop.Tidy State.Tidy (s.send m) :=
  h.release.bind fun _ h1 => .ite h1.setMe.defer (.ite h1.holdSend (.pure h1.launchMsg))

theorem State.Tidy.notYet (h : s.Tidy) : Ends Stop.Tidy State.Tidy s.notYet := .error (.hold h.setMe.rewind)
theorem State.Tidy.sendTask {m : Msg} (h : s.Tidy) : Ends Stop.Tidy State.Tidy (s.sendTask m) := .ite h.notYet h.send

theorem State.Tidy.namedCluster {va : Word} (h : s.Tidy) : Ends Stop.Tidy (fun r => r.2.2.Tidy) (s.namedCluster va) :=
  h.access.bind fun _ h1 => .pure (by split <;> exact h1)

theorem execSpawn_tidy {a b : Spec} (h : s.Tidy) : Out.Tidy (execSpawn a b s) := by
  unfold execSpawn
  refine settle_tidy h (latch_tidy.andThen fun _ => h.readReg.andThen fun _ => h.payload.andThen fun _ => ?_)
  refine .ite (.error_bind fltC_tidy) (pcCheck_tidy.andThen fun _ => groupCheck_tidy.andThen fun _ => ?_)
  exact routeCheck_tidy.andThen fun _ => h.sendTask.bind fun _ h1 => .pure h1.fin

theorem execSpawnD_tidy {a b : Spec} (h : s.Tidy) : Out.Tidy (execSpawnD a b s) := by
  unfold execSpawnD
  refine settle_tidy h (latch_tidy.andThen fun _ => h.readReg.andThen fun _ => h.payload.andThen fun _ => ?_)
  refine .ite (.error_bind fltC_tidy) (pcCheck_tidy.andThen fun _ => groupCheck_tidy.andThen fun _ => ?_)
  exact h.namedCluster.bind fun _ h1 => h1.sendTask.bind fun _ h2 => .pure h2.fin

theorem orderKey_tidy {ts : Word} : Ends Stop.Tidy (fun _ => True) (s.orderKey ts) := by
  unfold State.orderKey
  refine .ite ?_ ?_
  · refine .ite (.error_bind fltS_tidy) ?_
    split
    exacts [.error fltC_tidy, .ite (.pure trivial) (.error fltC_tidy)]
  · refine .ite (.error_bind .wait) (.ite (.error_bind fltS_tidy) ?_)
    split
    exacts [.error fltC_tidy, .ite (.pure trivial) (.error fltC_tidy)]

theorem execSpawnO_tidy {d a b : Spec} (h : s.Tidy) : Out.Tidy (execSpawnO d a b s) := by
  unfold execSpawnO
  refine settle_tidy h (latch_tidy.andThen fun _ => h.readReg.andThen fun _ => h.payload.andThen fun _ => ?_)
  refine h.read64.andThen fun _ => .ite (.error_bind fltC_tidy) (pcCheck_tidy.andThen fun _ => ?_)
  refine groupCheck_tidy.andThen fun _ => .ite ?_ ?_
  · refine .pure_bind (orderKey_tidy.andThen fun _ => Ends.checkIf h.notYet.any (Ends.checkIf h.holdSend.any ?_))
    refine h.release.bind fun _ h1 => State.Tidy.put (.launchMsg ?_)
    split
    · split
      exacts [h1.setClu.setClu, h1.setClu]
    · exact h1.setClu
  · refine h.namedCluster.bind fun _ h2 => .pure_bind (orderKey_tidy.andThen fun _ => Ends.checkIf h2.notYet.any ?_)
    refine Ends.checkIf h2.holdSend.any (h2.release.bind fun _ h3 => State.Tidy.put (.launchMsg ?_))
    split
    · split
      exacts [h3.setClu.setClu, h3.setClu]
    · exact h3.setClu

theorem sndCheck_tidy {h0 : Word} {r : Nat} : Ends Stop.Tidy (fun _ => True) (s.sndCheck h0 r) := by
  unfold State.sndCheck
  refine .ite (.error_bind fltC_tidy) (.ite (.error_bind fltC_tidy) ?_)
  exact .ite (pcCheck_tidy.andThen fun _ => groupCheck_tidy.andThen fun _ => routeCheck_tidy) routeCheck_tidy

theorem execSnd_tidy {a b : Spec} (h : s.Tidy) : Out.Tidy (execSnd a b s) := by
  unfold execSnd
  refine settle_tidy h (latch_tidy.andThen fun _ => h.readReg.andThen fun _ => ?_)
  exact h.payload.andThen fun _ => sndCheck_tidy.andThen fun _ => h.send.bind fun _ h1 => .pure h1.fin

theorem execSndC_tidy {a b : Spec} (h : s.Tidy) : Out.Tidy (execSndC a b s) := by
  unfold execSndC
  refine settle_tidy h (latch_tidy.andThen fun _ => h.readReg.andThen fun _ => h.payload.andThen fun _ => ?_)
  refine .ite (.error_bind fltC_tidy) (.ite (.error_bind fltA_tidy) ?_)
  exact groupCheck_tidy.andThen fun _ => routeCheck_tidy.andThen fun _ => h.send.bind fun _ h1 => .pure h1.fin

theorem execRpl_tidy {a : Spec} (h : s.Tidy) : Out.Tidy (execRpl a s) :=
  settle_tidy h (latch_tidy.andThen fun _ => h.payload.andThen fun _ => h.send.bind fun _ h1 => .pure h1.fin)

theorem execTagBind_tidy {a b : Spec} (h : s.Tidy) : Out.Tidy (execTagBind a b s) := by
  unfold execTagBind
  refine settle_tidy h (h.read2.andThen fun _ => .ite (.error_bind fltS_tidy) (.ite (.error_bind fltS_tidy) ?_))
  refine .ite (.error_bind fltS_tidy) (h.access.bind fun _ h1 => ?_)
  exact orderedPlace_tidy.andThen fun _ => h1.release.bind fun _ h2 => .ite h2.holdSend h2.setMe.issueStore

theorem State.Tidy.fetchQuad {loc : Nat} {va : Word} (h : s.Tidy) :
    Ends Stop.Tidy (fun r => r.2.Tidy) (s.fetchQuad loc va) := by
  unfold State.fetchQuad
  refine h.homeNow.bind fun _ h1 => ?_
  dsimp only
  split
  next heq => exact .error (.hold (h1.checkGran.snd heq).takeFault)
  next heq => exact .ok (h1.checkGran.snd heq)

theorem execRq_tidy {d a b : Spec} (h : s.Tidy) : Out.Tidy (execRq d a b s) := by
  unfold execRq
  refine settle_tidy h (latch_tidy.andThen fun _ => h.readReg.andThen fun _ => h.payload.andThen fun _ => ?_)
  refine .ite (.error_bind fltC_tidy) (pcCheck_tidy.andThen fun _ => groupCheck_tidy.andThen fun _ => ?_)
  refine routeCheck_tidy.andThen fun _ => .ite (.error_bind fltS_tidy) (.ite (.error_bind fltS_tidy) ?_)
  refine h.access.bind fun _ h1 => free1_tidy.andThen fun _ => h1.release.bind fun _ h2 => ?_
  dsimp only
  split
  · exact h2.holdSend
  · refine .ite h2.holdSend ?_
    exact h2.fetchQuad.bind fun _ h3 => .ite (.error_bind fltS_tidy) (h3.send.bind fun _ h4 => h4.setCore.put)

/-! ### The functions of Machine/Notice.lean -/

theorem State.Tidy.part {α : Type} {x : Except Nat α} (h : s.Tidy) :
    Ends (fun r => r.2.Tidy) (fun _ => True) (State.part s x) := by
  unfold State.part
  split
  exacts [.ok trivial, .error h]

theorem State.Tidy.sigWrite {loc : Nat} {op : RmwOp} {v : Reg} {w : Reader} (h : s.Tidy) :
    Ends (fun r => r.2.Tidy) State.Tidy (s.sigWrite loc op v w) := by
  unfold State.sigWrite
  refine .ite (.error h) (.ite (.error h) ?_)
  dsimp only
  split
  next heq => exact .error (State.Tidy.snd (State.Tidy.checkGran (.ite h.dropCopy h)) heq)
  next heq =>
    have h2 := State.Tidy.snd (State.Tidy.checkGran (.ite h.dropCopy h)) heq
    refine .ite (.ok (.of_mem (Memory.wf_memPutN _ _ _ h2.wf))) ?_
    split
    next heq => exact .ok (h2.storeGran.snd heq)
    next heq => exact .error (h2.storeGran.snd heq)

theorem State.Tidy.sigRel {p : Nat} {c : Clock} {loc : Nat} (h : s.Tidy) : (s.sigRel p c loc).Tidy := h.putRels

theorem State.Tidy.checkedWord {loc : Nat} {w : Reader} (h : s.Tidy) :
    Ends (fun r => r.2.Tidy) (fun r => r.2.Tidy) (s.checkedWord loc w) := by
  unfold State.checkedWord
  split
  next heq => exact .error (h.checkGran.snd heq)
  next heq => exact .ok (h.checkGran.snd heq)

theorem State.Tidy.checkedStore {loc : Nat} {bs : List Byte} {w : Reader} (h : s.Tidy) :
    Ends (fun r => r.2.Tidy) State.Tidy (s.checkedStore loc bs w) := by
  unfold State.checkedStore
  split
  next heq => exact .ok (h.storeGran.snd heq)
  next heq => exact .error (h.storeGran.snd heq)

theorem State.Tidy.tokRel {t : Token} {loc n : Nat} (h : s.Tidy) : (s.tokRel t loc n).Tidy := h.putRels

theorem State.Tidy.basinAppend {t : Token} (h : s.Tidy) : Ends (fun r => r.2.Tidy) State.Tidy (s.basinAppend t) := by
  unfold State.basinAppend
  refine .ite (.pure h) (Ends.bind (P := fun r => r.2.Tidy) (h.part.andThen fun _ => h.checkedWord) fun _ h1 => ?_)
  refine Ends.bind (P := fun r => r.2.Tidy) (h1.part.andThen fun _ => h1.checkedWord) fun _ h2 => ?_
  refine Ends.bind (P := fun r => r.2.Tidy) (h2.part.andThen fun _ => h2.checkedWord) fun _ h3 => ?_
  refine Ends.bind (P := fun r => r.2.Tidy) (h3.part.andThen fun _ => h3.checkedWord) fun _ h4 => .ite ?_ ?_
  · refine Ends.bind (P := fun r => r.2.Tidy) (h4.part.andThen fun _ => h4.checkedWord) fun _ h5 => ?_
    exact h5.part.andThen fun _ => h5.checkedStore
  · refine h4.part.andThen fun _ => Ends.bind (P := State.Tidy) ?_ fun _ h6 => h6.part.andThen fun _ => .pure h6.tokRel
    exact h4.storeWhole.tokRel.tokRel.part.andThen fun _ => h4.storeWhole.tokRel.tokRel.checkedStore

theorem State.Tidy.sigNotice {t : Token} {op : RmwOp} (h : s.Tidy) :
    Ends (fun r => r.2.Tidy) State.Tidy (s.sigNotice t op) :=
  h.part.andThen fun _ => .ite (.error_bind h) (Ends.bind (State.Tidy.sigWrite h) fun _ h1 => .pure h1.sigRel)

theorem State.Tidy.noticeBody {t : Token} (h : s.Tidy) : Ends (fun r => r.2.Tidy) State.Tidy (s.noticeBody t) := by
  unfold State.noticeBody
  split
  · exact h.basinAppend
  · exact .ok h.post
  · exact .ok h.post
  · split
    exacts [h.sigNotice, h.sigNotice, h.sigNotice, .ok h]
  · exact .ok h

theorem State.Tidy.countLost {code : Nat} (h : s.Tidy) : (s.countLost code).Tidy := .ite h.setHub h

theorem State.Tidy.postNotice {key : Nat} (h : s.Tidy) : (s.postNotice key).Tidy := by
  unfold State.postNotice
  split
  · exact h
  · split
    next heq =>
      have h1 := h.noticeBody.of_ok heq
      split
      exacts [h1.setTok, h1]
    · exact h
    next heq =>
      have h3 := h.noticeBody.of_error heq
      split
      exacts [h3.setTok.countLost, h3.countLost]

theorem State.Tidy.postOrKeep {key : Nat} (h : s.Tidy) : (s.postOrKeep key).Tidy := by
  unfold State.postOrKeep
  split
  · exact h
  · dsimp only
    split
    exacts [.ite h.setTok.postNotice h.setTok.postNotice.upd.setTok, h.setTok.postNotice]

theorem State.Tidy.postLate (h : s.Tidy) : s.postLate.Tidy := by
  unfold State.postLate
  refine .ite h (h.upd.foldl fun _ _ h1 => ?_)
  split
  next heq => exact h1.noticeBody.of_ok heq
  · exact h1.upd
  next heq =>
    have h4 := h1.noticeBody.of_error heq
    refine .countLost ?_
    split
    exacts [.ite h4.setTok h4, h4]

/-! ### The functions of Machine/Retire.lean -/

theorem State.Tidy.reportTok {t : Token} (h : s.Tidy) : (s.reportTok t).Tidy := by
  unfold State.reportTok
  split
  exacts [h.report, h.upd]

theorem State.Tidy.loseTok {key : Nat} (h : s.Tidy) : (s.loseTok key).Tidy := by
  unfold State.loseTok
  split
  · exact h
  · dsimp only
    split
    · exact .ite h.setTok.reportTok h
    · refine .ite ?_ (.setTok (.ite h.setTok.reportTok h))
      exact .freeTok (.ite (.ite h.setTok.reportTok h) (.postOrKeep (.ite h.setTok.reportTok h)))

theorem State.Tidy.keepToks {p : Nat} {e : Nat × Nat} (h : s.Tidy) : (s.keepToks p e).Tidy := by
  unfold State.keepToks
  refine h.foldl fun _ _ h1 => ?_
  split
  exacts [h1.setTok, h1]

theorem State.Tidy.loseKept {e : Nat × Nat} (h : s.Tidy) : (s.loseKept e).Tidy := h.foldl fun _ _ h1 => h1.loseTok
theorem State.Tidy.loseToks {p : Nat} (h : s.Tidy) : (s.loseToks p).Tidy := h.foldl fun _ _ h1 => h1.loseTok

theorem State.Tidy.cancelStreams {p : Nat} (h : s.Tidy) : (s.cancelStreams p).Tidy := by
  unfold State.cancelStreams
  refine h.foldl fun _ _ h1 => ?_
  split
  exacts [.ite h1.endTok h1, h1]

theorem State.Tidy.retire (h : s.Tidy) : s.retire.Tidy := .ite h.loseToks.freeThread h.loseToks

theorem State.Tidy.doneSaving (h : s.Tidy) : s.doneSaving.Tidy := by
  unfold State.doneSaving
  have h1 : ((s.orphanToks s.cur).freeThread s.cur).Tidy := h.orphanToks.freeThread
  exact .ite h1 h1.abandoned

theorem State.Tidy.doneOrdered {e : Nat} (h : s.Tidy) : (s.doneOrdered e).Tidy := by
  unfold State.doneOrdered
  refine .freeThread (.keepToks ?_)
  split
  exacts [h.setClu, h]

theorem State.Tidy.doneTask (h : s.Tidy) : s.doneTask.Tidy := by
  unfold State.doneTask
  refine .ite h.doneSaving ?_
  split
  exacts [h.doneOrdered, .ite h.cancelStreams.block h.cancelStreams.retire]

theorem State.Tidy.doneEnd (h : s.Tidy) : Ends Stop.Tidy State.Tidy s.doneEnd :=
  .ite (.error_bind .wait) (storeReport_tidy.andThen fun _ => .pure h.endRegion)

theorem State.Tidy.doDone {len : Nat} (h : s.Tidy) : Ends Stop.Tidy State.Tidy (s.doDone len) :=
  h.doneEnd.bind fun _ h1 => .pure h1.trace.fin.doneTask

theorem State.Tidy.continuation {len route : Nat} (h : s.Tidy) : Ends Stop.Tidy (fun _ => True) (s.continuation len route) :=
  h.readReg.andThen fun _ => h.readReg.andThen fun _ => h.readReg.andThen fun _ => .pure trivial

theorem State.Tidy.syncCheck {loc n : Nat} {va : Word} (h : s.Tidy) : Ends Stop.Tidy State.Tidy (s.syncCheck loc va n) := by
  induction n generalizing s with
  | zero => exact .ok h
  | succ n ih => exact h.homeNow.bind fun _ h1 => ih h1

theorem State.Tidy.doSusp {len : Nat} (h : s.Tidy) : Ends Stop.Tidy State.Tidy (s.doSusp len) := by
  unfold State.doSusp
  refine h.continuation.andThen fun _ => .ite (.error_bind fltS_tidy) (.ite (.error_bind fltA_tidy) ?_)
  refine h.access.bind fun _ h1 => .ite (.error_bind fltC_tidy) (h1.release.bind fun _ h2 => .ite (.error_bind .flt) ?_)
  exact h2.syncCheck.bind fun _ h3 => .pure (.freeThread (.orphanToks (.stale (.fin (.trace (.ite h3 h3.storeWhole))))))

theorem execYield_tidy (h : s.Tidy) : Out.Tidy (execYield s) := by
  unfold execYield
  refine settle_tidy h (h.continuation.andThen fun _ => .ite (.error_bind fltC_tidy) (h.release.bind fun _ h1 => ?_))
  exact .pure (.retire (.stale (.fin (.trace (.ite h1.requeueMsg (.ite h1.post (.ite h1.upd.bump h1.post)))))))

theorem execAbort_tidy (h : s.Tidy) : Out.Tidy (execAbort s) := by
  unfold execAbort
  refine settle_tidy h ?_
  split
  exacts [.error fltC_tidy, .ite (.error fltC_tidy) (.ok h.abortAll.setClu)]

theorem State.Tidy.safePoint {n len : Nat} (h : s.Tidy) : Ends Stop.Tidy State.Tidy (s.safePoint n len) :=
  .ite (.error (.hold h.reachSafePoint)) (.ok h.stale.fin)

/-! ### The functions of Machine/Port.lean -/

theorem State.Tidy.keepPort {cl i : Nat} {p : Port} (h : s.Tidy) : (s.keepPort cl i p).Tidy := .ite h.setClu h.setPort

theorem portAddr_tidy {pat : Bool} {a : Word} : Ends Stop.Tidy (fun _ => True) (portAddr pat a) :=
  .ite (.error fltS_tidy) (.ok trivial)

theorem State.Tidy.fire {cl k : Nat} {q : Pattern} (h : s.Tidy) : (s.fire cl k q).Tidy := by
  unfold State.fire
  dsimp only
  split
  · exact (h.foldl fun _ _ h1 => h1.keepPort).setClu
  · refine .ite (((h.foldl fun _ _ h2 => h2.keepPort).setClu).countLoss) ?_
    exact .ite (((h.foldl fun _ _ h3 => h3.keepPort).setClu).requeueMsg) (((h.foldl fun _ _ h4 => h4.keepPort).setClu).offer)

theorem State.Tidy.evalPatterns {cl n : Nat} (h : s.Tidy) : (State.evalPatterns cl n s).Tidy := by
  induction n generalizing s with
  | zero => exact h
  | succ n ih =>
    unfold State.evalPatterns
    split
    · exact ih h.fire
    · exact h

theorem State.Tidy.evaluate {cl : Nat} (h : s.Tidy) : (s.evaluate cl).Tidy := h.evalPatterns

theorem State.Tidy.settleFiring {cl : Nat} (h : s.Tidy) : (s.settleFiring cl).Tidy := by
  unfold State.settleFiring
  dsimp only
  split
  exacts [h.upd.setClu, h]

theorem State.Tidy.freeFiring {cl k : Nat} (h : s.Tidy) : (s.freeFiring cl k).Tidy := h.setClu.settleFiring.evaluate

theorem State.Tidy.sweepFirings {cl : Nat} (h : s.Tidy) : (s.sweepFirings cl).Tidy := by
  unfold State.sweepFirings
  dsimp only
  split
  exacts [h.freeFiring, h]

theorem State.Tidy.serveTake {p : Nat} {m : PMsg} (h : s.Tidy) : (s.serveTake p m).Tidy := by
  unfold State.serveTake
  dsimp only
  split
  exacts [h.setThread, h]

theorem State.Tidy.overflowFault {cl i : Nat} {m : Msg} (h : s.Tidy) : (s.overflowFault cl i m).Tidy := by
  unfold State.overflowFault
  dsimp only
  split
  · refine .ite h.report ?_
    split
    exacts [h.report, h.upd]
  · exact h.upd

theorem State.Tidy.refuse {m : Msg} (h : s.Tidy) : (s.refuse m).Tidy := h.post
theorem State.Tidy.joinDrop {cl : Nat} (h : s.Tidy) : (s.joinDrop cl).Tidy := h.setClu

theorem State.Tidy.noteRefused {v : Nat} (h : s.Tidy) : (s.noteRefused v).Tidy := by
  unfold State.noteRefused
  split
  exacts [.ite h.setTok h, h]

theorem State.Tidy.portArrive {cl i : Nat} {m : Msg} (h : s.Tidy) : (s.portArrive cl i m).Tidy := by
  unfold State.portArrive
  refine .ite h.joinDrop ?_
  split
  · exact h.setPort.serveTake
  · refine .ite h.setPort.evaluate ?_
    dsimp only
    split
    · exact h.setPort.overflowFault
    · split
      exacts [h.setPort.noteRefused.joinDrop, h.setPort.refuse]
    · exact h.setPort.joinDrop

theorem State.Tidy.joinBind {cl : Nat} {u : User} {a : Word} {desc : Reg} (h : s.Tidy) :
    Ends Stop.Tidy State.Tidy (s.joinBind cl u a desc) := by
  unfold State.joinBind
  refine .ite (.error_bind fltS_tidy) (Ends.checkIf (.error .flt) (Ends.checkIf (.error .flt) ?_))
  refine Ends.checkIf (.error .flt) (.ite (.error_bind .flt) ?_)
  dsimp only
  split
  · exact .pure h.setClu.evaluate
  · split
    exacts [.ite (.error_bind fltS_tidy) (.pure h.setClu.evaluate), .error_bind fltS_tidy]

theorem State.Tidy.joinUnbind {cl : Nat} {u : User} {a : Word} (h : s.Tidy) :
    Ends Stop.Tidy State.Tidy (s.joinUnbind cl u a) := by
  unfold State.joinUnbind
  dsimp only
  split
  exacts [.ite (.ok h.setClu) (.error fltS_tidy), .error fltS_tidy]

theorem State.Tidy.joinCfg {cl i : Nat} {u : User} {v : Word} (h : s.Tidy) :
    Ends Stop.Tidy State.Tidy (s.joinCfg cl i u v) := by
  unfold State.joinCfg
  refine .ite (.error_bind fltS_tidy) (.ite (.error_bind fltS_tidy) ?_)
  exact .ite (.error_bind fltS_tidy) (.ite (.pure h.keepPort) (.ite (.pure h.setPort) (.pure h.setPort)))

theorem State.Tidy.joinClr {cl i : Nat} (h : s.Tidy) : (s.joinClr cl i).Tidy := .ite h h.setPort

theorem ownPort_tidy {pat : Bool} {a : Word} : Ends Stop.Tidy (fun _ => True) (s.ownPort pat a) := by
  unfold State.ownPort
  refine portAddr_tidy.andThen fun _ => ?_
  exact .ite (.error_bind fltS_tidy) (.ite (.error_bind fltS_tidy) (.ite (.error_bind .wait) (.pure trivial)))

theorem State.Tidy.portOp {op : Nat} {a : Word} {b : Reg} {act : State → Res}
    (h : s.Tidy) (hact : ∀ t, t.Tidy → Ends Stop.Tidy State.Tidy (act t)) :
    Ends Stop.Tidy State.Tidy (s.portOp op a b act) :=
  (hact _ h).bind fun _ _ => h.regionEnd.bind fun _ h2 => .ite h2.defer (hact _ h2)

theorem execPatBind_tidy {a b : Spec} (h : s.Tidy) : Out.Tidy (execPatBind a b s) := by
  unfold execPatBind
  refine settle_tidy h (h.read2.andThen fun _ => ?_)
  exact ownPort_tidy.andThen fun _ => (h.portOp fun _ h1 => h1.joinBind).bind fun _ h2 => .pure h2.fin

theorem execPatDrop_tidy {a : Spec} (h : s.Tidy) : Out.Tidy (execPatDrop a s) := by
  unfold execPatDrop
  refine settle_tidy h (h.read64.andThen fun _ => ?_)
  exact ownPort_tidy.andThen fun _ => (h.portOp fun _ h1 => h1.joinUnbind).bind fun _ h2 => .pure h2.fin

theorem execPortCfg_tidy {a b : Spec} (h : s.Tidy) : Out.Tidy (execPortCfg a b s) := by
  unfold execPortCfg
  refine settle_tidy h (h.read2.andThen fun _ => ?_)
  exact ownPort_tidy.andThen fun _ => (h.portOp fun _ h1 => h1.joinCfg).bind fun _ h2 => .pure h2.fin

theorem execPortGive_tidy {a b : Spec} (h : s.Tidy) : Out.Tidy (execPortGive a b s) := by
  unfold execPortGive
  refine settle_tidy h (latch_tidy.andThen fun _ => h.readReg.andThen fun _ => h.payload.andThen fun _ => ?_)
  refine portAddr_tidy.andThen fun _ => ?_
  exact .ite (.error_bind fltC_tidy) (pcCheck_tidy.andThen fun _ => h.send.bind fun _ h1 => .pure h1.fin)

theorem execPortSt_tidy {d a : Spec} {w : BitVec 4} (h : s.Tidy) : Out.Tidy (execPortSt d a w s) := by
  unfold execPortSt
  refine settle_tidy h (h.read64.andThen fun _ => ?_)
  exact ownPort_tidy.andThen fun _ => .ite (.error_bind fltC_tidy) (h.regionEnd.bind fun _ h1 => h1.put)

theorem free3_tidy {d : Spec} : Ends Stop.Tidy (fun _ => True) (s.free3 d) := .ite (.error .wait) (.ok trivial)
theorem State.Tidy.takeInto {d : Spec} {m : PMsg} (h : s.Tidy) : (s.takeInto d m).Tidy := .ite h.setMe h.setMe.clearWlt

theorem State.Tidy.takeHead {cl i : Nat} (h : s.Tidy) : Holds (fun r => r.2.Tidy) (s.takeHead cl i) := by
  unfold State.takeHead
  dsimp only
  split
  exacts [.none, .some h.setPort]

theorem execPortTake_tidy {d a : Spec} {k : PredNo} (h : s.Tidy) : Out.Tidy (execPortTake d a k s) := by
  unfold execPortTake
  refine settle_tidy h (h.read64.andThen fun _ => ownPort_tidy.andThen fun _ => .ite (.error_bind fltC_tidy) ?_)
  refine free3_tidy.andThen fun _ => h.regionEnd.bind fun _ h1 => .pure ?_
  split
  next heq => exact (h1.takeHead.of_some heq).takeInto.setMe.fin
  · exact h1.takeInto.setMe.fin

theorem execPortTakeW_tidy {d a : Spec} (h : s.Tidy) : Out.Tidy (execPortTakeW d a s) := by
  unfold execPortTakeW
  refine settle_tidy h (h.blocking (fun _ h1 => h1.read64) fun _ _ h2 => ownPort_tidy.andThen fun _ => ?_)
  refine .ite (.error_bind fltC_tidy) (free3_tidy.andThen fun _ => h2.regionEnd.bind fun _ h3 => .pure ?_)
  split
  next heq => exact (h3.takeHead.of_some heq).takeInto.fin
  · exact h3.setPort.block

theorem execPortClr_tidy {d a : Spec} (h : s.Tidy) : Out.Tidy (execPortClr d a s) := by
  unfold execPortClr
  refine settle_tidy h (h.read64.andThen fun _ => ?_)
  exact ownPort_tidy.andThen fun _ => (h.portOp fun _ h1 => .ok h1.joinClr).bind fun _ h2 => h2.put

theorem execPortArrival_tidy {msg : Nat} (h : s.Tidy) : Out.Tidy (execPortArrival msg s) := by
  unfold execPortArrival
  split
  · split
    exacts [.ite (.next h.upd.accepted.portArrive) (.next h), .next h]
  · exact .next h

/-! ### The functions of Machine/LoadStore.lean -/

theorem State.Tidy.load {len : Nat} {t : Spec} {signed : Bool} {n : Nat} {va : Word} (h : s.Tidy) :
    Ends Stop.Tidy State.Tidy (s.load len t signed n va) :=
  h.access.bind fun _ h1 => h1.issueLoad

theorem State.Tidy.ld {t b : Spec} {off : BitVec 10} {signed : Bool} {n : Nat} (h : s.Tidy) :
    Ends Stop.Tidy State.Tidy (s.ld t b off signed n) :=
  h.read64.andThen fun _ => h.load

theorem State.Tidy.store {len : Nat} {v : Reg} {n : Nat} {va : Word} (h : s.Tidy) :
    Ends Stop.Tidy State.Tidy (s.store len v n va) :=
  h.access.bind fun _ h1 => orderedPlace_tidy.andThen fun _ => h1.issueStore

theorem State.Tidy.st {t b : Spec} {off : BitVec 10} {n : Nat} (h : s.Tidy) : Ends Stop.Tidy State.Tidy (s.st t b off n) :=
  h.read2.andThen fun _ => h.store

theorem State.Tidy.amo {op : RmwOp} {t b : Spec} {ord : MOrd} {scope : Scope} {size : Bool} (h : s.Tidy) :
    Ends Stop.Tidy State.Tidy (s.amo op t b ord scope size) := by
  unfold State.amo
  refine h.read2.andThen fun _ => h.access.bind fun _ h1 => orderedPlace_tidy.andThen fun _ => ?_
  exact .ite (.error_bind (.kept h1)) (.ite h1.issueLoad (h1.regionEnd.bind fun _ h2 => h2.issueLoad))

theorem State.Tidy.xload {n k : Nat} {a : Spec} {off : Nat} (h : s.Tidy) : Ends Stop.Tidy State.Tidy (s.xload n k a off) :=
  h.read64.andThen fun _ => h.access.bind fun _ h1 => .pure h1.file.fin.setMe

theorem State.Tidy.xstore {n k : Nat} {a : Spec} {off : Nat} (h : s.Tidy) : Ends Stop.Tidy State.Tidy (s.xstore n k a off) :=
  h.read64.andThen fun _ => h.access.bind fun _ h1 => orderedPlace_tidy.andThen fun _ => h1.issueStore

theorem State.Tidy.xmove {len : Nat} {n : XNo} {a : Spec} (h : s.Tidy) : Ends Stop.Tidy State.Tidy (s.xmove len n a) :=
  h.read64.andThen fun _ => .pure h.setMe.fin

/-! ### The functions of Machine/Bank.lean -/

theorem cursor_tidy {c : Word} : Ends Stop.Tidy (fun _ => True) (s.cursor c) := by
  unfold State.cursor
  refine .ite (.error_bind fltA_tidy) ?_
  exact .ite (.error_bind fltS_tidy) (.ite (.error_bind fltS_tidy) (.ite (.error_bind .flt) (.pure trivial)))

theorem State.Tidy.bankRead {bank off n : Nat} (h : s.Tidy) :
    Ends Stop.Tidy (fun r => r.2.Tidy) (s.bankRead bank off n) := by
  unfold State.bankRead
  dsimp only
  split
  next heq => exact .ok (h.readSpan.snd heq)
  next heq => exact .error (.hold (h.readSpan.snd heq).takeFault)

theorem State.Tidy.rawAt {c : Cursor} (h : s.Tidy) : Ends Stop.Tidy (fun r => r.2.Tidy) (s.rawAt c) :=
  h.bankRead.bind fun _ h1 => .ite (.pure h1) (.ite (h1.bankRead.bind fun _ h2 => .pure h2) (.pure h1))

theorem execLds_tidy {d a : Spec} {i : BitVec 6} (h : s.Tidy) : Out.Tidy (execLds d a i s) := by
  unfold execLds
  refine settle_tidy h (h.read64.andThen fun _ => .ite (.error_bind .wait) (cursor_tidy.andThen fun _ => ?_))
  refine .ite (.error_bind .wait) (h.rawAt.bind fun _ h1 => ?_)
  dsimp only
  split
  · exact .error (.hold h1.takeFault)
  · split
    · exact State.Tidy.put (.ite h1.setMe h1)
    · exact State.Tidy.put (.ite h1.setMe h1)
    · exact State.Tidy.put (.withFp (.ite h1.setMe h1))

theorem State.Tidy.bankWrite {bank off : Nat} {bs : List Byte} {va : Word} (h : s.Tidy) :
    (s.bankWrite bank off bs va).Tidy := by
  unfold State.bankWrite
  dsimp only
  split
  next heq => exact (h.writeSpan.snd heq).keepScratch
  next heq => exact (h.writeSpan.snd heq).setMe.bump

theorem execSts_tidy {t a : Spec} {i : BitVec 6} (h : s.Tidy) : Out.Tidy (execSts t a i s) := by
  unfold execSts
  refine settle_tidy h (h.read2.andThen fun _ => .ite (.error_bind .wait) (cursor_tidy.andThen fun _ => ?_))
  refine .ite (.error_bind .flt) (.ite (.error_bind .wait) (.ite (.pure (.fin (.bankWrite h.withFp))) ?_))
  split
  · exact .pure h.readSpan.setMe.bump.fin
  next heq =>
    have h2 := h.rawAt.of_ok heq
    exact .pure (.fin (.ite (.bankWrite (.bankWrite h2.withFp)) (.bankWrite h2.withFp)))

/-! ### The functions of Machine/Fetch.lean -/

theorem State.Tidy.codeLine {p loc : Nat} {pc : Word} (h : s.Tidy) : Ends Stop.Tidy State.Tidy (s.codeLine p loc pc) := by
  unfold State.codeLine
  refine .ite ?_ (.ok h)
  split
  next heq => exact .ok (h.upd.homeNow.of_ok heq).upd
  · exact h.upd.homeNow

theorem State.Tidy.fetchMem {p : Nat} {pc : Word} (h : s.Tidy) : Ends Stop.Tidy (fun r => r.2.Tidy) (s.fetchMem p pc) := by
  unfold State.fetchMem
  refine .ite (.error_bind fltA_tidy) (.ite (.error_bind fltA_tidy) (h.translate.bind fun _ h1 => ?_))
  refine .ite (.error_bind .wait) (h1.codeLine.bind fun _ h2 => .ite_bind h2.codeLine (.pure h2) fun _ h3 => ?_)
  dsimp only
  split
  next heq => exact .error (.hold (h3.checkGran.snd heq).takeFaultAt)
  next heq =>
    have h5 := h3.checkGran.snd heq
    exact .ite (.ite (.error fltA_tidy) (.pure h5)) (.pure h5)

theorem State.Tidy.fetchBytes {p : Nat} (h : s.Tidy) : Ends Stop.Tidy (fun r => r.2.Tidy) (s.fetchBytes p) := by
  unfold State.fetchBytes
  refine .ite (.error_bind fltA_tidy) ?_
  split
  · split
    exacts [.ite (.error fltA_tidy) (.pure h), h.fetchMem]
  · exact h.fetchMem

/-! ### The functions of Machine/Serve.lean -/

theorem execInstructionFetch_tidy {place : Nat} (h : s.Tidy) : Out.Tidy (execInstructionFetch place s) := by
  unfold execInstructionFetch
  refine .ite (.ite (.next h.upd) ?_) (.next h)
  split
  next heq => exact .next (h.upd.fetchBytes.of_ok heq)
  next heq => exact settle_tidy h.upd (.error (h.upd.fetchBytes.of_error heq))

theorem execLoadValueReturn_tidy {acc : Nat} (h : s.Tidy) : Out.Tidy (execLoadValueReturn acc s) := by
  unfold execLoadValueReturn
  split
  exacts [.next (.ite h h.performAcc), .next h]

theorem execStorePerformed_tidy {acc : Nat} (h : s.Tidy) : Out.Tidy (execStorePerformed acc s) := by
  unfold execStorePerformed
  split
  exacts [.next (.ite h.performAcc h), .next h]

theorem State.Tidy.keepBits {c line : Nat} (h : s.Tidy) : (s.keepBits c line).Tidy := .ite h (.ite h.setCore h.setCore.upd)

theorem State.Tidy.evictL1 {c line : Nat} (h : s.Tidy) : (s.evictL1 c line).Tidy :=
  .ite h (.ite h.keepBits h.keepBits.dropHolder)

theorem State.Tidy.evictL2 {line : Nat} (h : s.Tidy) : (s.evictL2 line).Tidy := by
  unfold State.evictL2
  split
  · exact h
  · refine .ite ?_ ?_
    · refine .dropCopy (.ite ((h.foldl fun _ _ h1 => h1.keepBits).recall) ?_)
      exact ((h.foldl fun _ _ h2 => h2.keepBits).recall).shareLine
    · refine .ite ?_ ?_
      · refine .writeBackL2 (.ite ((h.foldl fun _ _ h3 => h3.keepBits).recall) ?_)
        exact ((h.foldl fun _ _ h4 => h4.keepBits).recall).shareLine
      · exact .ite ((h.foldl fun _ _ h5 => h5.keepBits).recall) (((h.foldl fun _ _ h6 => h6.keepBits).recall).shareLine)

theorem execHomeRequest_tidy {req : HomeReq} (h : s.Tidy) : Out.Tidy (execHomeRequest req s) := by
  unfold execHomeRequest
  refine .next (.ite h ?_)
  split
  exacts [h.startAcc, h.evictL1, .ite h.evictL2 h]

theorem State.Tidy.scrub {pa : Nat} (h : s.Tidy) : (s.scrub pa).Tidy := by
  unfold State.scrub
  refine .ite h ?_
  dsimp only
  split
  exacts [h.setGran.charge, .charge (.setGran (.ite h h.putBytes)), h.setGran.chargeBad, h]

theorem State.Tidy.tlbMiss {p : Nat} (h : s.Tidy) : (s.tlbMiss p).Tidy := by
  unfold State.tlbMiss
  dsimp only
  split
  · refine .ite h ?_
    split
    exacts [h.upd, .ite h h.upd.bump]
  · exact h

theorem State.Tidy.takeMisses {cl : Nat} {ws : List (Nat × Walk)} (h : s.Tidy) : (State.takeMisses cl ws s).Tidy := by
  induction ws generalizing s with
  | nil => exact h
  | cons w ws ih =>
    unfold State.takeMisses
    split
    · exact ih h.upd
    · exact .ite (ih h.upd) h

theorem State.Tidy.endWalk {k cl : Nat} (h : s.Tidy) : (s.endWalk k cl).Tidy := h.upd.takeMisses

theorem State.Tidy.answer {vpn : Nat} {r : Except Bool TlbEntry} {p : Nat} (h : s.Tidy) : (s.answer vpn r p).Tidy := by
  unfold State.answer
  dsimp only
  split
  · refine .ite h ?_
    split
    exacts [h.setCore.setClu.setThread, h.setThread]
  · exact h

theorem State.Tidy.walkReply {p : Nat} (h : s.Tidy) : (s.walkReply p).Tidy := by
  unfold State.walkReply
  split
  exacts [.ite h ((h.walkFor.foldl fun _ _ h1 => h1.answer).endWalk), h]

/-! ### The functions of Machine/Arrive.lean -/

theorem State.Tidy.dropAtCore {c : Nat} (h : s.Tidy) : (s.dropAtCore c).Tidy := h.setCore
theorem State.Tidy.leaveMesh {id : Nat} {m : Msg} (h : s.Tidy) : (s.leaveMesh id m).Tidy := h.upd.accepted
theorem State.Tidy.intoInbox {c : Nat} {m : Msg} (h : s.Tidy) : (s.intoInbox c m).Tidy := h.setCore

theorem State.Tidy.reply {c : Nat} {m : Msg} (h : s.Tidy) : (s.reply c m).Tidy := by
  unfold State.reply
  dsimp only
  split
  exacts [.ite (.ite h.setCore.countLoss h.setCore.intoInbox) h.dropAtCore, h.dropAtCore]

theorem State.Tidy.inboxArrive {id : Nat} {m : Msg} {c : Nat} (h : s.Tidy) : (s.inboxArrive id m c).Tidy := by
  unfold State.inboxArrive
  refine .ite h.leaveMesh.dropAtCore (.ite h.leaveMesh.requeueMsg ?_)
  exact .ite h (.ite h.leaveMesh.dropAtCore (.ite h.leaveMesh.reply h.leaveMesh.intoInbox))

theorem execInboxRecordArrival_tidy {msg : Nat} (h : s.Tidy) : Out.Tidy (execInboxRecordArrival msg s) := by
  unfold execInboxRecordArrival
  split
  · split
    exacts [.next (.ite h h.inboxArrive), .next h]
  · exact .next h

theorem State.Tidy.refill {cl n : Nat} (h : s.Tidy) : (s.refill cl n).Tidy := by
  induction n generalizing s with
  | zero => exact h
  | succ n ih =>
    unfold State.refill
    refine .ite h ?_
    split
    · exact ih h.setClu
    · exact h

theorem State.Tidy.unitArrive {id : Nat} {m : Msg} {cl : Nat} (h : s.Tidy) : (s.unitArrive id m cl).Tidy := by
  unfold State.unitArrive
  refine .ite h.leaveMesh.setClu (.ite ?_ (.ite h h.leaveMesh.setClu.spillOver))
  exact .ite h.leaveMesh.requeueMsg.settleFiring.evaluate h.leaveMesh.requeueMsg

theorem execTaskUnitRecordArrival_tidy {msg : Nat} (h : s.Tidy) : Out.Tidy (execTaskUnitRecordArrival msg s) := by
  unfold execTaskUnitRecordArrival
  split
  · split
    exacts [.next (.ite h h.unitArrive), .next h]
  · exact .next h

theorem State.Tidy.startHandler {p : Nat} {m : Msg} {entry : Option Nat} (h : s.Tidy) : (s.startHandler p m entry).Tidy :=
  h.setThread.draw

theorem State.Tidy.prepareCore {c : Nat} {l : Option Nat} (h : s.Tidy) : (s.prepareCore c l).Tidy := by
  unfold State.prepareCore
  split
  · exact h
  · split
    exacts [h, .ite h (.setLaunch (.setCore (.of_mem (Memory.wf_filter _ _ h.wf))))]

theorem State.Tidy.takeRecord {p : Nat} {m : Msg} (h : s.Tidy) : (s.takeRecord p m).Tidy := .ite h.setCore h.setClu

theorem State.Tidy.takeEntry {p : Nat} {m : Msg} (h : s.Tidy) : (s.takeEntry p m).2.Tidy := by
  unfold State.takeEntry
  refine h.ite2 (.bump (.setClu ?_))
  split
  exacts [.ite h.abortAll h, h]

theorem State.Tidy.admitTask {p : Nat} {m : Msg} (h : s.Tidy) : (s.admitTask p m).Tidy := by
  unfold State.admitTask
  refine .ite h.takeRecord.dropAtCore ?_
  dsimp only
  split
  · exact h.takeRecord.prepareCore.takeEntry.startHandler.trace.freeFiring
  · exact h.takeRecord.prepareCore.takeEntry.startHandler.trace

theorem execAdmission_tidy {place : Nat} (h : s.Tidy) : Out.Tidy (execAdmission place s) := by
  unfold execAdmission
  refine .ite (.next h) ?_
  split
  exacts [.next h.admitTask, .next h]

theorem State.Tidy.stallFault {p dest since : Nat} (h : s.Tidy) : (s.stallFault p dest since).Tidy :=
  .ite h h.setThread.takeFaultAt

theorem execSendStallTimeout_tidy {place : Nat} (h : s.Tidy) : Out.Tidy (execSendStallTimeout place s) := by
  unfold execSendStallTimeout
  split
  · exact .next h.stallFault
  · exact .next h.stallFault
  · exact .next (.ite h h.stallFault)
  · exact .ite (.next h.upd.stallFault) (.next h)
  · exact .next h

/-! ### The functions of Machine/Branch.lean -/

theorem State.Tidy.jump {target : Word} (h : s.Tidy) : (s.jump target).Tidy := h.setMe.trace

theorem State.Tidy.branch {len : Nat} {o : Word} {taken : Bool} (h : s.Tidy) : (s.branch len o taken).Tidy :=
  .ite h.jump h.fin

theorem execCall_tidy {d a : Spec} {i : BitVec 13} (h : s.Tidy) : Out.Tidy (execCall d a i s) := by
  unfold execCall
  refine settle_tidy h (.ite_bind (.pure trivial) h.read64 fun _ _ => ?_)
  exact .ite (.error fltA_tidy) (.ite (.error fltA_tidy) (h.writeReg.bind fun _ h1 => .pure h1.jump))

/-! ### The functions of Machine/Cmp.lean -/

theorem State.Tidy.fcmp {f : FFmt} {k : Nat} {p : PredNo} {a b : Spec} (h : s.Tidy) :
    Ends Stop.Tidy State.Tidy (s.fcmp f k p a b) :=
  h.read2.andThen fun _ => .pure (.putPred (.ite h.setMe h))

/-! ### The functions of Machine/Signal.lean -/

theorem State.Tidy.sigLoc {wr : Bool} {va : Word} (h : s.Tidy) : Ends Stop.Tidy (fun r => r.2.Tidy) (s.sigLoc wr va) := by
  unfold State.sigLoc
  refine addrCheck_tidy.andThen fun _ => ?_
  dsimp only
  split
  · exact h.translate.bind fun _ h1 => .ite (.error_bind (.kept h1)) (.pure h1)
  · exact .pure_bind (.ite (.error_bind (.kept h)) (.pure h))
  · exact .error_bind fltA_tidy

theorem State.Tidy.sigAccess {d : Spec} {kind : AccKind} {va : Word} {loc : Nat} {data : Reg} (h : s.Tidy) :
    Ends Stop.Tidy State.Tidy (s.sigAccess d kind va loc data) :=
  h.regionEnd.bind fun _ h1 => h1.issueLoad

theorem State.Tidy.sigOp {op : RmwOp} {d a b : Spec} (h : s.Tidy) : Ends Stop.Tidy State.Tidy (s.sigOp op d a b) := by
  unfold State.sigOp
  refine h.read2.andThen fun _ => h.sigLoc.bind fun _ h1 => ?_
  exact .ite (h1.regionEnd.bind fun _ h2 => h2.defer.bind fun _ h3 => h3.put) h1.sigAccess

theorem execSigRd_tidy {d a : Spec} (h : s.Tidy) : Out.Tidy (execSigRd d a s) :=
  settle_tidy h (h.read64.andThen fun _ => h.sigLoc.bind fun _ h1 => .ite (.error_bind fltA_tidy) h1.sigAccess)

theorem State.Tidy.sigValue {loc : Nat} {va : Word} (h : s.Tidy) :
    Ends Stop.Tidy (fun r => r.2.Tidy) (s.sigValue loc va) := by
  unfold State.sigValue
  refine .ite (.ok h) (.ite (.error .flt) (.ite (.error fltA_tidy) ?_))
  dsimp only
  split
  next heq => exact .error (.hold (State.Tidy.snd (State.Tidy.checkGran (.ite h.dropCopy h)) heq).takeFault)
  next heq => exact .ok (State.Tidy.snd (State.Tidy.checkGran (.ite h.dropCopy h)) heq)

theorem State.Tidy.blockSig {b : Blk} (h : s.Tidy) : (s.blockSig b).Tidy := h.setMe.block

theorem State.Tidy.unblockSig {d : Spec} {v : Reg} (h : s.Tidy) : Ends Stop.Tidy State.Tidy (s.unblockSig d v) :=
  h.unblock.bind fun _ h1 => .pure h1.setMe

theorem State.Tidy.sigPoll {loc : Nat} {va thr : Word} {d : Spec} (h : s.Tidy) :
    Ends Stop.Tidy State.Tidy (s.sigPoll loc va thr d) := by
  unfold State.sigPoll
  split
  · exact .pure h
  next heq => exact .error (.kept (h.lateLoc.of_error heq))
  next heq =>
    have h3 := h.lateLoc.of_ok heq
    refine h3.sigValue.bind fun _ h4 => ?_
    dsimp only
    split
    exacts [.ite h4.hearAt.unblockSig (.pure h4), .pure h4]

theorem execSigWait_tidy {d a b : Spec} (h : s.Tidy) : Out.Tidy (execSigWait d a b s) := by
  unfold execSigWait
  refine settle_tidy h (h.blocking (fun _ h1 => h1.read2) fun _ _ h2 => h2.sigLoc.bind fun _ h3 => ?_)
  refine .ite (.error_bind fltA_tidy) (.ite (.error_bind .wait) (h3.regionEnd.bind fun _ h4 => ?_))
  refine h4.sigValue.bind fun _ h5 => ?_
  dsimp only
  split
  exacts [.ite h5.hearAt.put (.pure h5.blockSig), .pure h5.blockSig]

/-! ### The functions of Machine/Grp.lean -/

theorem State.Tidy.addGroup {l : Nat} {mk : Nat → Group} (h : s.Tidy) : Holds (fun r => r.2.Tidy) (s.addGroup l mk) := by
  unfold State.addGroup
  split
  exacts [.none, .some h.draw.setGroup.bump]

theorem myLaunch_tidy : Ends Stop.Tidy (fun _ => True) s.myLaunch := by
  unfold State.myLaunch
  split
  exacts [.ok trivial, .error fltC_tidy]

theorem slotOperand_tidy {v : Word} : Ends Stop.Tidy (fun _ => True) (s.slotOperand v) := by
  unfold State.slotOperand
  refine myLaunch_tidy.andThen fun _ => .ite (.error_bind fltC_tidy) (groupCheck_tidy.andThen fun _ => ?_)
  split
  exacts [.pure trivial, .error fltC_tidy]

theorem noSpec_tidy : Ends Stop.Tidy (fun _ => True) s.noSpec := .ite (.error fltC_tidy) (.ok trivial)

theorem State.Tidy.readWords {loc : Nat} {va : Word} {n : Nat} (h : s.Tidy) :
    Ends Stop.Tidy (fun r => r.2.Tidy) (s.readWords loc va n) := by
  unfold State.readWords
  refine .ite (.error_bind .wait) (.ite (.error_bind .wait) ?_)
  dsimp only
  split
  next heq => exact .pure (h.readSpan.snd heq)
  next heq => exact .error (.hold (h.readSpan.snd heq).takeFault)

theorem execGrpNew_tidy {d a : Spec} (h : s.Tidy) : Out.Tidy (execGrpNew d a s) := by
  unfold execGrpNew
  refine settle_tidy h (h.read64.andThen fun _ => h.access.bind fun _ h1 => h1.access.bind fun _ h2 => ?_)
  refine noSpec_tidy.andThen fun _ => myLaunch_tidy.andThen fun _ => h2.readWords.bind fun _ h3 => ?_
  dsimp only
  split
  · exact .error fltS_tidy
  · split
    · exact .error fltC_tidy
    next heq => exact (h3.addGroup.of_some heq).put

theorem execGrpEnd_tidy {a : Spec} {k : Bool} (h : s.Tidy) : Out.Tidy (execGrpEnd a k s) :=
  settle_tidy h (h.read64.andThen fun _ => slotOperand_tidy.andThen fun _ => noSpec_tidy.andThen fun _ => .pure h.fin.endGroup)

theorem execGrpSet_tidy {n : BitVec 4} {a b : Spec} (h : s.Tidy) : Out.Tidy (execGrpSet n a b s) := by
  unfold execGrpSet
  refine settle_tidy h (h.read2.andThen fun _ => slotOperand_tidy.andThen fun _ => .ite (.error_bind fltC_tidy) ?_)
  exact .ite (.error_bind fltS_tidy) (noSpec_tidy.andThen fun _ => .pure h.setGroup.fin)

theorem execEbudSet_tidy {a b : Spec} (h : s.Tidy) : Out.Tidy (execEbudSet a b s) := by
  unfold execEbudSet
  refine settle_tidy h (h.read2.andThen fun _ => slotOperand_tidy.andThen fun _ => .ite (.error_bind fltS_tidy) ?_)
  exact noSpec_tidy.andThen fun _ => .ite (.error_bind .wait) (.pure h.setGroup.putRels.fin)

theorem State.Tidy.groupEnded {l g : Nat} (h : s.Tidy) : (s.groupEnded l g).Tidy := by
  unfold State.groupEnded
  split
  · exact .ite ((((h.dropMsgs.dropSaved.foldl fun _ _ h1 => h1.freeTok).setGroup).foldl fun _ _ h2 => h2.writeN).upd) h
  · exact h

/-! ### The functions of Machine/Issue.lean -/

theorem liveTok_tidy {v : Word} : Ends Stop.Tidy (fun _ => True) (s.liveTok v) := by
  unfold State.liveTok
  refine .ite (.error fltS_tidy) ?_
  split
  exacts [.ite (.ok trivial) (.error fltS_tidy), .error fltS_tidy]

theorem handle_tidy {any : Bool} {v : Word} : Ends Stop.Tidy (fun _ => True) (s.handle any v) :=
  liveTok_tidy.andThen fun _ => .ite (.error_bind fltS_tidy) (.pure trivial)

theorem descr_tidy {bad : Bool} {v : Word} {i : Nat} : Ends Stop.Tidy (fun _ => True) (descr bad v i) :=
  .ite (.error .flt) (.ok trivial)

theorem baseCheck_tidy {k : AKind} {a : Word} : Ends Stop.Tidy (fun _ => True) (s.baseCheck k a) :=
  .ite (.error_bind fltA_tidy) (windowCheck_tidy.andThen fun _ => .pure trivial)

theorem workerCheck_tidy {id : Nat} : Ends Stop.Tidy (fun _ => True) (s.workerCheck id) :=
  .ite (.error fltC_tidy) (.ite (.error fltC_tidy) (.ite (.error fltC_tidy) (.ok trivial)))

theorem targetCheck_tidy {ntc : Nat} {v : Word} : Ends Stop.Tidy (fun _ => True) (targetCheck ntc v) := by
  unfold targetCheck
  split <;> exact descr_tidy

theorem wakeCheck_tidy {ntc : Nat} {v : Word} : Ends Stop.Tidy (fun _ => True) (s.wakeCheck ntc v) :=
  .ite (pcCheck_tidy.andThen fun _ => groupCheck_tidy) (.pure trivial)

theorem plainChecked_tidy {after : Except Stop Unit} (h : Ends Stop.Tidy (fun _ => True) after) :
    (s.plainChecked after).Tidy :=
  ⟨.ok trivial, h⟩

theorem checkStream_tidy {x : Vector Word 4} : Ends Stop.Tidy Checked.Tidy (s.checkStream x) := by
  unfold State.checkStream
  refine descr_tidy.andThen fun _ => descr_tidy.andThen fun _ => descr_tidy.andThen fun _ => descr_tidy.andThen fun _ => ?_
  refine descr_tidy.andThen fun _ => .ite (.error_bind .flt) (.ite (.error_bind .flt) (.ite (.error_bind .flt) ?_))
  exact .pure (⟨.ok trivial, baseCheck_tidy.andThen fun _ => .ite (.error fltS_tidy) (.pure trivial)⟩)

theorem drainCheck_tidy {regs : Vector Word 8} {w : Word} : Ends Stop.Tidy (fun _ => True) (drainCheck regs w) := descr_tidy

theorem checkTile_tidy {sparse : Bool} {x : Vector Word 4} : Ends Stop.Tidy Checked.Tidy (s.checkTile sparse x) := by
  unfold State.checkTile
  refine descr_tidy.andThen fun _ => descr_tidy.andThen fun _ => .ite_bind drainCheck_tidy descr_tidy fun _ _ => ?_
  refine descr_tidy.andThen fun _ => descr_tidy.andThen fun _ => ?_
  exact descr_tidy.andThen fun _ => .pure (⟨.ite workerCheck_tidy (.ok trivial), .ok trivial⟩)

theorem checkBank_tidy {drain : Bool} {x : Vector Word 4} : Ends Stop.Tidy Checked.Tidy (s.checkBank drain x) := by
  unfold State.checkBank
  refine .ite_bind drainCheck_tidy descr_tidy fun _ _ => ?_
  exact descr_tidy.andThen fun _ => .pure (⟨.ite workerCheck_tidy (.ok trivial), .ok trivial⟩)

theorem checkCopy_tidy {cls : Bool} {x : Vector Word 4} : Ends Stop.Tidy Checked.Tidy (s.checkCopy cls x) := by
  unfold State.checkCopy
  refine descr_tidy.andThen fun _ => descr_tidy.andThen fun _ => descr_tidy.andThen fun _ => descr_tidy.andThen fun _ => ?_
  refine .pure (plainChecked_tidy ?_)
  exact baseCheck_tidy.andThen fun _ => baseCheck_tidy.andThen fun _ => .ite (.error fltC_tidy) (.pure trivial)

theorem checkTensor_tidy {x : Vector Word 4} : Ends Stop.Tidy Checked.Tidy (s.checkTensor x) := by
  unfold State.checkTensor
  refine descr_tidy.andThen fun _ => descr_tidy.andThen fun _ => .pure (plainChecked_tidy ?_)
  refine baseCheck_tidy.andThen fun _ => ?_
  exact baseCheck_tidy.andThen fun _ => baseCheck_tidy.andThen fun _ => .ite (.error fltC_tidy) (.pure trivial)

theorem checkRed_tidy {x : Vector Word 4} : Ends Stop.Tidy Checked.Tidy (s.checkRed x) := by
  unfold State.checkRed
  refine descr_tidy.andThen fun _ => descr_tidy.andThen fun _ => descr_tidy.andThen fun _ => ?_
  exact descr_tidy.andThen fun _ => .pure (plainChecked_tidy (baseCheck_tidy.andThen fun _ => baseCheck_tidy))

theorem checkIndexed_tidy {x : Vector Word 4} : Ends Stop.Tidy Checked.Tidy (s.checkIndexed x) := by
  unfold State.checkIndexed
  refine descr_tidy.andThen fun _ => descr_tidy.andThen fun _ => .pure ?_
  exact plainChecked_tidy (baseCheck_tidy.andThen fun _ => baseCheck_tidy.andThen fun _ => baseCheck_tidy)

theorem checkColl_tidy {red : Bool} {x : Vector Word 4} : Ends Stop.Tidy Checked.Tidy (s.checkColl red x) := by
  unfold State.checkColl
  refine descr_tidy.andThen fun _ => descr_tidy.andThen fun _ => descr_tidy.andThen fun _ => descr_tidy.andThen fun _ => ?_
  exact .pure (⟨.ok trivial, baseCheck_tidy.andThen fun _ => baseCheck_tidy.andThen fun _ => baseCheck_tidy⟩)

theorem checkRow_tidy {fn : Nat} {x : Vector Word 4} : Ends Stop.Tidy Checked.Tidy (s.checkRow fn x) := by
  unfold State.checkRow
  refine descr_tidy.andThen fun _ => descr_tidy.andThen fun _ => descr_tidy.andThen fun _ => descr_tidy.andThen fun _ => ?_
  exact .pure (plainChecked_tidy (baseCheck_tidy.andThen fun _ => Ends.checkIf baseCheck_tidy baseCheck_tidy))

theorem State.Tidy.takeSlot {cl : Nat} (h : s.Tidy) : Holds (fun r => r.2.Tidy) (s.takeSlot cl) := by
  unfold State.takeSlot
  dsimp only
  split
  · exact .some h.draw.setClu
  · split
    exacts [.some h.setClu, .none]

theorem State.Tidy.holdSlot (h : s.Tidy) : Ends Stop.Tidy State.Tidy s.holdSlot := .error (.hold h.setMe.rewind)

theorem State.Tidy.issue {maj fn : Nat} {d a : Spec} {imm : BitVec 7} {chk : Vector Word 4 → Except Stop Checked}
    (h : s.Tidy) (hchk : ∀ y, Ends Stop.Tidy Checked.Tidy (chk y)) :
    Ends Stop.Tidy State.Tidy (s.issue maj fn d a imm chk) := by
  unfold State.issue
  refine h.readReg.andThen fun _ => h.readReg.andThen fun _ => .ite (.error_bind fltC_tidy) ((hchk _).bind fun _ h1 => ?_)
  refine descr_tidy.andThen fun _ => targetCheck_tidy.andThen fun _ => Ends.checkIf handle_tidy ?_
  refine wakeCheck_tidy.andThen fun _ => h1.core.andThen fun _ => h1.after.andThen fun _ => Ends.checkIf baseCheck_tidy ?_
  refine free1_tidy.andThen fun _ => .ite (.error_bind .wait) (.ite (.error_bind .wait) ?_)
  refine .ite (.error_bind (.hold h.awaitFrontier)) (.ite h.holdSlot ?_)
  dsimp only
  split
  · exact h.holdSlot
  next heq =>
    have h2 := h.takeSlot.of_some heq
    refine .ite_bind h2.defer (.pure h2) fun _ h3 => State.Tidy.put ?_
    exact .ite (.upd (.setMe (.ite h3.setTok.bump h3.setTok.bump.setMe))) (.setMe (.ite h3.setTok.bump h3.setTok.bump.setMe))

/-! ### The functions of Machine/VecF.lean -/

theorem execVdot_tidy {t : FTy} {d a b : Spec} (h : s.Tidy) : Out.Tidy (execVdot t d a b s) :=
  settle_tidy h (latch_tidy.andThen fun _ => useCheck_tidy.andThen fun _ => h.read3.andThen fun _ => h.withFp.put)

/-! ### The functions of Machine/Engine.lean -/

theorem State.Tidy.linkFault {t : Token} {loc : Nat} {va : Word} (h : s.Tidy) : (s.linkFault t loc va).Tidy :=
  .ite (.fault h) (.fault h)

theorem State.Tidy.engAt {t : Token} {k : AKind} {va : Word} (h : s.Tidy) :
    Ends EngErr.Tidy (fun _ => True) (s.engAt t k va) := by
  unfold State.engAt
  split
  · exact .ite (.error .wait) (.ite (.error h.linkFault) (.ok trivial))
  · exact .error .wait
  · exact .error (.fault h)

theorem State.Tidy.engMiss {t : Token} {va : Word} (h : s.Tidy) : Ends EngErr.Tidy State.Tidy (s.engMiss t va) := by
  unfold State.engMiss
  refine .ite (.ok h) (.ite (.error .wait) ?_)
  split
  next heq => exact .ok (h.walkFor.snd heq).setClu
  next heq => exact .error (.fault (h.walkFor.snd heq))

theorem State.Tidy.engGo {t : Token} {k : AKind} {va : Word} (h : s.Tidy) :
    Ends EngErr.Tidy (fun r => r.2.Tidy) (s.engGo t k va) :=
  h.engMiss.bind fun _ h1 => h1.engAt.andThen fun _ => .pure h1

theorem State.Tidy.widen {t : Token} {loc : Nat} (h : s.Tidy) : (s.widen t loc).Tidy := by
  unfold State.widen
  refine .ite h ?_
  split
  exacts [h.setTok, h]

theorem State.Tidy.engRead {t : Token} {k a n : Nat} (h : s.Tidy) :
    Ends EngErr.Tidy (fun r => r.2.Tidy) (State.engRead t k s a n) := by
  induction k generalizing s a n with
  | zero => exact .ok h
  | succ k ih =>
    unfold State.engRead
    refine .ite (.ok h) ?_
    dsimp only
    split
    next heq => exact .error (h.engGo.of_error heq)
    next heq =>
      have h1 := h.engGo.of_ok heq
      split
      next heq => exact .error (.fault (h1.widen.checkGran.snd heq))
      next heq =>
        have h2 := h1.widen.checkGran.snd heq
        split
        next heq =>
          have h3 := (ih h2).of_ok heq
          exact .ok h3
        · exact ih h2

theorem State.Tidy.rd {t : Token} {a n : Nat} (h : s.Tidy) : Ends EngErr.Tidy (fun r => r.2.Tidy) (s.rd t a n) := h.engRead

theorem State.Tidy.engWrite {t : Token} {k a : Nat} {bs : List Byte} (h : s.Tidy) :
    Ends EngErr.Tidy State.Tidy (State.engWrite t k s a bs) := by
  induction k generalizing s a bs with
  | zero => exact .ok h
  | succ k ih =>
    unfold State.engWrite
    refine .ite (.ok h) ?_
    dsimp only
    split
    next heq => exact .error (h.engGo.of_error heq)
    next heq =>
      have h1 := h.engGo.of_ok heq
      refine .ite (ih h1.widen.storeWhole) ?_
      split
      next heq => exact ih (h1.widen.storeGran.snd heq)
      next heq => exact .error (.fault (h1.widen.storeGran.snd heq))

theorem State.Tidy.claim {key line : Nat} (h : s.Tidy) : Holds State.Tidy (s.claim key line) := by
  unfold State.claim
  refine .ite (.some h) ?_
  split
  · exact .ite (.some h) .none
  · refine .ite .none ?_
    dsimp only
    split
    exacts [.some (.setTok (.upd (.ite h.setClu h))), .some (.upd (.ite h.setClu h))]

theorem State.Tidy.unclaim {key line : Nat} (h : s.Tidy) : (s.unclaim key line).Tidy := by
  unfold State.unclaim
  split
  exacts [.ite h.setTok.releaseLine h, h]

theorem State.Tidy.claimFrom {t : Token} {key k a n : Nat} (h : s.Tidy) :
    Ends EngErr.Tidy State.Tidy (State.claimFrom t key k s a n) := by
  induction k generalizing s a n with
  | zero => exact .ok h
  | succ k ih =>
    unfold State.claimFrom
    refine .ite (.ok h) ?_
    dsimp only
    split
    next heq => exact .error (h.engGo.of_error heq)
    next heq =>
      have h1 := h.engGo.of_ok heq
      split
      next heq => exact ih (h1.claim.of_some heq)
      · exact .error .wait

theorem State.Tidy.engPut {key : Nat} {t : Token} {a : Nat} {bs : List Byte} {later : List (Nat × Nat)} (h : s.Tidy) :
    Ends EngErr.Tidy State.Tidy (s.engPut key t a bs later) := by
  unfold State.engPut
  refine ((h.foldl fun _ _ h1 => h1.unclaim).claimFrom).bind fun _ h2 => Ends.bind (State.Tidy.engWrite h2) fun _ h3 => ?_
  dsimp only
  split
  exacts [.pure h3.setTok, .pure h3]

theorem State.Tidy.classCheck {t : Token} {src dst base : Nat} (h : s.Tidy) :
    Ends EngErr.Tidy (fun _ => True) (s.classCheck t src dst base) :=
  h.engAt.andThen fun _ => h.engAt.andThen fun _ => .ite (.error (.fault h)) (.pure trivial)

theorem State.Tidy.classSpan {t : Token} {src n dst m base : Nat} (h : s.Tidy) :
    Ends EngErr.Tidy (fun _ => True) (s.classSpan t src n dst m base) :=
  h.classCheck.andThen fun _ => Ends.andThen (.forM fun _ => h.classCheck) fun _ => .forM fun _ => h.classCheck

theorem State.Tidy.faultTok {key fc : Nat} {fadr syn : Word} (h : s.Tidy) : (s.faultTok key fc fadr syn).Tidy := by
  unfold State.faultTok
  split
  exacts [h, .ite h (.ite h.releaseLines.setTok h.setTok.endTok)]

theorem State.Tidy.engStep {key : Nat} {r : Eng State} (h : s.Tidy) (hr : Ends EngErr.Tidy State.Tidy r) :
    (s.engStep key r).Tidy := by
  unfold State.engStep
  split
  exacts [(hr.of_ok rfl), h, .faultTok (hr.of_fault rfl), (hr.of_ended rfl)]

theorem State.Tidy.bindStream {v need e : Nat} (h : s.Tidy) : Ends EngErr.Tidy State.Tidy (s.bindStream v need e) := by
  unfold State.bindStream
  split
  · exact .error (.fault h)
  · exact .ite (.error (.fault h)) (.ite (.error .wait) (.ite (.error (.fault h)) (.ite (.error (.fault h)) (.ok h.setTok))))

theorem State.Tidy.bindBoth {t : Token} {e : Nat} (h : s.Tidy) : Ends EngErr.Tidy State.Tidy (s.bindBoth t e) := by
  unfold State.bindBoth
  refine h.bindStream.bind fun _ h1 => ?_
  split
  · exact .error (.fault h)
  · exact h1.bindStream

theorem State.Tidy.clearBank {cl e b : Nat} (h : s.Tidy) : (s.clearBank cl e b).Tidy := h.upd

theorem blame_tidy {α : Type} {P : α → Prop} {k : Nat} {r : Eng α} (h : Ends EngErr.Tidy P r) :
    Ends EngErr.Tidy P (blame k r) := by
  unfold blame
  split
  · exact .error (.ended (h.of_fault rfl).faultTok)
  · exact h

theorem State.Tidy.collDesc {t : Token} (h : s.Tidy) : Ends EngErr.Tidy State.Tidy (s.collDesc t) := by
  unfold State.collDesc
  refine h.rd.bind fun _ h1 => .ite (.error_bind (.fault h1)) ?_
  split
  · exact .error (.fault h1)
  · refine h1.rd.bind fun _ h2 => ?_
    dsimp only
    split
    exacts [.error (.fault h2), .pure h2]

theorem State.Tidy.rekey {key : Nat} {t : Token} (h : s.Tidy) : Ends EngErr.Tidy State.Tidy (s.rekey key t) :=
  h.rd.bind fun _ h1 => .pure h1.upd.setTok

theorem State.Tidy.startColl {key : Nat} {t : Token} (h : s.Tidy) : Ends EngErr.Tidy State.Tidy (s.startColl key t) := by
  unfold State.startColl
  refine h.collDesc.bind fun _ h1 => .ite h1.rekey ?_
  split
  · exact .pure (h1.foldl fun _ _ h2 => h2.faultTok)
  · refine .ite (.error_bind .wait) (.ite (.error_bind .wait) (Ends.bind (P := State.Tidy) ?_ fun _ h4 => ?_))
    · exact .foldlM h1 fun _ _ h3 => .ite (.pure h3) (blame_tidy h3.collDesc)
    · split
      · exact .pure (h4.foldl fun _ _ h5 => h5.faultTok)
      · exact .pure (h4.foldl fun _ _ h6 => h6.setTok)

theorem State.Tidy.tokenStart {key e : Nat} (h : s.Tidy) : (s.tokenStart key e).Tidy := by
  unfold State.tokenStart
  split
  · exact h
  · refine .ite h ?_
    split
    · exact h.setTok.endTok
    · refine .ite h (.ite (h.engStep h.startColl) (.ite ?_ (.ite h.clearBank.setTok h.setTok)))
      exact h.engStep (h.bindBoth.bind fun _ h1 => .pure (.setTok (.ite h1.clearBank h1)))

theorem State.Tidy.fetchLine {t : Token} {i g : Nat} (h : s.Tidy) :
    Ends EngErr.Tidy (fun r => r.2.Tidy) (s.fetchLine t i g) := by
  unfold State.fetchLine
  refine h.rd.bind fun _ h1 => .ite ?_ (.ite (.error_bind (.fault h1)) (.pure h1))
  exact h1.rd.bind fun _ h2 => .ite (.error_bind (.fault h2)) (.pure h2)

theorem State.Tidy.fetchLines {t : Token} {g n i : Nat} (h : s.Tidy) :
    Ends EngErr.Tidy (fun r => r.2.Tidy) (State.fetchLines t g n i s) := by
  induction n generalizing s i with
  | zero => exact .ok h
  | succ n ih => exact h.fetchLine.bind fun _ h1 => (ih h1).bind fun _ h2 => .pure h2

theorem State.Tidy.streamFetch {key : Nat} (h : s.Tidy) : (s.streamFetch key).Tidy := by
  unfold State.streamFetch
  split
  · exact h
  · refine .ite h (h.engStep (h.fetchLines.bind fun _ h1 => .pure ?_))
    split
    exacts [h1.setTok, h1]

theorem State.Tidy.accumulate {cl e b : Nat} {as bs : List (List (Option Val))} (h : s.Tidy) :
    (s.accumulate cl e b as bs).1.Tidy :=
  .foldl1 h fun _ _ h1 => .foldl1 h1 fun _ _ h2 => h2.upd

theorem State.Tidy.consume {key : Nat} {t : Token} (h : s.Tidy) : (s.consume key t).Tidy :=
  .ite h.setTok.endTok (.ite h.setTok.settleSus h.setTok)

theorem State.Tidy.tileStep {key : Nat} (h : s.Tidy) : (s.tileStep key).Tidy := by
  unfold State.tileStep
  split
  · exact h
  · refine .ite h ?_
    split
    · refine .ite (.ite h.faultTok h.faultTok) (.ite (.ite h.faultTok h.faultTok) ?_)
      split
      · refine .ite h.chargeTo.faultTok ?_
        extract_lets t1
        have h1 : t1.Tidy := .ite h.chargeTo h
        split
        next heq =>
          have h2 := h1.accumulate.fst heq
          extract_lets t2 t3
          have h3 : t2.Tidy := .ite h2.upd h2
          exact h3.consume.consume.setTok
      · exact h
    · exact h.faultTok
    · exact h.faultTok

theorem State.Tidy.drainRows {t : Token} {n i : Nat} {r : Encoded} (h : s.Tidy) :
    Ends EngErr.Tidy (fun r => r.1.Tidy) (State.drainRows t n i s r) := by
  induction n generalizing s i r with
  | zero => exact .ok h
  | succ n ih =>
    refine Ends.bind (P := State.Tidy) (State.Tidy.engWrite ?_) fun u h1 => ih ?_
    · split
      · exact h.setTok
      · exact h
    · split
      · exact h1.setTok
      · exact h1

theorem State.Tidy.tileDrain {key : Nat} (h : s.Tidy) : (s.tileDrain key).Tidy := by
  unfold State.tileDrain
  split
  · exact h
  · refine .ite h (h.engStep (h.draw.drainRows.bind fun _ h1 => .pure ?_))
    split
    exacts [h1.setTok, h1]

/-! ### The functions of Machine/Copy.lean -/

theorem State.Tidy.progress {key n : Nat} {f : Token → Token} (h : s.Tidy) : (s.progress key n f).Tidy := by
  unfold State.progress
  split
  exacts [h.setTok, h]

theorem State.Tidy.cpRead {t : Token} {a d n : Nat} (h : s.Tidy) : Ends EngErr.Tidy (fun r => r.2.Tidy) (s.cpRead t a d n) :=
  h.classSpan.andThen fun _ => h.rd

theorem State.Tidy.cpBytes {t : Token} {a d n : Nat} (h : s.Tidy) :
    Ends EngErr.Tidy (fun r => r.2.Tidy) (s.cpBytes t a d n) := by
  unfold State.cpBytes
  split
  next heq => exact .ite h.cpRead (.error (.fault (h.cpRead.of_fault heq)))
  · exact h.cpRead

theorem State.Tidy.stepCp {key : Nat} {t : Token} (h : s.Tidy) : Ends EngErr.Tidy State.Tidy (s.stepCp key t) :=
  h.cpBytes.bind fun _ h1 => h1.engPut.bind fun _ h2 => .pure h2.progress

theorem State.Tidy.stepCls {key : Nat} {t : Token} (h : s.Tidy) : Ends EngErr.Tidy State.Tidy (s.stepCls key t) := by
  unfold State.stepCls
  refine h.engGo.bind fun _ h1 => ?_
  dsimp only
  split
  next heq =>
    have h2 := h1.widen.checkGran.snd heq
    refine .ite (.error (.fault h2)) ?_
    exact h2.engPut.bind fun _ h3 => h3.engAt.andThen fun _ => .pure (.progress (.ite h3.setGran h3))
  next heq => exact (h1.widen.checkGran.snd heq).engPut.bind fun _ h5 => .pure h5.progress

theorem State.Tidy.stepTensor {key : Nat} {t : Token} (h : s.Tidy) : Ends EngErr.Tidy State.Tidy (s.stepTensor key t) := by
  unfold State.stepTensor
  refine .ite ?_ ?_
  · refine h.rd.bind fun _ h1 => ?_
    dsimp only
    split
    · exact .error (.fault h1)
    · refine .pure ?_
      split
      exacts [h1.setTok, h1]
  · refine h.classSpan.andThen fun _ => h.rd.bind fun _ h2 => .ite_bind h2.rd (.pure h2) fun _ h3 => .ite ?_ ?_
    · exact h3.engPut.bind fun _ h4 => .ite_bind (State.Tidy.engWrite h4) (.pure h4) fun _ h5 => .pure h5.progress
    · split
      · exact .error (.fault h3)
      · exact h3.draw.engPut.bind fun _ h6 => .ite_bind (State.Tidy.engWrite h6) (.pure h6) fun _ h7 => .pure h7.progress

theorem State.Tidy.stepRed {key : Nat} {t : Token} (h : s.Tidy) : Ends EngErr.Tidy State.Tidy (s.stepRed key t) :=
  h.classSpan.andThen fun _ => h.rd.bind fun _ h1 => h1.rd.bind fun _ h2 => h2.draw.engPut.bind fun _ h3 => .pure h3.progress

theorem State.Tidy.indexAt {t : Token} {i : Nat} (h : s.Tidy) : Ends EngErr.Tidy (fun r => r.2.Tidy) (s.indexAt t i) :=
  h.rd.bind fun _ h1 => .pure h1

theorem State.Tidy.stepIndexed {key : Nat} {t : Token} (h : s.Tidy) : Ends EngErr.Tidy State.Tidy (s.stepIndexed key t) :=
  h.indexAt.bind fun _ h1 => h1.classSpan.andThen fun _ => h1.rd.bind fun _ h2 => h2.engPut.bind fun _ h3 => .pure h3.progress

theorem State.Tidy.collSources {bytes : Token → Nat} {ts : List (Nat × Token)} (h : s.Tidy) :
    Ends EngErr.Tidy (fun r => r.2.Tidy) (State.collSources bytes s ts) := by
  induction ts generalizing s with
  | nil => exact .ok h
  | cons t ts ih => exact (blame_tidy h.rd).bind fun _ h1 => (ih h1).bind fun _ h2 => .pure h2

theorem State.Tidy.collWrite {e c : Nat} {srcs : List (List Byte)} {ts : List (Nat × Token)} (h : s.Tidy) :
    Ends EngErr.Tidy State.Tidy (State.collWrite e c srcs s ts) := by
  induction ts generalizing s with
  | nil => exact .ok h
  | cons t ts ih =>
    have h1 : ∀ {n}, State.Tidy { (s.engFp t.2).2 with fresh := n } := h.upd
    refine (blame_tidy h1.claimFrom).bind fun _ h2 => (blame_tidy h2.engWrite).bind fun _ h3 => ih ?_
    split
    · exact h3.releaseLines.setTok
    · exact h3

theorem State.Tidy.stepColl {_key : Nat} {t : Token} (h : s.Tidy) : Ends EngErr.Tidy State.Tidy (s.stepColl _key t) :=
  .ite (.error_bind .wait) (h.collSources.bind fun _ h1 => State.Tidy.collWrite h1)

theorem State.Tidy.stopCopy {key old : Nat} (h : s.Tidy) : (s.stopCopy key old).Tidy := by
  unfold State.stopCopy
  split
  exacts [.ite h.releaseLines.setTok.settleSus h, h]

theorem State.Tidy.copyStep {key : Nat} (h : s.Tidy) : (s.copyStep key).Tidy := by
  unfold State.copyStep
  split
  · exact h
  · refine .ite h (.ite (.ite (h.engStep h.stepColl) h) (.ite h (.stopCopy (h.engStep ?_))))
    split
    exacts [h.stepCp, h.stepTensor, h.stepRed, h.stepCls, h.stepIndexed]

theorem execEngineClaim_tidy {tok line : Nat} (h : s.Tidy) : Out.Tidy (execEngineClaim tok line s) := by
  unfold execEngineClaim
  split
  exacts [.ite (.next (Holds.getD h.claim h)) (.next h), .next h]

theorem execEngineRelease_tidy {tok line : Nat} (h : s.Tidy) : Out.Tidy (execEngineRelease tok line s) := by
  unfold execEngineRelease
  split
  exacts [.ite (.next h.unclaim) (.next h), .next h]

theorem State.Tidy.tokenDone {key : Nat} (h : s.Tidy) : (s.tokenDone key).Tidy := by
  unfold State.tokenDone
  refine .ite h ?_
  dsimp only
  split
  · refine .ite ?_ ?_
    · refine .postNotice ?_
      split
      exacts [.ite h.endTok h, h]
    · split
      exacts [.ite h.endTok h, h]
  · split
    exacts [.ite h.endTok h, h]

theorem State.Tidy.tokenFault {key : Nat} (h : s.Tidy) : (s.tokenFault key).Tidy := by
  unfold State.tokenFault
  split
  · refine .ite ?_ h
    dsimp only
    split
    · exact .ite (.ite h h.postNotice) (.ite (.reportTok (.setTok (.ite h h.postNotice))) (.setTok (.ite h h.postNotice)))
    · exact .ite h h.postNotice
  · exact h

theorem State.Tidy.collTimeout {key : Nat} (h : s.Tidy) : (s.collTimeout key).Tidy := by
  unfold State.collTimeout
  split
  exacts [h, .ite h (h.foldl fun _ _ h1 => h1.faultTok)]

theorem State.Tidy.drainBound {key : Nat} (h : s.Tidy) : (s.drainBound key).Tidy := by
  unfold State.drainBound
  split
  exacts [h, .ite h.faultTok h]

theorem execTokenSlotStallTimeout_tidy {place : Nat} (h : s.Tidy) : Out.Tidy (execTokenSlotStallTimeout place s) := by
  unfold execTokenSlotStallTimeout
  dsimp only
  split
  exacts [.ite (.next h.setThread.takeFaultAt) (.next h), .next h]

/-! ### The functions of Machine/TokCtl.lean -/

theorem tokState_tidy {t : Token} : (tokState t).Tidy := fltS_tidy

theorem State.Tidy.basinIdx (h : s.Tidy) : Ends Stop.Tidy (fun r => r.2.2.Tidy) s.basinIdx :=
  h.access.bind fun _ h1 => h1.access.bind fun _ h2 => h2.readWords.bind fun _ h3 => h3.hearAt.readWords.bind fun _ h4 => .pure h4

theorem State.Tidy.tokLook {v : Nat} (h : s.Tidy) : Holds (fun r => r.2.Tidy) (s.tokLook v) := by
  unfold State.tokLook
  split
  exacts [.ite (.some h.setMe) .none, .none]

theorem State.Tidy.tokPoll {v : Nat} {d : Spec} (h : s.Tidy) : Ends Stop.Tidy State.Tidy (s.tokPoll v d) := by
  unfold State.tokPoll
  split
  next heq => exact (h.tokLook.of_some heq).unblock
  · exact .ok h

theorem State.Tidy.basinPoll {d : Spec} (h : s.Tidy) : Ends Stop.Tidy State.Tidy (s.basinPoll d) :=
  h.basinIdx.bind fun _ h1 => .ite (.pure h1) h1.unblock

theorem execTokWait_tidy {d a : Spec} (h : s.Tidy) : Out.Tidy (execTokWait d a s) := by
  unfold execTokWait
  refine settle_tidy h (h.blocking (fun _ h1 => h1.read64) fun _ _ h2 => .ite ?_ ?_)
  · refine .pure_bind (.ite (.error_bind fltC_tidy) (free1_tidy.andThen fun _ => h2.regionEnd.bind fun _ h3 => ?_))
    refine .ite (h3.basinIdx.bind fun _ h4 => .ite (.pure h4.block) h4.put) ?_
    split
    next heq => exact (h3.tokLook.of_some heq).put
    · exact .pure h3.block
  · refine handle_tidy.andThen fun _ => .pure_bind (.ite (.error_bind fltC_tidy) (free1_tidy.andThen fun _ => ?_))
    refine h2.regionEnd.bind fun _ h6 => .ite (h6.basinIdx.bind fun _ h7 => .ite (.pure h7.block) h7.put) ?_
    split
    next heq => exact (h6.tokLook.of_some heq).put
    · exact .pure h6.block

theorem execTokDet_tidy {a : Spec} (h : s.Tidy) : Out.Tidy (execTokDet a s) := by
  unfold execTokDet
  refine settle_tidy h (h.read64.andThen fun _ => handle_tidy.andThen fun _ => ?_)
  exact .ite (.error_bind tokState_tidy) (.ite (.error_bind fltC_tidy) (.pure (.fin (.setTok (.ite h h.setMe)))))

theorem execTokAdop_tidy {a : Spec} (h : s.Tidy) : Out.Tidy (execTokAdop a s) := by
  unfold execTokAdop
  refine settle_tidy h (h.read64.andThen fun _ => handle_tidy.andThen fun _ => .ite (.error_bind fltS_tidy) ?_)
  exact .ite (.error_bind tokState_tidy) (.ite (.error_bind fltC_tidy) (.pure h.setTok.fin))

theorem State.Tidy.addDep {k dep : Nat} {go : Bool} (h : s.Tidy) : (s.addDep k dep go).Tidy := by
  unfold State.addDep
  split
  exacts [h.setTok, h]

theorem State.Tidy.tokDep {a b : Spec} {go : Bool} (h : s.Tidy) : Ends Stop.Tidy State.Tidy (s.tokDep a b go) := by
  unfold State.tokDep
  refine h.read2.andThen fun _ => handle_tidy.andThen fun _ => .ite ?_ ?_
  · refine .pure_bind (.ite (.error_bind tokState_tidy) ?_)
    exact .ite (h.defer.bind fun _ h1 => .pure h1.addDep.fin) (.pure h.addDep.fin)
  · refine handle_tidy.andThen fun _ => .pure_bind (.ite (.error_bind tokState_tidy) ?_)
    exact .ite (.ite (.error_bind fltC_tidy) (h.defer.bind fun _ h2 => .pure h2.addDep.fin)) (.pure h.addDep.fin)

theorem execTokCan_tidy {a : Spec} (h : s.Tidy) : Out.Tidy (execTokCan a s) := by
  unfold execTokCan
  refine settle_tidy h (h.read64.andThen fun _ => handle_tidy.andThen fun _ => .ite (.error_bind tokState_tidy) ?_)
  refine .pure (.fin ?_)
  split
  exacts [h, h, h.setTok, h.setTok.endTok, h.endTok]

theorem execTokCanR_tidy {a : Spec} (h : s.Tidy) : Out.Tidy (execTokCanR a s) := by
  unfold execTokCanR
  refine settle_tidy h (h.read64.andThen fun _ => handle_tidy.andThen fun _ => ?_)
  exact .ite (.error_bind tokState_tidy) (.ite (.error_bind .wait) (.pure (.fin (.setTok (.ite h.setMe h)))))

theorem execTokPri_tidy {a b : Spec} (h : s.Tidy) : Out.Tidy (execTokPri a b s) := by
  unfold execTokPri
  refine settle_tidy h (h.read2.andThen fun _ => handle_tidy.andThen fun _ => ?_)
  exact .ite (.error_bind tokState_tidy) (descr_tidy.andThen fun _ => .pure h.setTok.fin)

theorem execTokPost_tidy {a b : Spec} (h : s.Tidy) : Out.Tidy (execTokPost a b s) := by
  unfold execTokPost
  refine settle_tidy h (h.read2.andThen fun _ => handle_tidy.andThen fun _ => .ite (.error_bind tokState_tidy) ?_)
  refine descr_tidy.andThen fun _ => targetCheck_tidy.andThen fun _ => wakeCheck_tidy.andThen fun _ => ?_
  exact Ends.checkIf baseCheck_tidy (.pure (.fin (.ite (.ite h.setTok.postOrKeep h.setTok.postNotice) h.setTok)))

theorem execTokRec_tidy {d a : Spec} {n : Bool} (h : s.Tidy) : Out.Tidy (execTokRec d a n s) := by
  unfold execTokRec
  refine settle_tidy h (h.read64.andThen fun _ => handle_tidy.andThen fun _ => .ite (.error_bind tokState_tidy) ?_)
  refine free3_tidy.andThen fun _ => .ite (.error_bind .wait) ?_
  exact .pure (.fin (.ite (.freeTok (.ite h.setMe.clearWlt h.setMe.clearWlt.postOrKeep)) h.setMe.clearWlt))

/-! ### The functions of Machine/Row.lean -/

theorem State.Tidy.withTag {cl : Nat} {new : RowTag} {f : RowTag → RowTag} (h : s.Tidy) : (s.withTag cl new f).Tidy :=
  h.setClu.bump

theorem State.Tidy.rowIndex {t : Token} {i : Nat} (h : s.Tidy) : Ends EngErr.Tidy (fun r => r.2.Tidy) (s.rowIndex t i) :=
  h.rd.bind fun _ h1 => .pure h1

theorem State.Tidy.tokAcquire {t : Token} {a n : Nat} (h : s.Tidy) : Ends EngErr.Tidy State.Tidy (s.tokAcquire t a n) := by
  unfold State.tokAcquire
  refine h.engAt.andThen fun _ => ?_
  dsimp only
  split
  exacts [.pure (.ite h h.setTok), .pure h]

theorem State.Tidy.rowRef {t : Token} {x : Nat} (h : s.Tidy) : Ends EngErr.Tidy (fun r => r.2.Tidy) (s.rowRef t x) :=
  h.rd.bind fun _ h1 => .ite (.error_bind (.fault h1)) (h1.tokAcquire.bind fun _ h2 => .pure h2)

theorem State.Tidy.reach {t : Token} {k : AKind} {a n : Nat} (h : s.Tidy) : Ends EngErr.Tidy State.Tidy (s.reach t k a n) :=
  h.engGo.bind fun _ h1 => h1.engGo.bind fun _ h2 => .pure h2

theorem State.Tidy.noteRow {key x : Nat} {r : Option RowRef} (h : s.Tidy) : (s.noteRow key x r).Tidy := by
  unfold State.noteRow
  split
  exacts [h, h.setTok]

theorem State.Tidy.rowScan {key n i : Nat} {t : Token} (h : s.Tidy) :
    Ends EngErr.Tidy State.Tidy (State.rowScan key t n i s) := by
  induction n generalizing s i with
  | zero => exact .ok h
  | succ n ih =>
    unfold State.rowScan
    refine .ite (ih h.noteRow) ?_
    refine h.rowIndex.bind fun _ h1 => h1.rowRef.bind fun _ h2 => ?_
    refine Ends.bind (P := State.Tidy) (.foldlM h2 fun _ _ h3 => h3.reach) fun _ h3 => ?_
    exact .ite_bind h3.reach (.pure h3) fun _ h4 => .ite_bind h4.reach (.pure h4) fun _ h5 => ih h5.noteRow

theorem State.Tidy.rowPut {key : Nat} {t : Token} {a : Nat} {bs : List Byte} (h : s.Tidy) :
    Ends EngErr.Tidy State.Tidy (s.rowPut key t a bs) := by
  unfold State.rowPut
  refine h.claimFrom.bind fun _ h1 => Ends.bind (State.Tidy.engWrite h1) fun _ h2 => ?_
  split
  exacts [.pure h2.releaseLines.setTok, .pure h2]

theorem State.Tidy.rowDone {key i : Nat} (h : s.Tidy) : (s.rowDone key i).Tidy := by
  unfold State.rowDone
  split
  exacts [h, .ite (.ite h.setTok.settleSus h.setTok) h.setTok]

theorem State.Tidy.rowHome {t : Token} {va : Nat} (h : s.Tidy) : Ends EngErr.Tidy (fun _ => True) (s.rowHome t va) :=
  h.engAt.andThen fun _ => .pure trivial

theorem State.Tidy.touchRow {t : Token} {r : RowRef} (h : s.Tidy) : (s.touchRow t r).Tidy := by
  unfold State.touchRow
  split
  · exact h.withTag
  · exact h

theorem State.Tidy.rowLineRead {key : Nat} {t : Token} {x : Nat} {r : RowRead} (h : s.Tidy) :
    Ends EngErr.Tidy State.Tidy (s.rowLineRead key t x r) := by
  refine .ite_bind (P := fun r => r.2.Tidy) (h.rowRef.bind fun _ h1 => .pure h1) (.pure h) fun _ h2 => ?_
  refine h2.rd.bind fun _ h3 => ?_
  dsimp only
  split
  · exact .pure h3.setTok
  · exact .pure h3

theorem State.Tidy.gatherLine {key : Nat} {t : Token} {i x : Nat} {r : RowRead} (h : s.Tidy) :
    Ends EngErr.Tidy State.Tidy (s.gatherLine key t i x r) := by
  unfold State.gatherLine
  refine h.rowPut.bind fun _ h1 => ?_
  split
  exacts [.ite (.pure h1.setTok) (.pure h1.setTok.touchRow.rowDone), .pure h1]

theorem State.Tidy.gatherNext {key : Nat} {t : Token} (h : s.Tidy) : Ends EngErr.Tidy State.Tidy (s.gatherNext key t) := by
  unfold State.gatherNext
  dsimp only
  split
  · exact h.rowLineRead
  · split
    exacts [h.gatherLine, .ok h]

theorem State.Tidy.askRow {cl : Nat} {q : PagerReq} (h : s.Tidy) : (s.askRow cl q).Tidy := .ite h h.setCore

theorem State.Tidy.rowEffect {key : Nat} {t : Token} {i : Nat} {r : RowRef} (h : s.Tidy) :
    Ends EngErr.Tidy State.Tidy (s.rowEffect key t i r) := by
  unfold State.rowEffect
  refine h.rowHome.andThen fun _ => .ite ?_ ?_
  · refine h.rd.bind fun _ h1 => .ite h1.touchRow.rowPut (h1.touchRow.rd.bind fun _ h2 => ?_)
    refine h2.draw.rowPut.bind fun _ h3 => ?_
    split
    exacts [.pure h3.setTok, .pure h3]
  · refine .ite (.ite (.pure h) (.ite (.error (.fault h)) (.pure h.withTag))) (.ite (.pure h.setClu) ?_)
    split
    exacts [.pure h.withTag, .pure h.withTag, .pure h.askRow]

theorem State.Tidy.rowOne {key : Nat} {t : Token} {i : Nat} (h : s.Tidy) :
    Ends EngErr.Tidy State.Tidy (s.rowOne key t i) := by
  unfold State.rowOne
  refine .ite (.error_bind .wait) (h.rowRef.bind fun _ h1 => ?_)
  exact .ite (.error_bind .wait) (.ite (.error_bind .wait) (h1.rowEffect.bind fun _ h2 => .pure h2.rowDone))

theorem State.Tidy.rowOpen {key : Nat} {t : Token} (h : s.Tidy) : Ends EngErr.Tidy State.Tidy (s.rowOpen key t) := by
  unfold State.rowOpen
  refine h.setTok.rowScan.bind fun _ h1 => ?_
  split
  exacts [.pure h1.setTok, .pure h1]

theorem State.Tidy.rowWindow {key : Nat} (h : s.Tidy) : (s.rowWindow key).Tidy := by
  unfold State.rowWindow
  split
  · exact h
  · exact .ite h (.ite (h.engStep h.rowOpen) (.ite (h.engStep h.gatherNext) (.ite h (h.engStep h.rowOne))))

theorem State.Tidy.rowElem {key i : Nat} (h : s.Tidy) : (s.rowElem key i).Tidy := by
  unfold State.rowElem
  split
  exacts [h, .ite h (h.engStep h.rowOne)]

theorem execRowCombinerUpdate_tidy {tok elem : Nat} (h : s.Tidy) : Out.Tidy (execRowCombinerUpdate tok elem s) := by
  unfold execRowCombinerUpdate
  split
  exacts [.ite (.next h.rowElem) (.next h), .next h]

/-! ### The functions of Machine/Sys.lean -/

theorem execMts_tidy {a : Spec} {n : BitVec 6} (h : s.Tidy) : Out.Tidy (execMts a n s) := by
  unfold execMts
  refine settle_tidy h (.ite (.error_bind fltC_tidy) ?_)
  exact h.read64.andThen fun _ => Ends.bind (State.Tidy.sysWrite h) fun _ h1 => .pure h1.fin

theorem selCheck_tidy {v : Word} {mode : Nat} {tgts : List Nat} : Ends Stop.Tidy (fun _ => True) (s.selCheck v mode tgts) :=
  .ite (.error fltS_tidy) (.ok trivial)

theorem unordered_tidy : Ends Stop.Tidy (fun _ => True) s.unordered := .ite (.error fltC_tidy) (.ok trivial)

theorem execTlbWr_tidy {a b : Spec} (h : s.Tidy) : Out.Tidy (execTlbWr a b s) := by
  unfold execTlbWr
  refine settle_tidy h (h.read2.andThen fun _ => selCheck_tidy.andThen fun _ => .ite (.error_bind fltS_tidy) ?_)
  exact unordered_tidy.andThen fun _ => .pure (.fin (.ite (.setClu (.ite h.setCore h)) (.ite h.setCore h)))

theorem State.Tidy.tlbInv {mode : Nat} {a b : Spec} (h : s.Tidy) : Ends Stop.Tidy State.Tidy (s.tlbInv mode a b) := by
  unfold State.tlbInv
  refine h.read2.andThen fun _ => selCheck_tidy.andThen fun _ => ?_
  exact unordered_tidy.andThen fun _ => .ite (.error (.hold h.upd.rewind)) (.pure h.upd.fin)

theorem execTlbPrb_tidy {d a b : Spec} (h : s.Tidy) : Out.Tidy (execTlbPrb d a b s) :=
  settle_tidy h (h.read2.andThen fun _ => selCheck_tidy.andThen fun _ => unordered_tidy.andThen fun _ => h.put)

theorem State.Tidy.unask {p : Nat} (h : s.Tidy) : (s.unask p).Tidy := h.pagerTook
theorem State.Tidy.sleeperFault {p : Nat} {f : Flt} (h : s.Tidy) : (s.sleeperFault p f).Tidy := .ite h.holdFault h.setThread

theorem execPgWake_tidy {d a b : Spec} (h : s.Tidy) : Out.Tidy (execPgWake d a b s) := by
  unfold execPgWake
  refine settle_tidy h (h.read2.andThen fun _ => .ite (.error_bind fltC_tidy) (.ite (.error_bind fltC_tidy) ?_))
  refine unordered_tidy.andThen fun _ => ?_
  dsimp only
  split
  exacts [State.Tidy.put (.ite h.setThread.unask h.setThread.unask.sleeperFault), h.put]

theorem State.Tidy.wakeDirty {c : Nat} (h : s.Tidy) : (s.wakeDirty c).Tidy := h.upd

theorem State.Tidy.hvBuffer {va : Word} (h : s.Tidy) : Ends Stop.Tidy (fun r => r.2.2.Tidy) (s.hvBuffer va) := by
  unfold State.hvBuffer
  refine h.accessAl.bind fun _ h1 => .ite (.pure h1) ?_
  dsimp only
  split
  next heq => exact .pure (h1.access.of_ok heq)
  · exact .error .flt
  next heq => exact .error (h1.access.of_error heq)

theorem execDlHv_tidy {d a b : Spec} (h : s.Tidy) : Out.Tidy (execDlHv d a b s) := by
  refine settle_tidy h (h.read2.andThen fun _ => .ite (.error_bind fltS_tidy) ?_)
  refine h.hvBuffer.bind fun _ h1 => unordered_tidy.andThen fun _ => free1_tidy.andThen fun _ => .ite (.error_bind .wait) ?_
  refine h1.syncCheck.bind fun _ h2 => ?_
  dsimp only
  refine .ite (.error_bind fltA_tidy) ?_
  refine Ends.bind (P := State.Tidy) (State.Tidy.syncCheck ?_) fun _ h3 => ?_
  · exact h2.writeSpan
  · exact .ite (.error_bind fltA_tidy) h3.writeSpan.setCore.wakeDirty.pagerTook.put

theorem State.Tidy.injectReg {r sym cnt : Nat} (h : s.Tidy) : (s.injectReg r sym cnt).Tidy := .ite h h.setMe

theorem execErrInj_tidy {a b : Spec} (h : s.Tidy) : Out.Tidy (execErrInj a b s) := by
  unfold execErrInj
  refine settle_tidy h (h.read2.andThen fun _ => .ite (.error_bind fltS_tidy) ?_)
  refine .ite (unordered_tidy.andThen fun _ => .pure h.setMe.fin) ?_
  refine .ite (unordered_tidy.andThen fun _ => .pure h.injectReg.fin) (addrCheck_tidy.andThen fun _ => ?_)
  dsimp only
  split
  · refine .ite (.error_bind fltS_tidy) ?_
    exact h.access.bind fun _ h1 => .ite (.error_bind fltS_tidy) (unordered_tidy.andThen fun _ => h1.issueStore)
  · exact h.access.bind fun _ h2 => .ite (.error_bind fltS_tidy) (unordered_tidy.andThen fun _ => h2.issueStore)

theorem execClsQ_tidy {d a : Spec} (h : s.Tidy) : Out.Tidy (execClsQ d a s) := by
  unfold execClsQ
  refine settle_tidy h (h.read64.andThen fun _ => addrCheck_tidy.andThen fun _ => ?_)
  dsimp only
  split
  exacts [.pure_bind h.issueLoad, h.access.bind fun _ h1 => h1.issueLoad]

/-! ### The functions of Machine/Log.lean -/

theorem State.Tidy.dlogPut {d lo hi : Nat} (h : s.Tidy) : (s.dlogPut d lo hi).Tidy := .setDie (.ite h.putRecord h)

theorem State.Tidy.record {d act rsn slot ctx obj : Nat} (h : s.Tidy) : (s.record d act rsn slot ctx obj).Tidy := by
  unfold State.record
  dsimp only
  split
  exacts [h.dlogPut.setDie, h.dlogPut]

theorem State.Tidy.throttle {d cause qty v : Nat} (h : s.Tidy) : (s.throttle d cause qty v).Tidy := h.putRecord.setDie

/-! ### The functions of Machine/Launch.lean -/

theorem State.Tidy.submit {v : Submit} (h : s.Tidy) : (s.submit v).2.Tidy := h.upd.bump

theorem descAddr_tidy {k : AKind} {n : Nat} {a : Word} : Ends Stop.Tidy (fun _ => True) (s.descAddr k n a) :=
  .ite (.pure trivial) (addrCheck_tidy.andThen fun _ => .ite (.error fltA_tidy) (.pure trivial))

theorem execLaunch_tidy {d a : Spec} (h : s.Tidy) : Out.Tidy (execLaunch d a s) := by
  unfold execLaunch
  refine settle_tidy h (latch_tidy.andThen fun _ => h.readReg.andThen fun _ => h.readReg.andThen fun _ => ?_)
  refine descAddr_tidy.andThen fun _ => descAddr_tidy.andThen fun _ => descAddr_tidy.andThen fun _ => ?_
  refine descAddr_tidy.andThen fun _ => free1_tidy.andThen fun _ => ?_
  exact h.release.bind fun _ h1 => .ite (h1.defer.bind fun _ h2 => h2.put) (.pure h1.submit.setMe)

theorem State.Tidy.giveResult {p : Nat} {d : Spec} {v : Reg} {len : Nat} (h : s.Tidy) : (s.giveResult p d v len).Tidy :=
  h.upd.setMe.clearWlt.fin.upd

theorem State.Tidy.launchAdmit {sub : Nat} (h : s.Tidy) : (s.launchAdmit sub).Tidy := by
  unfold State.launchAdmit
  split
  · dsimp only
    split
    · split
      exacts [h.upd.setLaunch.giveResult, h.upd.setLaunch]
    · exact h.upd.setLaunch
  · exact h

theorem State.Tidy.turatWords {ctx die va n : Nat} (h : s.Tidy) :
    Ends (fun r => r.2.Tidy) (fun r => r.2.Tidy) (s.turatWords ctx die va n) := by
  induction n generalizing s va with
  | zero => exact .ok h
  | succ n ih =>
    refine h.part.andThen fun _ => .ite (.error_bind h) ?_
    exact h.checkedWord.bind fun _ h1 => (ih h1).bind fun _ h2 => .pure h2

theorem asCheck_tidy {α : Type} {P : α → Prop} {x : Part α} (h : Ends (fun r => r.2.Tidy) P x) :
    Ends (fun r => r.2.Tidy) P (asCheck x) := by
  unfold asCheck
  split
  · exact .ok (h.of_ok rfl)
  · exact .error (h.of_error rfl)
  · exact .error (h.of_error rfl)

theorem State.Tidy.checkLaunch {v : Submit} (h : s.Tidy) :
    Ends (fun r => r.2.Tidy) (fun r => r.2.Tidy) (s.checkLaunch v) := by
  unfold State.checkLaunch
  refine .ite (.error_bind h) ((asCheck_tidy h.turatWords).bind fun _ h1 => ?_)
  dsimp only
  split
  · exact .error_bind h1
  · refine .ite (.error_bind h1) ((asCheck_tidy h1.turatWords).bind fun _ h2 => ?_)
    split
    · exact .error_bind h2
    · refine (asCheck_tidy h2.turatWords).bind fun _ h3 => ?_
      split
      · exact .error_bind h3
      · refine (asCheck_tidy h3.turatWords).bind fun _ h4 => ?_
        exact .ite (.error_bind h4) ((asCheck_tidy h4.part).andThen fun _ => .pure h4)

theorem State.Tidy.failLaunch {l status detail : Nat} (h : s.Tidy) : (s.failLaunch l status detail).Tidy := by
  unfold State.failLaunch
  split
  exacts [h.setLaunch.killLaunch, h]

theorem State.Tidy.askReside {l : Nat} (h : s.Tidy) : (s.askReside l).Tidy := by
  unfold State.askReside
  split
  exacts [.ite h h.askPager, h]

theorem State.Tidy.launchCheck {l : Nat} (h : s.Tidy) : (s.launchCheck l).Tidy := by
  unfold State.launchCheck
  split
  · exact h
  · refine .ite h ?_
    split
    next heq => exact h.checkLaunch.of_error heq
    next heq => exact (h.checkLaunch.of_error heq).failLaunch
    next heq =>
      have h3 := h.checkLaunch.of_ok heq
      dsimp only
      split
      next heq => exact (h3.addGroup.of_some heq).setLaunch.askReside
      · exact h3

theorem State.Tidy.launchResident {l : Nat} {backed : Bool} (h : s.Tidy) : (s.launchResident l backed).Tidy := by
  unfold State.launchResident
  split
  exacts [h, .ite h (.ite h.pagerTook.failLaunch h.pagerTook.setLaunch)]

theorem State.Tidy.launchWeirSlot {l : Nat} (h : s.Tidy) : (s.launchWeirSlot l).Tidy := by
  unfold State.launchWeirSlot
  split
  exacts [h, .ite h h.setLaunch]

theorem State.Tidy.launchPlace {l cl : Nat} (h : s.Tidy) : (s.launchPlace l cl).Tidy := by
  unfold State.launchPlace
  split
  exacts [h, .ite h h.setLaunch.setCtx.record.post]

theorem State.Tidy.endGroups {l : Nat} (h : s.Tidy) : (s.endGroups l).Tidy := by
  unfold State.endGroups
  refine .upd (h.foldl fun _ _ h1 => ?_)
  split
  exacts [h1.writeN, h1]

theorem State.Tidy.completion {cl ctx p : Nat} {ok : Bool} {va : Word} {clock : Clock} (h : s.Tidy) :
    (s.completion cl ctx p ok va clock).2.Tidy := by
  unfold State.completion
  refine h.ite2 ?_
  split
  · exact h.countLost
  · split
    next heq =>
      have h1 := Ends.of_ok (State.Tidy.sigWrite h) heq
      exact h1.sigRel
    next heq =>
      have h2 := Ends.of_error (State.Tidy.sigWrite h) heq
      exact h2

theorem State.Tidy.packetDone {q idx : Nat} {r : Option Nat} {wrote : Nat} (h : s.Tidy) :
    (s.packetDone q idx r wrote).Tidy := by
  unfold State.packetDone
  split
  exacts [h.upd, h]

theorem State.Tidy.reportLaunch {L : Launch} (h : s.Tidy) : (s.reportLaunch L).Tidy := by
  unfold State.reportLaunch
  split
  exacts [.ite h (.ite h.report h.upd.countLoss), h]

theorem State.Tidy.idleContext {n : Nat} (h : s.Tidy) : (s.idleContext n).Tidy := .ite h.setCtx h

theorem State.Tidy.tellEnd {v : Submit} {status word : Nat} {clock : Clock} (h : s.Tidy) :
    (s.tellEnd v status word clock).Tidy := by
  unfold State.tellEnd
  dsimp only
  split
  exacts [h.completion.packetDone, h.completion]

theorem State.Tidy.endLaunch {l : Nat} {L : Launch} (h : s.Tidy) : (s.endLaunch l L).Tidy :=
  ((((((h.dropJoin.upd.foldl fun _ _ h1 => h1.freeTok).endGroups).upd).pagerTook).tellEnd).reportLaunch).idleContext

theorem State.Tidy.launchEnd {l : Nat} (h : s.Tidy) : (s.launchEnd l).Tidy := by
  unfold State.launchEnd
  split
  exacts [h, .ite h (.ite h.endLaunch (.ite h.endLaunch h))]

theorem State.Tidy.governRing {l v : Nat} (h : s.Tidy) : (s.governRing l v).Tidy := by
  unfold State.governRing
  dsimp only
  split
  exacts [.ite h.setGroup.setGroup.record (.ite h.setGroup.setGroup.record h), h]

theorem State.Tidy.govern {l : Nat} (h : s.Tidy) : (s.govern l).Tidy := by
  unfold State.govern
  split
  exacts [h, .ite h (h.setLaunch.foldl fun _ _ h1 => h1.governRing)]

/-! ### The functions of Machine/Weir.lean -/

theorem State.Tidy.itemFault {c : Commit} {f : Flt} (h : s.Tidy) : (s.itemFault c f).Tidy := h.report

theorem State.Tidy.itemResult {c : Commit} {r : Res} (h : s.Tidy) (hr : Ends Stop.Tidy State.Tidy r) :
    (s.itemResult c r).Tidy := by
  unfold State.itemResult
  split
  exacts [(hr.of_ok rfl), h.itemFault, .itemFault (hr.of_kept rfl), (hr.of_hold rfl), h]

theorem State.Tidy.releaseTok {own : Nat × Nat} {key : Nat} (h : s.Tidy) : (s.releaseTok own key).Tidy := by
  unfold State.releaseTok
  split
  · refine .ite h ?_
    dsimp only
    split
    exacts [.ite h.setTok.setThread h.setTok, h.setTok]
  · exact h

theorem State.Tidy.joinFlush {p cl : Nat} (h : s.Tidy) : (s.joinFlush p cl).Tidy := by
  unfold State.joinFlush
  refine h.foldl fun _ _ h1 => ?_
  split
  exacts [h1.upd.accepted.portArrive, h1]

theorem State.Tidy.releaseMsg {cl : Nat} {m : Msg} (h : s.Tidy) : (s.releaseMsg cl m).Tidy := by
  unfold State.releaseMsg
  refine .ite h.countLoss ?_
  split
  exacts [.ite h.joinFlush.portArrive h.post, h.post]

theorem State.Tidy.releasePort {cl : Nat} {c : Commit} {i : Nat} {a : Word} {act : State → User → Res}
    (h : s.Tidy) (hact : ∀ t y, t.Tidy → Ends Stop.Tidy State.Tidy (act t y)) : (s.releasePort cl c i a act).Tidy :=
  .ite h.itemFault (h.itemResult (hact _ _ h))

theorem State.Tidy.releaseSignal {c : Commit} {op : RmwOp} {loc : Nat} {va : Word} {b : Reg} (h : s.Tidy) :
    Holds State.Tidy (s.releaseSignal c op loc va b) := by
  unfold State.releaseSignal
  dsimp only
  split
  · exact .none
  next heq => exact .some (h.lateLoc.of_error heq).itemFault
  next heq =>
    have h3 := h.lateLoc.of_ok heq
    refine .ite .none ?_
    split
    next heq => exact .some (Ends.of_ok (State.Tidy.sigWrite h3) heq)
    next heq => exact .some (Ends.of_error (State.Tidy.sigWrite h3) heq).itemFault

theorem State.Tidy.releaseItem {cl e : Nat} {c : Commit} {i : Deferred} (h : s.Tidy) :
    Holds State.Tidy (s.releaseItem cl e c i) := by
  unfold State.releaseItem
  dsimp only
  split
  · exact h.releaseSignal
  · exact .some h.releaseMsg
  · exact .some h.releaseTok
  · exact .some h.submit
  · refine .some ?_
    split
    · exact h
    · split
      · exact h.joinFlush.releasePort fun _ _ h2 => h2.joinCfg
      · exact h.joinFlush.itemResult h.joinFlush.joinBind
      · exact h.joinFlush.itemResult h.joinFlush.joinUnbind
      · exact h.joinFlush.releasePort fun _ _ h3 => .ok h3.joinClr
  · refine .some ?_
    split
    exacts [.ite h.addDep h, h]

theorem State.Tidy.releaseList {cl e : Nat} {c : Commit} {is : List Deferred} (h : s.Tidy) :
    (State.releaseList cl e c is s).2.Tidy := by
  induction is generalizing s with
  | nil => exact h
  | cons i is ih =>
    unfold State.releaseList
    split
    next heq => exact ih (h.releaseItem.of_some heq)
    · exact h

theorem State.Tidy.releaseItems {cl e : Nat} (h : s.Tidy) : (s.releaseItems cl e).Tidy := by
  unfold State.releaseItems
  split
  · exact h
  · refine .ite h.setClu.releaseList ?_
    split
    exacts [h.setClu.releaseList.setClu, h.setClu.releaseList]

theorem State.Tidy.releaseIrrev (h : s.Tidy) : s.releaseIrrev.Tidy := h.foldl fun _ _ h1 => h1.releaseItems
theorem State.Tidy.weirSample (h : s.Tidy) : s.weirSample.Tidy := .ite h h.upd

theorem State.Tidy.endWait {p : Nat} (h : s.Tidy) : (s.endWait p).Tidy := by
  unfold State.endWait
  refine .ite h ?_
  split
  exacts [h.makeIrrev.setThread, h.makeIrrev, h]

theorem State.Tidy.weirApply (h : s.Tidy) : s.weirApply.Tidy := (h.upd.foldl fun _ _ h1 => h1.endWait).releaseIrrev

theorem State.Tidy.commitOne {cl e : Nat} (h : s.Tidy) : (s.commitOne cl e).Tidy := by
  unfold State.commitOne
  dsimp only
  split
  exacts [.ite h.releaseItems h.releaseItems.setClu.loseKept, h.releaseItems]

theorem State.Tidy.commitCluster {cl : Nat} (h : s.Tidy) : (s.commitCluster cl).Tidy := h.foldl fun _ _ h1 => h1.commitOne

theorem State.Tidy.spillFullAbort {cl : Nat} (h : s.Tidy) : (s.spillFullAbort cl).Tidy := by
  unfold State.spillFullAbort
  dsimp only
  split
  · refine .ite ?_ h
    split
    exacts [h.abortAll, h]
  · exact h

/-! ### The functions of Machine/Queue.lean -/

theorem State.Tidy.setQueue {k : Nat} {q : Queue} (h : s.Tidy) : (s.setQueue k q).Tidy := by
  unfold State.setQueue
  refine .ite h.upd ?_
  split
  exacts [h.upd.upd, h.upd.foldl fun _ _ h1 => h1.writeN]

theorem State.Tidy.queueHears {k loc : Nat} (h : s.Tidy) : (s.queueHears k loc).Tidy := by
  unfold State.queueHears
  split
  exacts [h, h.upd]

theorem State.Tidy.ringTouch {q : Queue} {i : Nat} (h : s.Tidy) : (s.ringTouch q i).Tidy := by
  unfold State.ringTouch
  split
  exacts [.ite h.dropCopy.dropCopy h.checkGran, h]

theorem State.Tidy.readHeader {k : Nat} {q : Queue} {i : Nat} (h : s.Tidy) : (s.readHeader k q i).Tidy := by
  unfold State.readHeader
  split
  exacts [h.ringTouch.queueHears, h]

theorem State.Tidy.unmapTo {k rsn : Nat} {stop : Bool} (h : s.Tidy) : (s.unmapTo k rsn stop).Tidy := by
  unfold State.unmapTo
  split
  exacts [h, .ite h h.setQueue.record]

theorem State.Tidy.unmapQueue {k rsn : Nat} (h : s.Tidy) : (s.unmapQueue k rsn).Tidy := h.unmapTo

theorem State.Tidy.mapQueue {k slot rsn : Nat} {soft : Bool} (h : s.Tidy) : (s.mapQueue k slot rsn soft).Tidy := by
  unfold State.mapQueue
  split
  exacts [h, h.setQueue.record]

theorem State.Tidy.indexError {k : Nat} (h : s.Tidy) : (s.indexError k).Tidy := by
  unfold State.indexError
  split
  exacts [h, .ite h.setQueue.unmapTo h.setQueue.setQueue]

theorem State.Tidy.wakeSubs {k : Nat} (h : s.Tidy) : (s.wakeSubs k).Tidy := by
  unfold State.wakeSubs
  refine h.foldl fun _ _ h1 => ?_
  split
  exacts [.ite h1.giveResult h1, h1]

theorem State.Tidy.removeQueue {k : Nat} (h : s.Tidy) : (s.removeQueue k).Tidy := by
  unfold State.removeQueue
  split
  · exact h
  · refine .wakeSubs (.setHub (.upd ?_))
    split
    exacts [h.writeN, h]

theorem State.Tidy.leaveCheck {k : Nat} (h : s.Tidy) : (s.leaveCheck k).Tidy := by
  unfold State.leaveCheck
  split
  exacts [.ite h.removeQueue h, h]

theorem State.Tidy.flushQueue {k : Nat} (h : s.Tidy) : (s.flushQueue k).Tidy := by
  unfold State.flushQueue
  split
  · exact h
  · refine .ite h ?_
    split
    exacts [h, h.upd.foldl fun _ _ h1 => h1.writeN]

theorem State.Tidy.flushQueues (h : s.Tidy) : s.flushQueues.Tidy := h.foldl fun _ _ h1 => h1.flushQueue.leaveCheck

theorem State.Tidy.beginLeave {k : Nat} (h : s.Tidy) : (s.beginLeave k).Tidy := by
  unfold State.beginLeave
  dsimp only
  split
  exacts [h.unmapQueue, h.unmapQueue.setQueue.leaveCheck]

theorem State.Tidy.sigRead {die loc : Nat} (h : s.Tidy) : (s.sigRead die loc).2.Tidy := by
  unfold State.sigRead
  refine h.ite2 ?_
  dsimp only
  split
  next heq => exact State.Tidy.snd (State.Tidy.checkGran (.ite h.dropCopy h)) heq
  next heq => exact State.Tidy.snd (State.Tidy.checkGran (.ite h.dropCopy h)) heq

theorem State.Tidy.evalPlaces {die : Nat} {ls : List (Nat × Nat)} {bad : Option Nat} {wait : Bool} (h : s.Tidy) :
    (s.evalPlaces die ls bad wait).2.Tidy := by
  induction ls generalizing s bad wait with
  | nil => exact h
  | cons l ls ih =>
    unfold State.evalPlaces
    split
    next heq => exact ih (h.sigRead.snd heq)
    next heq => exact ih (h.sigRead.snd heq)

theorem State.Tidy.evalBarrier {k : Nat} {q : Queue} {w : Vector Word 8} (h : s.Tidy) : (s.evalBarrier k q w).2.Tidy := by
  unfold State.evalBarrier
  split
  · exact h
  · refine h.ite2 ?_
    dsimp only
    split
    next heq => exact (h.evalPlaces.snd heq).foldl fun _ _ h2 => h2.queueHears
    next heq => exact h.evalPlaces.snd heq
    next heq => exact (h.evalPlaces.snd heq).foldl fun _ _ h5 => h5.queueHears

theorem State.Tidy.setPkt {k idx : Nat} {f : Pkt → Pkt} (h : s.Tidy) : (s.setPkt k idx f).Tidy := by
  unfold State.setPkt
  split
  exacts [h.setQueue, h]

theorem State.Tidy.recheckPkt {loc k : Nat} {p : Pkt} (h : s.Tidy) : (s.recheckPkt loc k p).Tidy := by
  unfold State.recheckPkt
  split
  · exact h
  · refine .ite h ?_
    split
    next heq => exact (h.evalBarrier.snd heq).setPkt
    next heq => exact h.evalBarrier.snd heq

theorem State.Tidy.onPlace {p : Nat} {f : State → Res} (h : s.Tidy) (hf : ∀ t, t.Tidy → Ends Stop.Tidy State.Tidy (f t)) :
    (s.onPlace p f).Tidy := by
  unfold State.onPlace
  refine .upd ?_
  split
  next heq => exact (hf _ h.upd).of_ok heq
  · exact h.upd.takeFault
  next heq => exact (hf _ h.upd).of_hold heq
  next heq => exact ((hf _ h.upd).of_kept heq).takeFault
  · exact h.upd

theorem State.Tidy.recheckWait {loc p : Nat} (h : s.Tidy) : (s.recheckWait loc p).Tidy := by
  unfold State.recheckWait
  dsimp only
  split
  exacts [.ite (h.onPlace fun _ h1 => h1.sigPoll) h, h]

theorem State.Tidy.notify {loc : Nat} (h : s.Tidy) : (s.notify loc).Tidy :=
  (h.foldl fun _ _ h1 => h1.foldl fun _ _ h2 => h2.recheckPkt).foldl fun _ _ h3 => h3.recheckWait

theorem State.Tidy.fillSlots {d n : Nat} (h : s.Tidy) : (s.fillSlots d n).Tidy := by
  induction n generalizing s with
  | zero => exact h
  | succ n ih =>
    unfold State.fillSlots
    split
    · exact ih h.mapQueue
    · exact h

theorem State.Tidy.dropEmpty {d : Nat} (h : s.Tidy) : (s.dropEmpty d).Tidy := .ite h (h.foldl fun _ _ h1 => h1.unmapQueue)
theorem State.Tidy.schedule {d : Nat} (h : s.Tidy) : (s.schedule d).Tidy := .ite h.dropEmpty.fillSlots h

theorem State.Tidy.wiNotice {k : Nat} (h : s.Tidy) : (s.wiNotice k).Tidy := by
  unfold State.wiNotice
  split
  exacts [h, .ite h (.ite h.indexError (.schedule (.ite h.setQueue h)))]

theorem State.Tidy.agingTick {d : Nat} (h : s.Tidy) : (s.agingTick d).Tidy :=
  .ite ((h.foldl fun _ _ h1 => .ite h1.setQueue h1).schedule) h

theorem State.Tidy.quantumExpiry {slot : Nat} (h : s.Tidy) : (s.quantumExpiry slot).Tidy := by
  unfold State.quantumExpiry
  split
  · exact h
  · dsimp only
    split
    exacts [.ite h.unmapQueue.schedule h, h]

theorem State.Tidy.boundMissed {k : Nat} (h : s.Tidy) : (s.boundMissed k).Tidy := by
  unfold State.boundMissed
  split
  · exact h
  · split
    exacts [.ite h.setQueue.record h, h]

theorem State.Tidy.turatLoaded {d err key : Nat} (h : s.Tidy) : (s.turatLoaded d err key).Tidy := .ite h h.setDie.record

theorem State.Tidy.startPkt {k : Nat} {p : Pkt} (h : s.Tidy) : (s.startPkt k p).Tidy := by
  unfold State.startPkt
  split
  exacts [h.setQueue, h]

theorem State.Tidy.copyToken {q : Queue} {w : Vector Word 8} (h : s.Tidy) : Holds (fun r => r.2.Tidy) (s.copyToken q w) := by
  unfold State.copyToken
  dsimp only
  split
  · exact .none
  next heq => exact .some (h.draw.takeSlot.of_some heq).setTok.bump

theorem State.Tidy.signalPkt {q : Queue} {w : Vector Word 8} (h : s.Tidy) : (s.signalPkt q w).2.Tidy := by
  unfold State.signalPkt
  split
  · exact h
  · split
    next heq =>
      have h1 := Ends.of_ok (State.Tidy.sigWrite h) heq
      exact h1.sigRel
    next heq =>
      have h2 := Ends.of_error (State.Tidy.sigWrite h) heq
      exact h2

theorem State.Tidy.runPkt {k : Nat} {q : Queue} {w : Vector Word 8} (h : s.Tidy) : (s.runPkt k q w).Tidy := by
  unfold State.runPkt
  refine .ite h.startPkt ?_
  split
  · exact h.submit.startPkt
  · exact h.evalBarrier.startPkt
  · refine .ite h.startPkt ?_
    split
    next heq => exact (h.copyToken.of_some heq).startPkt
    · exact h
  · exact .ite h h.signalPkt.startPkt
  · exact h.record.startPkt
  · exact h.startPkt

theorem State.Tidy.packetStart {k : Nat} (h : s.Tidy) : (s.packetStart k).Tidy := by
  unfold State.packetStart
  split
  · exact h
  · refine .ite h (.ite h.indexError (.ite h ?_))
    dsimp only
    split
    · exact h.readHeader.startPkt
    · refine .ite h.readHeader.setQueue (.ite (.ite h.readHeader h.readHeader.completion.startPkt) ?_)
      exact .ite h.readHeader (.runPkt (.ite h.readHeader.setQueue h.readHeader))

theorem State.Tidy.retirePkts {k n : Nat} (h : s.Tidy) : (s.retirePkts k n).Tidy := by
  induction n generalizing s with
  | zero => exact h
  | succ n ih =>
    unfold State.retirePkts
    split
    · exact h
    · split
      · refine .ite h (ih (State.Tidy.setQueue ?_))
        split
        · exact .of_mem (Memory.wf_memPutN _ _ _ h.ringTouch.wf)
        · exact h
      · exact h

theorem State.Tidy.retireAll {k : Nat} (h : s.Tidy) : (s.retireAll k).Tidy := by
  unfold State.retireAll
  split
  exacts [h.retirePkts.leaveCheck.schedule, h]

theorem State.Tidy.packetComplete {k idx : Nat} (h : s.Tidy) : (s.packetComplete k idx).Tidy := by
  unfold State.packetComplete
  split
  · exact h
  · split
    · exact h
    · split
      · exact h
      · refine .ite h (.retireAll (.setQueue (.ite ?_ ?_)))
        · refine .freeTok ?_
          split
          exacts [h, h.completion]
        · split
          exacts [h, h.completion]

theorem State.Tidy.headerReady {k : Nat} (h : s.Tidy) : (s.headerReady k).Tidy := by
  unfold State.headerReady
  split
  · exact h
  · split
    exacts [.ite h.setQueue h, h.setQueue]

theorem State.Tidy.ringPass {k : Nat} {q : Queue} (h : s.Tidy) : (s.ringPass k q).Tidy := by
  unfold State.ringPass
  refine .schedule (.setQueue ?_)
  split
  exacts [.of_mem (Memory.wf_memPutN _ _ _ h.ringTouch.wf), h]

theorem State.Tidy.handoff {k cl : Nat} (h : s.Tidy) : (s.handoff k cl).Tidy := by
  unfold State.handoff
  split
  · exact h
  · refine .ite h (.ite h.indexError (.ite h ?_))
    dsimp only
    split
    · exact h.readHeader.ringPass
    · refine .ite h.readHeader.setQueue (.ite h.readHeader.ringPass ?_)
      split
      exacts [h.readHeader.ringPass, .ite h.readHeader h.readHeader.setClu.bump.ringPass]

theorem qcbBad_tidy {k : Nat} : (qcbBad k).Tidy := fltS_tidy

theorem qcbCheck_tidy {ctx die : Nat} {w : Nat → Nat} : Ends Stop.Tidy (fun _ => True) (s.qcbCheck ctx die w) := by
  unfold State.qcbCheck
  refine .ite (.error_bind qcbBad_tidy) (.ite (.error_bind qcbBad_tidy) ?_)
  split
  exacts [.error qcbBad_tidy, .pure trivial]

theorem qcbAt_tidy {ctx die : Nat} {qcb : Word} : Ends Stop.Tidy (fun _ => True) (s.qcbAt ctx die qcb) := by
  unfold State.qcbAt
  refine addrCheck_tidy.andThen fun _ => ?_
  split
  · split
    · exact .error .wait
    · exact .error fltA_tidy
    · exact .ite (.error_bind qcbBad_tidy) (qcbCheck_tidy.andThen fun _ => .pure trivial)
  · exact .error fltA_tidy
  · exact .error qcbBad_tidy

theorem subCheck_tidy {op : Nat} {qcb b : Word} : Ends Stop.Tidy (fun _ => True) (s.subCheck op qcb b) :=
  .ite (.error_bind fltS_tidy) (.ite (.error_bind fltS_tidy) (qcbAt_tidy.andThen fun _ => .pure trivial))

theorem queueBad_tidy : queueBad.Tidy := fltC_tidy

theorem State.Tidy.register {qcb b : Word} (h : s.Tidy) : Ends Stop.Tidy (fun r => r.2.Tidy) (s.register qcb b) :=
  subCheck_tidy.andThen fun _ => .ite (.error_bind queueBad_tidy) (.ite (.error_bind fltC_tidy) (.pure h.setQueue.bump))

theorem unregister_tidy {qcb b : Word} : Ends Stop.Tidy (fun _ => True) (s.unregister qcb b) := by
  unfold State.unregister
  refine subCheck_tidy.andThen fun _ => ?_
  dsimp only
  split
  exacts [.pure trivial, .error queueBad_tidy]

theorem State.Tidy.restartQueue {qcb b : Word} (h : s.Tidy) : Ends Stop.Tidy (fun r => r.2.Tidy) (s.restartQueue qcb b) := by
  unfold State.restartQueue
  refine subCheck_tidy.andThen fun _ => ?_
  dsimp only
  split
  exacts [.ite (.error_bind queueBad_tidy) (.pure h.setQueue), .error queueBad_tidy]

theorem execQueSubRegister_tidy {d a b : Spec} (h : s.Tidy) : Out.Tidy (execQueSubRegister d a b s) :=
  settle_tidy h (h.read2.andThen fun _ => h.register.bind fun _ h1 => unordered_tidy.andThen fun _ => h1.put)

theorem execQueSubUnregister_tidy {d a b : Spec} (h : s.Tidy) : Out.Tidy (execQueSubUnregister d a b s) := by
  unfold execQueSubUnregister
  refine settle_tidy h (h.read2.andThen fun _ => unregister_tidy.andThen fun _ => ?_)
  exact unordered_tidy.andThen fun _ => free1_tidy.andThen fun _ => .pure h.setMe.beginLeave

theorem execQueSubResume_tidy {d a b : Spec} (h : s.Tidy) : Out.Tidy (execQueSubResume d a b s) :=
  settle_tidy h (h.read2.andThen fun _ => h.restartQueue.bind fun _ h1 => unordered_tidy.andThen fun _ => h1.put)

theorem execSlotMap_tidy {a b : Spec} (h : s.Tidy) : Out.Tidy (execSlotMap a b s) := by
  unfold execSlotMap
  refine settle_tidy h (h.read2.andThen fun _ => .ite (.error_bind fltS_tidy) ?_)
  dsimp only
  split
  · exact addrCheck_tidy.andThen fun _ => .error queueBad_tidy
  · refine .ite (.error_bind fltS_tidy) (qcbAt_tidy.andThen fun _ => .ite (.error_bind queueBad_tidy) ?_)
    refine unordered_tidy.andThen fun _ => .pure (.fin (.mapQueue ?_))
    split
    exacts [h.unmapQueue, h]

theorem execSlotUnm_tidy {a b : Spec} (h : s.Tidy) : Out.Tidy (execSlotUnm a b s) := by
  unfold execSlotUnm
  refine settle_tidy h (h.read2.andThen fun _ => .ite (.error_bind fltS_tidy) (.ite (.error_bind fltS_tidy) ?_))
  refine unordered_tidy.andThen fun _ => .pure (.fin ?_)
  split
  exacts [h.unmapQueue, h]

theorem execSlotRd_tidy {d a : Spec} (h : s.Tidy) : Out.Tidy (execSlotRd d a s) :=
  settle_tidy h (h.read64.andThen fun _ => .ite (.error_bind fltS_tidy) (unordered_tidy.andThen fun _ => h.put))

theorem execDlogWr_tidy {a b : Spec} (h : s.Tidy) : Out.Tidy (execDlogWr a b s) :=
  settle_tidy h (h.read2.andThen fun _ => .ite (.error_bind fltS_tidy) (unordered_tidy.andThen fun _ => .pure h.dlogPut.fin))

theorem execDlogRd_tidy {d a : Spec} (h : s.Tidy) : Out.Tidy (execDlogRd d a s) :=
  settle_tidy h (h.read64.andThen fun _ => .ite (.error_bind fltS_tidy) (unordered_tidy.andThen fun _ => h.put))

theorem State.Tidy.bell {set : Nat} {qcb cmd : Word} {stat : Nat} (h : s.Tidy) : (s.bell set qcb cmd stat).Tidy := h.setHub
theorem State.Tidy.bellWaits {set : Nat} {qcb cmd : Word} (h : s.Tidy) : (s.bellWaits set qcb cmd).Tidy := h.bell

theorem State.Tidy.bellFault {set : Nat} {qcb cmd : Word} {x : Stop} (h : s.Tidy) (hx : x.Tidy) :
    (s.bellFault set qcb cmd x).Tidy := by
  unfold State.bellFault
  split
  exacts [h.bellWaits, h.bell]

theorem State.Tidy.bellApply {op set : Nat} {qcb cmd : Word} (h : s.Tidy) : (s.bellApply op set qcb cmd).Tidy := by
  unfold State.bellApply
  refine .ite h.bellWaits ?_
  split
  · split
    next heq => exact (h.register.of_ok heq).bell
    next heq => exact h.bellFault (h.register.of_error heq)
  · split
    · exact h.bellWaits.beginLeave
    next heq => exact h.bellFault (unregister_tidy.of_error heq)
  · split
    next heq => exact (h.restartQueue.of_ok heq).bell
    next heq => exact h.bellFault (h.restartQueue.of_error heq)

theorem State.Tidy.retryBells (h : s.Tidy) : s.retryBells.Tidy := .ite h (h.foldl fun _ _ h1 => h1.bellApply)

/-! ### The functions of Machine/Context.lean -/

theorem State.Tidy.preemptToks {n : Nat} (h : s.Tidy) : (s.preemptToks n).Tidy := by
  unfold State.preemptToks
  refine h.foldl fun _ _ h1 => ?_
  split
  exacts [.setTok (.ite h1.releaseLines h1), h1]

theorem State.Tidy.requeueOne {cl : Nat} {m : Msg} {take : State → State}
    (h : s.Tidy) (htake : ∀ t, t.Tidy → (take t).Tidy) : (s.requeueOne cl m take).Tidy :=
  .ite ((htake _ h).requeueMsg) h

theorem State.Tidy.requeueCluster {n cl : Nat} (h : s.Tidy) : (s.requeueCluster n cl).Tidy := by
  unfold State.requeueCluster
  refine (h.foldl fun _ _ h1 => h1.requeueOne fun _ h2 => h2.setClu).foldl fun _ _ h3 => ?_
  exact h3.foldl fun _ _ h4 => h4.requeueOne fun _ h5 => h5.setCore

theorem State.Tidy.saveBlocked {p : Nat} (h : s.Tidy) : (s.saveBlocked p).Tidy := .ite h.reachSafePoint h

theorem State.Tidy.preempt {n : Nat} (h : s.Tidy) : (s.preempt n).Tidy := by
  unfold State.preempt
  refine .ite h (.ite h.record (.ite h (.foldl ?_ fun _ _ h4 => h4.saveBlocked)))
  refine .foldl (.foldl ?_ fun _ _ h2 => h2.requeueCluster) fun _ _ h3 => h3.settleFiring.evaluate
  exact (h.setCtx.record.abortAll.foldl fun _ _ h1 => h1.setThread).preemptToks

theorem State.Tidy.noSafePoint {p : Nat} (h : s.Tidy) : (s.noSafePoint p).Tidy := .ite h.kernelFault h

theorem State.Tidy.suspendContext {n : Nat} (h : s.Tidy) : (s.suspendContext n).Tidy :=
  .ite h (h.setCtx.foldl fun _ _ h1 => h1.unmapQueue)

theorem State.Tidy.resumeContext {n : Nat} (h : s.Tidy) : (s.resumeContext n).Tidy :=
  .ite h h.setCtx.record.upd.resumeRecords

theorem State.Tidy.areasResident {n : Nat} (h : s.Tidy) : (s.areasResident n).Tidy := .ite h.setCtx h
theorem State.Tidy.areasUnbacked {n : Nat} (h : s.Tidy) : (s.areasUnbacked n).Tidy := .ite h.setCtx.record.draw.draw h

theorem State.Tidy.discarded {n : Nat} (h : s.Tidy) : (s.discarded n).Tidy :=
  .ite h (.ite h.abandoned (.ite h h.setCtx.resumeRecords))

theorem State.Tidy.thermal {qty : Nat} (h : s.Tidy) : (s.thermal qty).Tidy := h.foldl fun _ _ h1 => h1.throttle.draw
theorem State.Tidy.freeze (h : s.Tidy) : s.freeze.Tidy := h.upd.thermal.raiseMsix
theorem State.Tidy.thawCounts (h : s.Tidy) : s.thawCounts.Tidy := ((h.foldl fun _ _ h1 => h1.pauseCounts).pauseCounts).upd
theorem State.Tidy.thaw (h : s.Tidy) : s.thaw.Tidy := h.thawCounts.upd.thermal.raiseMsix
theorem formBad_tidy {k : Nat} : (formBad k).Tidy := fltS_tidy

theorem State.Tidy.ldOperands {op : Nat} {a b : Spec} (h : s.Tidy) : Ends Stop.Tidy (fun _ => True) (s.ldOperands op a b) :=
  h.read2.andThen fun _ => .ite (.error_bind fltS_tidy) (.ite (.error_bind fltC_tidy) (.pure trivial))

theorem State.Tidy.ldImage {va : Word} (h : s.Tidy) : Ends Stop.Tidy (fun r => r.2.Tidy) (s.ldImage va) := by
  unfold State.ldImage
  refine h.access.bind fun _ h1 => h1.readWords.bind fun _ h2 => ?_
  dsimp only
  split
  exacts [.error formBad_tidy, .pure h2]

theorem stateBad_tidy {c : Ctx} : (stateBad c).Tidy := fltS_tidy

theorem execCtxLdCreate_tidy {a b : Spec} (h : s.Tidy) : Out.Tidy (execCtxLdCreate a b s) := by
  unfold execCtxLdCreate
  refine settle_tidy h (h.ldOperands.andThen fun _ => h.ldImage.bind fun _ h1 => ?_)
  exact .ite (.error_bind stateBad_tidy) (unordered_tidy.andThen fun _ => .pure h1.setCtx.fin)

theorem execCtxLdUpdate_tidy {a b : Spec} (h : s.Tidy) : Out.Tidy (execCtxLdUpdate a b s) := by
  unfold execCtxLdUpdate
  refine settle_tidy h (h.ldOperands.andThen fun _ => h.ldImage.bind fun _ h1 => .ite (.error_bind stateBad_tidy) ?_)
  dsimp only
  split
  exacts [.error_bind formBad_tidy, unordered_tidy.andThen fun _ => .pure h1.setCtx.fin]

theorem State.Tidy.dropTlb {n : Nat} (h : s.Tidy) : (s.dropTlb n).Tidy := h.upd

theorem State.Tidy.releaseTable {cl lv tab : Nat} (h : s.Tidy) : (s.releaseTable cl lv tab).Tidy := by
  induction lv generalizing s tab with
  | zero => exact h
  | succ lv ih =>
    unfold State.releaseTable
    refine .ite h (h.foldl fun _ _ h1 => ?_)
    split
    · exact h1
    · exact .ite h1 (.ite h1.writeN (.ite (ih h1) h1))

theorem State.Tidy.noteEnds {k : Nat} (h : s.Tidy) : (s.noteEnds k).Tidy := by
  unfold State.noteEnds
  split
  exacts [h, h.setQueue]

theorem State.Tidy.destroyContext {n : Nat} (h : s.Tidy) : (s.destroyContext n).Tidy := by
  unfold State.destroyContext
  refine .setCtx (.releaseTable (.upd (.dropTlb (.foldl ?_ fun _ _ h5 => h5.freeTok))))
  refine .foldl (.foldl ?_ fun _ _ h3 => ?_) fun _ _ h4 => h4.noteEnds.removeQueue
  · exact (h.upd.foldl fun _ _ h1 => h1.tellEnd).foldl fun _ _ h2 => h2.killLaunch
  · split
    exacts [h3.endLaunch, h3]

theorem execCtxLdDestroy_tidy {a b : Spec} (h : s.Tidy) : Out.Tidy (execCtxLdDestroy a b s) := by
  unfold execCtxLdDestroy
  refine settle_tidy h (h.ldOperands.andThen fun _ => .ite (.error_bind stateBad_tidy) ?_)
  exact unordered_tidy.andThen fun _ => .ite (.error_bind .wait) (.pure h.destroyContext.fin)

theorem execCtxSv_tidy {d a b : Spec} (h : s.Tidy) : Out.Tidy (execCtxSv d a b s) := by
  unfold execCtxSv
  refine settle_tidy h (h.read2.andThen fun _ => .ite (.error_bind fltS_tidy) (h.access.bind fun _ h1 => ?_))
  exact unordered_tidy.andThen fun _ => free1_tidy.andThen fun _ => .ite (.error_bind .wait) h1.file.setMe.put

/-! ### The functions of Machine/Cvt.lean -/

theorem State.Tidy.convert {d a : Spec} {bad : List (Fin 4)} {ws wd' : Nat} {f : Nat → Fp → Nat × Fp} (h : s.Tidy) :
    Ends Stop.Tidy State.Tidy (s.convert d a bad ws wd' f) :=
  latch_tidy.andThen fun _ => useCheck_tidy.andThen fun _ => h.readReg.andThen fun _ => h.withFp.put

theorem execQnt_tidy {t u : FTy} {d a : Spec} (h : s.Tidy) : Out.Tidy (execQnt t u d a s) :=
  settle_tidy h (latch_tidy.andThen fun _ => useCheck_tidy.andThen fun _ => h.readReg.andThen fun _ => h.withFp.put)

theorem execDqnt_tidy {t u : FTy} {d a : Spec} (h : s.Tidy) : Out.Tidy (execDqnt t u d a s) :=
  settle_tidy h (latch_tidy.andThen fun _ => useCheck_tidy.andThen fun _ => h.readReg.andThen fun _ => h.withFp.put)

theorem execFclass_tidy {u : FTy} {d a : Spec} (h : s.Tidy) : Out.Tidy (execFclass u d a s) :=
  settle_tidy h (latch_tidy.andThen fun _ => useCheck_tidy.andThen fun _ => h.readReg.andThen fun _ => h.put)

/-! ### The functions of Machine/Dbg.lean -/

theorem execProfRd_tidy {d a : Spec} (h : s.Tidy) : Out.Tidy (execProfRd d a s) := by
  unfold execProfRd
  refine settle_tidy h (h.read64.andThen fun _ => ?_)
  split
  exacts [h.put, .error fltS_tidy]

theorem State.Tidy.dbgOperands {op : Nat} {a b : Spec} (h : s.Tidy) :
    Ends Stop.Tidy (fun _ => True) (s.dbgOperands op a b) :=
  h.read2.andThen fun _ => .ite (.error_bind fltC_tidy) (.ite (.error_bind fltC_tidy) (noSpec_tidy.andThen fun _ => .pure trivial))

/-! ### The functions of Machine/Edge.lean -/

theorem State.Tidy.outerStore {loc : Nat} {bytes : List Byte} (h : s.Tidy) : (s.outerStore loc bytes).Tidy :=
  (h.foldl fun _ _ h1 => h1.recall).writeSpan

theorem execHostBar2Write_tidy {off : Nat} {bytes : List (BitVec 8)} (h : s.Tidy) :
    Out.Tidy (execHostBar2Write off bytes s) := by
  unfold execHostBar2Write
  refine .next (.ite h ?_)
  split
  exacts [h.setHub, .ite h h.outerStore.setHub]

theorem State.Tidy.outerBytes {loc n : Nat} (h : s.Tidy) : (s.outerBytes loc n).2.Tidy := by
  unfold State.outerBytes
  split
  next heq => exact h.readSpan.snd heq
  next heq => exact (h.readSpan.snd heq).draw

theorem State.Tidy.outerRead {loc n : Nat} (h : s.Tidy) : (s.outerRead loc n).Tidy := h.outerBytes.setHub

theorem execHostBar2Read_tidy {off n : Nat} (h : s.Tidy) : Out.Tidy (execHostBar2Read off n s) := by
  unfold execHostBar2Read
  refine .next (.ite h ?_)
  split
  exacts [h.setHub, .ite h h.outerRead.setHub]

theorem State.Tidy.hostFailTok {k : Nat} (h : s.Tidy) : (s.hostFailTok k).Tidy := by
  unfold State.hostFailTok
  split
  · exact h
  · split
    exacts [h.faultTok, h]

theorem execHostLinkCompletion_tidy {acc : Nat} {err : Bool} {bytes : List (BitVec 8)} (h : s.Tidy) :
    Out.Tidy (execHostLinkCompletion acc err bytes s) := by
  unfold execHostLinkCompletion
  split
  exacts [.next (.ite h (.ite h.hostFail h.linkAnswer)), .next (.ite h.hostFailTok h)]

theorem execHostLinkTimeout_tidy {acc : Nat} (h : s.Tidy) : Out.Tidy (execHostLinkTimeout acc s) := by
  unfold execHostLinkTimeout
  split
  · exact .next (.ite h.hostFail h)
  · refine .next ?_
    split
    exacts [.ite h.hostFailTok h, h]

theorem State.Tidy.failTokens {p : Nat} (h : s.Tidy) : (s.failTokens p).Tidy := by
  unfold State.failTokens
  refine h.foldl fun _ _ h1 => ?_
  split
  · exact h1
  · split
    exacts [h1.draw.faultTok, h1]

theorem State.Tidy.failLost {old : State} (h : s.Tidy) : (State.failLost old s).Tidy :=
  h.foldl fun _ _ h1 => .ite h1.failTokens h1

theorem State.Tidy.pauseSends {since : Nat} (h : s.Tidy) : (s.pauseSends since).Tidy := h.upd

theorem execD2dRetrainDone_tidy {enda endb : Nat} (h : s.Tidy) : Out.Tidy (execD2dRetrainDone enda endb s) := by
  unfold execD2dRetrainDone
  split
  exacts [.next h.pauseSends.setHub, .next h]

theorem State.Tidy.fatalLink {a b : Nat} (h : s.Tidy) : (s.fatalLink a b).Tidy := h.upd.raiseMsix

theorem execD2dRetrainTimeout_tidy {enda endb : Nat} (h : s.Tidy) : Out.Tidy (execD2dRetrainTimeout enda endb s) := by
  unfold execD2dRetrainTimeout
  split
  exacts [.next (.ite h.fatalLink h), .next h]

theorem State.Tidy.resend {p : Nat} {from_ : BitVec 12} (h : s.Tidy) : (s.resend p from_).Tidy :=
  h.foldl fun _ _ h1 => h1.emit

theorem State.Tidy.askReplay {p : Nat} {crc : Bool} (h : s.Tidy) : (s.askReplay p crc).Tidy := h.setNtr

theorem State.Tidy.outerAtomic {loc n : Nat} {op : RmwOp} {data : BitVec 256} (h : s.Tidy) :
    (s.outerAtomic loc n op data).Tidy :=
  h.outerRead.outerStore

theorem State.Tidy.takeFlit {p : Nat} {seq : BitVec 12} {b : NoturBody} (h : s.Tidy) : (s.takeFlit p seq b).Tidy := by
  unfold State.takeFlit
  dsimp only
  split
  · exact .ite h.outerRead.flitOut h.flitOut
  · exact .flitOut (.ite h.outerStore h)
  · exact .ite h.outerAtomic.flitOut h.flitOut
  · split
    exacts [.ite h.linkAnswer h, h]
  · exact h
  · exact h

theorem State.Tidy.controlFlit {p : Nat} {b : NoturBody} (h : s.Tidy) : (s.controlFlit p b).Tidy := by
  unfold State.controlFlit
  split
  exacts [h.resend.askReplay, h.setNtr, h]

theorem State.Tidy.recvFlit {p : Nat} {f : NoturFlit} (h : s.Tidy) : (s.recvFlit p f).Tidy :=
  .ite h (.ite h.emit.askReplay (.ite h.controlFlit (.ite (.ite h h.setNtr.emit.takeFlit) (.ite h.emit.askReplay h))))

theorem execNoturTrainingDone_tidy {port : Nat} {bad : Option (Fin 8)} (h : s.Tidy) :
    Out.Tidy (execNoturTrainingDone port bad s) := by
  unfold execNoturTrainingDone
  refine .next (.ite ?_ h)
  dsimp only
  split
  · refine .ite ?_ ?_
    · refine .resend ?_
      split <;> exact h.setNtr
    · split <;> exact h.setNtr
  · split <;> exact h.setNtr

theorem State.Tidy.portDown {p : Nat} (h : s.Tidy) : (s.portDown p).Tidy := h.setNtr.raiseMsix.failPort

theorem State.Tidy.cold {phase : Nat} {good : Bool} (h : s.Tidy) : (s.cold phase good).Tidy :=
  .of_mem (Memory.wf_filter _ _ h.wf)

theorem State.Tidy.bootFields (h : s.Tidy) : s.bootFields.Tidy :=
  (h.setCtx.foldl fun _ _ h1 => h1.setDie).foldl fun _ _ h2 => .ite h2.ntrEnable h2

theorem State.Tidy.attWriteBuffer (h : s.Tidy) : s.attWriteBuffer.Tidy :=
  .ite (.of_mem (Memory.wf_memPutN _ _ _ (Memory.wf_memPutN _ _ _ h.wf))) (.of_mem (Memory.wf_memPutN _ _ _ h.wf))

/-! ### The functions of Machine/Fence.lean -/

theorem State.Tidy.invalidate {loc n : Nat} (h : s.Tidy) : (s.invalidate loc n).Tidy :=
  .ite h (h.foldl fun _ _ h1 => h1.dropCopy)

theorem State.Tidy.fileCwb {loose : Bool} {ls : List (Nat × Word)} (h : s.Tidy) : (s.fileCwb loose ls).Tidy := by
  unfold State.fileCwb
  split
  exacts [h, h.file]

theorem State.Tidy.rangeFault {ls : List (Nat × Word)} {f : Flt} (h : s.Tidy) : (s.rangeFault ls f).Tidy :=
  .hold h.fileCwb.takeFault

theorem State.Tidy.holdCinv {ls : List (Nat × Word)} (h : s.Tidy) : (s.holdCinv ls).Tidy := .hold h.fileCwb.setMe.rewind

theorem State.Tidy.walkRange {drop : Bool} {k left : Nat} {va : Word} {ls : List (Nat × Word)} (h : s.Tidy) :
    Ends Stop.Tidy (fun r => r.1.Tidy) (s.walkRange drop k va left ls) := by
  induction k generalizing s va left ls with
  | zero => exact .ok h
  | succ k ih =>
    unfold State.walkRange
    refine .ite (.ok h) ?_
    dsimp only
    split
    · exact .error h.rangeFault
    next heq => exact .error (.hold (h.access.of_hold heq))
    next heq => exact .error (h.access.of_kept heq).rangeFault
    · exact .error (.hold h.rewind)
    next heq =>
      have h1 := h.access.of_ok heq
      refine .ite (.error h1.rangeFault) (.ite (.error (.hold h1.rewind)) ?_)
      exact .ite (ih h1) (.ite (.error h1.holdCinv) (ih h1.invalidate))

theorem State.Tidy.orderedRange {va : Word} {n : Nat} (h : s.Tidy) : Ends Stop.Tidy (fun _ => True) (s.orderedRange va n) :=
  Ends.checkIf h.access.any (.error fltA_tidy)

theorem State.Tidy.range {drop : Bool} {a b : Spec} (h : s.Tidy) : Ends Stop.Tidy State.Tidy (s.range drop a b) := by
  unfold State.range
  refine h.read2.andThen fun _ => .ite (.error_bind fltA_tidy) (Ends.checkIf h.orderedRange ?_)
  exact .ite (.error_bind .wait) (h.walkRange.bind fun _ h1 => .ite (.pure h1.fin) (.pure h1.fileCwb.setMe.fin))

theorem State.Tidy.prefetchLoc {va : Word} (h : s.Tidy) : Holds (fun r => r.2.Tidy) (s.prefetchLoc va) := by
  unfold State.prefetchLoc
  refine .ite .none ?_
  split
  · exact .none
  next heq =>
    have h1 := h.tlbLookup.of_some heq
    split
    next heq => exact .some (h1.useEntry.of_ok heq)
    · exact .none

theorem State.Tidy.prefetch {va : Word} {loc hint : Nat} (h : s.Tidy) : (s.prefetch va loc hint).Tidy :=
  .ite (h.foldl fun _ _ h1 => h1.file) h.file

theorem execPf_tidy {a : Spec} {v : BitVec 3} (h : s.Tidy) : Out.Tidy (execPf a v s) := by
  unfold execPf
  refine settle_tidy h (h.read64.andThen fun _ => addrCheck_tidy.andThen fun _ => .pure ?_)
  split
  · split
    next heq => exact (h.prefetchLoc.of_some heq).prefetch.fin
    · exact h.fin
  · exact h.prefetch.fin
  · exact h.fin

theorem State.Tidy.waitFor {len tl cp st ld : Nat} (h : s.Tidy) : Ends Stop.Tidy State.Tidy (s.waitFor len tl cp st ld) :=
  .ite (.error_bind .wait) (Ends.checkIf storeReport_tidy (.pure h.fin))

/-! ### The functions of Machine/VecI.lean -/

theorem State.Tidy.vecSat {t : IntTy} {d a b : Spec} {f : ℤ → ℤ → ℤ} (h : s.Tidy) :
    Ends Stop.Tidy State.Tidy (s.vecSat t d a b f) :=
  h.read2.andThen fun _ => h.withFp.put

theorem execCVadd_tidy {t : BitVec 2} {b a d : CReg} (h : s.Tidy) : Out.Tidy (execCVadd t b a d s) := by
  unfold execCVadd
  refine settle_tidy h ?_
  split
  exacts [h.vecF2, h.vecI2, h.vecF2, h.vecF2]

/-! ### The functions of Machine/Xq.lean -/

theorem State.Tidy.setXq {c n : Nat} {q : Xq} (h : s.Tidy) : (s.setXq c n q).Tidy := h.setCore

theorem xqCheck_tidy {b : Word} : Ends Stop.Tidy (fun _ => True) (s.xqCheck b) := by
  unfold State.xqCheck
  refine .ite (.error_bind fltS_tidy) (.ite (.error_bind fltC_tidy) (.ite (.error_bind fltC_tidy) ?_))
  exact .ite (.error_bind fltS_tidy) (.ite (.error_bind fltC_tidy) (.ite (.error fltC_tidy) (.pure trivial)))

theorem execXqSnd_tidy {a b : Spec} (h : s.Tidy) : Out.Tidy (execXqSnd a b s) :=
  settle_tidy h (h.read2.andThen fun _ => xqCheck_tidy.andThen fun _ => h.release.bind fun _ h1 => .pure h1.setMe.bump)

theorem State.Tidy.xqArrive {p : Nat} (h : s.Tidy) : (s.xqArrive p).Tidy := by
  unfold State.xqArrive
  dsimp only
  split
  exacts [.ite h.setThread.takeFaultAt (.ite h h.setXq.setThread), h]

theorem State.Tidy.xqBind {n : Nat} (h : s.Tidy) : Ends Stop.Tidy State.Tidy (s.xqBind n) :=
  .ite (.error fltC_tidy) (.ite (.error fltC_tidy) (.ok h.setXq))

theorem State.Tidy.xqTake {n : Nat} (h : s.Tidy) : Holds (fun r => r.2.Tidy) (s.xqTake n) := by
  unfold State.xqTake
  dsimp only
  split
  exacts [.none, .some h.setXq.setMe]

theorem execXqTry_tidy {d : Spec} {n : BitVec 3} {k : PredNo} (h : s.Tidy) : Out.Tidy (execXqTry d n k s) := by
  unfold execXqTry
  refine settle_tidy h (h.xqBind.bind fun _ h1 => ?_)
  split
  · exact h1.setMe.put
  next heq => exact (h1.xqTake.of_some heq).regionEnd.bind fun _ h3 => h3.setMe.put

theorem State.Tidy.xqPoll {n : Nat} {d : Spec} (h : s.Tidy) : Ends Stop.Tidy State.Tidy (s.xqPoll n d) := by
  unfold State.xqPoll
  split
  · exact .ok h
  next heq => exact (h.xqTake.of_some heq).unblock

theorem execXqRcv_tidy {d : Spec} {n : BitVec 3} (h : s.Tidy) : Out.Tidy (execXqRcv d n s) := by
  unfold execXqRcv
  refine settle_tidy h (h.blocking (fun _ _ => .ok trivial) fun _ _ h2 => h2.xqBind.bind fun _ h3 => ?_)
  refine h3.regionEnd.bind fun _ h4 => ?_
  split
  · exact .pure h4.block
  next heq => exact (h4.xqTake.of_some heq).put

/-! ### The functions of Machine/Dispatch.lean -/

theorem exec_tidy {i : Instr} (h : s.Tidy) : Out.Tidy (exec i s) := by
  cases i with
  | add | sub | mul | mulh | mulhu | div | divu | rem | remu | and | or | xor | andn | shl | shr | sar | min | max
  | minu | maxu | leaS2 | leaS4 | leaS8 | leaS16 | addI32 | subI32 | mulI32 | mulhI32 | mulhuI32 | divI32 | divuI32
  | remI32 | remuI32 | andI32 | orI32 | xorI32 | andnI32 | shlI32 | shrI32 | sarI32 | minI32 | maxI32 | minuI32
  | maxuI32 | cAdd | cSub => exact settle_tidy h h.alu2
  | shli | shri | sari | clz | ctz | popc | sext | zext | shliI32 | shriI32 | sariI32 | addi | cAddi =>
    exact settle_tidy h h.alu1
  | lui | tsGet | xrd | cLi => exact settle_tidy h h.put
  | cmpEq | cmpNe | cmpLt | cmpLe | cmpLtu | cmpLeu | cmpEqI32 | cmpNeI32 | cmpLtI32 | cmpLeI32 | cmpLtuI32 | cmpLeuI32
  | cCmp => exact settle_tidy h h.cmp2
  | fcmpEq | fcmpLt | fcmpLe | fcmpUn | fcmpEqF64 | fcmpLtF64 | fcmpLeF64 | fcmpUnF64 => exact settle_tidy h h.fcmp
  | pand | por | pxor | pnot | pmov | pset => exact .next h.putPred
  | br | brNot | cBr | cJmp => exact .next h.branch
  | lpe => exact .ite (.next h.setMe.branch) (.next h.fin)
  | call => exact execCall_tidy h
  | ldN8 | ldN16 | ldN32 | ld64 | ldI8 | ldI16 | ldI32 | ldV => exact settle_tidy h h.ld
  | st8 | st16 | st32 | st64 | stV => exact settle_tidy h h.st
  | amoSwap | amoAdd | amoAnd | amoOr | amoXor | amoMin | amoMax | amoMinu | amoMaxu | amoFadd | cas =>
    exact settle_tidy h h.amo
  | fence => exact settle_tidy h (.ite (.error_bind fltC_tidy) (h.release.bind fun _ h1 => .pure h1.fenceAt.fin))
  | cwb | cinv => exact settle_tidy h h.range
  | pf => exact execPf_tidy h
  | lds => exact execLds_tidy h
  | sts => exact execSts_tidy h
  | wait | cWait => exact settle_tidy h h.waitFor
  | vaddF | vsubF | vmulF | vdivF | vminF | vmaxF | vceqF | vcltF | vcleF | vcunF => exact settle_tidy h h.vecF2
  | vabsF | vnegF | vrcp | vrsqrt | vsqrt | vexp2 | vlog2 | vsin | vcos | vtanh | vsigm | verf =>
    exact settle_tidy h h.vecF1
  | vrsumF | vrmaxF | vrminF => exact settle_tidy h h.vecFR
  | vaddI | vsubI | vmulI | vminI | vmaxI | vshl | vshr | vceqI | vcltI => exact settle_tidy h h.vecI2
  | vadds | vsubs => exact settle_tidy h h.vecSat
  | vand | vor | vxor | vzlo | vzhi | vuev | vuod => exact settle_tidy h h.perm2
  | vsel | vshuf | vexl => exact settle_tidy h h.perm3
  | vrsumI | vbcst | vext | vrev => exact settle_tidy h h.perm1
  | vins => exact settle_tidy h (h.read2.andThen fun _ => h.put)
  | xqSnd => exact execXqSnd_tidy h
  | xqTry => exact execXqTry_tidy h
  | xqRcv => exact execXqRcv_tidy h
  | vfma | vfms | vfnma | vfnms | cVfma => exact settle_tidy h h.vecF3
  | vdot => exact execVdot_tidy h
  | vdoti => exact settle_tidy h (h.read3.andThen fun _ => h.put)
  | cvt | cvti | cvtf => exact settle_tidy h h.convert
  | qnt => exact execQnt_tidy h
  | dqnt => exact execDqnt_tidy h
  | fclass => exact execFclass_tidy h
  | pack | unpack | cMov => exact settle_tidy h (h.readReg.andThen fun _ => h.put)
  | mx | mxs => exact settle_tidy h (h.issue fun _ => checkTile_tidy)
  | mxDrn | mxClr => exact settle_tidy h (h.issue fun _ => checkBank_tidy)
  | cp | cpCls => exact settle_tidy h (h.issue fun _ => checkCopy_tidy)
  | cpT => exact settle_tidy h (h.issue fun _ => checkTensor_tidy)
  | cpRed => exact settle_tidy h (h.issue fun _ => checkRed_tidy)
  | strmA | strmB => exact settle_tidy h (h.issue fun _ => checkStream_tidy)
  | cpGat | cpSca => exact settle_tidy h (h.issue fun _ => checkIndexed_tidy)
  | colAr | colAg | colRs | colBc | colA2a => exact settle_tidy h (h.issue fun _ => checkColl_tidy)
  | tokWait => exact execTokWait_tidy h
  | tokTest => exact settle_tidy h (h.read64.andThen fun _ => handle_tidy.andThen fun _ => h.setMe.put)
  | tokDet => exact execTokDet_tidy h
  | tokAdop => exact execTokAdop_tidy h
  | tokDep | tokDepGo => exact settle_tidy h h.tokDep
  | tokCan => exact execTokCan_tidy h
  | tokCanR => exact execTokCanR_tidy h
  | tokPri => exact execTokPri_tidy h
  | tokRec => exact execTokRec_tidy h
  | tokPost => exact execTokPost_tidy h
  | rowGat | rowSca | rowPin | rowUnp | rowHint => exact settle_tidy h (h.issue fun _ => checkRow_tidy)
  | spawn => exact execSpawn_tidy h
  | spawnO => exact execSpawnO_tidy h
  | spawnD => exact execSpawnD_tidy h
  | susp | cSusp => exact settle_tidy h h.doSusp
  | done | cDone => exact settle_tidy h h.doDone
  | yield => exact execYield_tidy h
  | abort => exact execAbort_tidy h
  | spt | cSpt => exact settle_tidy h h.safePoint
  | launch => exact execLaunch_tidy h
  | kinfo => exact settle_tidy h (h.read64.andThen fun _ => .ite (.error_bind fltS_tidy) h.put)
  | snd => exact execSnd_tidy h
  | sndC => exact execSndC_tidy h
  | rpl => exact execRpl_tidy h
  | tagBind => exact execTagBind_tidy h
  | rq => exact execRq_tidy h
  | patBind => exact execPatBind_tidy h
  | patDrop => exact execPatDrop_tidy h
  | portCfg => exact execPortCfg_tidy h
  | portGive => exact execPortGive_tidy h
  | portSt => exact execPortSt_tidy h
  | portTake => exact execPortTake_tidy h
  | portTakeW => exact execPortTakeW_tidy h
  | portClr => exact execPortClr_tidy h
  | sigAdd | sigSet | sigCas => exact settle_tidy h h.sigOp
  | sigRd => exact execSigRd_tidy h
  | sigWait => exact execSigWait_tidy h
  | grpNew =>
    rw [exec_grpNew]
    exact execGrpNew_tidy h
  | grpEnd => exact execGrpEnd_tidy h
  | grpRd | ebudRd => exact settle_tidy h (h.read64.andThen fun _ => slotOperand_tidy.andThen fun _ => h.hearAt.put)
  | grpSet => exact execGrpSet_tidy h
  | ebudSet => exact execEbudSet_tidy h
  | mfs => exact settle_tidy h (.ite (.error fltC_tidy) h.put)
  | mts => exact execMts_tidy h
  | trap => exact settle_tidy h (h.read64.andThen fun _ => .error fltS_tidy)
  | tlbWr => exact execTlbWr_tidy h
  | tlbInvPage | tlbInvContext | tlbInvAll => exact settle_tidy h h.tlbInv
  | tlbPrb => exact execTlbPrb_tidy h
  | pgWake => exact execPgWake_tidy h
  | dlHv => exact execDlHv_tidy h
  | errInj => exact execErrInj_tidy h
  | clsQ => exact execClsQ_tidy h
  | ctxSv => exact execCtxSv_tidy h
  | ctxLdCreate => exact execCtxLdCreate_tidy h
  | ctxLdUpdate => exact execCtxLdUpdate_tidy h
  | ctxLdDestroy => exact execCtxLdDestroy_tidy h
  | queSubRegister => exact execQueSubRegister_tidy h
  | queSubUnregister => exact execQueSubUnregister_tidy h
  | queSubResume => exact execQueSubResume_tidy h
  | slotMap => exact execSlotMap_tidy h
  | slotUnm => exact execSlotUnm_tidy h
  | slotRd => exact execSlotRd_tidy h
  | dlogWr => exact execDlogWr_tidy h
  | dlogRd => exact execDlogRd_tidy h
  | dbgBrk => exact settle_tidy h (noSpec_tidy.andThen fun _ => .pure (.ite h.fin.setCore.dbgStop h.fin))
  | dbgMark => exact settle_tidy h (h.read64.andThen fun _ => noSpec_tidy.andThen fun _ => .pure h.trace.fin)
  | profRd => exact execProfRd_tidy h
  | dbgStopStop => exact settle_tidy h (h.dbgOperands.andThen fun _ => .pure h.fin.dbgStop)
  | dbgStopGo => exact settle_tidy h (h.dbgOperands.andThen fun _ => .pure h.fin.dbgGo)
  | dbgStopStep => exact settle_tidy h (h.dbgOperands.andThen fun _ => .pure h.fin.setCore)
  | xld | xld4 => exact settle_tidy h h.xload
  | xmv | cXmv => exact settle_tidy h h.xmove
  | xst | xst4 => exact settle_tidy h h.xstore
  | cLd => exact settle_tidy h (h.read64.andThen fun _ => h.load)
  | cSt => exact settle_tidy h (h.read2.andThen fun _ => h.store)
  | cVadd => exact execCVadd_tidy h
  | cIf => exact .ite (.next h.takeFault) (.next h.setMe)
  | cNop => exact .next h.fin
  | instructionFetch => exact execInstructionFetch_tidy h
  | inboxRecordArrival => exact execInboxRecordArrival_tidy h
  | taskUnitRecordArrival => exact execTaskUnitRecordArrival_tidy h
  | portArrival => exact execPortArrival_tidy h
  | admission => exact execAdmission_tidy h
  | sendStallTimeout => exact execSendStallTimeout_tidy h
  | xqEntryArrival => exact .next h.xqArrive
  | loadValueReturn => exact execLoadValueReturn_tidy h
  | storePerformed => exact execStorePerformed_tidy h
  | homeRequest => exact execHomeRequest_tidy h
  | engineClaim => exact execEngineClaim_tidy h
  | engineRelease => exact execEngineRelease_tidy h
  | scrubRead => exact .next h.scrub
  | clsBlkWrite => exact .next (.ite (.clsWrite h) h)
  | classClearDone | hbmInterfaceRetrainDone => exact .next h.setHub
  | tlbMiss => exact .next h.tlbMiss
  | walkReply => exact .next h.walkReply
  | preemptionRequest => exact .next (.ite h.preempt h)
  | noSafePointTimeout => exact .next (.ite h.noSafePoint h)
  | contextSuspended => exact .next (.ite h.suspendContext h)
  | contextResume => exact .next (.ite h.resumeContext h)
  | contextAreasResident => exact .next (.ite h.areasResident h)
  | contextDiscardComplete => exact .next (.ite h.discarded h)
  | freeze => exact .ite (.next (.ite h.setHub h.setHub.freeze)) (.next h)
  | thaw => exact .ite (.next h.upd.thaw) (.next h)
  | weirSample => exact .next (.ite h.weirSample h)
  | weirDieReduction | weirDeviceReduction => exact .next (.ite h.upd h)
  | weirFrontierApply => exact .next (.ite h.weirApply h)
  | weirCommit => exact .next (.ite ((h.foldl fun _ _ h1 => h1.commitCluster).upd) h)
  | spillFullAbort => exact .next (.ite h.spillFullAbort h)
  | tokenStart => exact .next h.tokenStart
  | streamGroupFetch => exact .next h.streamFetch
  | tileGroupStep => exact .next h.tileStep
  | tileDrain => exact .next h.tileDrain
  | copyLineStep => exact .next h.copyStep
  | collectiveTimeout => exact .next h.collTimeout
  | drainBoundExceeded => exact .next h.drainBound
  | tokenSlotStallTimeout => exact execTokenSlotStallTimeout_tidy h
  | tokenDone => exact .next h.tokenDone
  | tokenFault => exact .next h.tokenFault
  | rowWindow => exact .next h.rowWindow
  | rowCombinerUpdate => exact execRowCombinerUpdate_tidy h
  | rowCounterHalving => exact .next (.ite h h.setClu)
  | rowEntryReread => exact .next h.rowElem
  | launchAdmit => exact .next (.ite h.launchAdmit h)
  | launchCheck => exact .next (.ite h.launchCheck h)
  | launchResident => exact .next (.ite h.launchResident h)
  | launchWeirSlot => exact .next (.ite h.launchWeirSlot h)
  | launchPlace => exact .next (.ite h.launchPlace h)
  | launchEnd => exact .next (.ite h.launchEnd h)
  | groupEnded => exact .next h.groupEnded
  | sluiceGovernorVisit => exact .next (.ite h.govern h)
  | queueWiNotice => exact .next (.ite h.wiNotice h)
  | packetHeaderReady => exact .next (.ite h.headerReady h)
  | packetStart => exact .next (.ite h.packetStart.retireAll h)
  | packetComplete => exact .next (.ite h.packetComplete h)
  | stageRingHandoff => exact .next (.ite h.handoff h)
  | agingTick => exact .next (.ite h.agingTick h)
  | quantumExpiry => exact .next (.ite h.quantumExpiry h)
  | boundMissed => exact .next (.ite h.boundMissed h)
  | trtCtlGo => exact .next (.ite h.trtGo h)
  | turatLoadComplete => exact .next (.ite h.turatLoaded h)
  | signalNotify | signalPollChip | signalPollRemote => exact .next (.ite h.notify h)
  | hostBar2Write => exact execHostBar2Write_tidy h
  | hostBar2Read => exact execHostBar2Read_tidy h
  | dbCmdRegister | dbCmdUnregister | dbCmdResume => exact .next (.ite h.bellApply h)
  | hostLinkCompletion => exact execHostLinkCompletion_tidy h
  | hostLinkTimeout => exact execHostLinkTimeout_tidy h
  | d2dRetrain => exact .next (.ite h.setHub h)
  | d2dRetrainDone => exact execD2dRetrainDone_tidy h
  | d2dRetrainTimeout => exact execD2dRetrainTimeout_tidy h
  | noturFlitReceive => exact .next (.ite h.recvFlit h)
  | noturEnable => exact .next (.ite h.ntrEnable h)
  | noturDisable => exact .next (.ite h.ntrDisable.failPort h)
  | noturTrainingDone => exact execNoturTrainingDone_tidy h
  | noturTrainingTimeout | noturRetrainTimeout => exact .next (.ite h.portDown h)
  | coldReset => exact .next h.cold
  | powerGoodChange => exact .next (.ite h h.cold)
  | bootVerifyComplete => exact .next (.ite h (.ite h.setHub.bootFields h.setHub))
  | attReqReport | attReqPubkey => exact .next (.ite (.attWrite h) h)
  | attReqComplete => exact .next (.ite h (.raiseMsix (.ite h.attWriteBuffer.setHub h.setHub)))
  | eyeMarginAlert => exact .ite (.next h.setHub.raiseMsix) (.next h)
  | hostIrqWrite => exact .next (.ite (.irqWrite h) h)
  | pwrLimWrite => exact .next (.ite (.pwrWrite h) h)
  | throttleChange => exact .next (.ite h.throttle h)
  | smbusBlockRead => exact .next (.ite h (.ite h.setHub.draw h.setHub))
  | dbgCtlStop => exact .ite (.next h.ctlStop) (.next h)
  | dbgCtlGo => exact .ite (.next h.ctlGo) (.next h)
  | dbgCtlStep => exact .ite (.next h.setCore) (.next h)
  | dbgDatWrite => exact .ite (.next (.dbgDatWrite h)) (.next h)
  | registerWrite => exact .next (.ite h (.failPorts (.devWrite h)))
  | contextAreasUnbacked => exact .next (.ite h.areasUnbacked h)
  | hostLinkTraining => exact .next (.ite h (.ite h.setHub h.setHub.flushMsix))

/-! ### The functions of Machine/Poll.lean -/

theorem State.Tidy.donePoll (h : s.Tidy) : s.donePoll.Tidy := .ite h.cancelStreams.retire h.cancelStreams

theorem State.Tidy.poll (h : s.Tidy) : Ends Stop.Tidy State.Tidy s.poll := by
  unfold State.poll
  split
  exacts [h.xqPoll, h.tokPoll, h.basinPoll, h.sigPoll, .ok h.donePoll, .ok h, .ok h]

theorem State.Tidy.writeGcb {old : State} {e : Nat × Group} (h : s.Tidy) : (State.writeGcb old s e).Tidy := by
  unfold State.writeGcb
  refine .ite h ?_
  split
  · exact h.setGroup
  · exact .ite ((h.foldl fun _ _ h1 => h1.writeN).setGroup) (h.foldl fun _ _ h2 => h2.writeN)

theorem State.Tidy.syncGroups {old : State} (h : s.Tidy) : (State.syncGroups old s).Tidy :=
  h.foldl fun _ _ h1 => h1.writeGcb

theorem State.Tidy.freeRows {old : State} (h : s.Tidy) : (State.freeRows old s).Tidy := h.foldl fun _ _ h1 => h1.setClu

theorem State.Tidy.finish {old : State} (h : s.Tidy) : (State.finish old s).Tidy := by
  unfold State.finish
  refine .syncGroups (.freeRows (.foldl ?_ fun _ _ h2 => h2.refill))
  exact h.failLost.releaseIrrev.postLate.flushQueues.retryBells.foldl fun _ _ h1 => h1.sweepFirings

/-! ### The functions of Machine/Run.lean -/

theorem State.Tidy.word (h : s.Tidy) : Out.Tidy s.word := by
  unfold State.word
  split
  next heq => exact settle_tidy h (.error (h.fetchBytes.of_error heq))
  next heq =>
    have h2 := h.fetchBytes.of_ok heq
    split
    · exact .next h2.takeFault
    · exact .ite (.next h2.takeFault) (.ite (.next h2.fin) (exec_tidy h2))

theorem State.Tidy.instruction (h : s.Tidy) : Out.Tidy s.instruction := by
  unfold State.instruction
  split
  next heq =>
    have h1 := h.word.of_next heq
    exact .ite h1.word (.next h1)
  · exact h.word

theorem State.Tidy.look (h : s.Tidy) : Out.Tidy s.look := by
  unfold State.look
  refine .ite (.next h.reachSafePoint) ?_
  split
  exacts [.next h, settle_tidy h h.poll]

theorem State.Tidy.turn (h : s.Tidy) : Out.Tidy s.turn := by
  unfold State.turn
  refine .ite h.look ?_
  split
  exacts [.next h.xqArrive, .next h.takeFaultAt, h.instruction]

theorem State.Tidy.openStep {p : Nat} (h : s.Tidy) : (s.openStep p).Tidy := h.pauseCounts.setCore.setThread

theorem State.Tidy.closeStep {p : Nat} {old : Thread} (h : s.Tidy) : (s.closeStep p old).Tidy :=
  .ite h.setCore.setThread h.setCore

theorem State.Tidy.runAt {p : Nat} (h : s.Tidy) : Out.Tidy (s.runAt p) := by
  unfold State.runAt
  refine .ite h.upd.turn (.ite ?_ (.next h))
  split
  next heq => exact .next (h.openStep.upd.turn.of_next heq).closeStep
  · exact h.openStep.upd.turn

theorem State.Tidy.default (h : s.Tidy) : Out.Tidy s.default := by
  unfold State.default
  split
  · exact .next h.advance
  · split
    exacts [.ite (exec_tidy h) (exec_tidy h), h.runAt]

theorem State.Tidy.sched {i : Sched} (h : s.Tidy) : Out.Tidy (s.sched i) := by
  unfold State.sched
  split
  exacts [h.runAt, .ite (exec_tidy h) (.next h)]

theorem State.Tidy.tick (h : s.Tidy) : s.tick.Tidy := h.upd

/-! ### The functions of Machine/Step.lean -/

theorem step_tidy (h : s.Tidy) : Out.Tidy (step s) := by
  have run : Out.Tidy (match s.tick.agenda with
      | [] => s.tick.default
      | i :: rest => State.sched { s.tick with agenda := rest } i) := by
    split
    · exact h.tick.default
    · exact h.tick.upd.sched
  unfold step
  dsimp only
  split
  next heq => exact .next (run.of_next heq).finish
  · exact run

end
end Sys2Proof.Machine
end

section
namespace Sys2Proof.Machine

/-- Settles O59: each function that a step is made of keeps memory's form, down to the few that write memory. -/
theorem memoryFormIsKept : Obligations.MemoryFormIsKept := by
  unfold Obligations.MemoryFormIsKept
  intro s t form taken
  have kept : Out.Tidy (step s) := step_tidy ⟨form⟩
  exact (kept.of_next taken).wf

end Sys2Proof.Machine
end

section
/-! PROOFS. The machine right after cold reset (O56). -/

namespace Sys2Proof.Machine

/-- Every thread context is the idle one: no table lists a context after cold reset. -/
theorem thread_reset (p : Nat) : State.reset.thread p = Thread.idle p := rfl

theorem core_reset (c : Nat) : State.reset.core c = Core.idle := rfl

/-- No context can run while the boot ROM is at work. -/
theorem canRun_reset (p : Nat) : State.reset.canRun p = false := by
  have phase : (State.reset.hub.phase == 2) = false := rfl
  simp only [State.canRun, phase, Bool.false_and]

theorem dbgCtl_reset (c : Nat) : State.reset.dbgRead c 0 = 0 := by
  simp [State.dbgRead, core_reset, Core.idle, wd]

theorem ntr_reset (p : Nat) : State.reset.ntr p = Notur.idle := rfl

theorem idle_word : Notur.idle.word = 0 := by decide

/-- Settles O56: the tables are empty after cold reset, so every look-up gives the entry of an idle unit. -/
theorem resetState : Obligations.ResetState := by
  unfold Obligations.ResetState
  refine ⟨rfl, rfl, rfl, fun p => ⟨rfl, ?_, canRun_reset p, rfl⟩, fun n => ⟨rfl, rfl⟩, fun d => ⟨rfl, rfl, rfl, rfl, rfl, rfl⟩, rfl, rfl, rfl,
    fun p => ?_, dbgCtl_reset, rfl, rfl, rfl, rfl, rfl, rfl, rfl, rfl, rfl, fun a => rfl⟩
  · rw [thread_reset, Thread.idle]
  · rw [ntr_reset, idle_word]

end Sys2Proof.Machine
end

section
/-! PROOFS. The checks of an access, window by window (O9).

Two facts carry every clause. An access that ends where its window ends, or before, has no byte beyond it (`Inside.beyond`), so that the
checks of its first byte answer; and an aligned access always ends so, because the windows end at multiples of 16 bytes
(`add_le_of_aligned`). -/

namespace Sys2Proof.Machine

/-! ### The windows of R21 -/

section
variable {a : Nat}

theorem windowOf_translated (hi : a < 0x7F0000000000) : windowOf a = some .translated := if_pos hi

theorem windowOf_scratch (lo : 0x7F0000000000 ≤ a) (hi : a < 0x7F0000020000) : windowOf a = some (.scratch (a - 0x7F0000000000)) := by
  grind [windowOf, nearBase]

theorem windowOf_behind_scratch (lo : 0x7F0000020000 ≤ a) (hi : a < 0x7F0100000000) : windowOf a = none := by
  grind [windowOf, nearBase]

theorem windowOf_remote (lo : 0x7F0100000000 ≤ a) (hi : a < 0x7F0140000000) :
    windowOf a = some (.remote ((a - 0x7F0100000000) / 0x20000) (a % 0x20000)) := by
  grind [windowOf, nearBase]

theorem windowOf_shared (lo : 0x7F0200000000 ≤ a) (hi : a < 0x7F0200500000) : windowOf a = some (.shared (a - 0x7F0200000000)) := by
  grind [windowOf, nearBase]

theorem windowOf_chip (lo : 0x7F0300000000 ≤ a) (hi : a < 0x7F0310000000) : windowOf a = some (.chip (a - 0x7F0300000000)) := by
  grind [windowOf, nearBase]

theorem windowOf_dev (lo : 0x7FFF00000000 ≤ a) (hi : a < 2 ^ 47) : windowOf a = some (.dev (a - 0x7FFF00000000)) := by
  grind [windowOf, nearBase]

theorem windowOf_upper_half (lo : 2 ^ 47 ≤ a) : windowOf a = none := by
  grind [windowOf, nearBase]

end

theorem windowOf_form {a : Nat} {w : Win} (h : windowOf a = some w) : a < 2 ^ 47 := by
  by_contra out
  rw [windowOf_upper_half (by omega)] at h
  cases h

/-! ### Accesses inside one window -/

/-- The first byte of an access of `n` bytes at `a` lies in the window `w`, and its last byte in the same region. -/
structure Inside (a n : Nat) (w : Win) : Prop where
  first : windowOf a = some w
  last : ∃ v, windowOf (a + n - 1) = some v ∧ w.same v = true

theorem Inside.beyond {a n : Nat} {w : Win} (h : Inside a n w) : beyond a n = none := by
  obtain ⟨v, last, same⟩ := h.last
  simp [Machine.beyond, h.first, last, same]

theorem beyond_of_windowOf_none {a n : Nat} (h : windowOf a = none) : beyond a n = none := by
  simp [beyond, h]

section
variable {a n : Nat}

theorem inside_translated (pos : 0 < n) (hi : a + n ≤ 0x7F0000000000) : Inside a n .translated :=
  ⟨windowOf_translated (by omega), _, windowOf_translated (by omega), rfl⟩

theorem inside_scratch (pos : 0 < n) (lo : 0x7F0000000000 ≤ a) (hi : a + n ≤ 0x7F0000020000) :
    Inside a n (.scratch (a - 0x7F0000000000)) :=
  ⟨windowOf_scratch lo (by omega), _, windowOf_scratch (by omega) (by omega), rfl⟩

/-- Each core's slot of the remote window is a window of its own. -/
theorem inside_remote {c o : Nat} (pos : 0 < n) (core : c < 0x2000) (fits : o + n ≤ 0x20000)
    (addr : a = 0x7F0100000000 + c * 0x20000 + o) : Inside a n (.remote c o) := by
  have slot (b : Nat) (hb : b < 0x20000) : windowOf (0x7F0100000000 + c * 0x20000 + b) = some (.remote c b) := by
    rw [windowOf_remote (by omega) (by omega)]
    congr 2 <;> omega
  refine ⟨addr ▸ slot o (by omega), .remote c (o + n - 1), ?_, beq_self_eq_true c⟩
  rw [← slot (o + n - 1) (by omega)]
  congr 1
  omega

theorem inside_shared (pos : 0 < n) (lo : 0x7F0200000000 ≤ a) (hi : a + n ≤ 0x7F0200500000) :
    Inside a n (.shared (a - 0x7F0200000000)) :=
  ⟨windowOf_shared lo (by omega), _, windowOf_shared (by omega) (by omega), rfl⟩

theorem inside_chip (pos : 0 < n) (lo : 0x7F0300000000 ≤ a) (hi : a + n ≤ 0x7F0310000000) :
    Inside a n (.chip (a - 0x7F0300000000)) :=
  ⟨windowOf_chip lo (by omega), _, windowOf_chip (by omega) (by omega), rfl⟩

theorem inside_dev (pos : 0 < n) (lo : 0x7FFF00000000 ≤ a) (hi : a + n ≤ 2 ^ 47) : Inside a n (.dev (a - 0x7FFF00000000)) :=
  ⟨windowOf_dev lo (by omega), _, windowOf_dev (by omega) (by omega), rfl⟩

end

/-- An aligned access that begins before a multiple of 16 bytes ends there or before. -/
theorem add_le_of_aligned {a n e : Nat} (size : n ∣ 16) (aligned : a % n = 0) (edge : 16 ∣ e) (below : a < e) : a + n ≤ e := by
  have room : n ≤ e - a := Nat.le_of_dvd (by omega) (Nat.dvd_sub (size.trans edge) (Nat.dvd_of_mod_eq_zero aligned))
  omega

/-- A core whose places are valid has one of the 8,192 slots of the remote window (R17). -/
theorem core_lt_of_validPlace {c : Nat} (valid : validPlace (c * 8) = true) : c < 0x2000 := by
  simp only [validPlace, Bool.and_eq_true, decide_eq_true_eq] at valid
  omega

/-! ### The checks of one byte, and of an access -/

section
variable {priv plain : Bool} {k : AKind} {a : Word} {n al : Nat} {w : Win} {e : Stop}

theorem byteCheck_upper_half {b : Nat} (out : 2 ^ 47 ≤ b) : byteCheck priv k b a = .error (fltA Code.addressForm a) :=
  if_neg (Nat.not_lt.mpr out)

theorem byteCheck_lower_half {b : Nat} (form : b < 2 ^ 47) : byteCheck priv k b a = windowCheck priv k b a := if_pos form

theorem byteCheck_of_windowOf_none {b : Nat} (form : b < 2 ^ 47) (h : windowOf b = none) :
    byteCheck priv k b a = .error (fltA Code.window a) := by
  rw [byteCheck_lower_half form]
  simp [windowCheck, h]

/-- A slot of the remote window is for stores alone (R22). -/
theorem byteCheck_remote {b c o : Nat} (h : windowOf b = some (.remote c o)) (valid : validPlace (c * 8) = true)
    (worker : isDispatch (c * 8) = false) :
    byteCheck priv k b a = if k = .write then .ok (.remote c o) else .error (fltA Code.remoteLoad a) := by
  rw [byteCheck_lower_half (windowOf_form h)]
  simp [windowCheck, h, valid, worker]

theorem byteCheck_dev {b o : Nat} (h : windowOf b = some (.dev o)) :
    byteCheck priv k b a = if priv then .ok (.dev o) else .error (fltA Code.privilege a) := by
  rw [byteCheck_lower_half (windowOf_form h)]
  simp [windowCheck, h]

/-- The windows other than the remote scratchpads and the device registers. -/
def Win.common : Win → Bool
  | .remote _ _ | .dev _ => false
  | _ => true

theorem byteCheck_common {b : Nat} (h : windowOf b = some w) (common : w.common = true) : byteCheck priv k b a = .ok w := by
  rw [byteCheck_lower_half (windowOf_form h)]
  cases w <;> simp_all [windowCheck, Win.common]

theorem devCheck_common (common : w.common = true) : devCheck plain n w a = .ok w := by
  cases w <;> simp_all [devCheck, Win.common]

/-- Where no byte lies beyond the window, a fault of the first byte is the fault of the access. -/
theorem addrCheck_error (fits : beyond a.toNat n = none) (h : byteCheck priv k a.toNat a = .error e) :
    addrCheck priv plain k a n al = .error e := by
  simp only [addrCheck, fits, h]
  rfl

/-- One that straddles the end of its window faults as the first byte beyond it (R22). -/
theorem addrCheck_straddling {b : Nat} (straddles : beyond a.toNat n = some b) (h : byteCheck priv k b a = .error e) :
    addrCheck priv plain k a n al = .error e := by
  simp only [addrCheck, straddles, h]
  rfl

theorem addrCheck_devCheck_error (fits : beyond a.toNat n = none) (h : byteCheck priv k a.toNat a = .ok w)
    (dev : devCheck plain n w a = .error e) : addrCheck priv plain k a n al = .error e := by
  simp only [addrCheck, fits, h, bind, Except.bind, dev]

/-- Alignment is checked last. -/
theorem addrCheck_ok (fits : beyond a.toNat n = none) (h : byteCheck priv k a.toNat a = .ok w) (dev : devCheck plain n w a = .ok w) :
    addrCheck priv plain k a n al = if a.toNat % al = 0 then .ok w else .error (fltA Code.alignment a) := by
  by_cases aligned : a.toNat % al = 0 <;>
    simp [addrCheck, fits, h, bind, pure, Except.bind, Except.pure, dev, aligned]

theorem addrCheck_common (h : Inside a.toNat n w) (common : w.common = true) :
    addrCheck priv plain k a n al = if a.toNat % al = 0 then .ok w else .error (fltA Code.alignment a) :=
  addrCheck_ok h.beyond (byteCheck_common h.first common) (devCheck_common common)

end

/-! ### The bank budgets of the own scratchpad (R357, log entry 15) -/

section
variable {s : State} {p b l : Nat}

theorem bankOpen_of_no_launch (h : (s.thread p).launchNo = none) : s.bankOpen p b = true := by
  simp [State.bankOpen, h]

theorem bankOpen_iff (h : (s.thread p).launchNo = some l) :
    s.bankOpen p b = true ↔
      ∀ g ∈ s.ancestors l 4096 (s.thread p).grp, ∀ x, s.group? l g = some x → x.spm / 2 ^ b % 2 = 1 := by
  simp only [State.bankOpen, h, List.all_eq_true]
  refine forall₂_congr fun g _ => ?_
  cases s.group? l g <;> simp

end

/-! ### The access -/

section
variable {s : State} {p : Nat} {k : AKind} {plain : Bool} {a : Word} {n : Nat} {w : Win} {e : Stop}

theorem access_error (h : addrCheck (s.privileged p) plain k a n n = .error e) : s.access p k plain a n = .error e := by
  simp [State.access, State.accessAl, h]

theorem access_translated (h : addrCheck (s.privileged p) plain k a n n = .ok .translated) :
    s.access p k plain a n = s.translate p k a := by
  simp [State.access, State.accessAl, h]

/-- In a near window other than the own scratchpad nothing is left to check. -/
theorem access_near (h : addrCheck (s.privileged p) plain k a n n = .ok w) (near : w ≠ .translated) (other : w.own p = none) :
    s.access p k plain a n = .ok (nearLoc p w, s) := by
  cases w <;> simp_all [State.access, State.accessAl]

theorem access_own {o : Nat} (h : addrCheck (s.privileged p) plain k a n n = .ok w) (own : w.own p = some o) :
    s.access p k plain a n = if s.bankOpen p (o / 16384) then .ok (nearLoc p w, s) else .error (fltA Code.bankBudget a) := by
  cases w <;> simp_all [State.access, State.accessAl, Win.own]

theorem Win.own_eq_some_iff {o : Nat} : w.own p = some o ↔ w = .scratch o ∨ w = .remote (p / 8) o := by
  cases w <;> grind [Win.own, coreOf]

theorem nearLoc_scratch {o : Nat} : nearLoc p (.scratch o) = 18 * 2 ^ 64 + p / 8 * 0x20000 + o := (Nat.add_assoc ..).symm

theorem nearLoc_remote {c o : Nat} : nearLoc p (.remote c o) = 18 * 2 ^ 64 + c * 0x20000 + o := (Nat.add_assoc ..).symm

theorem nearLoc_shared {o : Nat} : nearLoc p (.shared o) = 19 * 2 ^ 64 + cluOfPlace p * 0x800000 + o := (Nat.add_assoc ..).symm

theorem nearLoc_chip {o : Nat} : nearLoc p (.chip o) = 20 * 2 ^ 64 + o := rfl

theorem nearLoc_dev {o : Nat} : nearLoc p (.dev o) = 21 * 2 ^ 64 + o := rfl

theorem nearLoc_of_own {o : Nat} (own : w.own p = some o) : nearLoc p w = 18 * 2 ^ 64 + p / 8 * 0x20000 + o := by
  obtain rfl | rfl := Win.own_eq_some_iff.mp own
  exacts [nearLoc_scratch, nearLoc_remote]

/-- An access to the own scratchpad, through either of its windows, once the checks of its address have passed: code of no launch reaches
every bank, a task those that its group and every ancestor hold. -/
theorem access_own_by_banks {o : Nat} (h : addrCheck (s.privileged p) plain k a n n = .ok w) (own : w.own p = some o) :
    ((s.thread p).launchNo = none → s.access p k plain a n = .ok (18 * 2 ^ 64 + p / 8 * 0x20000 + o, s)) ∧
    (∀ l, (s.thread p).launchNo = some l →
      ((∀ g ∈ s.ancestors l 4096 (s.thread p).grp, ∀ x, s.group? l g = some x → x.spm / 2 ^ (o / 16384) % 2 = 1) →
        s.access p k plain a n = .ok (18 * 2 ^ 64 + p / 8 * 0x20000 + o, s)) ∧
      (∀ g ∈ s.ancestors l 4096 (s.thread p).grp, ∀ x, s.group? l g = some x → ¬ x.spm / 2 ^ (o / 16384) % 2 = 1 →
        s.access p k plain a n = .error (.flt { code := 0x0045, addr := a }))) := by
  rw [access_own h own, nearLoc_of_own own]
  refine ⟨fun none => if_pos (bankOpen_of_no_launch none), fun l launch => ⟨fun all => if_pos ((bankOpen_iff launch).mpr all), ?_⟩⟩
  exact fun g mem x found shut => if_neg fun isOpen => shut ((bankOpen_iff launch).mp isOpen g mem x found)

end

/-! ### The answers, window by window -/

section
variable {s : State} {p : Nat} {k : AKind} {plain : Bool} {a : Word} {n : Nat}

/-- R20: the upper half holds nothing. -/
theorem access_upper_half (out : 2 ^ 47 ≤ a.toNat) : s.access p k plain a n = .error (fltA Code.addressForm a) :=
  access_error (addrCheck_error (beyond_of_windowOf_none (windowOf_upper_half out)) (byteCheck_upper_half out))

theorem access_behind_scratch (lo : 0x7F0000020000 ≤ a.toNat) (hi : a.toNat < 0x7F0100000000) :
    s.access p k plain a n = .error (fltA Code.window a) :=
  have gap := windowOf_behind_scratch lo hi
  access_error (addrCheck_error (beyond_of_windowOf_none gap) (byteCheck_of_windowOf_none (by omega) gap))

theorem access_remote_load {c o : Nat} (h : Inside a.toNat n (.remote c o)) (load : k ≠ .write)
    (valid : validPlace (c * 8) = true) (worker : isDispatch (c * 8) = false) :
    s.access p k plain a n = .error (fltA Code.remoteLoad a) :=
  access_error (addrCheck_error h.beyond ((byteCheck_remote h.first valid worker).trans (if_neg load)))

theorem addrCheck_remote_store {priv : Bool} {al c o : Nat} (h : Inside a.toNat n (.remote c o)) (valid : validPlace (c * 8) = true)
    (worker : isDispatch (c * 8) = false) (aligned : a.toNat % al = 0) : addrCheck priv plain .write a n al = .ok (.remote c o) :=
  (addrCheck_ok h.beyond (byteCheck_remote h.first valid worker) rfl).trans (if_pos aligned)

theorem access_remote_store {c o : Nat} (h : Inside a.toNat n (.remote c o)) (other : c ≠ p / 8) (valid : validPlace (c * 8) = true)
    (worker : isDispatch (c * 8) = false) (aligned : a.toNat % n = 0) :
    s.access p .write plain a n = .ok (18 * 2 ^ 64 + c * 0x20000 + o, s) := by
  rw [access_near (addrCheck_remote_store h valid worker aligned) nofun (if_neg other), nearLoc_remote]

theorem access_dev_unprivileged {o : Nat} (h : Inside a.toNat n (.dev o)) (user : s.privileged p = false) :
    s.access p k plain a n = .error (fltA Code.privilege a) :=
  access_error (addrCheck_error h.beyond (by simp [byteCheck_dev h.first, user]))

theorem access_dev_wrong_form {o : Nat} (h : Inside a.toNat n (.dev o)) (priv : s.privileged p = true)
    (form : plain = false ∨ (n ≠ 4 ∧ n ≠ 8)) : s.access p k plain a n = .error (fltA Code.window a) :=
  access_error (addrCheck_devCheck_error h.beyond ((byteCheck_dev h.first).trans (if_pos priv)) (if_neg (by grind)))

theorem access_dev {o : Nat} (h : Inside a.toNat n (.dev o)) (priv : s.privileged p = true) (form : n = 4 ∨ n = 8)
    (aligned : a.toNat % n = 0) : s.access p k true a n = .ok (21 * 2 ^ 64 + o, s) := by
  have plainWord : devCheck true n (.dev o) a = .ok (.dev o) := if_pos (by simpa using form)
  have checked := addrCheck_ok (k := k) (al := n) h.beyond ((byteCheck_dev h.first).trans (if_pos priv)) plainWord
  rw [access_near (checked.trans (if_pos aligned)) nofun rfl, nearLoc_dev]

/-- The last window ends where the upper half begins, so that a straddling access faults on its address form (R22). -/
theorem access_straddling_lower_half (lo : 0x7FFF00000000 ≤ a.toNat) (hi : a.toNat < 2 ^ 47) (out : 2 ^ 47 < a.toNat + n)
    (size : n ≤ 16) : s.access p k plain a n = .error (fltA Code.addressForm a) := by
  have edge : (a.toNat + n - 1) / 0x20000 * 0x20000 = 2 ^ 47 := by omega
  have straddles : beyond a.toNat n = some (2 ^ 47) := by
    simp only [beyond, windowOf_dev lo hi, windowOf_upper_half (show 2 ^ 47 ≤ a.toNat + n - 1 by omega), edge]
  exact access_error (addrCheck_straddling straddles (byteCheck_upper_half le_rfl))

theorem access_misaligned {w : Win} (h : Inside a.toNat n w) (common : w.common = true) (odd : a.toNat % n ≠ 0) :
    s.access p k plain a n = .error (fltA Code.alignment a) :=
  access_error ((addrCheck_common h common).trans (if_neg odd))

theorem addrCheck_aligned {priv : Bool} {w : Win} (h : Inside a.toNat n w) (common : w.common = true) (aligned : a.toNat % n = 0) :
    addrCheck priv plain k a n n = .ok w :=
  (addrCheck_common h common).trans (if_pos aligned)

/-- The checks of the address of an aligned access to the own scratchpad pass, through its own window or the core's slot of the remote
one. -/
theorem addrCheck_own {priv : Bool} (size : n ∣ 16) (pos : 0 < n) (aligned : a.toNat % n = 0)
    (mine : (0x7F0000000000 ≤ a.toNat ∧ a.toNat < 0x7F0000020000) ∨ (0x7F0100000000 ≤ a.toNat ∧ a.toNat < 0x7F0140000000 ∧
      (a.toNat - 0x7F0100000000) / 0x20000 = p / 8 ∧ k = .write ∧ validPlace (p / 8 * 8) = true ∧ isDispatch (p / 8 * 8) = false)) :
    ∃ w, addrCheck priv plain k a n n = .ok w ∧
      w.own p = some (if a.toNat < 0x7F0000020000 then a.toNat - 0x7F0000000000 else a.toNat % 0x20000) := by
  obtain ⟨lo, hi⟩ | ⟨lo, hi, slot, rfl, valid, worker⟩ := mine
  · have inside := inside_scratch pos lo (add_le_of_aligned size aligned (by decide) hi)
    exact ⟨_, addrCheck_aligned inside rfl aligned, by rw [if_pos hi]; rfl⟩
  · have fits := add_le_of_aligned size aligned (e := 0x7F0100000000 + (p / 8 + 1) * 0x20000) (by omega) (by omega)
    have inside : Inside a.toNat n (.remote (p / 8) (a.toNat % 0x20000)) := inside_remote pos (by omega) (by omega) (by omega)
    exact ⟨_, addrCheck_remote_store inside valid worker aligned, by rw [if_neg (by omega)]; exact if_pos rfl⟩

end

/-- Settles O9: each clause is the answer of one window, and an aligned access lies inside its window. -/
theorem accessChecksInOrder : Obligations.AccessChecksInOrder := by
  unfold Obligations.AccessChecksInOrder
  intro s p k plain a n sizes
  have size : n ∣ 16 := by rcases sizes with rfl | rfl | rfl | rfl | rfl <;> decide
  have pos : 0 < n := by omega
  refine ⟨access_upper_half, ?behind, ?remoteLoad, ?devUser, ?devForm, ?devEnd, ?misaligned, ?translated, ?own, ?remoteStore, ?shared,
    ?chip, ?dev⟩
  case behind => exact fun ⟨lo, hi⟩ => access_behind_scratch lo hi
  case remoteLoad =>
    rintro ⟨lo, hi, load, valid, worker, fits⟩
    exact access_remote_load (inside_remote pos (core_lt_of_validPlace valid) fits (by omega)) load valid worker
  case devUser => exact fun ⟨lo, hi, user⟩ => access_dev_unprivileged (inside_dev pos lo hi) user
  case devForm => exact fun ⟨lo, hi, priv, form⟩ => access_dev_wrong_form (inside_dev pos lo hi) priv form
  case devEnd => exact fun ⟨lo, hi, out⟩ => access_straddling_lower_half lo hi out (by omega)
  case misaligned => exact fun ⟨_, odd, fits⟩ => access_misaligned (inside_translated pos fits) rfl odd
  case translated =>
    rintro ⟨hi, aligned⟩
    have fits := add_le_of_aligned size aligned (by decide) hi
    exact access_translated (addrCheck_aligned (inside_translated pos fits) rfl aligned)
  case own =>
    rintro off mine bank ⟨here, aligned⟩
    obtain ⟨w, checked, own⟩ := addrCheck_own size pos aligned here
    exact access_own_by_banks checked own
  case remoteStore =>
    rintro c o ⟨rfl, other, bound, addr, valid, worker, aligned⟩
    have fits := add_le_of_aligned size aligned (e := 0x7F0100000000 + (c + 1) * 0x20000) (by omega) (by omega)
    exact access_remote_store (inside_remote pos (core_lt_of_validPlace valid) (by omega) addr) other valid worker aligned
  case shared =>
    rintro ⟨lo, hi, aligned⟩
    have inside := inside_shared pos lo (add_le_of_aligned size aligned (by decide) hi)
    rw [access_near (addrCheck_aligned inside rfl aligned) nofun rfl, nearLoc_shared]
  case chip =>
    rintro ⟨lo, hi, aligned⟩
    have inside := inside_chip pos lo (add_le_of_aligned size aligned (by decide) hi)
    rw [access_near (addrCheck_aligned inside rfl aligned) nofun rfl, nearLoc_chip]
  case dev =>
    rintro ⟨lo, hi, priv, rfl, form, aligned⟩
    exact access_dev (inside_dev pos lo (add_le_of_aligned size aligned (by decide) hi)) priv form aligned

end Sys2Proof.Machine
end

section
/-! PROOFS. Decoding and encoding (O58, O57): the words of the spec's examples decode, one by one; and the encoder gives `c.add` of q0
by q0 to q0 the halfword 0x0000, which R28 makes no instruction, so that decoding does not undo encoding there. -/

namespace Sys2Proof

/-! ### The halfword 0x0000 (R28) -/

/-- Every field of R32's form of `c.add q0, q0, q0` is 0. -/
theorem encode_cAdd_q0_q0_q0 : (Instr.cAdd false 0 0 0).encode = some (16, 0) := rfl

theorem illFormed_cAdd (w : Bool) (b a d : CReg) : (Instr.cAdd w b a d).illFormed = none := rfl

/-- R28: the halfword 0x0000 is no instruction. -/
theorem decodeBytes_zero_halfword : decodeBytes [0, 0] = .error .zeroHalfword := rfl

/-- Refutes O58: `c.add q0, q0, q0` is well formed and has a word, but its word is 0x0000, which R28 takes out of the instructions. -/
theorem not_decodingUndoesEncoding : ¬ Obligations.DecodingUndoesEncoding := by
  unfold Obligations.DecodingUndoesEncoding
  intro undoes
  obtain ⟨-, -, -, bytes⟩ := undoes (.cAdd false 0 0 0) 16 0 (illFormed_cAdd ..) encode_cAdd_q0_q0_q0
  have illegal : decodeBytes (leBytes (16 / 8) 0) = .error .zeroHalfword := decodeBytes_zero_halfword
  exact nomatch illegal.symm.trans bytes

/-! ### Words of the spec -/

/-- Settles O57: each word is decoded by evaluation. -/
theorem specWordsDecode : Obligations.SpecWordsDecode := by
  unfold Obligations.SpecWordsDecode
  exact ⟨rfl, rfl, rfl, rfl, rfl, rfl, rfl, rfl, rfl, rfl, rfl, rfl, rfl⟩

end Sys2Proof
end

section
/-! PROOFS. What a step does with the word at the program counter (O53, O54), and `c.if` (O8).

`State.word` is said once, for each of the four ends that a word can come to; `State.instruction` and `step` are then short ways down to
it. -/

namespace Sys2Proof.Machine

/-! ### One word (R33, R44, R47, R48) -/

section
variable {s v : State} {bs : List Byte} {i : Instr} {n : Nat}

theorem word_of_illegal {e : Ill} (fetch : s.fetchBytes s.cur = .ok (bs, v)) (bad : decodeBytes bs = .error e) :
    s.word = .next (v.takeFault { code := Code.illegal, syn := wd (leNat bs) }) := by
  simp only [State.word, fetch, bad]

theorem word_of_unprivileged (fetch : s.fetchBytes s.cur = .ok (bs, v)) (dec : decodeBytes bs = .ok (i, n))
    (needs : privilegedInstr i = true) (user : v.privileged v.cur = false) :
    s.word = .next (v.takeFault { code := Code.privilege }) := by
  simp only [State.word, fetch, dec, needs, user, Bool.not_false, Bool.and_self, if_true]

/-- R33: a word that may run is passed over under a false `c.if`, unless it is a `c.if` itself, and otherwise runs. -/
theorem word_of_allowed [Decidable (v.me.pfx.isSome = true ∧ v.me.pfxRun = false ∧ ∀ p b, i ≠ .cIf p b)]
    (fetch : s.fetchBytes s.cur = .ok (bs, v)) (dec : decodeBytes bs = .ok (i, n))
    (may : privilegedInstr i = true → v.privileged v.cur = true) :
    s.word = if v.me.pfx.isSome = true ∧ v.me.pfxRun = false ∧ ∀ p b, i ≠ .cIf p b then .next (v.fin n) else exec (v.refine i) v := by
  have allowed : (privilegedInstr i && !v.privileged v.cur) = false := by
    cases needs : privilegedInstr i
    · rfl
    · rw [may needs]; rfl
  simp only [State.word, fetch, dec, allowed, Bool.false_eq_true, if_false]
  split
  next p b => simp
  next other =>
    have plain : ∀ p b, i ≠ .cIf p b := other
    simp [-Bool.forall_bool, plain]

/-- A word that stands alone runs by its row's own meaning. -/
theorem word_of_alone (fetch : s.fetchBytes s.cur = .ok (bs, v)) (dec : decodeBytes bs = .ok (i, n))
    (may : privilegedInstr i = true → v.privileged v.cur = true) (alone : v.me.pfx = none) : s.word = exec (v.refine i) v := by
  classical
  exact (word_of_allowed fetch dec may).trans (if_neg (by simp [alone]))

end

/-- Settles O54: both faults come before the look at an open `c.if`. -/
theorem wordsThatMayNotRunFault : Obligations.WordsThatMayNotRunFault := by
  unfold Obligations.WordsThatMayNotRunFault
  exact fun w v bs fetch => ⟨fun e => word_of_illegal fetch, fun i n => word_of_unprivileged fetch⟩

/-- Settles O8: `c.if` branches on whether its context has a pair open already. -/
theorem predicatePrefix : Obligations.PredicatePrefix := by
  unfold Obligations.PredicatePrefix
  intro s n p
  rw [exec_cIf, execCIf]
  constructor
  · intro alone
    simp [alone]
  · intro behind
    rw [if_pos (Option.isSome_iff_ne_none.mpr behind)]
    exact ⟨_, rfl, rfl⟩

/-! ### The row of a word (R233, R373, R390, R424) -/

section
variable {s : State}

theorem peek_ok {r : Spec} (h : s.canRead r) (lo n : Nat) : s.peek r lo n = wbits (s.val64 r) lo n := by
  simp only [State.peek, read64_ok s r h]

theorem refine_of_own_word {i : Instr} (inv : ∀ a b, i ≠ .tlbInvPage a b) (ld : ∀ a b, i ≠ .ctxLdCreate a b)
    (sub : ∀ d a b, i ≠ .queSubRegister d a b) (stop : ∀ a b, i ≠ .dbgStopStop a b) : s.refine i = i := by
  unfold State.refine
  split
  · exact absurd rfl (inv _ _)
  · exact absurd rfl (ld _ _)
  · exact absurd rfl (sub _ _ _)
  · exact absurd rfl (stop _ _)
  · rfl

end

/-! ### One instruction, and the step that runs it (R34, R80) -/

section
variable {s r : State}

/-- A word that opens no pair, or ends one, or whose context has changed its state, is the whole instruction. -/
theorem instruction_of_word (ran : s.word = .next r) (whole : r.me.pfx = none ∨ s.me.pfx ≠ none ∨ r.me.state ≠ s.me.state) :
    s.instruction = .next r := by
  have stops : (r.me.pfx.isSome && s.me.pfx.isNone && r.me.state == s.me.state) = false := by
    rcases whole with h | h | h <;> simp [h]
  simp only [State.instruction, ran, stops, Bool.false_eq_true, if_false]

/-- R34: a `c.if` and its word are one instruction. -/
theorem instruction_of_pair (ran : s.word = .next r) (opened : r.me.pfx ≠ none) (first : s.me.pfx = none)
    (same : r.me.state = s.me.state) : s.instruction = r.word := by
  have goes : (r.me.pfx.isSome && s.me.pfx.isNone && r.me.state == s.me.state) = true := by
    simp [Option.isSome_iff_ne_none, opened, first, same]
  simp only [State.instruction, ran, goes, if_true]

theorem turn_of_running (active : s.me.state ≠ .blocked) (entry : ∀ c q e w k o, s.me.wait ≠ .xq c q e w k o)
    (fault : ∀ f y, s.me.wait ≠ .fault f y) : s.turn = s.instruction := by
  unfold State.turn
  rw [if_neg active]
  split
  next held => exact absurd held (entry _ _ _ _ _ _)
  next held => exact absurd held (fault _ _)
  next => rfl

theorem runAt_of_canRun {p : Nat} (can : s.canRun p = true) : s.runAt p = ({ s with cur := p } : State).turn := if_pos can

theorem default_of_running (idle : s.oldestAcc s.cur = none) (walk : ∀ va, s.me.wait ≠ .walk va) : s.default = s.runAt s.cur := by
  simp only [State.default, idle]

theorem step_of_item {i : Sched} {rest : List Sched} (item : s.agenda = i :: rest)
    (ran : State.sched { s.tick with agenda := rest } i = .next r) : step s = .next (State.finish s.tick r) := by
  simp only [step, tick_agenda, item, ran]

theorem step_of_default (empty : s.agenda = []) (ran : s.tick.default = .next r) : step s = .next (State.finish s.tick r) := by
  simp only [step, tick_agenda, empty, ran]

/-- The machine as the context at `p` finds it when its turn comes in a step from `s`, `rest` of the schedule being left. -/
def State.turnOf (s : State) (p : Nat) (rest : List Sched) : State := { s.tick with agenda := rest, cur := p }

/-- The next step from `s` is the turn of the context at `p`: the schedule names it first, or is empty and the context runs on. -/
def State.TurnNext (s : State) (p : Nat) (rest : List Sched) : Prop :=
  s.agenda = .run p :: rest ∨
    (s.agenda = [] ∧ rest = [] ∧ p = s.cur ∧ s.tick.oldestAcc p = none ∧ ∀ va, (s.thread p).wait ≠ .walk va)

theorem step_of_turn {p : Nat} {rest : List Sched} (next : s.TurnNext p rest) (can : (s.turnOf p rest).canRun p = true)
    (ran : (s.turnOf p rest).turn = .next r) : step s = .next (State.finish s.tick r) := by
  rcases next with item | ⟨empty, rfl, rfl, idle, walk⟩
  · have may : ({ s.tick with agenda := rest } : State).canRun p = true := can
    exact step_of_item item ((runAt_of_canRun may).trans ran)
  · have same : s.turnOf s.cur [] = s.tick := by rw [State.turnOf, ← empty]; rfl
    rw [same] at can ran
    exact step_of_default empty ((default_of_running idle walk).trans ((runAt_of_canRun can).trans ran))

/-- A step in which the context at `p` has its turn, and is not held, is the instruction at its program counter. -/
theorem step_of_instruction {p : Nat} {rest : List Sched} (next : s.TurnNext p rest) (can : (s.turnOf p rest).canRun p = true)
    (active : (s.thread p).state ≠ .blocked) (entry : ∀ c q e w k o, (s.thread p).wait ≠ .xq c q e w k o)
    (fault : ∀ f y, (s.thread p).wait ≠ .fault f y) (ran : (s.turnOf p rest).instruction = .next r) :
    step s = .next (State.finish s.tick r) :=
  step_of_turn next can ((turn_of_running (s := s.turnOf p rest) active entry fault).trans ran)

end

/-- Settles O53: a step is the turn of a context, the turn is an instruction, and the instruction is a word or a pair of words. -/
theorem stepRunsTheDecodedInstruction : Obligations.StepRunsTheDecodedInstruction := by
  unfold Obligations.StepRunsTheDecodedInstruction
  refine ⟨?step, fun w v bs i n fetch dec may => word_of_allowed fetch dec may, ?rows,
    fun s i inv ld sub stop => refine_of_own_word inv ld sub stop⟩
  case step =>
    intro s v p bs i n rest r next u can active entry fault fetch dec may alone ran
    have word : (s.turnOf p rest).word = .next r := (word_of_alone fetch dec may alone).trans ran
    exact ⟨fun whole => step_of_instruction next can active entry fault (instruction_of_word word whole),
      fun opened first same t second =>
        step_of_instruction next can active entry fault ((instruction_of_pair word opened first same).trans second)⟩
  case rows =>
    intro s a b d readA readB
    simp only [← peek_ok readA, ← peek_ok readB]
    exact ⟨rfl, rfl, rfl, rfl⟩

end Sys2Proof.Machine
end

section
/-! PROOFS. Extension registers (O13) and system registers (O32). -/

namespace Sys2Proof.Machine

section
variable {s s' : State} {a : Spec} {k loc : Nat}

/-! ### Extension registers (R40, R41) -/

theorem newAcc_eq_access0 (s : State) (kind : AccKind) (va : Word) (n loc : Nat) : s.newAcc kind va n loc = s.access0 kind va n loc := rfl

theorem file_me (s : State) (acc : Access) : (s.file acc).me = s.me := rfl

/-- An access that has no register to write has been filed, and the running context has become `m`. -/
theorem file_setMe_issued (s : State) (acc : Access) (len : Nat) (th m : Thread)
    (me : m = { th with pc := s.me.pc + wd len, pfx := none, retired := m.retired }) : s.Issued ((s.file acc).setMe m) len th acc where
  acc := Tab.get?_put_self ..
  accs id other := by rw [setMe_acc]; exact congrArg _ (Tab.get?_put_ne _ _ _ _ other)
  me := by rw [me_setMe]; exact me
  rest := rfl
  others p other := thread_setMe_ne (s.file acc) p m other

/-- R41: a load of extension registers leaves its context waiting for the access. -/
theorem xload_ok (n off : Nat) (read : s.canRead a)
    (access : s.access s.cur .read (k == 1) (s.val64 a + wd off) (8 * k) = .ok (loc, s')) :
    s.xload n k a off = .ok ((s'.file (s'.access0 (.xld n) (s.val64 a + wd off) (8 * k) loc)).setMe
      { s'.me.fin 4 with wait := .access s'.nextId }) := by
  simp [State.xload, read64_ok s a read, access, newAcc_eq_access0, State.fin, file_me]

theorem orderedPlace_ok (s : State) (loc : Nat) (va : Word) (plain : s.me.speculative = false) : s.orderedPlace loc va = .ok () := by
  simp [State.orderedPlace, plain]

theorem issueStore_ok {len : Nat} {acc : Access} (room : s.me.cst < 63) :
    s.issueStore len acc = .ok ((s.file acc).setMe (({ s.me with cst := s.me.cst + 1 } : Thread).fin len)) := by
  simp [State.issueStore, Nat.not_le.mpr room, State.fin]

/-- The `k` extension registers from register `n` on, as the bytes of one number (R3). -/
def Thread.xWords (t : Thread) (n k : Nat) : Nat :=
  (List.range k).foldl (fun (v : Nat) i => v + ((t.x[n + i]?).getD 0).toNat * 2 ^ (64 * i)) 0

theorem xstore_ok (n off : Nat) (read : s.canRead a) (room : s'.me.cst < 63) (plain : s'.me.speculative = false)
    (access : s.access s.cur .write (k == 1) (s.val64 a + wd off) (8 * k) = .ok (loc, s')) :
    s.xstore n k a off = .ok ((s'.file { s'.access0 .store (s.val64 a + wd off) (8 * k) loc with
      data := BitVec.ofNat 256 (s'.me.xWords n k) }).setMe (({ s'.me with cst := s'.me.cst + 1 } : Thread).fin 4)) := by
  simp [State.xstore, read64_ok s a read, access, orderedPlace_ok s' _ _ plain, issueStore_ok room, newAcc_eq_access0,
    Thread.xWords]

theorem xWords_one (t : Thread) (n : XNo) : t.xWords n.val 1 = [t.x[n]].foldr (fun w acc => w.toNat + 2 ^ 64 * acc) 0 := by
  simp [Thread.xWords]

theorem foldl_range_four {α : Type} (f : α → Nat → α) (z : α) : (List.range 4).foldl f z = f (f (f (f z 0) 1) 2) 3 := rfl

/-- Four words of 64 bits, added up or nested. -/
theorem foldl_range_four_words (f : Nat → Nat) : (List.range 4).foldl (fun (v : Nat) i => v + f i * 2 ^ (64 * i)) 0 =
    f 0 + 2 ^ 64 * (f 1 + 2 ^ 64 * (f 2 + 2 ^ 64 * (f 3 + 2 ^ 64 * 0))) := by
  rw [foldl_range_four]
  ring

theorem xWords_four (t : Thread) :
    t.xWords 0 4 = [t.x[0], t.x[1], t.x[2], t.x[3]].foldr (fun w acc => w.toNat + 2 ^ 64 * acc) 0 := by
  rw [Thread.xWords, foldl_range_four_words fun i => ((t.x[0 + i]?).getD 0).toNat]
  simp only [List.foldr_cons, List.foldr_nil]
  rfl

theorem xmove_ok (len : Nat) (n : XNo) (read : s.canRead a) :
    s.xmove len n a = .ok (s.setMe (({ s.me with x := s.me.x.set n (s.val64 a) } : Thread).fin len)) := by
  simp [State.xmove, read64_ok s a read, State.fin]

theorem xload_issued (n off : Nat) (read : s.canRead a)
    (access : s.access s.cur .read (k == 1) (s.val64 a + wd off) (8 * k) = .ok (loc, s')) :
    ∃ u, settle s (s.xload n k a off) = .next u ∧ s'.Issued u 4 { s'.me with wait := .access s'.nextId }
      (s'.access0 (.xld n) (s.val64 a + wd off) (8 * k) loc) :=
  ⟨_, by rw [xload_ok n off read access, settle_ok], file_setMe_issued _ _ _ _ _ rfl⟩

theorem xstore_issued (n off : Nat) {words : List Word}
    (stored : s'.me.xWords n words.length = words.foldr (fun w acc => w.toNat + 2 ^ 64 * acc) 0)
    (read : s.canRead a) (room : s'.me.cst < 63) (plain : s'.me.speculative = false)
    (access : s.access s.cur .write (words.length == 1) (s.val64 a + wd off) (8 * words.length) = .ok (loc, s')) :
    ∃ u, settle s (s.xstore n words.length a off) = .next u ∧ s'.Issued u 4 { s'.me with cst := s'.me.cst + 1 }
      { s'.access0 .store (s.val64 a + wd off) (8 * words.length) loc with
        data := BitVec.ofNat 256 (words.foldr (fun w acc => w.toNat + 2 ^ 64 * acc) 0) } :=
  ⟨_, by rw [xstore_ok n off read room plain access, stored, settle_ok], file_setMe_issued _ _ _ _ _ rfl⟩

end

/-- Settles O13: a load or store of extension registers files its access, a move writes one register. -/
theorem extensionRegisterForms : Obligations.ExtensionRegisterForms := by
  unfold Obligations.ExtensionRegisterForms
  intro s s' n a m d o loc readA readM write
  refine ⟨List.forall_mem_cons.mpr ⟨?load, List.forall_mem_singleton.mpr ?load4⟩,
    List.forall_mem_cons.mpr ⟨?store, List.forall_mem_singleton.mpr ?store4⟩,
    List.forall_mem_cons.mpr ⟨?move, List.forall_mem_singleton.mpr ?cmove⟩, ?read⟩
  case load =>
    rw [exec_xld, execXld]
    exact fun access => xload_issued n.val (8 * o.toNat) readA access
  case load4 =>
    rw [exec_xld4, execXld4]
    exact fun access => xload_issued 0 (32 * o.toNat) readA access
  case store =>
    rw [exec_xst, execXst]
    exact fun room plain access => xstore_issued n.val (8 * o.toNat) (words := [s'.me.x[n]]) (xWords_one _ n) readA room plain access
  case store4 =>
    rw [exec_xst4, execXst4]
    exact fun room plain access =>
      xstore_issued 0 (32 * o.toNat) (words := [s'.me.x[0], s'.me.x[1], s'.me.x[2], s'.me.x[3]]) (xWords_four _) readA room plain access
  case move => exact (exec_xmv ..).trans <| congrArg (settle s) (xmove_ok 4 n readA)
  case cmove => exact (exec_cXmv ..).trans <| congrArg (settle s) (xmove_ok 2 n readM)
  case read => exact ⟨_, (exec_xrd ..).trans <| congrArg (settle s) (put_ok s 4 d _ write), done_wrote ..⟩

/-! ### System registers (R42, R43, R88, R89) -/

section
variable {s t : State} {p n : Nat} {v : Word}

theorem setIfInBounds_fin {α : Type} {m : Nat} (w : Vector α m) (k : Fin m) (x : α) : w.setIfInBounds k x = w.set k x := by
  simp [Vector.setIfInBounds, Vector.set, Array.setIfInBounds]

/-! #### What `mts` checks and writes, register by register -/

theorem sysWrite_fm (ok : fmValid v.toNat = true) : s.sysWrite p 1 v = .ok (s.setThread p { s.thread p with fm := v }) := if_pos ok

theorem sysWrite_fm_invalid (bad : fmValid v.toNat = false) :
    s.sysWrite p 1 v = .error (.flt { code := Code.formatValue, syn := v, detail := 1 }) := if_neg (by simp [bad])

theorem sysWrite_f (k : Fin 4) (ok : v = 0 ∨ fmtValid v.toNat = true) :
    s.sysWrite p (2 + k) v = .ok (s.setThread p { s.thread p with f := (s.thread p).f.set k v }) := by
  rw [State.sysWrite, if_neg (by omega), if_pos (by omega), if_pos ok, Nat.add_sub_cancel_left, setIfInBounds_fin]

theorem sysWrite_f_invalid (lo : 2 ≤ n) (hi : n ≤ 5) (nonzero : v ≠ 0) (bad : fmtValid v.toNat = false) :
    s.sysWrite p n v = .error (.flt { code := Code.formatValue, syn := v, detail := n }) := by
  rw [State.sysWrite, if_neg (by omega), if_pos ⟨lo, hi⟩, if_neg (by simp_all)]

theorem sysWrite_tagbase (form : v.toNat < 2 ^ 47) (aligned : v.toNat % 64 = 0) :
    s.sysWrite p 12 v = .ok (s.setThread p { s.thread p with tagbase := v }) :=
  (if_neg (by simpa [formOk] using form)).trans (if_neg (not_not_intro aligned))

theorem sysWrite_tagbase_beyond (out : 2 ^ 47 ≤ v.toNat) : s.sysWrite p 12 v = .error (fltA Code.addressForm v) :=
  if_pos (by simpa [formOk] using out)

theorem sysWrite_tagbase_misaligned (form : v.toNat < 2 ^ 47) (odd : v.toNat % 64 ≠ 0) :
    s.sysWrite p 12 v = .error (fltA Code.alignment v) :=
  (if_neg (by simpa [formOk] using form)).trans (if_pos odd)

theorem sysWrite_lc : s.sysWrite p 16 v = .ok (s.setThread p { s.thread p with lc := v }) := rfl

theorem sysWrite_srs : s.sysWrite p 17 v = .ok (s.setThread p { s.thread p with srs := v }) := rfl

theorem sysWrite_bank (lo : 20 ≤ n) (hi : n < 28) : s.sysWrite p n v =
    if bfValid v.toNat then .ok (s.setCore (coreOf p) { s.core (coreOf p) with bf := (s.core (coreOf p)).bf.setIfInBounds (n - 20) v })
    else .error (.flt { code := Code.formatValue, syn := v, detail := n }) := by
  rw [State.sysWrite, if_neg (by omega), if_neg (by omega), if_neg (by omega), if_neg (by omega), if_neg (by omega), if_pos ⟨lo, hi⟩]

theorem sysWrite_bf (k : Fin 8) (ok : bfValid v.toNat = true) : s.sysWrite p (20 + k) v =
    .ok (s.setCore (coreOf p) { s.core (coreOf p) with bf := (s.core (coreOf p)).bf.set k v }) := by
  rw [sysWrite_bank (by omega) (by omega), if_pos ok, Nat.add_sub_cancel_left, setIfInBounds_fin]

theorem sysWrite_bf_invalid (lo : 20 ≤ n) (hi : n < 28) (bad : bfValid v.toNat = false) :
    s.sysWrite p n v = .error (.flt { code := Code.formatValue, syn := v, detail := n }) := by
  rw [sysWrite_bank lo hi, if_neg (by simp [bad])]

/-! #### `mts` and `mfs` -/

theorem sysWritable_iff : sysWritable n = true ↔ (1 ≤ n ∧ n ≤ 5) ∨ n = 12 ∨ n = 16 ∨ n = 17 ∨ (20 ≤ n ∧ n < 28) := by
  simp [sysWritable, or_assoc]

end

section
variable {s t : State} {a d : Spec} {n : BitVec 6} {r : Nat}

theorem mts_writes (read : s.canRead a) (number : n.toNat = r) (mine : sysWritable r = true)
    (written : s.sysWrite s.cur r (s.val64 a) = .ok t) : exec (.mts a n) s = .next (t.fin 4) := by
  subst number
  simp [exec_mts, execMts, mine, read64_ok s a read, written]

theorem mts_faults {f : Flt} (read : s.canRead a) (number : n.toNat = r) (mine : sysWritable r = true)
    (refused : s.sysWrite s.cur r (s.val64 a) = .error (.flt f)) : exec (.mts a n) s = .next (s.takeFault f) := by
  subst number
  simp [exec_mts, execMts, mine, read64_ok s a read, refused]

theorem mts_readOnly (fixed : sysWritable n.toNat = false) : exec (.mts a n) s = .next (s.takeFault { code := Code.illegal }) := by
  simp [exec_mts, execMts, fixed, fltC]

theorem mfs_wrote (write : s.canWrite d) (known : n.toNat < 28) :
    ∃ t, exec (.mfs d n) s = .next t ∧ s.Wrote t 4 d (scalar (s.sysRead s.cur n.toNat)) :=
  ⟨_, by rw [exec_mfs, execMfs, if_neg (by omega), put_ok s 4 d _ write, settle_ok], done_wrote ..⟩

theorem mfs_reserved (unknown : 28 ≤ n.toNat) : exec (.mfs d n) s = .next (s.takeFault { code := Code.illegal }) := by
  rw [exec_mfs, execMfs, if_pos unknown]
  rfl

end

/-- Settles O32: the register file answers a read, and a write register by register. -/
theorem systemRegisters : Obligations.SystemRegisters := by
  unfold Obligations.SystemRegisters
  refine ⟨fun s d n write => ⟨mfs_wrote write, mfs_reserved, rfl, rfl, rfl, rfl, rfl, rfl, rfl, rfl, rfl, rfl⟩, ?_⟩
  rintro s a n _ read rfl
  refine ⟨?lc, ?srs, ?tagbase, ?fm, ?fmInvalid, ?f, ?bf, ?fInvalid, ?bfInvalid, ?beyond, ?misaligned, ?readOnly⟩
  case lc => exact fun number => mts_writes read (congrArg BitVec.toNat number) rfl sysWrite_lc
  case srs => exact fun number => mts_writes read (congrArg BitVec.toNat number) rfl sysWrite_srs
  case tagbase => exact fun number form aligned => mts_writes read (congrArg BitVec.toNat number) rfl (sysWrite_tagbase form aligned)
  case fm => exact fun number ok => mts_writes read (congrArg BitVec.toNat number) rfl (sysWrite_fm ok)
  case fmInvalid => exact fun number bad => mts_faults read (congrArg BitVec.toNat number) rfl (sysWrite_fm_invalid bad)
  case f => exact fun k number ok => mts_writes read number (sysWritable_iff.mpr (by omega)) (sysWrite_f k ok)
  case bf => exact fun k number ok => mts_writes read number (sysWritable_iff.mpr (by omega)) (sysWrite_bf k ok)
  case fInvalid =>
    exact fun lo hi nonzero bad => mts_faults read rfl (sysWritable_iff.mpr (by omega)) (sysWrite_f_invalid lo hi nonzero bad)
  case bfInvalid => exact fun lo hi bad => mts_faults read rfl (sysWritable_iff.mpr (by omega)) (sysWrite_bf_invalid lo hi bad)
  case beyond => exact fun number out => mts_faults read (congrArg BitVec.toNat number) rfl (sysWrite_tagbase_beyond out)
  case misaligned =>
    exact fun number form odd => mts_faults read (congrArg BitVec.toNat number) rfl (sysWrite_tagbase_misaligned form odd)
  case readOnly =>
    intro outside
    refine mts_readOnly (Bool.eq_false_iff.mpr fun mine => ?_)
    have rows := sysWritable_iff.mp mine
    simp only [List.mem_cons, List.not_mem_nil, or_false] at outside
    omega

end Sys2Proof.Machine
end

section
/-! PROOFS. Conversions, quantisation, classes and packing, and the fault of an empty format register (O24). -/

namespace Sys2Proof.Machine

section
variable {s : State} {d a b : Spec}

/-! ### Sources, format registers and results -/

theorem latch_one_ok (read : s.canRead a) : s.latch [a] = .ok () := latch_ok s _ (List.forall_mem_singleton.mpr read)

theorem latch_two_ok (readA : s.canRead a) (readB : s.canRead b) : s.latch [a, b] = .ok () :=
  latch_ok s _ (List.forall_mem_cons.mpr ⟨readA, List.forall_mem_singleton.mpr readB⟩)

/-- R125: an instruction with one source and types passes the checks of both, and goes on with the source's value. -/
theorem typedSource_ok {bad : List (Fin 4)} (k : Reg → Res) (read : s.canRead a) (formats : s.me.useCheck bad = .ok ()) :
    (do s.latch [a]; s.me.useCheck bad; let x ← s.readReg a; k x) = k (s.regVal a) := by
  simp only [latch_one_ok read, formats, readReg_ok s a read, bind_ok]

/-- The instruction that started in `σ` completes with its result written. -/
theorem put_settles (σ : State) {len : Nat} {v : Reg} (write : s.canWrite d) :
    ∃ u, settle σ (s.put len d v) = .next u ∧ s.Wrote u len d v :=
  ⟨_, by rw [put_ok s len d v write, settle_ok], done_wrote ..⟩

/-- Raising flags leaves every register as ready as it was. -/
theorem canWrite_withFp {p : Fp} (write : s.canWrite d) : (s.withFp p).canWrite d := write

/-! ### Lane by lane (R120) -/

/-- A conversion writes the converted lanes and raises their flags. -/
theorem convert_settles {bad : List (Fin 4)} (ws wt : Nat) (f : Nat → Fp → Nat × Fp) (read : s.canRead a) (write : s.canWrite d)
    (formats : s.me.useCheck bad = .ok ()) :
    let r := lanesFp (fun i => f (lane ws (s.regVal a) i)) (128 / max ws wt) 0 s.fp
    ∃ u, settle s (s.convert d a bad ws wt f) = .next u ∧ (s.withFp r.2).Wrote u 4 d (ofLanes wt r.1) := by
  intro r
  have converted : s.convert d a bad ws wt f = (s.withFp r.2).put 4 d (ofLanes wt r.1) := typedSource_ok _ read formats
  rw [converted]
  exact put_settles s (canWrite_withFp write)

/-! ### Packing (R124) -/

theorem natCast_ofInt (w : Nat) (z : Int) : (ofInt w z : Int) = z % 2 ^ w := Int.toNat_of_nonneg (Int.emod_nonneg z (by positivity))

/-- An element of `n` bits in a byte: zero-extended, or sign-extended. -/
def extendedByte (signed : Bool) (n y : Nat) : Nat := if signed then ofInt 8 (toInt n y) else y

theorem extendedByte_mod (signed : Bool) (n y : Nat) :
    ((extendedByte signed n y % 2 ^ 8 : Nat) : Int) = (if signed then toInt n y else (y : Int)) % 2 ^ 8 := by
  cases signed with
  | false => exact Int.natCast_mod y (2 ^ 8)
  | true => exact (Int.natCast_mod _ _).trans <| (congrArg (· % _) (natCast_ofInt 8 _)).trans (Int.emod_emod_of_dvd _ dvd_rfl)

theorem pack_settles (w : Bool) (read : s.canRead a) (write : s.canWrite d) : ∃ u, exec (.pack d a w) s = .next u ∧
    s.Wrote u 4 d (mkLanes (if w then 6 else 4) 16 (lane 8 (s.regVal a))) := by
  rw [exec_pack, execPack, readReg_ok s a read]
  exact put_settles s write

theorem unpack_settles (w : BitVec 2) (read : s.canRead a) (write : s.canWrite d) :
    let n := if w.getLsbD 0 then 6 else 4
    ∃ u, exec (.unpack d a w) s = .next u ∧
      s.Wrote u 4 d (mkLanes 8 16 fun i => extendedByte (w.getLsbD 1) n (lane n (s.regVal a) i)) := by
  rw [exec_unpack, execUnpack, readReg_ok s a read]
  exact put_settles s write

/-! ### A format register that holds no format (R99, R127) -/

/-- What a use of the empty format register `n` logs: its value 0, and its number. -/
def emptyFormat (n : Fin 4) : Flt := { code := 0x0041, syn := 0, detail := 2 + n.val }

section
variable {n : Fin 4} (empty : s.me.f[n] = 0)
include empty

theorem useCheck_empty : s.me.useCheck (s.me.ftyBad 0 vecWidths (.fr n)) = .error (.flt (emptyFormat n)) := by
  have bad : s.me.frBad 0 vecWidths n = true := by simp [Thread.frBad, empty]
  simp [Thread.ftyBad, bad, Thread.useCheck, empty, emptyFormat, Code.formatUse]

theorem vecF1_empty (f : FFmt → Nat → Fp → Nat × Fp) (read : s.canRead a) :
    settle s (s.vecF1 (.fr n) d a f) = .next (s.takeFault (emptyFormat n)) := by
  simp only [State.vecF1, latch_one_ok read, useCheck_empty empty, bind_ok, bind_error, settle_flt]

theorem vecF2_empty (len : Nat) (f : FFmt → Nat → Nat → Fp → Nat × Fp) (readA : s.canRead a) (readB : s.canRead b) :
    settle s (s.vecF2 len (.fr n) d a b f) = .next (s.takeFault (emptyFormat n)) := by
  simp only [State.vecF2, latch_two_ok readA readB, useCheck_empty empty, bind_ok, bind_error, settle_flt]

theorem vecFR_empty (f : FFmt → List Nat → Fp → Nat × Fp) (read : s.canRead a) :
    settle s (s.vecFR (.fr n) d a f) = .next (s.takeFault (emptyFormat n)) := by
  simp only [State.vecFR, latch_one_ok read, useCheck_empty empty, bind_ok, bind_error, settle_flt]

theorem fclass_empty (read : s.canRead a) : exec (.fclass (.fr n) d a) s = .next (s.takeFault (emptyFormat n)) := by
  simp only [exec_fclass, execFclass, latch_one_ok read, useCheck_empty empty, bind_ok, bind_error, settle_flt]

end
end

/-- Settles O24: with its source ready and its formats good, each form is one write of its lanes; an empty format register stops the form
before it reads. -/
theorem conversionsLaneByLane : Obligations.ConversionsLaneByLane := by
  unfold Obligations.ConversionsLaneByLane
  constructor
  · intro s d a read write x
    refine ⟨?cvt, ?cvti, ?cvtf, ?qnt, ?dqnt, ?fclass, ?pack, ?unpack⟩
    case cvt => exact fun t u formats => convert_settles _ _ _ read write formats
    case cvti => exact fun t u formats => convert_settles _ _ _ read write formats
    case cvtf => exact fun t u formats => convert_settles _ _ _ read write formats
    case qnt =>
      intro t u formats U q
      rw [exec_qnt, execQnt, typedSource_ok _ read formats]
      exact put_settles s (canWrite_withFp write)
    case dqnt =>
      intro t u formats T U c r
      rw [exec_dqnt, execDqnt, typedSource_ok _ read formats]
      exact put_settles s (canWrite_withFp write)
    case fclass =>
      intro t formats F
      rw [exec_fclass, execFclass, typedSource_ok _ read formats]
      exact put_settles s write
    case pack =>
      intro w
      obtain ⟨u, runs, wrote⟩ := pack_settles w read write
      exact ⟨u, _, runs, wrote, fun i inside => lane_mkLanes _ _ _ i inside (by cases w <;> decide)⟩
    case unpack =>
      intro w
      obtain ⟨u, runs, wrote⟩ := unpack_settles w read write
      refine ⟨u, _, runs, wrote, fun i inside => ?_⟩
      rw [lane_mkLanes _ _ _ i inside (by decide)]
      exact extendedByte_mod ..
  · intro s n d a b empty readA readB
    have ofTwo {i : Instr} {f : FFmt → Nat → Nat → Fp → Nat × Fp} (arm : exec i s = settle s (s.vecF2 4 (.fr n) d a b f)) :
        exec i s = .next (s.takeFault (emptyFormat n)) := arm.trans (vecF2_empty empty 4 f readA readB)
    simp only [List.forall_mem_cons]
    exact ⟨ofTwo (exec_vaddF ..), ofTwo (exec_vsubF ..), ofTwo (exec_vmulF ..), ofTwo (exec_vdivF ..), ofTwo (exec_vminF ..),
      ofTwo (exec_vmaxF ..), (exec_vabsF ..).trans (vecF1_empty empty _ readA), (exec_vrsumF ..).trans (vecFR_empty empty _ readA),
      (exec_vsqrt ..).trans (vecF1_empty empty _ readA), fclass_empty empty readA, List.forall_mem_nil _⟩

end Sys2Proof.Machine
end

section
/-! PROOFS. The vector forms, each said once: its sources are ready, its formats are good, and it writes its lanes (R127). -/

namespace Sys2Proof.Machine

section
variable {s : State} {d a b : Spec} {i : Instr}

theorem latch_three_ok {c : Spec} (readA : s.canRead a) (readB : s.canRead b) (readC : s.canRead c) : s.latch [a, b, c] = .ok () :=
  latch_ok s _ (List.forall_mem_cons.mpr ⟨readA, List.forall_mem_cons.mpr ⟨readB, List.forall_mem_singleton.mpr readC⟩⟩)

/-! ### Float forms (R127, R130)

Each takes the arm of its instruction as a hypothesis: that `i` is the form with the lane function `f`. A use
`(vecF2_settles … :)` reads `f` off the arm, not off the goal, where the lanes are written out. -/

section
variable {t : FTy} (formats : s.me.useCheck (s.me.ftyBad 0 vecWidths t) = .ok ()) (write : s.canWrite d)
include formats write

theorem vecF1_settles {f : FFmt → Nat → Fp → Nat × Fp} (arm : exec i s = settle s (s.vecF1 t d a f)) (read : s.canRead a) :
    let F := s.me.ffmt t
    let r := lanesFp (fun j => f F (lane F.w (s.regVal a) j)) (128 / F.w) 0 s.fp
    ∃ u, exec i s = .next u ∧ (s.withFp r.2).Wrote u 4 d (ofLanes F.w r.1) := by
  intro F r
  have lanes : s.vecF1 t d a f = (s.withFp r.2).put 4 d (ofLanes F.w r.1) := typedSource_ok _ read formats
  rw [arm, lanes]
  exact put_settles s (canWrite_withFp write)

theorem vecFR_settles {f : FFmt → List Nat → Fp → Nat × Fp} (arm : exec i s = settle s (s.vecFR t d a f)) (read : s.canRead a) :
    let F := s.me.ffmt t
    let r := f F ((List.range (128 / F.w)).map (lane F.w (s.regVal a))) s.fp
    ∃ u, exec i s = .next u ∧ (s.withFp r.2).Wrote u 4 d (ofLanes F.w [r.1]) := by
  intro F r
  have reduced : s.vecFR t d a f = (s.withFp r.2).put 4 d (ofLanes F.w [r.1]) := typedSource_ok _ read formats
  rw [arm, reduced]
  exact put_settles s (canWrite_withFp write)

theorem vecF2_settles {len : Nat} {f : FFmt → Nat → Nat → Fp → Nat × Fp} (arm : exec i s = settle s (s.vecF2 len t d a b f))
    (readA : s.canRead a) (readB : s.canRead b) :
    let F := s.me.ffmt t
    let r := lanesFp (fun j => f F (lane F.w (s.regVal a) j) (lane F.w (s.regVal b) j)) (128 / F.w) 0 s.fp
    ∃ u, exec i s = .next u ∧ (s.withFp r.2).Wrote u len d (ofLanes F.w r.1) := by
  intro F r
  have lanes : s.vecF2 len t d a b f = (s.withFp r.2).put len d (ofLanes F.w r.1) := by
    simp only [State.vecF2, latch_two_ok readA readB, formats, read2_ok s a b readA readB, bind_ok]
    rfl
  rw [arm, lanes]
  exact put_settles s (canWrite_withFp write)

theorem vecF3_settles {len : Nat} {f : FFmt → Nat → Nat → Nat → Fp → Nat × Fp} (arm : exec i s = settle s (s.vecF3 len t d a b f))
    (readA : s.canRead a) (readB : s.canRead b) (readD : s.canRead d) :
    let F := s.me.ffmt t
    let r := lanesFp (fun j => f F (lane F.w (s.regVal a) j) (lane F.w (s.regVal b) j) (lane F.w (s.regVal d) j)) (128 / F.w) 0 s.fp
    ∃ u, exec i s = .next u ∧ (s.withFp r.2).Wrote u len d (ofLanes F.w r.1) := by
  intro F r
  have lanes : s.vecF3 len t d a b f = (s.withFp r.2).put len d (ofLanes F.w r.1) := by
    simp only [State.vecF3, latch_three_ok readA readB readD, formats, read3_ok s a b d readA readB readD, bind_ok]
    rfl
  rw [arm, lanes]
  exact put_settles s (canWrite_withFp write)

end

/-! ### Lanes of integers and permutes (R137, R141) -/

theorem lane_lt (w : Nat) (r : Reg) (j : Nat) : lane w r j < 2 ^ w := Nat.mod_lt _ (Nat.two_pow_pos w)

/-- An integer form writes lanes that `g` gives, where `g` is what its lane function leaves in the width of a lane. -/
theorem vecI2_settles {t : IntTy} {len : Nat} {f : Nat → Bool → Nat → Nat → Nat} {g : Nat → Nat → Nat}
    (arm : exec i s = settle s (s.vecI2 len t d a b f)) (readA : s.canRead a) (readB : s.canRead b) (write : s.canWrite d)
    (lanes : ∀ x y, x < 2 ^ intW t → y < 2 ^ intW t → f (intW t) (intSigned t) x y % 2 ^ intW t = g x y) :
    ∃ u v, exec i s = .next u ∧ s.Wrote u len d v ∧
      ∀ j, j < 128 / intW t → lane (intW t) v j = g (lane (intW t) (s.regVal a) j) (lane (intW t) (s.regVal b) j) := by
  obtain ⟨u, runs, wrote⟩ := put_settles s (len := len) write (v := mkLanes (intW t) (laneCount (intW t)) fun j =>
    f (intW t) (intSigned t) (lane (intW t) (s.regVal a) j) (lane (intW t) (s.regVal b) j))
  refine ⟨u, _, ?runs, wrote, fun j inside => ?lane⟩
  case runs => simpa only [arm, State.vecI2, read2_ok s a b readA readB, bind_ok] using runs
  case lane => rw [lane_mkLanes _ (laneCount _) _ j inside (Nat.mul_div_le ..), lanes _ _ (lane_lt ..) (lane_lt ..)]

theorem perm1_settles {f : Reg → Reg} (arm : exec i s = settle s (s.perm1 d a f)) (read : s.canRead a) (write : s.canWrite d) :
    ∃ u, exec i s = .next u ∧ s.Wrote u 4 d (f (s.regVal a)) := by
  simp only [arm, State.perm1, readReg_ok s a read, bind_ok]
  exact put_settles s write

theorem perm2_settles {f : Reg → Reg → Reg} (arm : exec i s = settle s (s.perm2 d a b f)) (readA : s.canRead a) (readB : s.canRead b)
    (write : s.canWrite d) : ∃ u, exec i s = .next u ∧ s.Wrote u 4 d (f (s.regVal a) (s.regVal b)) := by
  simp only [arm, State.perm2, read2_ok s a b readA readB, bind_ok]
  exact put_settles s write

theorem perm3_settles {f : Reg → Reg → Reg → Reg} (arm : exec i s = settle s (s.perm3 d a b f)) (readA : s.canRead a)
    (readB : s.canRead b) (readD : s.canRead d) (write : s.canWrite d) :
    ∃ u, exec i s = .next u ∧ s.Wrote u 4 d (f (s.regVal a) (s.regVal b) (s.regVal d)) := by
  simp only [arm, State.perm3, read3_ok s a b d readA readB readD, bind_ok]
  exact put_settles s write

end

end Sys2Proof.Machine
end

section
/-! PROOFS. Float arithmetic lane by lane (O19). -/

namespace Sys2Proof.Machine

/-- Settles O19: each form is one of two shapes, lanes of two sources or of three, with its own lane function. -/
theorem floatArithmetic : Obligations.FloatArithmetic := by
  unfold Obligations.FloatArithmetic
  constructor
  · intro s t d a b formats readA readB write F
    have two {i : Instr} {f : FFmt → Nat → Nat → Fp → Nat × Fp} (arm : exec i s = settle s (s.vecF2 4 t d a b f)) :=
      vecF2_settles formats write arm readA readB
    refine ⟨?sources, fun readD => ?fused⟩
    case sources =>
      simp only [List.forall_mem_cons]
      exact ⟨(two (exec_vaddF ..) :), (two (exec_vsubF ..) :), (two (exec_vmulF ..) :), (two (exec_vdivF ..) :), List.forall_mem_nil _⟩
    case fused =>
      have three {i : Instr} {f : FFmt → Nat → Nat → Nat → Fp → Nat × Fp} (arm : exec i s = settle s (s.vecF3 4 t d a b f)) :=
        vecF3_settles formats write arm readA readB readD
      simp only [List.forall_mem_cons]
      exact ⟨(three (exec_vfma ..) :), (three (exec_vfms ..) :), (three (exec_vfnma ..) :), (three (exec_vfnms ..) :), List.forall_mem_nil _⟩
  · intro s a b d readA readB readD write
    refine ⟨?add, ?addI, ?fma⟩
    case add =>
      have sum {k : BitVec 2} (t : FTy) (arm : exec (.cVadd k b a d) s =
          settle s (s.vecF2 2 t (cReg d) (cReg a) (cReg b) (arithLane fun rm x y => sumVals rm [x, y])))
          (formats : s.me.useCheck (s.me.ftyBad 0 vecWidths t) = .ok ()) := vecF2_settles formats write arm readA readB
      simp only [List.forall_mem_cons]
      exact ⟨sum .f32 (exec_cVadd 0 ..) rfl, sum .b16 (exec_cVadd 2 ..) rfl, sum .h16 (exec_cVadd 3 ..) rfl, List.forall_mem_nil _⟩
    case addI => exact vecI2_settles (t := .i32) (exec_cVadd 1 ..) readA readB write fun x y _ _ => Nat.mod_mod ..
    case fma =>
      have fused {k : BitVec 2} (t : FTy) (arm : exec (.cVfma k b a d) s =
          settle s (s.vecF3 2 t (cReg d) (cReg a) (cReg b) (fmaLane false false)))
          (formats : s.me.useCheck (s.me.ftyBad 0 vecWidths t) = .ok ()) := vecF3_settles formats write arm readA readB readD
      simp only [List.forall_mem_cons]
      exact ⟨fused .f32 (exec_cVfma 0 ..) rfl, fused .b16 (exec_cVfma 1 ..) rfl, fused .h16 (exec_cVfma 2 ..) rfl, List.forall_mem_nil _⟩

end Sys2Proof.Machine
end

section
/-! PROOFS. Float minimum, maximum, signs, relations, reductions and dot products (O20). -/

namespace Sys2Proof.Machine

/-! ### The lanes of minimum, maximum, signs and relations (R131, R132) -/

/-- A signalling NaN on either side raises nv. -/
theorem sigFlag_or (u v : Val) : u.sigFlag ||| v.sigFlag = if u.isSig || v.isSig then fNv else 0 := by
  unfold Val.sigFlag
  cases u.isSig <;> cases v.isSig <;> rfl

theorem pickLane_eq (hi : Bool) : pickLane hi = fun F x y p => ((minMaxLane hi F x y).1, p.raise (minMaxLane hi F x y).2) := by
  funext F x y p
  simp only [pickLane, minMaxLane, sigFlag_or, below, Bool.and_eq_true (Val.isNan _),
    Bool.and_comm (decodeF F y).isZero (decodeF F x).isZero]
  split_ifs <;> rfl

/-- R131: the absolute value clears the sign. -/
theorem signLane_abs : signLane (fun _ => 0) = fun F x p =>
    if (decodeF F x).isNan then (F.nan, p.raise (if (decodeF F x).isSig then fNv else 0)) else (x % 2 ^ (F.e + F.m), p) := by
  funext F x p
  simp only [signLane, Val.sigFlag, Nat.zero_mul, Nat.add_zero]

/-- R131: the negation flips the sign. -/
theorem signLane_neg : signLane (fun k => 1 - k) = fun F x p =>
    if (decodeF F x).isNan then (F.nan, p.raise (if (decodeF F x).isSig then fNv else 0))
    else (if x / 2 ^ (F.e + F.m) % 2 = 1 then x % 2 ^ (F.e + F.m) else x % 2 ^ (F.e + F.m) + 2 ^ (F.e + F.m), p) := by
  funext F x p
  have flipped : x % 2 ^ (F.e + F.m) + (1 - x / 2 ^ (F.e + F.m) % 2) * 2 ^ (F.e + F.m) =
      if x / 2 ^ (F.e + F.m) % 2 = 1 then x % 2 ^ (F.e + F.m) else x % 2 ^ (F.e + F.m) + 2 ^ (F.e + F.m) := by
    rcases Nat.mod_two_eq_zero_or_one (x / 2 ^ (F.e + F.m)) with sign | sign <;> simp [sign]
  simp only [signLane, Val.sigFlag, flipped]

theorem isNan_iff {v : Val} : v.isNan = true ↔ ∃ g, v = .nan g := by cases v <;> simp [Val.isNan]

/-- A NaN is neither equal to anything nor less than anything. -/
theorem unordered_of_isNan {u v : Val} (nan : (u.isNan || v.isNan) = true) : u.eqv v = false ∧ u.lt v = false := by
  rcases Bool.or_eq_true_iff.mp nan with left | right
  · obtain ⟨g, rfl⟩ := isNan_iff.mp left
    exact ⟨rfl, rfl⟩
  · obtain ⟨g, rfl⟩ := isNan_iff.mp right
    cases u <;> exact ⟨rfl, rfl⟩

/-- What R132 says of relation `k`: whether it holds, and the flag that it raises. -/
def relationLane (k : Nat) (F : FFmt) (x y : Nat) : Nat × Flags :=
  (if floatRelation k (decodeF F x) (decodeF F y) then 2 ^ F.w - 1 else 0,
    if k = 1 ∨ k = 2 then (if (decodeF F x).isNan || (decodeF F y).isNan then fNv else 0)
    else (if (decodeF F x).isSig || (decodeF F y).isSig then fNv else 0))

theorem fcmpRel_eq (k : Nat) (u v : Val) :
    fcmpRel k u v = (floatRelation k u v, if k = 1 ∨ k = 2 then u.isNan || v.isNan else u.isSig || v.isSig) := by
  have ordered {r : Bool} (false_of_nan : (u.isNan || v.isNan) = true → r = false) : r = (!(u.isNan || v.isNan) && r) := by
    cases nan : u.isNan || v.isNan
    · rfl
    · exact false_of_nan nan
  match k with
  | 0 => exact Prod.ext (ordered fun nan => (unordered_of_isNan nan).1) rfl
  | 1 => exact Prod.ext (ordered fun nan => (unordered_of_isNan nan).2) rfl
  | 2 => rfl
  | k + 3 => exact Prod.ext rfl (by rw [if_neg (by omega)]; rfl)

theorem maskLane_eq (k : Nat) : maskLane k = fun F x y p => ((relationLane k F x y).1, p.raise (relationLane k F x y).2) := by
  funext F x y p
  simp only [maskLane, fcmpRel_eq, relationLane]
  split_ifs <;> rfl

/-! ### Dot products (R135, R136) -/

/-- The `g` elements of group `j` of a register's lanes. -/
def groupLanes (w g : Nat) (r : Reg) (j : Nat) : List Nat := (List.range g).map fun k => lane w r (g * j + k)

/-- R135: a lane of `vdot`, in terms of the values of its elements. -/
theorem dotLane_eq (F : FFmt) (xs ys : List Nat) (z : Nat) : dotLane F xs ys z = fun p =>
    let ps := ((xs.map (decodeF F)).zip (ys.map (decodeF F))).map fun e => mulVal e.1 e.2
    let v := sumVals p.rm (decodeF fp32 z :: ps.map fun e => e.1)
    roundE fp32 v.1 (p.raise (ps.foldl (fun f e => f ||| e.2) v.2)) := by
  funext p
  simp only [dotLane, List.zip_map, List.map_map]
  rfl

theorem foldl_add_eq_sum {α : Type} (f : α → Int) (l : List α) (z : Int) : l.foldl (fun n k => n + f k) z = z + (l.map f).sum := by
  induction l generalizing z with
  | nil => simp
  | cons k l ih => rw [List.foldl_cons, ih, List.map_cons, List.sum_cons, Int.add_assoc]

section
variable {s : State} {d a b : Spec} (readA : s.canRead a) (readB : s.canRead b) (readD : s.canRead d) (write : s.canWrite d)
include readA readB readD write

theorem vdot_settles {t : FTy} (formats : s.me.useCheck (s.me.ftyBad 0 [4, 8, 16] t) = .ok ()) :
    let F := s.me.ffmt t
    let g := 32 / F.w
    let r := lanesFp (fun j => dotLane F (groupLanes F.w g (s.regVal a) j) (groupLanes F.w g (s.regVal b) j) (lane 32 (s.regVal d) j)) 4 0 s.fp
    ∃ u, exec (.vdot t d a b) s = .next u ∧ (s.withFp r.2).Wrote u 4 d (ofLanes 32 r.1) := by
  intro F g r
  have dotted : exec (.vdot t d a b) s = settle s ((s.withFp r.2).put 4 d (ofLanes 32 r.1)) := by
    simp only [exec_vdot, execVdot, latch_three_ok readA readB readD, formats, read3_ok s a b d readA readB readD, bind_ok]
    rfl
  rw [dotted]
  exact put_settles s (canWrite_withFp write)

/-- R136: an integer dot product adds the products of a group to the lane, modulo 2^32. -/
theorem vdoti_settles (t : IntTy) :
    let w := intW t
    let val (r : Reg) (k : Nat) : Int := laneInt w (intSigned t) (lane w r k)
    let sum (j : Nat) : Int := (lane 32 (s.regVal d) j : Int) + ((List.range (32 / w)).map fun k =>
      val (s.regVal a) (32 / w * j + k) * val (s.regVal b) (32 / w * j + k)).sum
    ∃ u, exec (.vdoti t d a b) s = .next u ∧ s.Wrote u 4 d (mkLanes 32 4 fun j => ofInt 32 (sum j)) := by
  intro w val sum
  have dotted : exec (.vdoti t d a b) s = settle s (s.put 4 d (mkLanes 32 4 fun j => ofInt 32 (sum j))) := by
    simp only [exec_vdoti, execVdoti, read3_ok s a b d readA readB readD, bind_ok, foldl_add_eq_sum]
    rfl
  rw [dotted]
  exact put_settles s write

end

theorem natCast_ofInt_mod (w : Nat) (z : Int) : ((ofInt w z % 2 ^ w : Nat) : Int) = z % 2 ^ w := by
  rw [Int.natCast_mod, natCast_ofInt]
  exact Int.emod_emod_of_dvd _ (by push_cast; exact dvd_rfl)

/-- Settles O20: the forms of O19 with other lane functions, the reductions, and the dot products. -/
theorem floatSelectionsAndSums : Obligations.FloatSelectionsAndSums := by
  unfold Obligations.FloatSelectionsAndSums
  refine ⟨?lanes, ?reductions, ?dots⟩
  case lanes =>
    intro s t d a b formats readA readB write F top
    refine ⟨?two, ?one⟩
    case two =>
      have two {i : Instr} {f g : FFmt → Nat → Nat → Fp → Nat × Fp} (arm : exec i s = settle s (s.vecF2 4 t d a b f)) (lanes : f = g) :=
        vecF2_settles formats write (lanes ▸ arm) readA readB
      simp only [List.forall_mem_append, List.forall_mem_map, List.forall_mem_cons]
      exact ⟨⟨(two (exec_vminF ..) (pickLane_eq _) :), (two (exec_vmaxF ..) (pickLane_eq _) :), List.forall_mem_nil _⟩,
        (two (exec_vceqF ..) (maskLane_eq 0) :), (two (exec_vcltF ..) (maskLane_eq 1) :), (two (exec_vcleF ..) (maskLane_eq 2) :),
        (two (exec_vcunF ..) (maskLane_eq 3) :), List.forall_mem_nil _⟩
    case one =>
      have one {i : Instr} {f g : FFmt → Nat → Fp → Nat × Fp} (arm : exec i s = settle s (s.vecF1 t d a f)) (lanes : f = g) :=
        vecF1_settles formats write (lanes ▸ arm) readA
      simp only [List.forall_mem_cons]
      exact ⟨(one (exec_vabsF ..) signLane_abs :), (one (exec_vnegF ..) signLane_neg :), List.forall_mem_nil _⟩
  case reductions =>
    intro s t d a formats read write F xs
    have reduced {i : Instr} {f : FFmt → List Nat → Fp → Nat × Fp} (arm : exec i s = settle s (s.vecFR t d a f)) :=
      vecFR_settles formats write arm read
    refine ⟨(reduced (exec_vrsumF ..) :), ?_⟩
    simp only [List.forall_mem_cons]
    exact ⟨(reduced (exec_vrminF ..) :), (reduced (exec_vrmaxF ..) :), List.forall_mem_nil _⟩
  case dots =>
    intro s d a b readA readB readD write
    refine ⟨fun t formats => ?float, fun t _ => ?int⟩
    case float =>
      have dotted := vdot_settles readA readB readD write formats
      simpa only [dotLane_eq, groupLanes, List.map_map, Function.comp_def] using dotted
    case int =>
      obtain ⟨u, runs, wrote⟩ := vdoti_settles readA readB readD write t
      refine ⟨u, _, runs, wrote, fun j inside => ?_⟩
      rw [lane_mkLanes _ _ _ j inside (by decide)]
      exact natCast_ofInt_mod 32 _

end Sys2Proof.Machine
end

section
/-! PROOFS. Integer lanes (O21) and permutes (O22). -/

namespace Sys2Proof.Machine

section
variable {s : State} {t : IntTy} {d a b : Spec} {i : Instr}

/-! ### Saturating lanes (R138)

A lane's value and the flags that it raises do not depend on the rounding environment. -/

/-- The flags of lanes `js` together. -/
def raisedBy (c : Nat → Flags) (js : List Nat) : Flags := js.foldr (fun j fl => c j ||| fl) 0

theorem lanesFp_raise (x : Nat → Nat) (c : Nat → Flags) (n j : Nat) (p : Fp) :
    lanesFp (fun j p => (x j, p.raise (c j))) n j p = ((List.range' j n).map x, p.raise (raisedBy c (List.range' j n))) := by
  induction n generalizing j p with
  | zero => simp [lanesFp, raisedBy, Fp.raise]
  | succ n ih =>
    simp only [lanesFp, ih]
    simp [raisedBy, Fp.raise, List.range'_succ, BitVec.or_assoc]

/-- Lanes from lane 0 up. -/
theorem lanesFp_raise_zero (x : Nat → Nat) (c : Nat → Flags) (n : Nat) (p : Fp) :
    lanesFp (fun j p => (x j, p.raise (c j))) n 0 p = ((List.range n).map x, p.raise (raisedBy c (List.range n))) := by
  rw [lanesFp_raise, List.range_eq_range']

/-- The flag `fl` is raised unless every lane is as it should be. -/
theorem raisedBy_unless (ok : Nat → Prop) [DecidablePred ok] (fl : Flags) (js : List Nat) :
    raisedBy (fun j => if ok j then 0 else fl) js = if ∀ j ∈ js, ok j then 0 else fl := by
  induction js with
  | nil => simp [raisedBy]
  | cons j js ih =>
    have step : raisedBy (fun j => if ok j then 0 else fl) (j :: js) =
        (if ok j then 0 else fl) ||| raisedBy (fun j => if ok j then 0 else fl) js := rfl
    simp only [step, ih, List.forall_mem_cons]
    by_cases here : ok j
    · simp [here]
    · simp only [here, if_false, false_and]
      split <;> simp

/-- An instruction starts with no flag raised. -/
theorem raise_fp (fl : Flags) : s.fp.raise fl = { s.fp with fl } := by simp [State.fp, Fp.raise]

/-- A saturating form writes the limited results of its lanes, and raises sat if it limited one. -/
theorem vecSat_settles {f : Int → Int → Int} (arm : exec i s = settle s (s.vecSat t d a b f)) (readA : s.canRead a)
    (readB : s.canRead b) (write : s.canWrite d) :
    let w := intW t
    let lo := intLo w (intSigned t)
    let hi := intHi w (intSigned t)
    let out (j : Nat) : Int := f (laneInt w (intSigned t) (lane w (s.regVal a) j)) (laneInt w (intSigned t) (lane w (s.regVal b) j))
    ∃ u v, exec i s = .next u ∧
      (s.withFp { s.fp with fl := if ∀ j, j < 128 / w → lo ≤ out j ∧ out j ≤ hi then 0 else fSat }).Wrote u 4 d v ∧
      ∀ j, j < 128 / w → (lane w v j : Int) = max lo (min hi (out j)) % 2 ^ w := by
  intro w lo hi out
  have lanes : s.vecSat t d a b f =
      (s.withFp { s.fp with fl := if ∀ j, j < 128 / w → lo ≤ out j ∧ out j ≤ hi then 0 else fSat }).put 4 d
        (mkLanes w (128 / w) fun j => ofInt w (max lo (min hi (out j)))) := by
    simp only [State.vecSat, read2_ok s a b readA readB, bind_ok, lanesFp_raise_zero, raisedBy_unless, List.mem_range, raise_fp]
    rfl
  obtain ⟨u, runs, wrote⟩ := put_settles s (canWrite_withFp write)
  refine ⟨u, _, by rw [arm, lanes, runs], wrote, fun j inside => ?_⟩
  rw [lane_mkLanes _ _ _ j inside (Nat.mul_div_le ..)]
  exact natCast_ofInt_mod ..

theorem ofInt_lt (w : Nat) (z : Int) : ofInt w z < 2 ^ w := by
  have := Int.emod_lt_of_pos z (show (0 : Int) < 2 ^ w by positivity)
  unfold ofInt
  zify
  omega

/-! ### The sum of the lanes (R140) -/

theorem wd_ofInt (z : Int) : wd (ofInt 64 z) = BitVec.ofInt 64 z := by
  apply BitVec.eq_of_toNat_eq
  rw [BitVec.toNat_ofInt]
  exact Nat.mod_eq_of_lt (ofInt_lt ..)

theorem vrsumI_settles (read : s.canRead a) (write : s.canWrite d) :
    ∃ u, exec (.vrsumI t d a) s = .next u ∧ s.Wrote u 4 d (scalar (BitVec.ofInt 64
      ((List.range (128 / intW t)).map fun j => laneInt (intW t) (intSigned t) (lane (intW t) (s.regVal a) j)).sum)) := by
  have summed := perm1_settles (exec_vrsumI t d a s) read write
  simpa only [foldl_add_eq_sum, Int.zero_add, wd_ofInt, laneCount] using summed

end

theorem ite_mod_of_lt {c : Prop} [Decidable c] {x y m : Nat} (hx : x < m) (hy : y < m) : (if c then x else y) % m = if c then x else y := by
  split
  exacts [Nat.mod_eq_of_lt hx, Nat.mod_eq_of_lt hy]

/-- R139: a count above the width shifts as the width does. -/
theorem shiftRight_lane (w y : Nat) (z : Int) :
    ofInt w (z / 2 ^ (if y < w then y else w)) % 2 ^ w = (z / 2 ^ min y w % 2 ^ w).toNat := by
  have count : (if y < w then y else w) = min y w := by split <;> omega
  rw [Nat.mod_eq_of_lt (ofInt_lt ..), count, ofInt]

/-- Settles O21: each form writes its lanes or its one value. -/
theorem integerLanes : Obligations.IntegerLanes := by
  unfold Obligations.IntegerLanes
  constructor
  · intro s t d a b readA readB write w val
    refine ⟨?lanes, ?bitwise, fun readD => perm3_settles (exec_vsel ..) readA readB readD write, vrsumI_settles readA write⟩
    case lanes =>
      have ones : 2 ^ w - 1 < 2 ^ w := Nat.sub_lt (Nat.two_pow_pos w) one_pos
      have lanes {i : Instr} {f : Nat → Bool → Nat → Nat → Nat} {g : Nat → Nat → Nat} (arm : exec i s = settle s (s.vecI2 4 t d a b f)) :=
        vecI2_settles (g := g) arm readA readB write
      simp only [List.forall_mem_cons]
      exact ⟨(lanes (exec_vaddI ..) fun _ _ _ _ => Nat.mod_mod .. :), (lanes (exec_vsubI ..) fun _ _ _ _ => Nat.mod_mod .. :),
        (lanes (exec_vmulI ..) fun _ _ _ _ => Nat.mod_mod .. :), (lanes (exec_vminI ..) fun _ _ hx hy => ite_mod_of_lt hx hy :),
        (lanes (exec_vmaxI ..) fun _ _ hx hy => ite_mod_of_lt hy hx :),
        (lanes (exec_vshl ..) fun _ _ _ _ => ite_mod_of_lt (Nat.mod_lt _ (Nat.two_pow_pos w)) (Nat.two_pow_pos w) :),
        (lanes (exec_vshr ..) fun x y _ _ => shiftRight_lane w y (val x) :),
        (lanes (exec_vceqI ..) fun _ _ _ _ => ite_mod_of_lt ones (Nat.two_pow_pos w) :),
        (lanes (exec_vcltI ..) fun _ _ _ _ => ite_mod_of_lt ones (Nat.two_pow_pos w) :), List.forall_mem_nil _⟩
    case bitwise =>
      simp only [List.forall_mem_cons]
      exact ⟨perm2_settles (exec_vand ..) readA readB write, perm2_settles (exec_vor ..) readA readB write,
        perm2_settles (exec_vxor ..) readA readB write, List.forall_mem_nil _⟩
  · intro s t d a b readA readB write w val lo hi
    have saturates {i : Instr} {f : Int → Int → Int} (arm : exec i s = settle s (s.vecSat t d a b f)) :
        let out (j : Nat) : Int := f (val (lane w (s.regVal a) j)) (val (lane w (s.regVal b) j))
        ∃ u v fl, exec i s = .next u ∧ (s.withFp { s.fp with fl }).Wrote u 4 d v ∧
          (∀ j, j < 128 / w → (lane w v j : Int) = max lo (min hi (out j)) % 2 ^ w) ∧
          fl = if ∀ j, j < 128 / w → lo ≤ out j ∧ out j ≤ hi then 0 else fSat := by
      intro out
      obtain ⟨u, v, runs, wrote, lanes⟩ := vecSat_settles arm readA readB write
      exact ⟨u, v, _, runs, wrote, lanes, rfl⟩
    simp only [List.forall_mem_cons]
    exact ⟨saturates (exec_vadds ..), saturates (exec_vsubs ..), List.forall_mem_nil _⟩

end Sys2Proof.Machine
end

section
/-! PROOFS. Permutes (O22). -/

namespace Sys2Proof.Machine

theorem lane_mod (w : Nat) (r : Reg) (j : Nat) : lane w r j % 2 ^ w = lane w r j := Nat.mod_eq_of_lt (lane_lt ..)

/-- Lanes of a register that a number gives, its upper bits cut off. -/
theorem lane_ofNat (w n j : Nat) (inside : w * (j + 1) ≤ 128) : lane w (BitVec.ofNat 128 n) j = n / 2 ^ (w * j) % 2 ^ w := by
  have split : 2 ^ 128 = 2 ^ (w * j) * 2 ^ (128 - w * j) := by rw [← Nat.pow_add]; congr 1; rw [Nat.mul_succ] at inside; omega
  have fits : w ≤ 128 - w * j := by rw [Nat.mul_succ] at inside; omega
  rw [lane, bits, BitVec.toNat_ofNat, split, Nat.mod_mul_right_div_self, Nat.mod_mod_of_dvd _ (Nat.pow_dvd_pow 2 fits)]

/-- R143: byte `j` of the 32 bytes of two registers, `x` the lower one. -/
theorem byte_of_pair (x z : Reg) (j : Nat) :
    (z.toNat * 2 ^ 128 + x.toNat) / 2 ^ (8 * j) % 2 ^ 8 = if j < 16 then lane 8 x j else lane 8 z (j - 16) := by
  split
  case isTrue low =>
    have split : z.toNat * 2 ^ 128 = 2 ^ (8 * j) * (2 ^ 8 * (2 ^ (120 - 8 * j) * z.toNat)) := by
      have : 2 ^ 128 = 2 ^ (8 * j) * (2 ^ 8 * 2 ^ (120 - 8 * j)) := by rw [← Nat.pow_add, ← Nat.pow_add]; congr 1; omega
      rw [this]; ring
    rw [split, Nat.mul_add_div (Nat.two_pow_pos _), Nat.mul_add_mod]
    rfl
  case isFalse high =>
    have split : 2 ^ (8 * j) = 2 ^ 128 * 2 ^ (8 * (j - 16)) := by rw [← Nat.pow_add]; congr 1; omega
    rw [split, ← Nat.div_div_eq_div_mul, Nat.mul_comm z.toNat, Nat.mul_add_div (Nat.two_pow_pos _), Nat.div_eq_of_lt x.isLt, Nat.add_zero]
    rfl

section
variable {s : State} {d a b : Spec} {i : Instr}

/-- R141: a form that picks four 32-bit elements of its sources. -/
theorem zip32_settles {ps : List (Bool × Nat)} (arm : exec i s = settle s (s.perm2 d a b fun x y => zip32 x y ps)) (four : ps.length = 4)
    (readA : s.canRead a) (readB : s.canRead b) (write : s.canWrite d) : ∃ u v, exec i s = .next u ∧ s.Wrote u 4 d v ∧ ∀ j, j < 4 →
      lane 32 v j = ((ps.map fun e => lane 32 (if e.1 then s.regVal b else s.regVal a) e.2)[j]?).getD 0 := by
  obtain ⟨u, runs, wrote⟩ := perm2_settles arm readA readB write
  refine ⟨u, _, runs, wrote, fun j inside => ?_⟩
  have listed : j < (ps.map fun e => lane 32 (if e.1 then s.regVal b else s.regVal a) e.2).length := by simpa [four] using inside
  rw [zip32, lane_ofLanes 32 _ j listed (by simp [four]), List.getElem?_eq_getElem listed, Option.getD_some, List.getElem_map, lane_mod]

theorem vins_settles (n : BitVec 4) (c : BitVec 2) (readA : s.canRead a) (readD : s.canRead d) (write : s.canWrite d) :
    ∃ u, exec (.vins d a n c) s = .next u ∧ s.Wrote u 4 d (mkLanes (widthCode c) (laneCount (widthCode c)) fun j =>
      lane (widthCode c) (if j = n.toNat then s.regVal a else s.regVal d) (if j = n.toNat then 0 else j)) := by
  simp only [exec_vins, execVins, read2_ok s a d readA readD, bind_ok]
  exact put_settles s write

end

/-- Settles O22: each permute is one write, whose elements are looked up one by one. -/
theorem permutesMoveElements : Obligations.PermutesMoveElements := by
  unfold Obligations.PermutesMoveElements
  intro s d a b readA readB readD write x y z
  refine ⟨?pairs, ?vshuf, ?vrev, ?vexl, fun n c => ?elements⟩
  case pairs =>
    have picks {i : Instr} {ps : List (Bool × Nat)} (arm : exec i s = settle s (s.perm2 d a b fun x y => zip32 x y ps))
        (four : ps.length = 4) := zip32_settles arm four readA readB write
    simp only [List.forall_mem_cons]
    exact ⟨(picks (exec_vzlo ..) rfl :), (picks (exec_vzhi ..) rfl :), (picks (exec_vuev ..) rfl :), (picks (exec_vuod ..) rfl :),
      List.forall_mem_nil _⟩
  case vshuf =>
    obtain ⟨u, runs, wrote⟩ := perm3_settles (exec_vshuf ..) readA readB readD write
    refine ⟨u, _, runs, wrote, fun j inside => ?_⟩
    rw [lane_mkLanes _ _ _ j inside (by decide)]
    refine ite_mod_of_lt (lane_lt ..) ?_
    split
    exacts [lane_lt .., by decide]
  case vrev =>
    obtain ⟨u, runs, wrote⟩ := perm1_settles (exec_vrev ..) readA write
    refine ⟨u, _, runs, wrote, fun j inside => ?_⟩
    rw [lane_mkLanes _ _ _ j inside (by decide), lane_mod]
  case vexl =>
    obtain ⟨u, runs, wrote⟩ := perm3_settles (exec_vexl ..) readA readB readD write
    refine ⟨u, _, runs, wrote, fun j inside => ?_⟩
    rw [lane_ofNat _ _ j (by omega), Nat.div_div_eq_div_mul, ← Nat.pow_add, ← Nat.mul_add, byte_of_pair, Nat.add_comm]
  case elements =>
    intro w named
    have fits : w * laneCount w ≤ 128 := Nat.mul_div_le ..
    refine ⟨?vbcst, perm1_settles (exec_vext ..) readA write, ?vins⟩
    case vbcst =>
      obtain ⟨u, runs, wrote⟩ := perm1_settles (exec_vbcst ..) readA write
      refine ⟨u, _, runs, wrote, fun j inside => ?_⟩
      exact (lane_mkLanes (widthCode c) (laneCount (widthCode c)) _ j inside fits).trans (lane_mod ..)
    case vins =>
      obtain ⟨u, runs, wrote⟩ := vins_settles n c readA readD write
      refine ⟨u, _, runs, wrote, fun j inside => ?_⟩
      refine (lane_mkLanes (widthCode c) (laneCount (widthCode c)) _ j inside fits).trans ?_
      split <;> exact lane_mod ..

end Sys2Proof.Machine
end

section
/-! PROOFS. Special functions (O23). -/

namespace Sys2Proof.Machine

/-- R145: a result that the part is free to choose is the nearest encoding, or one within the bound. -/
theorem sfuResult_within (F : FFmt) (op ty c : Nat) (v : Val) :
    sfuResult F op ty c v = (round F v { rm := 0, srs := 0, fl := 0 }).1 ∨
      withinUlps F (sfuBound F op) v (decodeF F (sfuResult F op ty c v)) = true := by
  simp only [sfuResult]
  split
  case isTrue chosen =>
    obtain ⟨_, _, _, within⟩ := chosen
    exact .inr within
  case isFalse => exact .inl rfl

theorem raise_none (p : Fp) : p.raise 0 = p := by simp [Fp.raise]

section
variable {F : FFmt} {op c : Nat} (ty : Nat)

/-! ### The three ways in which a lane goes (R145, R146) -/

theorem sfuLane_special {v : Val} {fl : Flags} (fixed : sfuSpecial F op (decodeF F c) = some (v, fl)) (p : Fp) :
    sfuLane op ty F c p = ((round F v { rm := 0, srs := 0, fl := 0 }).1, p.raise fl) := by
  simp only [sfuLane, fixed]

theorem sfuLane_finite {g : Bool} {n d : Nat} {k : Int} (value : decodeF F c = .fin g n d k)
    (free : sfuSpecial F op (decodeF F c) = none) (p : Fp) :
    let v := sfuExact op g n d k
    let e := sfuResult F op ty c v
    sfuLane op ty F c p = if (round F v { rm := 0, srs := 0, fl := 0 }).2.1 then (F.infEnc v.neg, p.raise (fOf ||| fNx))
      else (e, p.raise (if bits e F.m F.e = 0 then fNx ||| fUf else fNx)) := by
  simp only [sfuLane, free]
  rw [value]

theorem sfuLane_other (value : ∀ g n d k, decodeF F c ≠ .fin g n d k) (free : sfuSpecial F op (decodeF F c) = none) (p : Fp) :
    sfuLane op ty F c p = (F.nan, p) := by
  simp only [sfuLane, free]

/-- A lane of a special function has one encoding, allowed by R145 and R146, and raises the same flags, in every rounding environment. -/
theorem sfuLane_ok : ∃ e fl, (∀ p, sfuLane op ty F c p = (e, p.raise fl)) ∧ sfuLaneOk op F c e := by
  unfold sfuLaneOk
  cases free : sfuSpecial F op (decodeF F c) with
  | some v => exact ⟨_, _, sfuLane_special ty free, rfl⟩
  | none =>
    by_cases value : ∃ g n d k, decodeF F c = .fin g n d k
    · obtain ⟨g, n, d, k, value⟩ := value
      have lane := sfuLane_finite ty value free
      cases overflows : (round F (sfuExact op g n d k) { rm := 0, srs := 0, fl := 0 }).2.1 with
      | true =>
        refine ⟨_, _, fun p => (lane p).trans (if_pos overflows), fun g' n' d' k' value' => ?_⟩
        cases value.symm.trans value'
        exact ⟨(if_pos overflows).symm, fun finite => absurd (overflows.symm.trans finite) (by decide)⟩
      | false =>
        refine ⟨_, _, fun p => (lane p).trans (if_neg (ne_true_of_eq_false overflows)), fun g' n' d' k' value' => ?_⟩
        cases value.symm.trans value'
        exact ⟨(if_neg (ne_true_of_eq_false overflows)).symm, fun _ => sfuResult_within ..⟩
    · have other : ∀ g n d k, decodeF F c ≠ .fin g n d k := fun g n d k finite => value ⟨g, n, d, k, finite⟩
      exact ⟨F.nan, 0, fun p => by rw [sfuLane_other ty other free, raise_none], fun _ _ _ _ finite => (other _ _ _ _ finite).elim⟩

end

/-- A special function writes lanes that are as they are allowed to be. -/
theorem sfu_settles {s : State} {t : FTy} {d a : Spec} {i : Instr} {op ty : Nat} (arm : exec i s = settle s (s.vecF1 t d a (sfuLane op ty)))
    (formats : s.me.useCheck (s.me.ftyBad 0 vecWidths t) = .ok ()) (read : s.canRead a) (write : s.canWrite d) :
    let F := s.me.ffmt t
    ∃ u es fl, exec i s = .next u ∧ (s.withFp { s.fp with fl }).Wrote u 4 d (ofLanes F.w es) ∧ es.length = 128 / F.w ∧
      ∀ j, j < 128 / F.w → sfuLaneOk op F (lane F.w (s.regVal a) j) ((es[j]?).getD 0) := by
  intro F
  choose e fl runs allowed using fun c => sfuLane_ok (F := F) (op := op) (c := c) ty
  obtain ⟨u, done, wrote⟩ := vecF1_settles formats write arm read
  have lanes : (fun j => sfuLane op ty F (lane F.w (s.regVal a) j)) =
      fun j p => (e (lane F.w (s.regVal a) j), p.raise (fl (lane F.w (s.regVal a) j))) := by
    funext j p
    exact runs _ p
  rw [lanes, lanesFp_raise_zero (fun j => e (lane F.w (s.regVal a) j)) fun j => fl (lane F.w (s.regVal a) j), raise_fp] at wrote
  refine ⟨u, (List.range (128 / F.w)).map fun j => e (lane F.w (s.regVal a) j), _, done, wrote, by simp, fun j inside => ?_⟩
  simpa [inside] using allowed (lane F.w (s.regVal a) j)

/-- Settles O23: a lane's encoding and flags do not depend on the lanes before it, and each is as R145 and R146 allow. -/
theorem specialFunctionsWithinBounds : Obligations.SpecialFunctionsWithinBounds := by
  unfold Obligations.SpecialFunctionsWithinBounds
  intro s t d a formats read write F
  refine ⟨?approximate, (vecF1_settles formats write (exec_vsqrt ..) read :)⟩
  have sfu {i : Instr} {op : Nat} (arm : exec i s = settle s (s.vecF1 t d a (sfuLane op (ftyCode t)))) :=
    sfu_settles arm formats read write
  simp only [List.forall_mem_cons]
  exact ⟨sfu (exec_vrcp ..), sfu (exec_vrsqrt ..), sfu (exec_vexp2 ..), sfu (exec_vlog2 ..), sfu (exec_vsin ..), sfu (exec_vcos ..),
    sfu (exec_vtanh ..), sfu (exec_vsigm ..), sfu (exec_verf ..), List.forall_mem_nil _⟩

end Sys2Proof.Machine
end

section
/-! PROOFS. Rules of the operations that instructions share: the end of a region, blocking, a written result. -/

namespace Sys2Proof.Machine

section
variable {s t : State} {d : Spec} {v : Reg} {len p : Nat}

/-! ### What the end of a region leaves (R196) -/

theorem dropHolder_rest (s : State) (c line : Nat) : s.dropHolder c line = { s with dir := (s.dropHolder c line).dir } := by
  unfold State.dropHolder
  split <;> rfl

/-- Holder records go from the directory only (R200). -/
theorem dropHolders_rest (s : State) (c : Nat) (lines : List Nat) :
    lines.foldl (fun s l => s.dropHolder c l) s = { s with dir := (lines.foldl (fun s l => s.dropHolder c l) s).dir } := by
  induction lines generalizing s with
  | nil => rfl
  | cons l lines ih => rw [List.foldl_cons, ih, dropHolder_rest]

/-- The end of a region counts it and changes the marks, the directory and the region filter. -/
theorem endRegion_rest (s : State) (p : Nat) : s.endRegion p =
    { s with threads := Tab.put s.threads p { s.thread p with region := (s.thread p).region + 1 }, marks := dropMarks p s.marks,
             cores := (s.endRegion p).cores, dir := (s.endRegion p).dir } := by
  simp only [State.endRegion]
  split
  · rw [dropHolders_rest]; rfl
  · rfl

theorem endRegion_cur (s : State) (p : Nat) : (s.endRegion p).cur = s.cur := by rw [endRegion_rest]
theorem endRegion_cyc (s : State) (p : Nat) : (s.endRegion p).cyc = s.cyc := by rw [endRegion_rest]
theorem endRegion_nextId (s : State) (p : Nat) : (s.endRegion p).nextId = s.nextId := by rw [endRegion_rest]
theorem endRegion_mem (s : State) (p : Nat) : (s.endRegion p).mem = s.mem := by rw [endRegion_rest]

theorem endRegion_me (s : State) : (s.endRegion s.cur).me = { s.me with region := s.me.region + 1 } := by
  rw [endRegion_rest]
  exact thread_setThread ..

/-- R196, R204, R216: with no access outstanding and no failed store, an instruction that ends its region goes on. -/
theorem regionEnd_ok (performed : s.anyAcc (fun _ => true) = false) (stored : s.me.failed = none) :
    s.regionEnd = .ok (s.endRegion s.cur) := by
  simp [State.regionEnd, performed, State.storeReport, stored]

theorem canWrite_endRegion (write : s.canWrite d) : (s.endRegion p).canWrite d := by
  rw [endRegion_rest]
  exact write

/-! ### Checks, blocking, and what a context becomes (R74, R85) -/

theorem ok_of_checked {ε α : Type} {bad : Prop} [Decidable bad] {e : ε} {x : Except ε α} {r : α}
    (h : (if bad then .error e else x) = .ok r) : x = .ok r := by
  split at h
  · cases h
  · exact h

/-- The form of a blocking instruction that no pre-emption holds up (R85). -/
theorem blocking_ok {α : Type} {operands : State → Except Stop α} {act : State → α → Res} (free : s.me.preempted = false) :
    s.blocking operands act = operands s >>= act s.stale := if_neg (ne_true_of_eq_false free)

theorem bump_me (s : State) : s.bump.me = s.me := rfl

theorem stale_me (s : State) : s.stale.me = { s.me with ltStale := true } :=
  (me_eq _ _ (clearWlt_threads _) (clearWlt_cur _)).trans (me_setMe ..)

theorem stale_cur (s : State) : s.stale.cur = s.cur := clearWlt_cur ..

theorem block_me (s : State) (b : Blk) : (s.block b).me = { s.me.become .blocked with blk := some b } := me_setMe ..

theorem become_state {u : Thread} {st : TState} (ready : u.state = .ready) : (u.become st).state = st := by simp [Thread.become, ready]

/-! ### What a write of a result leaves -/

theorem State.Wrote.pc (wrote : s.Wrote t len d v) : t.me.pc = s.me.pc + wd len := congrArg Thread.pc wrote.me

theorem State.Wrote.pred (wrote : s.Wrote t len d v) (k : PredNo) : t.me.pred k = s.me.pred k := by
  simp only [Thread.pred, congrArg Thread.preds wrote.me]

theorem pred_setPred (u : Thread) {k : PredNo} (b : Bool) (written : k ≠ 0) : (u.setPred k b).pred k = b := by
  have inside : k.val < 8 := k.isLt
  simp only [Thread.pred, Thread.setPred, if_neg written]
  cases b <;> simp [inside]

end
end Sys2Proof.Machine
end

section
/-! PROOFS. Inter-core queues (O27). -/

namespace Sys2Proof.Machine

section
variable {s s' t : State} {d : Spec} {v : Reg} {len p c n : Nat}

/-! ### Queues and the core that holds them (R147) -/

theorem xq_of_cores (same : t.cores = s.cores) : t.xq c n = s.xq c n := by simp only [State.xq, State.core, same]

theorem xq_setXq (s : State) (c n : Nat) (q : Xq) : (s.setXq c n q).xq c n = q := by
  simp [State.xq, State.setXq, State.core, State.setCore]

/-- A core that changes in other parts keeps its queues. -/
theorem xq_setCore {k : Core} {c' : Nat} (same : k.xq = (s.core c').xq) : (s.setCore c' k).xq c n = s.xq c n := by
  by_cases here : c = c'
  · subst here
    simp [State.xq, State.core, State.setCore, same]
  · simp [State.xq, State.core, State.setCore, Tab.getD_put_ne _ _ _ _ _ here]

/-- The end of a region changes a core's filter only. -/
theorem endRegion_xq (s : State) (p c n : Nat) : (s.endRegion p).xq c n = s.xq c n := by
  simp only [State.endRegion]
  split
  · rw [dropHolders_rest]
    exact xq_setCore rfl
  · rfl

/-- R147: binding a queue changes the queue only. -/
theorem xqBind_keeps (bound : s.xqBind n = .ok s') : s'.cur = s.cur ∧ s'.me = s.me := by
  simp only [State.xqBind] at bound
  cases ok_of_checked (ok_of_checked bound)
  exact ⟨rfl, rfl⟩

theorem State.Wrote.xq (wrote : s.Wrote t len d v) : t.xq c n = s.xq c n := xq_of_cores (congrArg State.cores wrote.only.rest :)

/-- The queue `n` of the own core without its head, the entries `vs` left, and the receive's acquire (R152, R192). -/
def State.dequeued (s : State) (n : Nat) (vs : List Reg) : State :=
  (s.setXq (coreOf s.cur) n { s.xq (coreOf s.cur) n with entries := vs }).setMe (s.me.hears (s.xq (coreOf s.cur) n).clock)

theorem dequeued_me (s : State) (n : Nat) (vs : List Reg) : (s.dequeued n vs).me = s.me.hears (s.xq (coreOf s.cur) n).clock := me_setMe ..

theorem dequeued_xq (s : State) (n : Nat) (vs : List Reg) : ((s.dequeued n vs).xq (coreOf s.cur) n).entries = vs := by
  rw [State.dequeued, xq_of_cores (setMe_cores ..), xq_setXq]

theorem xqTake_empty (empty : (s.xq (coreOf s.cur) n).entries = []) : s.xqTake n = none := by simp only [State.xqTake, empty]

theorem xqTake_head {vs : List Reg} (head : (s.xq (coreOf s.cur) n).entries = v :: vs) : s.xqTake n = some (v, s.dequeued n vs) := by
  simp only [State.xqTake, head, State.dequeued]

/-! ### The instructions and the arrival -/

/-- R148, R149: a sender waits with its entry, at its instruction. -/
theorem xqSnd_waits {a b : Spec} (readA : s.canRead a) (readB : s.canRead b) (goes : s.xqCheck (s.val64 b) = .ok ())
    (performed : s.anyAcc (fun _ => true) = false) (stored : s.me.failed = none) :
    let u := s.endRegion s.cur
    let w := s.val64 b
    exec (.xqSnd a b) s = .next
      (u.setMe { u.me with wait := .xq (w.toNat % 2 ^ 16 / 8) (w.toNat % 8) (s.regVal a) w u.cyc u.nextId }).bump := by
  have checked : s.xqCheck (lo64 (s.regVal b)) = .ok () := goes
  simp only [exec_xqSnd, execXqSnd, read2_ok s a b readA readB, bind_ok, checked, State.release, regionEnd_ok performed stored, pure_ok,
    settle_ok]
  rfl

/-- R147, R149: an entry that nothing holds up is appended, and its sender goes on. -/
theorem xqArrive_appends {since ord : Nat} {e : Reg} {w : Word} (offers : (s.thread p).wait = .xq c n e w since ord)
    (mine : (s.xq c n).owner = none ∨ (s.xq c n).owner = some (s.thread p).ctxNo) (room : (s.xq c n).entries.length < 8)
    (alone : ∀ x ∈ s.threads, x.1 ≠ p → ∀ e' w' z o, x.2.wait ≠ .xq c n e' w' z o) :
    ∃ q, q.entries = (s.xq c n).entries ++ [e] ∧ q.owner = some (s.thread p).ctxNo ∧
      s.xqArrive p = (s.setXq c n q).setThread p ({ s.thread p with wait := .none }.fin 4) := by
  refine ⟨{ s.xq c n with
    owner := some (s.thread p).ctxNo
    launch := if (s.xq c n).owner.isNone then (s.thread p).launchNo else (s.xq c n).launch
    entries := (s.xq c n).entries ++ [e]
    clock := (s.xq c n).clock.join (s.clockOf p) }, rfl, rfl, ?_⟩
  simp only [State.xqArrive, offers]
  rw [if_neg ?own, if_neg ?first]
  · rfl
  case own =>
    rcases mine with free | same
    · simp [free]
    · simp [same]
  case first =>
    simp only [Bool.or_eq_true, List.any_eq_true, decide_eq_true_eq, not_or]
    refine ⟨fun ⟨x, listed, ahead⟩ => ?_, by omega⟩
    split at ahead
    case h_1 waits =>
      simp only [Bool.and_eq_true, beq_iff_eq, bne_iff_ne] at ahead
      obtain ⟨⟨⟨other, rfl⟩, rfl⟩, -⟩ := ahead
      exact alone x listed other _ _ _ _ waits
    case h_2 => cases ahead

/-- R151: where the queue is empty, the predicate is cleared and the result is 0. -/
theorem xqTry_empty {k : PredNo} {q : BitVec 3} (bound : s.xqBind q.toNat = .ok s')
    (empty : (s'.xq (coreOf s'.cur) q.toNat).entries = []) (write : s'.canWrite d) :
    ∃ t, exec (.xqTry d q k) s = .next t ∧ (s'.setMe (s'.me.setPred k false)).Wrote t 4 d 0 := by
  simp only [exec_xqTry, execXqTry, bound, bind_ok, xqTake_empty empty]
  exact put_settles s write

/-- R151, R152: where the queue holds an entry, its head is taken, the region ends and the predicate is set. -/
theorem xqTry_head {k : PredNo} {q : BitVec 3} {vs : List Reg} (bound : s.xqBind q.toNat = .ok s')
    (head : (s'.xq (coreOf s'.cur) q.toNat).entries = v :: vs) (performed : s'.anyAcc (fun _ => true) = false)
    (stored : s'.me.failed = none) (write : s'.canWrite d) :
    let u := (s'.dequeued q.toNat vs).endRegion (s'.dequeued q.toNat vs).cur
    ∃ t, exec (.xqTry d q k) s = .next t ∧ (u.setMe (u.me.setPred k true)).Wrote t 4 d v := by
  intro u
  have ended : (s'.dequeued q.toNat vs).regionEnd = .ok u := regionEnd_ok performed (by rw [dequeued_me]; exact stored)
  have dest : u.canWrite d := canWrite_endRegion write
  simp only [exec_xqTry, execXqTry, bound, bind_ok, xqTake_head head, ended]
  exact put_settles s dest

section
variable {q : BitVec 3} (free : s.me.preempted = false) (bound : s.stale.xqBind q.toNat = .ok s')
  (performed : s'.anyAcc (fun _ => true) = false) (stored : s'.me.failed = none)
include free bound performed stored

/-- R150, R152: where the queue is empty, the context blocks, its region ended. -/
theorem xqRcv_blocks (empty : (s'.xq (coreOf s'.cur) q.toNat).entries = []) :
    exec (.xqRcv d q) s = .next ((s'.endRegion s'.cur).block (.xq q.toNat d)) := by
  have left : (s'.endRegion s'.cur).xqTake q.toNat = none := xqTake_empty (by rw [endRegion_cur, endRegion_xq, empty])
  simp only [exec_xqRcv, execXqRcv, blocking_ok free, bound, bind_ok, regionEnd_ok performed stored, left, pure_ok, settle_ok]

/-- R150, R152: where the queue holds an entry, the region ends and the head is taken. -/
theorem xqRcv_head {vs : List Reg} (head : (s'.xq (coreOf s'.cur) q.toNat).entries = v :: vs) (write : s'.canWrite d) :
    ∃ t, exec (.xqRcv d q) s = .next t ∧ ((s'.endRegion s'.cur).dequeued q.toNat vs).Wrote t 4 d v := by
  have taken : (s'.endRegion s'.cur).xqTake q.toNat = some (v, (s'.endRegion s'.cur).dequeued q.toNat vs) :=
    xqTake_head (by rw [endRegion_cur, endRegion_xq, head])
  have dest : ((s'.endRegion s'.cur).dequeued q.toNat vs).canWrite d := canWrite_endRegion (s := s') write
  simp only [exec_xqRcv, execXqRcv, blocking_ok free, bound, bind_ok, regionEnd_ok performed stored, taken]
  exact put_settles s dest

end
end

/-- Settles O27: a queue changes hands in the core that holds it; what else each form does is the end of its region and one write. -/
theorem interCoreQueues : Obligations.InterCoreQueues := by
  unfold Obligations.InterCoreQueues
  refine ⟨?snd, ?arrival, ?take, ?receive⟩
  case snd =>
    rintro s a b w readA readB rfl goes performed stored
    refine ⟨_, xqSnd_waits readA readB goes performed stored, ?_, ?_, ?_⟩
    · rw [bump_me, me_setMe, endRegion_cyc, endRegion_nextId]
    · rw [bump_me, me_setMe, endRegion_me]
    · rw [bump_mem, setMe_mem, endRegion_mem]
  case arrival =>
    intro s p c n since ord e w offers mine room alone
    obtain ⟨q, entries, owner, arrives⟩ := xqArrive_appends offers mine room alone
    have queue : (s.xqArrive p).xq c n = q := by rw [arrives, xq_of_cores (setThread_cores ..), xq_setXq]
    have sender : (s.xqArrive p).thread p = ({ s.thread p with wait := .none } : Thread).fin 4 := by rw [arrives, thread_setThread]
    have mem : (s.xqArrive p).mem = s.mem := by rw [arrives]; rfl
    exact ⟨_, exec_xqEntryArrival .., by rw [queue, entries], by rw [queue, owner], by rw [sender]; rfl, by rw [sender]; rfl, mem⟩
  case take =>
    intro s s' d n k bound dest written
    obtain ⟨cur, -⟩ := xqBind_keeps bound
    rw [← cur]
    constructor
    · intro empty write
      obtain ⟨t, runs, wrote⟩ := xqTry_empty bound empty write
      refine ⟨t, runs, wrote.dest dest, ?_, ?_⟩
      · rw [wrote.pred, me_setMe, pred_setPred _ _ written]
      · rw [wrote.pc, me_setMe, Thread.setPred_pc]; rfl
    · intro v vs head performed stored write
      obtain ⟨t, runs, wrote⟩ := xqTry_head bound head performed stored write
      refine ⟨t, runs, wrote.dest dest, ?_, ?_, ?_⟩
      · rw [wrote.pred, me_setMe, pred_setPred _ _ written]
      · rw [wrote.pc, me_setMe, Thread.setPred_pc, endRegion_me, dequeued_me]; rfl
      · rw [wrote.xq, xq_of_cores (setMe_cores ..), endRegion_xq, dequeued_xq]
  case receive =>
    intro s s' d n free bound dest performed stored
    obtain ⟨cur, me⟩ := xqBind_keeps bound
    rw [← stale_cur, ← cur]
    constructor
    · intro empty ready
      refine ⟨_, xqRcv_blocks free bound performed stored empty, ?_, ?_, ?_⟩
      · rw [block_me]
        exact become_state (by rw [endRegion_me, me, stale_me]; exact ready)
      · rw [block_me]
      · rw [block_me, Thread.become_pc, endRegion_me]
    · intro v vs head write
      obtain ⟨t, runs, wrote⟩ := xqRcv_head free bound performed stored head write
      have rest := dequeued_xq (s'.endRegion s'.cur) n.toNat vs
      rw [endRegion_cur] at rest
      refine ⟨t, runs, wrote.dest dest, ?_, ?_⟩
      · rw [wrote.pc, dequeued_me, endRegion_me]; rfl
      · rw [wrote.xq, rest]

end Sys2Proof.Machine
end

section
/-! PROOFS. Rules of tables and memory, and what the checks of an access leave, for the accesses and the memory system (O11 to O18, O44). -/

namespace Sys2Proof.Machine

/-! ### Tables that agree but for a part of their values -/

theorem Tab.get?_map {α β : Type} (f : α → β) (t : Tab α) (k : Nat) :
    Tab.get? (t.map fun e => (e.1, f e.2)) k = (Tab.get? t k).map f := by
  induction t with
  | nil => rfl
  | cons e t ih =>
    simp only [List.map_cons, Tab.get?]
    split
    · rfl
    · exact ih

theorem Tab.get?_congr {α β : Type} {f : α → β} {t u : Tab α}
    (same : t.map (fun e => (e.1, f e.2)) = u.map fun e => (e.1, f e.2)) (k : Nat) :
    (Tab.get? t k).map f = (Tab.get? u k).map f := by
  rw [← Tab.get?_map, same, Tab.get?_map]

/-! ### Tables: keys that are listed, and keys that go -/

theorem Tab.mem_keys_iff {α : Type} (t : Tab α) (k : Nat) : k ∈ t.map (·.1) ↔ ∃ v, Tab.get? t k = some v := by
  induction t with
  | nil => simp [Tab.get?]
  | cons e t ih =>
    simp only [List.map_cons, List.mem_cons, Tab.get?]
    by_cases here : e.1 = k
    · simp [here]
    · simp only [if_neg here, ← ih, Ne.symm here, false_or]

/-- In a table whose keys rise, nothing is listed at or below a bound under its first key. -/
theorem Tab.get?_of_lt_head {α : Type} (t : Tab α) (wf : Tab.wf t = true) {k i : Nat} (head : ∀ e ∈ t.head?, i < e.1)
    (below : k ≤ i) : Tab.get? t k = none := by
  induction t generalizing i with
  | nil => rfl
  | cons e t ih =>
    obtain ⟨rising, wf⟩ := (Tab.wf_cons e.1 e.2 t).mp wf
    have first : i < e.1 := head e rfl
    rw [Tab.get?, if_neg (by omega)]
    exact ih wf rising (by omega)

theorem Tab.get?_del {α : Type} (t : Tab α) (wf : Tab.wf t = true) (k j : Nat) :
    Tab.get? (Tab.del t k) j = if j = k then none else Tab.get? t j := by
  induction t with
  | nil => simp [Tab.del, Tab.get?]
  | cons e t ih =>
    obtain ⟨rising, wf⟩ := (Tab.wf_cons e.1 e.2 t).mp wf
    by_cases here : e.1 = k
    · simp only [Tab.del, if_pos here, Tab.get?]
      by_cases hit : j = k
      · rw [if_pos hit, hit]
        exact Tab.get?_of_lt_head t wf rising here.ge
      · rw [if_neg hit, if_neg (by omega)]
    · simp only [Tab.del, if_neg here, Tab.get?, ih wf]
      by_cases hit : j = k
      · simp [hit, here]
      · simp only [if_neg hit]

theorem Tab.head_del {α : Type} (t : Tab α) (wf : Tab.wf t = true) (k : Nat) {i : Nat} (head : ∀ e ∈ t.head?, i < e.1) :
    ∀ e ∈ (Tab.del t k).head?, i < e.1 := by
  cases t with
  | nil => exact head
  | cons e t =>
    obtain ⟨rising, -⟩ := (Tab.wf_cons e.1 e.2 t).mp wf
    have first : i < e.1 := head e rfl
    simp only [Tab.del]
    split
    · exact fun x mem => first.trans (rising x mem)
    · simpa using first

theorem Tab.wf_del {α : Type} (t : Tab α) (wf : Tab.wf t = true) (k : Nat) : Tab.wf (Tab.del t k) = true := by
  induction t with
  | nil => rfl
  | cons e t ih =>
    obtain ⟨rising, wf⟩ := (Tab.wf_cons e.1 e.2 t).mp wf
    simp only [Tab.del]
    split
    · exact wf
    · exact (Tab.wf_cons ..).mpr ⟨Tab.head_del t wf k rising, ih wf⟩

/-! ### Values that are put one after the other, and bytes that go -/

/-- Values put one after the other, each the value of `g` at its key. -/
theorem Tab.get?_foldl_put {α : Type} (g : Nat → α) (l : List (Nat × α)) (values : ∀ e ∈ l, e.2 = g e.1) (t : Tab α) (k : Nat) :
    Tab.get? (l.foldl (fun t e => Tab.put t e.1 e.2) t) k = if k ∈ l.map (·.1) then some (g k) else Tab.get? t k := by
  induction l generalizing t with
  | nil => simp
  | cons e l ih =>
    obtain ⟨first, rest⟩ := List.forall_mem_cons.mp values
    rw [List.foldl_cons, ih rest, List.map_cons, Tab.get?_put, first]
    by_cases later : k ∈ l.map (·.1)
    · rw [if_pos later, if_pos (List.mem_cons_of_mem _ later)]
    · rw [if_neg later]
      by_cases here : k = e.1
      · simp [here]
      · rw [if_neg here, if_neg (by simp only [List.mem_cons, here, later, or_self, not_false_eq_true])]

/-- Memory that loses the bytes of some locations. -/
theorem memGet_filter (p : Nat → Bool) (m : List Host.Cell) (a : Nat) :
    memGet (m.filter fun c => p c.1) a = if p a then memGet m a else 0 := by
  induction m with
  | nil => simp [memGet]
  | cons c m ih =>
    by_cases here : c.1 = a
    · by_cases kept : p a
      · simp [memGet, here, kept]
      · simp [here, kept, ih]
    · by_cases keeps : p c.1
      · simp [memGet, here, keeps, ih]
      · simp [memGet, here, keeps, ih]

/-! ### What the checks of an access leave (R227, R228, R237) -/

/-- The two states differ in cores and clusters alone. -/
def State.SameButUnits (s t : State) : Prop := t = { s with cores := t.cores, clus := t.clus }

section
variable {s t : State} {c ctx p n loc : Nat} {e : TlbEntry} {k : AKind} {plain : Bool} {a : Word}

theorem State.SameButUnits.trans {u : State} (first : s.SameButUnits t) (second : t.SameButUnits u) : s.SameButUnits u := by
  unfold State.SameButUnits at *
  rw [second, first]

theorem logPage_keeps (logged : s.logPage c ctx e = some t) : s.SameButUnits t := by
  simp only [State.logPage] at logged
  split at logged
  · cases logged
  · cases logged
    split <;> rfl

theorem logDirty_keeps (logged : s.logDirty p ctx e = .ok t) : s.SameButUnits t := by
  simp only [State.logDirty] at logged
  split at logged
  case h_1 page =>
    cases logged
    exact logPage_keeps page
  case h_2 => cases logged

theorem tlbLookup_keeps (found : s.tlbLookup c ctx n = some (e, t)) : s.SameButUnits t := by
  simp only [State.tlbLookup] at found
  split at found
  · cases found
    rfl
  · split at found
    · cases found
    · cases found
      rfl

theorem useEntry_keeps (ok : s.useEntry p e k a = .ok (loc, t)) : s.SameButUnits t := by
  unfold State.useEntry at ok
  have ok := ok_of_checked (ok_of_checked (ok_of_checked ok))
  have ok := ok_of_checked ok
  split at ok
  · split at ok
    case h_1 logged =>
      cases ok
      exact logDirty_keeps logged
    case h_2 => cases ok
  · cases ok
    rfl

theorem translate_keeps (ok : s.translate p k a = .ok (loc, t)) : s.SameButUnits t := by
  simp only [State.translate] at ok
  have ok := ok_of_checked ok
  split at ok
  · cases ok
  · split at ok
    case h_1 found =>
      split at ok
      · cases ok
      · exact (tlbLookup_keeps found).trans (useEntry_keeps ok)
    case h_2 => cases ok

theorem access_keeps (ok : s.access p k plain a n = .ok (loc, t)) : s.SameButUnits t := by
  simp only [State.access, State.accessAl] at ok
  split at ok
  · cases ok
  · exact translate_keeps ok
  · split at ok
    · split at ok
      · cases ok
        rfl
      · cases ok
    · cases ok
      rfl

end

end Sys2Proof.Machine
end

section
/-! PROOFS. How loads and stores issue (O11), and memory's form at reset (O60). -/

namespace Sys2Proof.Machine

section
variable {s s' x : State} {t b : Spec} {len n loc : Nat} {acc : Access} {va : Word}

/-! ### Accesses that are filed (R82) -/

/-- An access filed after nothing but the running context and the registers of outstanding loads have changed. -/
theorem State.OnlyMe.issued (only : s.OnlyMe x) {th m : Thread}
    (me : m = { th with pc := s.me.pc + wd len, pfx := none, retired := m.retired }) :
    s.Issued ((x.file acc).setMe m) len th acc := by
  have next : x.nextId = s.nextId := (congrArg State.nextId only.rest :)
  have cur : x.cur = s.cur := (congrArg State.cur only.rest :)
  refine ⟨?acc, ?accs, by rw [me_setMe]; exact me, ?rest, ?others⟩
  case acc => exact next ▸ Tab.get?_put_self ..
  case accs =>
    intro id other
    have kept : Tab.get? (x.file acc).acc id = Tab.get? x.acc id := Tab.get?_put_ne _ _ _ _ (next ▸ other)
    rw [setMe_acc, kept]
    exact Tab.get?_congr only.accs id
  case rest =>
    have rest := only.rest
    generalize x.threads = ths, x.acc = accs at rest
    subst rest
    rfl
  case others => exact fun p other => (thread_setMe_ne (x.file acc) p m (cur ▸ other)).trans (only.others p other)

/-- The state in which a load to register `t` is filed: no earlier value goes to `lt` any more, unless `t` is `zero` (R36). -/
def State.expecting (s : State) (t : Spec) : State := if t = 1 then s else (s.setMe { s.me with ltStale := false }).clearWlt

theorem expecting_only (s : State) (t : Spec) : s.OnlyMe (s.expecting t) := by
  unfold State.expecting
  split
  · exact ⟨rfl, fun _ _ => rfl, rfl⟩
  · refine ⟨by rw [clearWlt_rest]; rfl, fun p other => ?_, (clearWlt_core _).trans rfl⟩
    rw [thread_eq _ _ _ (clearWlt_threads _), thread_setMe_ne _ _ _ other]

theorem expecting_me (s : State) (t : Spec) : (s.expecting t).me = { s.me with ltStale := if t = 1 then s.me.ltStale else false } := by
  unfold State.expecting
  split
  · rfl
  · rw [me_eq _ _ (clearWlt_threads _) (clearWlt_cur _), me_setMe]

/-- R36, R65, R82: a load whose counter has room, to a register that no other load is to write, is filed. -/
theorem issueLoad_ok (can : s.canLoad t) : s.issueLoad len t acc =
    .ok (((s.expecting t).file (acc.into t)).setMe (({ (s.expecting t).me with cld := (s.expecting t).me.cld + 1 } : Thread).fin len)) := by
  obtain ⟨room, free⟩ := can
  have ready : (t != 0 && t != 1 && s.busy t) = false := by
    rcases free with rfl | rfl | free
    · rfl
    · rfl
    · simp [free]
  simp only [State.issueLoad, if_neg (Nat.not_le.mpr room), ready, Bool.false_eq_true, if_false]
  simp only [State.fin, me_setMe, setMe_setMe]
  rfl

theorem issueLoad_settles (σ : State) (can : s.canLoad t) :
    ∃ u, settle σ (s.issueLoad len t acc) = .next u ∧ s.Issued u len (s.me.loading t) (acc.into t) :=
  ⟨_, by rw [issueLoad_ok can, settle_ok], (expecting_only s t).issued (by rw [expecting_me]; rfl)⟩

theorem issueStore_settles (σ : State) (room : s.me.cst < 63) :
    ∃ u, settle σ (s.issueStore len acc) = .next u ∧ s.Issued u len { s.me with cst := s.me.cst + 1 } acc :=
  ⟨_, by rw [issueStore_ok room, settle_ok], file_setMe_issued _ _ _ _ _ rfl⟩

/-! ### Loads and stores (R170, R171, R32) -/

/-- The offset of an M-format word is signed and in units of the access's size. -/
theorem mAddr_eq (base : Word) (o : BitVec 10) (n : Nat) : mAddr base o n = base + BitVec.ofInt 64 (o.toInt * n) := by
  rw [mAddr, BitVec.ofInt_mul]
  rfl

theorem load_settles (σ : State) (signed : Bool) (can : s'.canLoad t) (access : s.access s.cur .read true va n = .ok (loc, s')) :
    ∃ u, settle σ (s.load len t signed n va) = .next u ∧
      s'.Issued u len (s'.me.loading t) ((s'.access0 (.load signed) va n loc).into t) := by
  simp only [State.load, access, bind_ok, newAcc_eq_access0]
  exact issueLoad_settles σ can

theorem ld_settles (o : BitVec 10) (signed : Bool) (read : s.canRead b) (can : s'.canLoad t)
    (access : s.access s.cur .read true (s.val64 b + BitVec.ofInt 64 (o.toInt * n)) n = .ok (loc, s')) :
    ∃ u, settle s (s.ld t b o signed n) = .next u ∧ s'.Issued u 4 (s'.me.loading t)
      ((s'.access0 (.load signed) (s.val64 b + BitVec.ofInt 64 (o.toInt * n)) n loc).into t) := by
  simp only [State.ld, read64_ok s b read, bind_ok, mAddr_eq]
  exact load_settles s signed can access

theorem store_settles (σ : State) (v : Reg) (room : s'.me.cst < 63) (plain : s'.me.speculative = false)
    (access : s.access s.cur .write true va n = .ok (loc, s')) :
    ∃ u, settle σ (s.store len v n va) = .next u ∧
      s'.Issued u len { s'.me with cst := s'.me.cst + 1 } { s'.access0 .store va n loc with data := v.setWidth 256 } := by
  simp only [State.store, access, bind_ok, orderedPlace_ok s' _ _ plain, newAcc_eq_access0]
  exact issueStore_settles σ room

theorem st_settles (o : BitVec 10) (readT : s.canRead t) (readB : s.canRead b) (room : s'.me.cst < 63) (plain : s'.me.speculative = false)
    (access : s.access s.cur .write true (s.val64 b + BitVec.ofInt 64 (o.toInt * n)) n = .ok (loc, s')) :
    ∃ u, settle s (s.st t b o n) = .next u ∧ s'.Issued u 4 { s'.me with cst := s'.me.cst + 1 }
      { s'.access0 .store (s.val64 b + BitVec.ofInt 64 (o.toInt * n)) n loc with data := (s.regVal t).setWidth 256 } := by
  simp only [State.st, read2_ok s t b readT readB, bind_ok, mAddr_eq]
  exact store_settles s _ room plain access

end

/-- Settles O11: each form checks its access and files it. -/
theorem loadsAndStoresIssue : Obligations.LoadsAndStoresIssue := by
  unfold Obligations.LoadsAndStoresIssue
  refine ⟨?load, ?store, ?compact⟩
  case load =>
    intro s s' t b o loc read can
    simp only [List.forall_mem_cons]
    exact ⟨ld_settles o false read can, ld_settles o false read can, ld_settles o false read can, ld_settles o false read can,
      ld_settles o true read can, ld_settles o true read can, ld_settles o true read can, ld_settles o false read can,
      List.forall_mem_nil _⟩
  case store =>
    intro s s' t b o loc readT readB room plain
    simp only [List.forall_mem_cons]
    exact ⟨st_settles o readT readB room plain, st_settles o readT readB room plain, st_settles o readT readB room plain,
      st_settles o readT readB room plain, st_settles o readT readB room plain, List.forall_mem_nil _⟩
  case compact =>
    rintro s s' z t b o loc n va readB rfl rfl
    refine ⟨fun can access => ?_, fun readT room plain access => ?_⟩
    · rw [exec_cLd]
      simp only [execCLd, read64_ok s _ readB, bind_ok]
      exact load_settles s false can access
    · rw [exec_cSt]
      simp only [execCSt, read2_ok s _ _ readT readB, bind_ok]
      exact store_settles s _ room plain access

/-- Settles O60: memory is empty after reset. -/
theorem memoryFormAtReset : Obligations.MemoryFormAtReset := rfl

end Sys2Proof.Machine
end

section
/-! PROOFS. How atomics issue (O12). -/

namespace Sys2Proof.Machine

section
variable {s s' : State} {t b : Spec} {ord : MOrd} {scope : Scope} {size : Bool} {loc : Nat}

/-- The access that an atomic files. -/
def State.atomic (s : State) (op : RmwOp) (va : Word) (n loc : Nat) (v : Reg) (ord : MOrd) (scope : Scope) : Access :=
  { s.access0 (.rmw op) va n loc with data := v.setWidth 256, ord, scope }

/-- An atomic whose checks pass, outside host memory: `.rlx` issues, every other order ends the region first. -/
theorem amo_checked (op : RmwOp) (readT : s.canRead t) (readB : s.canRead b) (plain : s'.me.speculative = false)
    (device : locTag loc ≠ 1) (access : s.access s.cur .rmw false (s.val64 b) (if size then 8 else 4) = .ok (loc, s')) :
    s.amo op t b ord scope size =
      if ord = .rlx then s'.issueLoad 4 t (s'.atomic op (s.val64 b) (if size then 8 else 4) loc (s.regVal t) ord scope)
      else s'.regionEnd >>= fun u =>
        u.issueLoad 4 t { s'.atomic op (s.val64 b) (if size then 8 else 4) loc (s.regVal t) ord scope with region := u.me.region } := by
  have notHost : (locTag loc == 1) = false := beq_false_of_ne device
  have address : lo64 (s.regVal b) = s.val64 b := rfl
  simp only [State.amo, read2_ok s t b readT readB, bind_ok, address, access, orderedPlace_ok s' _ _ plain, notHost, Bool.false_and,
    Bool.false_eq_true, if_false, newAcc_eq_access0]
  rfl

theorem regionEnd_waits (pending : s.anyAcc (fun _ => true) = true) : s.regionEnd = .error .wait := by
  simp only [State.regionEnd, pending, if_true, bind_error]

variable (readT : s.canRead t) (readB : s.canRead b) (plain : s'.me.speculative = false) (device : locTag loc ≠ 1)
  (access : s.access s.cur .rmw false (s.val64 b) (if size then 8 else 4) = .ok (loc, s'))
include readT readB plain device access

theorem amo_rlx_settles (op : RmwOp) (can : s'.canLoad t) : ∃ u, settle s (s.amo op t b .rlx scope size) = .next u ∧
    s'.Issued u 4 (s'.me.loading t) ((s'.atomic op (s.val64 b) (if size then 8 else 4) loc (s.regVal t) .rlx scope).into t) := by
  rw [amo_checked op readT readB plain device access, if_pos rfl]
  exact issueLoad_settles s can

theorem amo_waits (op : RmwOp) (ordered : ord ≠ .rlx) (pending : s'.anyAcc (fun _ => true) = true) :
    settle s (s.amo op t b ord scope size) = .next s.rewind := by
  rw [amo_checked op readT readB plain device access, if_neg ordered, regionEnd_waits pending, bind_error, settle_wait]

theorem amo_ordered_settles (op : RmwOp) (ordered : ord ≠ .rlx) (performed : s'.anyAcc (fun _ => true) = false)
    (stored : s'.me.failed = none) (can : (s'.endRegion s'.cur).canLoad t) :
    ∃ u, settle s (s.amo op t b ord scope size) = .next u ∧ (s'.endRegion s'.cur).Issued u 4 ((s'.endRegion s'.cur).me.loading t)
      (({ s'.atomic op (s.val64 b) (if size then 8 else 4) loc (s.regVal t) ord scope with
          region := (s'.endRegion s'.cur).me.region } : Access).into t) := by
  rw [amo_checked op readT readB plain device access, if_neg ordered, regionEnd_ok performed stored, bind_ok]
  exact issueLoad_settles s can

end

/-- Settles O12: the eleven operations share their checks and their issue. -/
theorem atomicsIssue : Obligations.AtomicsIssue := by
  unfold Obligations.AtomicsIssue
  constructor
  case left =>
    rintro s s' t b c z loc n readT readB can plain rfl device access
    have issues := fun op => amo_rlx_settles (scope := c) readT readB plain device access op can
    simp only [List.forall_mem_cons]
    exact ⟨issues .swap, issues .add, issues .and, issues .or, issues .xor, issues .min, issues .max, issues .minu, issues .maxu,
      issues .fadd, issues .cas, List.forall_mem_nil _⟩
  case right =>
    rintro s s' t b o c z loc n readT readB plain rfl device ordered access
    have issues := fun op => And.intro (amo_waits (scope := c) readT readB plain device access op ordered)
      (amo_ordered_settles (scope := c) readT readB plain device access op ordered)
    simp only [List.forall_mem_cons]
    exact ⟨issues .swap, issues .add, issues .and, issues .or, issues .xor, issues .min, issues .max, issues .minu, issues .maxu,
      issues .fadd, issues .cas, List.forall_mem_nil _⟩

end Sys2Proof.Machine
end

section
/-! PROOFS. Fences (O15). -/

namespace Sys2Proof.Machine

/-! ### Clocks (R192, log entry 100) -/

/-- A clock keeps what it knew and takes over what is added. -/
theorem getD_join (a b : Clock) :
    (∀ k, Tab.getD a k 0 ≤ Tab.getD (a.join b) k 0) ∧ ∀ e ∈ b, e.2 ≤ Tab.getD (a.join b) e.1 0 := by
  induction b generalizing a with
  | nil => exact ⟨fun _ => le_rfl, by simp⟩
  | cons e b ih =>
    obtain ⟨kept, added⟩ := ih (if Tab.getD a e.1 0 < e.2 then Tab.put a e.1 e.2 else a)
    have step : ∀ k, Tab.getD a k 0 ≤ Tab.getD (if Tab.getD a e.1 0 < e.2 then Tab.put a e.1 e.2 else a) k 0 := by
      intro k
      split
      case isTrue less =>
        by_cases here : k = e.1
        · rw [here, Tab.getD_put_self]
          exact less.le
        · rw [Tab.getD_put_ne _ _ _ _ _ here]
      case isFalse => exact le_rfl
    have first : e.2 ≤ Tab.getD (if Tab.getD a e.1 0 < e.2 then Tab.put a e.1 e.2 else a) e.1 0 := by
      split
      case isTrue => rw [Tab.getD_put_self]
      case isFalse more => exact Nat.not_lt.mp more
    exact ⟨fun k => (step k).trans (kept k), List.forall_mem_cons.mpr ⟨first.trans (kept e.1), added⟩⟩

section
variable (p : Nat) (c : Scope)

/-- What a context has become that acquires releases one after the other (R190). -/
def Thread.acquires (t : Thread) (rs : List Rel) : Thread := rs.foldl (fun t r => t.acquire p c r) t

theorem acquire_rest (t : Thread) (r : Rel) :
    t.acquire p c r = { t with known := (t.acquire p c r).known, missed := (t.acquire p c r).missed } := by
  unfold Thread.acquire
  split <;> rfl

theorem acquires_rest (t : Thread) (rs : List Rel) :
    t.acquires p c rs = { t with known := (t.acquires p c rs).known, missed := (t.acquires p c rs).missed } := by
  induction rs generalizing t with
  | nil => rfl
  | cons r rs ih =>
    have here : t.acquires p c (r :: rs) = (t.acquire p c r).acquires p c rs := rfl
    rw [here, ih, acquire_rest]

theorem acquires_relF (t : Thread) (rs : List Rel) : (t.acquires p c rs).relF = t.relF := by rw [acquires_rest]

theorem acquire_known_le (t : Thread) (r : Rel) (k : Nat) : Tab.getD t.known k 0 ≤ Tab.getD (t.acquire p c r).known k 0 := by
  unfold Thread.acquire
  split
  · exact (getD_join ..).1 k
  · exact le_rfl

theorem acquires_known_le (t : Thread) (rs : List Rel) (k : Nat) : Tab.getD t.known k 0 ≤ Tab.getD (t.acquires p c rs).known k 0 := by
  induction rs generalizing t with
  | nil => exact le_rfl
  | cons r rs ih => exact (acquire_known_le p c t r k).trans (ih _)

/-- R190: an acquire knows every store that happens before a release whose scope meets its own. -/
theorem acquires_known {t : Thread} {rs : List Rel} {r : Rel} (read : r ∈ rs) (met : meets (.ctx r.place) r.scope (.ctx p) c = true) :
    ∀ e ∈ r.clock, e.2 ≤ Tab.getD (t.acquires p c rs).known e.1 0 := by
  induction rs generalizing t with
  | nil => simp at read
  | cons x rs ih =>
    obtain rfl | later := List.mem_cons.mp read
    · intro e mem
      have taken : t.acquire p c r = t.hears r.clock := if_pos (.inr met)
      have knows : e.2 ≤ Tab.getD (t.acquire p c r).known e.1 0 := by
        rw [taken]
        exact (getD_join ..).2 e mem
      exact knows.trans (acquires_known_le p c _ rs e.1)
    · exact ih later

/-! ### The fence (R179, R187) -/

/-- A context behind its fence, whose next store has the number `now`. -/
def Thread.fenced (t : Thread) (now : Nat) (acq rel : Bool) : Thread :=
  let t := if acq then t.acquires p c t.heard else t
  if rel then { t with relF := (c, Tab.put t.known p now) :: t.relF.filter (fun e => e.1 != c) } else t

end

section
variable {s : State} {c : Scope} {o : MOrd} {acq rel : Bool} {p : Nat}

theorem fenceAt_me (s : State) (c : Scope) (acq rel : Bool) : (s.fenceAt c acq rel).me = s.me.fenced s.cur c s.nextId acq rel := by
  cases acq <;> cases rel <;> simp [State.fenceAt, Thread.fenced, State.clockOf, Thread.acquires, State.me, State.setMe]

theorem fenceAt_rest (s : State) (c : Scope) (acq rel : Bool) :
    s.fenceAt c acq rel = { s with threads := (s.fenceAt c acq rel).threads } := by
  cases acq <;> cases rel <;> rfl

theorem fenceAt_cur (s : State) (c : Scope) (acq rel : Bool) : (s.fenceAt c acq rel).cur = s.cur := by rw [fenceAt_rest]

theorem fenceAt_others (other : p ≠ s.cur) : (s.fenceAt c acq rel).thread p = s.thread p := by
  cases acq <;> cases rel <;> simp [State.fenceAt, thread_setMe_ne, other]

/-- The context changes in what it knows, what it has missed and its release fences. -/
theorem fenced_rest (t : Thread) (p : Nat) (c : Scope) (now : Nat) (acq rel : Bool) : t.fenced p c now acq rel =
    { t with known := (t.fenced p c now acq rel).known, missed := (t.fenced p c now acq rel).missed,
             relF := (t.fenced p c now acq rel).relF } := by
  cases acq <;> cases rel <;> simp only [Thread.fenced, Bool.false_eq_true, if_false, if_true]
  · rw [acquires_relF]
    exact acquires_rest ..
  · rw [acquires_rest]

theorem fenced_known (t : Thread) (p : Nat) (c : Scope) (now : Nat) (acq rel : Bool) :
    (t.fenced p c now acq rel).known = if acq then (t.acquires p c t.heard).known else t.known := by
  cases acq <;> cases rel <;> rfl

theorem fenced_missed_of_not_acq (t : Thread) (p : Nat) (c : Scope) (now : Nat) (rel : Bool) :
    (t.fenced p c now false rel).missed = t.missed := by
  cases rel <;> rfl

theorem fenced_relF (t : Thread) (p : Nat) (c : Scope) (now : Nat) (acq rel : Bool) :
    (t.fenced p c now acq rel).relF =
      if rel then (c, Tab.put (t.fenced p c now acq rel).known p now) :: t.relF.filter (fun e => e.1 != c) else t.relF := by
  cases acq <;> cases rel <;> simp only [Thread.fenced, Bool.false_eq_true, if_false, if_true] <;> rw [acquires_rest]

/-! ### The marks of a region (R196) -/

theorem endRegion_marks (s : State) (p : Nat) : ∀ e ∈ (s.endRegion p).marks, ∀ m ∈ e.2, m.place ≠ p := by
  rw [endRegion_rest]
  intro e mem m mark
  simp only [dropMarks, List.mem_filter, List.mem_map] at mem
  obtain ⟨⟨e, -, rfl⟩, -⟩ := mem
  simpa using (List.mem_filter.mp mark).2

theorem endRegion_filter (s : State) (p : Nat) : ∀ e ∈ ((s.endRegion p).core (coreOf p)).filter, e.2 ≠ p := by
  intro e mem own
  simp only [State.endRegion] at mem
  split at mem
  case isTrue =>
    rw [dropHolders_rest] at mem
    simp [State.core, State.setCore, own] at mem
  case isFalse none =>
    simp only [Bool.or_eq_true, List.any_eq_true, not_or, not_exists, not_and] at none
    exact none.1 e mem (by simpa using own)

theorem endRegion_others {q : Nat} (other : q ≠ p) : (s.endRegion p).thread q = s.thread q := by
  rw [endRegion_rest]
  exact Tab.getD_put_ne _ _ _ _ _ other

theorem fence_waits (plain : s.me.speculative = false) (pending : s.anyAcc (fun _ => true) = true) :
    exec (.fence c o) s = .next s.rewind := by
  simp only [exec_fence, execFence, plain, Bool.false_eq_true, if_false, State.release, regionEnd_waits pending, bind_error, settle_wait]

theorem fence_goes_on (plain : s.me.speculative = false) (performed : s.anyAcc (fun _ => true) = false) (stored : s.me.failed = none) :
    exec (.fence c o) s = .next (((s.endRegion s.cur).fenceAt c (isAcq o) (isRel o)).fin 4) := by
  simp only [exec_fence, execFence, plain, Bool.false_eq_true, if_false, State.release, regionEnd_ok performed stored, bind_ok, pure_ok,
    settle_ok]

end

/-- Settles O15: the region's end leaves the marks, the fence itself only the clocks of its context. -/
theorem fencesWaitAndEndTheRegion : Obligations.FencesWaitAndEndTheRegion := by
  unfold Obligations.FencesWaitAndEndTheRegion
  intro s c o plain
  refine ⟨fence_waits plain, fun performed stored => ⟨_, fence_goes_on plain performed stored, ?_⟩⟩
  have cur : ((s.endRegion s.cur).fenceAt c (isAcq o) (isRel o)).cur = s.cur := by rw [fenceAt_cur, endRegion_cur]
  have me : (((s.endRegion s.cur).fenceAt c (isAcq o) (isRel o)).fin 4).me =
      (({ s.me with region := s.me.region + 1 } : Thread).fenced s.cur c s.nextId (isAcq o) (isRel o)).fin 4 := by
    rw [fin_me, fenceAt_me, endRegion_me, endRegion_cur, endRegion_nextId]
  rw [me]
  refine ⟨?me, ?quiet, ?acquired, ?unreleased, ?released, ?marks, ?filter, ?others, ?rest⟩
  case me =>
    rw [fenced_rest]
    rfl
  case quiet =>
    intro noAcq
    rw [noAcq]
    exact ⟨fenced_known .., fenced_missed_of_not_acq ..⟩
  case acquired =>
    intro acq r read met e mem
    have known : (({ s.me with region := s.me.region + 1 } : Thread).fenced s.cur c s.nextId (isAcq o) (isRel o)).known =
        (({ s.me with region := s.me.region + 1 } : Thread).acquires s.cur c s.me.heard).known := (fenced_known ..).trans (if_pos acq)
    exact known ▸ acquires_known s.cur c read met e mem
  case unreleased => exact fun noRel => (fenced_relF ..).trans (if_neg (ne_true_of_eq_false noRel))
  case released => exact fun rel => (fenced_relF ..).trans (if_pos rel)
  case marks =>
    have same : (((s.endRegion s.cur).fenceAt c (isAcq o) (isRel o)).fin 4).marks = (s.endRegion s.cur).marks := by
      rw [State.fin, setMe_marks, fenceAt_rest]
    rw [same]
    exact endRegion_marks s s.cur
  case filter =>
    have same : (((s.endRegion s.cur).fenceAt c (isAcq o) (isRel o)).fin 4).cores = (s.endRegion s.cur).cores := by
      rw [State.fin, setMe_cores, fenceAt_rest]
    rw [State.core, same]
    exact endRegion_filter s s.cur
  case others =>
    intro p other
    have elsewhere : p ≠ (s.endRegion s.cur).cur := by rwa [endRegion_cur]
    rw [State.fin, thread_setMe_ne _ _ _ (by rwa [cur]), fenceAt_others elsewhere, endRegion_others other]
  case rest =>
    rw [fenceAt_rest, endRegion_rest]
    rfl

end Sys2Proof.Machine
end

section
/-! PROOFS. Bank-decoded accesses (O18). -/

namespace Sys2Proof.Machine

section
variable {s s' u : State} {d t a : Spec} {i : BitVec 6} {c : Cursor} {r : RawBlock} {vals : List Val} {len : Nat} {v : Reg}

/-- A write is one after a rounding that has raised no flag and left the generator as it was. -/
theorem State.Wrote.withFp (wrote : s.Wrote u len d v) : (s.withFp { s.fp with fl := 0 }).Wrote u len d v := by
  have me : (s.withFp { s.fp with fl := 0 }).me = s.me := by simp [State.withFp, State.fp]
  obtain ⟨dest, latch, zero, regs, rest, dmg, only⟩ := wrote
  exact ⟨dest, latch, me ▸ zero, me ▸ regs, me ▸ rest, me ▸ dmg, only.rest,
    fun p other => (only.others p other).trans (thread_setMe_ne s p _ other).symm, only.accs⟩

/-- R174, R175: the eight elements at the cursor are copied, written as integers, or rounded. -/
theorem lds_settles (read : s.canRead a) (quiet : s.scratchBusy = false) (cursor : s.cursor (s.val64 a + wd (16 * i.toNat)) = .ok c)
    (room : s.me.cld < 63) (raw : s.rawAt c = .ok (r, s')) (decoded : blockVals c.v r = some vals) (scaled : r.scale ≠ 255)
    (write : s'.canWrite d) : ∃ u, exec (.lds d a i) s = .next u ∧
      (s'.withFp (ldsLanes s' c r vals).2).Wrote u 4 d (ldsLanes s' c r vals).1 := by
  simp only [exec_lds, execLds, read64_ok s a read, bind_ok, if_neg (Nat.not_le.mpr room), cursor, quiet, Bool.false_eq_true, if_false, raw,
    decoded, if_neg scaled, ldsLanes]
  cases laneKind c.v with
  | copied =>
    obtain ⟨u, runs, wrote⟩ := put_settles s write
    exact ⟨u, runs, wrote.withFp⟩
  | int =>
    obtain ⟨u, runs, wrote⟩ := put_settles s write
    exact ⟨u, runs, wrote.withFp⟩
  | bf => exact put_settles s (canWrite_withFp write)

section
variable (readT : s.canRead t) (readA : s.canRead a) (quiet : s.scratchBusy = false)
  (cursor : s.cursor (s.val64 a + wd (16 * i.toNat)) = .ok c) (room : s.me.cst < 63) (dense : bfSpar c.v = 0)
include readT readA quiet cursor room dense

/-- R176: a bank that is not blocked takes the encodings in place. -/
theorem sts_in_place (unblocked : bfBlockLen c.v = 0) :
    let q := encElems (eFmt (bfElem c.v)) false 0 (stsVals c.v (s.regVal t)) s.fp
    exec (.sts t a i) s = .next (((s.withFp q.fp).bankWrite c.bank c.off (leBytes c.len (packCodes (eFmt (bfElem c.v)).w q.codes))
      (bankVa c.bank c.off)).fin 4) := by
  have address : lo64 (s.regVal a) = s.val64 a := rfl
  simp only [exec_sts, execSts, read2_ok s t a readT readA, bind_ok, if_neg (Nat.not_le.mpr room), address, cursor, dense, ne_eq,
    not_true_eq_false, if_false, quiet, Bool.false_eq_true, if_pos unblocked, pure_ok, settle_ok]

/-- R176: in a blocked bank the whole block goes through the quantiser. -/
theorem sts_quantised (blocked : bfBlockLen c.v ≠ 0) (raw : s.rawAt c = .ok (r, s')) :
    let old := scaledVals c.v r
    let q := quantise (eFmt (bfElem c.v)) (old.take c.first ++ stsVals c.v (s.regVal t) ++ old.drop (c.first + 8)) none s'.fp
    let u := (s'.withFp (if q.sat then q.fp.raise fSat else q.fp)).bankWrite c.bank c.off (blockBytes c.v q.scale q.oe q.codes)
      (bankVa c.bank c.off)
    exec (.sts t a i) s = .next ((if bfSp c.v then
      u.bankWrite c.bank (scaleOff c.v c.off) (leBytes 1 (q.scale + 127).toNat) (bankVa c.bank c.off) else u).fin 4) := by
  have address : lo64 (s.regVal a) = s.val64 a := rfl
  simp only [exec_sts, execSts, read2_ok s t a readT readA, bind_ok, if_neg (Nat.not_le.mpr room), address, cursor, dense, ne_eq,
    not_true_eq_false, if_false, quiet, Bool.false_eq_true, if_neg blocked, raw, pure_ok, settle_ok]

end
end

/-- Settles O18: one rule for the load, and one for each of the two ways of a store. -/
theorem bankDecodedAccesses : Obligations.BankDecodedAccesses := by
  unfold Obligations.BankDecodedAccesses
  intro s d t a i c read quiet cursor
  exact ⟨fun s' r vals room raw decoded scaled write => lds_settles read quiet cursor room raw decoded scaled write,
    fun readT room dense unblocked => sts_in_place readT read quiet cursor room dense unblocked,
    fun s' r readT room dense blocked raw => sts_quantised readT read quiet cursor room dense blocked raw⟩

end Sys2Proof.Machine
end

section
/-! PROOFS. Range maintenance and prefetches (O16). -/

namespace Sys2Proof.Machine

/-! ### The lines of a range (R180, R181) -/

section
variable {s s' : State} {a b : Spec} {va : Word} {loc n k : Nat} {drop : Bool}

/-- Line `l` holds a byte of the `n` bytes from a location up. -/
def InRange (loc n l : Nat) : Prop := loc < l * 32 + 32 ∧ l * 32 < loc + n

theorem mem_copyLines {l : Nat} :
    l ∈ s.copyLines loc n ↔ InRange loc n l ∧ ∃ x, Tab.get? s.copies l = some x := by
  rw [← Tab.mem_keys_iff]
  simp only [State.copyLines, InRange, List.mem_map, List.mem_filter, Bool.and_eq_true, decide_eq_true_eq]
  constructor
  · rintro ⟨e, ⟨mem, inside⟩, rfl⟩
    exact ⟨inside, e, mem, rfl⟩
  · rintro ⟨inside, e, mem, rfl⟩
    exact ⟨e, ⟨mem, inside⟩, rfl⟩

theorem mem_dirtyLines (remote : isRemote loc = true) {l : Nat} :
    l ∈ s.dirtyLines loc n ↔ InRange loc n l ∧ ∃ x, Tab.get? s.copies l = some x ∧ x.dirty = true := by
  simp only [State.dirtyLines, remote, if_true, List.mem_filter, mem_copyLines]
  constructor
  · rintro ⟨⟨inside, x, found⟩, dirty⟩
    rw [found] at dirty
    exact ⟨inside, x, found, dirty⟩
  · rintro ⟨inside, x, found, dirty⟩
    exact ⟨⟨inside, x, found⟩, by rw [found]; exact dirty⟩

theorem dirtyLines_local (own : isRemote loc = false) : s.dirtyLines loc n = [] := by
  simp only [State.dirtyLines, own, Bool.false_eq_true, if_false]

theorem dirtyLines_clean (clean : ∀ l x, Tab.get? s.copies l = some x → InRange loc n l → x.dirty = false) :
    s.dirtyLines loc n = [] := by
  cases remote : isRemote loc with
  | false => exact dirtyLines_local remote
  | true =>
    refine List.eq_nil_iff_forall_not_mem.mpr fun l mem => ?_
    obtain ⟨inside, x, found, dirty⟩ := (mem_dirtyLines remote).mp mem
    rw [clean l x found inside] at dirty
    cases dirty

/-- No engine holds a line of the range. -/
theorem engineLine_copyLines (free : ∀ l x, Tab.get? s.copies l = some x → InRange loc n l → s.engineLine l = false) :
    (s.copyLines loc n).any s.engineLine = false := by
  rw [List.any_eq_false]
  intro l mem
  obtain ⟨inside, x, found⟩ := mem_copyLines.mp mem
  simp [free l x found inside]

/-! ### A walk over one page -/

theorem walkRange_done (ls : List (Nat × Word)) : s.walkRange drop k va 0 ls = .ok (s, ls) := by cases k <;> rfl

/-- A range within one page: `cwb` gathers its Modified lines, `cinv` is held until there are none and then drops the copies. -/
theorem walkRange_page (pos : 0 < n) (fits : va.toNat % 0x10000 + n ≤ 0x10000) (access : s.access s.cur .read false va 1 = .ok (loc, s'))
    (up : isRemote loc = true → s'.portRefuses loc = false) (free : (s'.copyLines loc n).any s'.engineLine = false) :
    s.walkRange drop (k + 1) va n [] =
      if drop = false then .ok (s', (s'.dirtyLines loc n).map (·, va))
      else if s'.dirtyLines loc n = [] then .ok (s'.invalidate loc n, [])
      else .error (s'.holdCinv ((s'.dirtyLines loc n).map (·, va))) := by
  have whole : (if n < 0x10000 - va.toNat % 0x10000 then n else 0x10000 - va.toNat % 0x10000) = n := by split <;> omega
  have reaches : (isRemote loc && s'.portRefuses loc && !(s'.copyLines loc n).isEmpty) = false := by
    cases remote : isRemote loc with
    | false => rfl
    | true => simp [up remote]
  simp only [State.walkRange, if_neg (Nat.pos_iff_ne_zero.mp pos), whole, access, reaches, free, Bool.and_false, Bool.false_eq_true,
    if_false, Nat.sub_self, walkRange_done, List.nil_append]
  cases drop <;> cases s'.dirtyLines loc n <;> simp

/-! ### `cwb` and `cinv` -/

theorem range_walks (readA : s.canRead a) (readB : s.canRead b) (short : (s.val64 b).toNat ≤ 2 ^ 32) (plain : s.me.ordered = false)
    (quiet : s.anyAcc (fun x => isRemote x.loc || isAcq x.ord) = false) (room : s.me.cst < 63) :
    s.range drop a b = s.walkRange drop 65537 (s.val64 a) (s.val64 b).toNat [] >>= fun r =>
      if r.2.isEmpty then pure (r.1.fin 4)
      else pure (((r.1.fileCwb false r.2).setMe { (r.1.fileCwb false r.2).me with cst := (r.1.fileCwb false r.2).me.cst + 1 }).fin 4) := by
  have goes : decide (63 ≤ s.me.cst) = false := by simpa using room
  have value (r : Spec) : lo64 (s.regVal r) = s.val64 r := rfl
  simp only [State.range, read2_ok s a b readA readB, bind_ok, value, if_neg (Nat.not_lt.mpr short), plain, quiet, goes, Bool.or_false,
    Bool.false_eq_true, if_false]

/-! #### Copies that go (R180) -/

/-- A copy that is not Modified goes with its directory line and its damage; memory stays as it was. -/
theorem dropCopy_keeps {l : Nat} (clean : ∀ x, Tab.get? s.copies l = some x → x.dirty = false) :
    s.dropCopy l = { s with copies := (s.dropCopy l).copies, dir := (s.dropCopy l).dir, gran := (s.dropCopy l).gran } := by
  unfold State.dropCopy
  split
  case h_1 => rfl
  case h_2 x found =>
    simp only [clean x found, Bool.false_eq_true, if_false]
    split <;> rfl

theorem dropCopy_copies {l : Nat} (wf : Tab.wf s.copies = true) (clean : ∀ x, Tab.get? s.copies l = some x → x.dirty = false) :
    Tab.wf (s.dropCopy l).copies = true ∧ ∀ j, Tab.get? (s.dropCopy l).copies j = if j = l then none else Tab.get? s.copies j := by
  cases found : Tab.get? s.copies l with
  | none =>
    have same : s.dropCopy l = s := by simp only [State.dropCopy, found]
    rw [same]
    refine ⟨wf, fun j => ?_⟩
    split
    case isTrue here => rw [here, found]
    case isFalse => rfl
  | some x =>
    have copies : (s.dropCopy l).copies = Tab.del s.copies l := by
      simp only [State.dropCopy, found, clean x found, Bool.false_eq_true, if_false]
      split <;> rfl
    exact copies ▸ ⟨Tab.wf_del _ wf l, Tab.get?_del _ wf l⟩

theorem dropCopies_keeps (lines : List Nat) (wf : Tab.wf s.copies = true)
    (clean : ∀ l ∈ lines, ∀ x, Tab.get? s.copies l = some x → x.dirty = false) :
    lines.foldl State.dropCopy s = { s with copies := (lines.foldl State.dropCopy s).copies, dir := (lines.foldl State.dropCopy s).dir,
                                            gran := (lines.foldl State.dropCopy s).gran } ∧
      ∀ j, Tab.get? (lines.foldl State.dropCopy s).copies j = if j ∈ lines then none else Tab.get? s.copies j := by
  induction lines generalizing s with
  | nil => exact ⟨rfl, fun j => by simp⟩
  | cons l lines ih =>
    have here := clean l List.mem_cons_self
    obtain ⟨wf', copies⟩ := dropCopy_copies wf here
    have later : ∀ j ∈ lines, ∀ x, Tab.get? (s.dropCopy l).copies j = some x → x.dirty = false := by
      intro j mem x found
      rw [copies] at found
      split at found
      · cases found
      · exact clean j (List.mem_cons_of_mem _ mem) x found
    obtain ⟨rest, gone⟩ := ih wf' later
    rw [List.foldl_cons]
    refine ⟨?rest, fun j => ?gone⟩
    case rest => rw [rest, dropCopy_keeps here]
    case gone =>
      rw [gone, copies]
      by_cases first : j = l
      · simp [first]
      · simp [first]

/-- R180: the copies of the range go, all others stay. -/
theorem invalidate_copies (remote : isRemote loc = true) (wf : Tab.wf s.copies = true)
    (clean : ∀ l x, Tab.get? s.copies l = some x → InRange loc n l → x.dirty = false) :
    s.invalidate loc n = { s with copies := (s.invalidate loc n).copies, dir := (s.invalidate loc n).dir,
                                  gran := (s.invalidate loc n).gran } ∧
      (∀ l, InRange loc n l → Tab.get? (s.invalidate loc n).copies l = none) ∧
      ∀ l, ¬ InRange loc n l → Tab.get? (s.invalidate loc n).copies l = Tab.get? s.copies l := by
  have folds : s.invalidate loc n = (s.copyLines loc n).foldl State.dropCopy s := by simp [State.invalidate, remote]
  obtain ⟨rest, copies⟩ := dropCopies_keeps (s.copyLines loc n) wf fun l mem x found => clean l x found (mem_copyLines.mp mem).1
  rw [folds]
  refine ⟨rest, fun l inside => ?_, fun l outside => ?_⟩
  · rw [copies]
    split
    case isTrue => rfl
    case isFalse unlisted =>
      refine Option.eq_none_iff_forall_ne_some.mpr fun x found => unlisted (mem_copyLines.mpr ⟨inside, x, found⟩)
  · rw [copies, if_neg fun mem => outside (mem_copyLines.mp mem).1]

theorem invalidate_local (own : isRemote loc = false) : s.invalidate loc n = s := by simp [State.invalidate, own]

/-! #### The write-back (R181) -/

/-- The write-back of lines of one page, the first of them `l`. -/
def State.writeBack (s : State) (ls : List Nat) (va : Word) (l : Nat) : Access :=
  { s.access0 (.cwb ls) va 0 (l * 32) with homed := true, sent := true, vas := ls.map fun _ => va }

theorem fileCwb_eq (s : State) (l : Nat) (ls : List Nat) (va : Word) :
    s.fileCwb false ((l :: ls).map (·, va)) = s.file (s.writeBack (l :: ls) va l) := by
  have keys : ((l :: ls).map (·, va)).map (·.1) = l :: ls := (List.map_map ..).trans (List.map_id _)
  have addrs : ((l :: ls).map (·, va)).map (·.2) = (l :: ls).map fun _ => va := List.map_map ..
  simp only [State.fileCwb, List.map_cons] at keys addrs ⊢
  rw [keys, addrs]
  rfl

section
variable (c : Scope) (readA : s.canRead a) (readB : s.canRead b) (plain : s.me.ordered = false)
  (quiet : s.anyAcc (fun x => isRemote x.loc || isAcq x.ord) = false) (room : s.me.cst < 63)
include readA readB plain quiet room

theorem range_empty (none : (s.val64 b).toNat = 0) : s.range drop a b = .ok (s.fin 4) := by
  rw [range_walks readA readB (by omega) plain quiet room, none, walkRange_done]
  rfl

variable (pos : 0 < (s.val64 b).toNat) (fits : (s.val64 a).toNat % 0x10000 + (s.val64 b).toNat ≤ 0x10000)
  (access : s.access s.cur .read false (s.val64 a) 1 = .ok (loc, s')) (up : isRemote loc = true → s'.portRefuses loc = false)
  (free : (s'.copyLines loc (s.val64 b).toNat).any s'.engineLine = false)
include pos fits access up free

theorem cwb_clean (clean : s'.dirtyLines loc (s.val64 b).toNat = []) : exec (.cwb c a b) s = .next (s'.fin 4) := by
  rw [exec_cwb, execCwb, range_walks readA readB (by omega) plain quiet room, walkRange_page pos fits access up free, if_pos rfl, clean]
  rfl

theorem cwb_dirty {l : Nat} {ls : List Nat} (dirty : s'.dirtyLines loc (s.val64 b).toNat = l :: ls) :
    ∃ t, exec (.cwb c a b) s = .next t ∧
      s'.Issued t 4 { s'.me with cst := s'.me.cst + 1 } (s'.writeBack (l :: ls) (s.val64 a) l) := by
  rw [exec_cwb, execCwb, range_walks readA readB (by omega) plain quiet room, walkRange_page pos fits access up free, if_pos rfl, dirty,
    bind_ok]
  simp only [fileCwb_eq]
  exact ⟨_, rfl, by rw [State.fin, setMe_setMe, me_setMe]; exact file_setMe_issued _ _ _ _ _ rfl⟩

theorem cinv_clean (clean : s'.dirtyLines loc (s.val64 b).toNat = []) :
    exec (.cinv c a b) s = .next ((s'.invalidate loc (s.val64 b).toNat).fin 4) := by
  rw [exec_cinv, execCinv, range_walks readA readB (by omega) plain quiet room, walkRange_page pos fits access up free, if_neg (by decide),
    if_pos clean]
  rfl

/-- The context is held until the write-back has been acknowledged, and runs its instruction again. -/
theorem cinv_dirty {l : Nat} {ls : List Nat} (dirty : s'.dirtyLines loc (s.val64 b).toNat = l :: ls) :
    exec (.cinv c a b) s = .next ((s'.file (s'.writeBack (l :: ls) (s.val64 a) l)).setMe
      ({ s'.me with cst := s'.me.cst + 1, wait := .access s'.nextId } : Thread).rewind) := by
  rw [exec_cinv, execCinv, range_walks readA readB (by omega) plain quiet room, walkRange_page pos fits access up free, if_neg (by decide),
    if_neg (by simp [dirty]), bind_error, State.holdCinv, dirty, fileCwb_eq, settle_hold, State.rewind, me_setMe, setMe_setMe]

end

end

/-! ### Prefetches (R182) -/

section
variable {s s' : State} {a : Spec} {h : BitVec 3} {va : Word} {loc hint : Nat}

/-- The request of a prefetch for the line at a location. -/
def State.asked (s : State) (va : Word) (hint l : Nat) : Access := { s.access0 (.pf hint) va 0 l with loose := true }

/-- The requests for `k` lines from line `base` up. -/
def State.askLines (s : State) (va : Word) (hint base k : Nat) : State :=
  (List.range k).foldl (fun s i => s.file (s.asked va hint ((base + i) * 32))) s

/-- Each request takes the next number; nothing else of the state changes. -/
theorem askLines_files (s : State) (va : Word) (hint base k : Nat) :
    s.askLines va hint base k = { s with acc := (s.askLines va hint base k).acc, nextId := s.nextId + k } ∧
      ∀ i, i < k → Tab.get? (s.askLines va hint base k).acc (s.nextId + i) = some (s.asked va hint ((base + i) * 32)) := by
  induction k with
  | zero => exact ⟨rfl, fun i none => absurd none (Nat.not_lt_zero i)⟩
  | succ k ih =>
    obtain ⟨rest, filed⟩ := ih
    have last : s.askLines va hint base (k + 1) =
        (s.askLines va hint base k).file ((s.askLines va hint base k).asked va hint ((base + k) * 32)) := by
      simp only [State.askLines, List.range_succ, List.foldl_append, List.foldl_cons, List.foldl_nil]
    have access : (s.askLines va hint base k).asked va hint ((base + k) * 32) = s.asked va hint ((base + k) * 32) := by rw [rest]; rfl
    have number : (s.askLines va hint base k).nextId = s.nextId + k := (congrArg State.nextId rest :)
    rw [last, access]
    constructor
    · rw [rest]
      rfl
    · intro i inside
      have put : ((s.askLines va hint base k).file (s.asked va hint ((base + k) * 32))).acc =
          Tab.put (s.askLines va hint base k).acc (s.nextId + k) (s.asked va hint ((base + k) * 32)) := by rw [← number]; rfl
      rw [put, Tab.get?_put]
      by_cases now : i = k
      · rw [now, if_pos rfl]
      · rw [if_neg (by omega), filed i (by omega)]

theorem prefetch_line (other : hint ≠ 2) : s.prefetch va loc hint = s.file (s.asked va hint (loc / 32 * 32)) := if_neg other

/-- The address checks of a prefetch in a window that it may name. -/
theorem addrCheck_prefetch {priv : Bool} {w : Win} (window : windowOf va.toNat = some w) (common : w.common = true) :
    addrCheck priv false .prefetch va 1 1 = .ok w := by
  have same : w.same w = true := by cases w <;> simp [Win.same, Win.common] at common ⊢
  exact addrCheck_aligned ⟨window, w, window, same⟩ common (Nat.mod_one _)

/-- What a prefetch does at an address of a window: nothing, or its requests at a location. -/
def State.prefetchIn (s : State) (va : Word) (hint : Nat) : Win → State
  | .translated => match s.prefetchLoc va with
    | some (loc, s) => (s.prefetch va loc hint).fin 4
    | none => s.fin 4
  | .shared o => (s.prefetch va (nearLoc s.cur (.shared o)) hint).fin 4
  | _ => s.fin 4

theorem pf_in_window {w : Win} (read : s.canRead a) (window : windowOf (s.val64 a).toNat = some w) (common : w.common = true) :
    exec (.pf a h) s = .next (s.prefetchIn (s.val64 a) h.toNat w) := by
  simp only [exec_pf, execPf, read64_ok s a read, bind_ok, addrCheck_prefetch window common, pure_ok, settle_ok]
  cases w <;> rfl

theorem pf_requests (read : s.canRead a)
    (reaches : ((s.val64 a).toNat < 0x7F0000000000 ∧ s.prefetchLoc (s.val64 a) = some (loc, s')) ∨
      (0x7F0200000000 ≤ (s.val64 a).toNat ∧ (s.val64 a).toNat < 0x7F0200500000 ∧ s' = s ∧
        loc = 19 * 2 ^ 64 + cluOfPlace s.cur * 0x800000 + ((s.val64 a).toNat - 0x7F0200000000))) :
    exec (.pf a h) s = .next ((s'.prefetch (s.val64 a) loc h.toNat).fin 4) := by
  obtain ⟨below, found⟩ | ⟨lo, hi, rfl, place⟩ := reaches
  · rw [pf_in_window read (windowOf_translated below) rfl, State.prefetchIn, found]
  · rw [pf_in_window read (windowOf_shared lo hi) rfl, State.prefetchIn, nearLoc_shared, place]

end

/-- Settles O16: a range within one page is one walk of that page, a prefetch the filing of its requests. -/
theorem rangesAndPrefetch : Obligations.RangesAndPrefetch := by
  unfold Obligations.RangesAndPrefetch
  refine ⟨?range, ?prefetch⟩
  case range =>
    rintro s s' c a b loc _ readA readB rfl plain quiet room
    refine ⟨fun none => ?empty, ?page⟩
    case empty =>
      have ran (drop : Bool) : s.range drop a b = .ok (s.fin 4) := range_empty readA readB plain quiet room none
      exact ⟨congrArg (settle s) (ran false), congrArg (settle s) (ran true)⟩
    case page =>
      intro pos fits access inside wf unheld
      have copies : s'.copies = s.copies := (congrArg State.copies (access_keeps access) :)
      rw [← copies] at wf unheld ⊢
      have free := engineLine_copyLines unheld
      refine ⟨fun own => ?own, fun remote up => ?remote⟩
      case own =>
        have noPort (remote : isRemote loc = true) : s'.portRefuses loc = false := by rw [own] at remote; cases remote
        have clean : s'.dirtyLines loc (s.val64 b).toNat = [] := dirtyLines_local own
        refine ⟨cwb_clean c readA readB plain quiet room pos fits access noPort free clean, ?_⟩
        rw [cinv_clean c readA readB plain quiet room pos fits access noPort free clean, invalidate_local own]
      case remote =>
        have port (_ : isRemote loc = true) := up
        have member (l : Nat) := mem_dirtyLines (s := s') (n := (s.val64 b).toNat) remote (l := l)
        refine ⟨fun clean => ?cwbClean, fun l x found within dirty => ?cwbDirty, fun clean => ?cinvClean,
          fun l x found within dirty => ?cinvDirty⟩
        case cwbClean =>
          exact cwb_clean c readA readB plain quiet room pos fits access port free (dirtyLines_clean clean)
        case cwbDirty =>
          obtain ⟨first, ls, lines⟩ := List.exists_cons_of_ne_nil (List.ne_nil_of_mem ((member l).mpr ⟨within, x, found, dirty⟩))
          obtain ⟨t, runs, issued⟩ := cwb_dirty c readA readB plain quiet room pos fits access port free lines
          exact ⟨t, first :: ls, first, runs, fun k => lines ▸ member k, rfl, issued⟩
        case cinvClean =>
          obtain ⟨rest, gone, kept⟩ := invalidate_copies remote wf clean
          have threads : (s'.invalidate loc (s.val64 b).toNat).threads = s'.threads := (congrArg State.threads rest :)
          have cur : (s'.invalidate loc (s.val64 b).toNat).cur = s'.cur := (congrArg State.cur rest :)
          have here : s'.cur = s.cur := (congrArg State.cur (access_keeps access) :)
          refine ⟨_, cinv_clean c readA readB plain quiet room pos fits access port free (dirtyLines_clean clean), ?_, gone, kept,
            ?_, ?_⟩
          · rw [fin_me, me_eq _ _ threads cur]
          · intro p other
            rw [State.fin, thread_setMe_ne _ _ _ (by rwa [cur, here]), thread_eq _ _ _ threads]
          · rw [rest]
            rfl
        case cinvDirty =>
          obtain ⟨first, ls, lines⟩ := List.exists_cons_of_ne_nil (List.ne_nil_of_mem ((member l).mpr ⟨within, x, found, dirty⟩))
          have here : s'.cur = s.cur := (congrArg State.cur (access_keeps access) :)
          refine ⟨_, first :: ls, first, cinv_dirty c readA readB plain quiet room pos fits access port free lines,
            fun k => lines ▸ member k, rfl, ?_, ?_, ?_, ?_, ?_⟩
          · exact Tab.get?_put_self ..
          · exact fun id other => Tab.get?_put_ne _ _ _ _ other
          · exact me_setMe ..
          · exact fun p other => thread_setMe_ne _ _ _ (here ▸ other)
          · rfl
  case prefetch =>
    intro s s' a h loc read
    refine ⟨fun below none => ?unpermitted, fun lo hi => ?scratch, fun lo hi => ?chip, fun reaches => ?requests⟩
    case unpermitted => rw [pf_in_window read (windowOf_translated below) rfl, State.prefetchIn, none]
    case scratch => exact pf_in_window read (windowOf_scratch lo hi) rfl
    case chip => exact pf_in_window read (windowOf_chip lo hi) rfl
    case requests =>
      have runs := pf_requests (h := h) read reaches
      refine ⟨fun other => ?line, fun block => ?block⟩
      case line =>
        have hint : h.toNat ≠ 2 := fun two => other (BitVec.eq_of_toNat_eq two)
        rw [prefetch_line hint] at runs
        exact ⟨_, runs, file_setMe_issued _ _ _ _ _ rfl⟩
      case block =>
        subst block
        obtain ⟨rest, filed⟩ := askLines_files s' (s.val64 a) 2 (loc / 256 * 8) 8
        have files : exec (.pf a 2) s = .next ((s'.askLines (s.val64 a) 2 (loc / 256 * 8) 8).fin 4) := runs
        have me : (s'.askLines (s.val64 a) 2 (loc / 256 * 8) 8).me = s'.me :=
          me_eq _ _ (congrArg State.threads rest :) (congrArg State.cur rest :)
        refine ⟨_, files, ?_, ?_, ?_, ?_⟩
        · rw [fin_me, me]
        · exact (congrArg State.nextId rest :)
        · intro i inside
          have line : (loc / 256 * 8 + i) * 32 = loc / 256 * 256 + i * 32 := by omega
          rw [← line]
          exact filed i inside
        · rw [rest]
          rfl

end Sys2Proof.Machine
end

section
/-! PROOFS. What the home takes up (O14).

The third clause of O14 says that the home takes up an access to a near window at once if no access waits for the access's own line. A
64-byte store whose first line has been taken up goes on to its second (`Access.line`), and it is for that line that it waits its turn: with
an earlier access waiting there, the home leaves the store as it is. -/

namespace Sys2Proof.Machine

section
variable {s : State} {id : Nat} {a : Access}

/-- R162: an access that is not the first of those which wait for its line is not taken up. -/
theorem homeAccess_notFirst (found : Tab.get? s.acc id = some a) (later : s.notFirst id a.line = true) : s.homeAccess id = s := by
  simp only [State.homeAccess, found, later, Bool.or_true, if_true]

theorem countBurst_uncovered (found : Tab.get? s.acc id = some a) (near : covered a.loc = false) : s.countBurst id = s := by
  simp only [State.countBurst, found, near, Bool.not_false, Bool.or_true, Bool.true_or, if_true]

theorem startAcc_notFirst (found : Tab.get? s.acc id = some a) (untaken : a.homed = false) (near : 18 ≤ locTag a.loc)
    (unshared : locTag a.loc ≠ 19) (later : s.notFirst id a.line = true) : s.startAcc id = s := by
  have uncovered : covered a.loc = false := by simp [covered, tagScratch, tagShared, unshared, near.not_gt]
  have own : isRemote a.loc = false := by simp [isRemote]; omega
  have noLink : ¬ (2 ≤ locTag a.loc ∧ locTag a.loc ≤ 17 ∧ (Tab.get? s.acc id).map (·.sent) = some true) := by omega
  simp only [State.startAcc, found, own, countBurst_uncovered found uncovered, homeAccess_notFirst found later, untaken, Bool.false_and,
    Bool.false_eq_true, if_false]
  rw [found] at noLink
  rw [if_neg noLink, ite_self]

end

/-- A 64-byte store to the scratchpad of core 0, whose first line its home has taken up. -/
def halfTakenStore : Access := State.reset.access0 (.wide (List.replicate 64 0) true) 0 64 (18 * 2 ^ 64)

/-- An 8-byte store to the second line of the same granule waits there since an engine has released the line. -/
def secondLineAwaited : State :=
  { State.reset with
    acc := [(0, halfTakenStore), (1, State.reset.access0 .store 0 8 (18 * 2 ^ 64 + 32))]
    waits := [(18 * 2 ^ 59 + 1, [1])] }

theorem secondLineAwaited_stays : exec (.homeRequest (.access 0)) secondLineAwaited = .next secondLineAwaited := by
  have stays : secondLineAwaited.startAcc 0 = secondLineAwaited :=
    startAcc_notFirst (a := halfTakenStore) rfl rfl (by decide) (by decide) rfl
  rw [exec_homeRequest, execHomeRequest, stays]
  exact congrArg Host.Outcome.next (ite_self _)

/-- Refutes O14: its third clause looks for waiting accesses at the line of the access's location, and a 64-byte store may wait for the
line behind it. -/
theorem not_accessesArePerformed : ¬ Obligations.AccessesArePerformed := by
  unfold Obligations.AccessesArePerformed
  rintro ⟨-, -, takenUp⟩
  have taken := takenUp secondLineAwaited 0 halfTakenStore rfl rfl (by decide) (by decide) rfl rfl rfl rfl
  rw [secondLineAwaited_stays] at taken
  injection taken with same
  have homed : some halfTakenStore = some { halfTakenStore with homed := true } :=
    congrArg (fun s : State => Tab.get? s.acc 0) same
  injection homed with homed
  exact Bool.false_ne_true (congrArg Access.homed homed)

end Sys2Proof.Machine
end

section
/-! PROOFS. Steps of the memory system: fetches, claims, scrubs, class changes and walks (O44). -/

namespace Sys2Proof.Machine

section
variable {s t : State} {j : Nat} {v : Word}

/-! ### Class changes (R209, R210) -/

/-- The frames whose class a write of CLS_BLK_j changes, with their new class. -/
def State.reclassed (s : State) (j : Nat) (v : Word) : List (Nat × Nat) :=
  ((List.range 32).map fun i => (32 * j + i, wbits v (2 * i) 2)).filter fun e => s.frameCls e.1 != e.2

theorem mem_reclassed {e : Nat × Nat} :
    e ∈ s.reclassed j v ↔ ∃ i < 32, e = (32 * j + i, wbits v (2 * i) 2) ∧ s.frameCls (32 * j + i) ≠ wbits v (2 * i) 2 := by
  simp only [State.reclassed, List.mem_filter, List.mem_map, List.mem_range, bne_iff_ne]
  constructor
  · rintro ⟨⟨i, inside, rfl⟩, changed⟩
    exact ⟨i, inside, rfl, changed⟩
  · rintro ⟨i, inside, rfl, changed⟩
    exact ⟨⟨i, inside, rfl⟩, changed⟩

theorem mem_reclassed_keys {n : Nat} :
    n ∈ (s.reclassed j v).map (·.1) ↔ ∃ i < 32, n = 32 * j + i ∧ s.frameCls n ≠ wbits v (2 * i) 2 := by
  simp only [List.mem_map, mem_reclassed]
  constructor
  · rintro ⟨_, ⟨i, inside, rfl, changed⟩, rfl⟩
    exact ⟨i, inside, rfl, changed⟩
  · rintro ⟨i, inside, rfl, changed⟩
    exact ⟨_, ⟨i, inside, rfl, changed⟩, rfl⟩

/-- The table of classes after the write. -/
theorem get?_reclassed (n : Nat) : Tab.get? ((s.reclassed j v).foldl (fun f e => Tab.put f e.1 e.2) s.frames) n =
    if n ∈ (s.reclassed j v).map (·.1) then some (wbits v (2 * (n - 32 * j)) 2) else Tab.get? s.frames n := by
  refine Tab.get?_foldl_put (fun n => wbits v (2 * (n - 32 * j)) 2) _ (fun e mem => ?_) _ _
  obtain ⟨i, -, rfl, -⟩ := mem_reclassed.mp mem
  simp

/-- The classes of the block are those of the word; all others stay. -/
theorem frameCls_reclassed (block : j < 9216) (frames : t.frames = (s.reclassed j v).foldl (fun f e => Tab.put f e.1 e.2) s.frames) :
    (∀ i < 32, t.frameCls (32 * j + i) = wbits v (2 * i) 2) ∧
      (∀ n, n < 32 * j ∨ 32 * j + 32 ≤ n → t.frameCls n = s.frameCls n) ∧
      ∀ n, t.frameCls n ≠ s.frameCls n ↔ n ∈ (s.reclassed j v).map (·.1) := by
  have unchanged (n : Nat) (kept : n ∉ (s.reclassed j v).map (·.1)) : t.frameCls n = s.frameCls n := by
    simp only [State.frameCls, Tab.getD, frames, get?_reclassed, if_neg kept]
  have block' : ∀ i < 32, t.frameCls (32 * j + i) = wbits v (2 * i) 2 := by
    intro i inside
    by_cases changed : 32 * j + i ∈ (s.reclassed j v).map (·.1)
    · have backed : 32 * j + i < 294912 := by omega
      simp [State.frameCls, Tab.getD, frames, get?_reclassed, if_pos changed, if_pos backed]
    · rw [unchanged _ changed]
      by_contra differs
      exact changed (mem_reclassed_keys.mpr ⟨i, inside, rfl, differs⟩)
  refine ⟨block', fun n outside => unchanged n fun mem => ?_, fun n => ⟨fun differs => ?_, fun mem => ?_⟩⟩
  · obtain ⟨i, inside, rfl, -⟩ := mem_reclassed_keys.mp mem
    omega
  · by_contra kept
    exact differs (unchanged n kept)
  · obtain ⟨i, inside, rfl, changed⟩ := mem_reclassed_keys.mp mem
    rw [block' i inside]
    exact changed.symm

/-- A location lies in a frame of HBM whose class changes. -/
def State.cleared (s : State) (j : Nat) (v : Word) (a : Nat) : Bool :=
  locTag a == 0 && (s.reclassed j v).any fun e => e.1 == a / 0x200000

theorem cleared_iff {a : Nat} : s.cleared j v a = true ↔ locTag a = 0 ∧ a / 0x200000 ∈ (s.reclassed j v).map (·.1) := by
  simp only [State.cleared, Bool.and_eq_true, beq_iff_eq, List.any_eq_true, List.mem_map]

/-- R210: the write is refused, or the frames take their classes, those that change are cleared, and they are busy. -/
theorem clsWrite_cases (s : State) (j : Nat) (v : Word) :
    s.clsWrite j v = s.setHub { s.hub with rej := true } ∨
      s.clsWrite j v = { s with
        frames := (s.reclassed j v).foldl (fun f e => Tab.put f e.1 e.2) s.frames
        mem := s.mem.filter fun c => !s.cleared j v c.1
        gran := s.gran.filter fun g => !s.cleared j v (g.1 * 64)
        hub := { s.hub with busy := s.hub.busy ++ ((s.reclassed j v).map (·.1)).filter fun n => !s.hub.busy.contains n } } := by
  simp only [State.clsWrite]
  split
  · exact .inl rfl
  · exact .inr rfl

/-- R210: a write of a class block is refused, or does to classes and memory what it says and leaves every context as it is. -/
theorem clsBlkWrite_refused_or_done (block : j < 9216) : ∃ t, exec (.clsBlkWrite j v) s = .next t ∧ t.threads = s.threads ∧
    (t = s.setHub { s.hub with rej := true } ∨
      ((∀ i < 32, t.frameCls (32 * j + i) = wbits v (2 * i) 2) ∧
        (∀ n, n < 32 * j ∨ 32 * j + 32 ≤ n → t.frameCls n = s.frameCls n) ∧
        (∀ a, locTag a = 0 → t.frameCls (a / 0x200000) ≠ s.frameCls (a / 0x200000) → memGet t.mem a = 0) ∧
        (∀ a, locTag a ≠ 0 ∨ t.frameCls (a / 0x200000) = s.frameCls (a / 0x200000) → memGet t.mem a = memGet s.mem a) ∧
        ∀ i < 32, s.frameCls (32 * j + i) ≠ wbits v (2 * i) 2 → 32 * j + i ∈ t.hub.busy)) := by
  have runs : exec (.clsBlkWrite j v) s = .next (s.clsWrite j v) := by rw [exec_clsBlkWrite, execClsBlkWrite, if_pos block]
  refine ⟨_, runs, ?_⟩
  obtain refused | done := clsWrite_cases s j v
  · exact ⟨by rw [refused]; rfl, .inl refused⟩
  · generalize s.clsWrite j v = t at done
    obtain ⟨classes, others, changed⟩ := frameCls_reclassed (t := t) (v := v) block (congrArg State.frames done :)
    have mem (a : Nat) : memGet t.mem a = if !s.cleared j v a then memGet s.mem a else 0 :=
      (congrArg (memGet · a) (congrArg State.mem done :)).trans (memGet_filter (fun a => !s.cleared j v a) s.mem a)
    have busy : t.hub.busy = s.hub.busy ++ ((s.reclassed j v).map (·.1)).filter fun n => !s.hub.busy.contains n :=
      (congrArg (fun s : State => s.hub.busy) done :)
    refine ⟨by rw [done], .inr ⟨classes, others, fun a hbm differs => ?_, fun a kept => ?_, fun i inside differs => ?_⟩⟩
    · have gone : s.cleared j v a = true := cleared_iff.mpr ⟨hbm, (changed _).mp differs⟩
      simp [mem, gone]
    · have stays : s.cleared j v a = false := by
        refine Bool.eq_false_iff.mpr fun gone => ?_
        obtain ⟨hbm, listed⟩ := cleared_iff.mp gone
        exact kept.elim (fun other => other hbm) ((changed _).mpr listed)
      simp [mem, stays]
    · have listed : 32 * j + i ∈ (s.reclassed j v).map (·.1) := mem_reclassed_keys.mpr ⟨i, inside, rfl, differs⟩
      rw [busy, List.mem_append, List.mem_filter]
      by_cases before : 32 * j + i ∈ s.hub.busy
      · exact .inl before
      · exact .inr ⟨listed, by simpa using before⟩

end

section
variable {s s' : State}

/-! ### Fetches, claims and releases (R27, R164) -/

theorem instructionFetch_fetches {p : Nat} {bs : List Byte} (runs : s.canRun p = true) (free : (s.thread p).state ≠ .blocked)
    (fetched : ({ s with cur := p } : State).fetchBytes p = .ok (bs, s')) : exec (.instructionFetch p) s = .next s' := by
  have going : ({ s with cur := p } : State).me.state ≠ .blocked := free
  simp only [exec_instructionFetch, execInstructionFetch, if_pos runs, if_neg going, fetched]

/-- R162, R164: an Uncached line that no access holds or waits for goes to the token. -/
theorem claim_uncached {k line : Nat} {u : Token} (token : s.tok? k = some u) (checked : covered (line * 32) = true)
    (uncached : Tab.getD s.dir line .uncached = .uncached)
    (idle : s.acc.any (fun e => e.2.homed && e.2.n != 0 && e.2.loc / 32 == line) = false) (unawaited : s.waiting line = []) :
    s.claim k line =
      some (({ s with dir := Tab.put s.dir line (.engine k []) } : State).setTok k { u with lines := u.lines ++ [line] }) := by
  have here : ({ s with dir := Tab.put s.dir line (.engine k []) } : State).tok? k = some u := token
  simp [State.claim, checked, uncached, idle, unawaited, here]

theorem tok?_setTok (s : State) (k : Nat) (u : Token) : (s.setTok k u).tok? k = some u := Tab.get?_put_self ..

theorem engineClaim_claims {k line : Nat} {u : Token} (token : s.tok? k = some u) (active : u.active = true) (copy : u.copy = true)
    (running : s.hub.frozen = false) (next : s.nextClaim u = some line) (checked : covered (line * 32) = true)
    (uncached : Tab.getD s.dir line .uncached = .uncached)
    (idle : s.acc.any (fun e => e.2.homed && e.2.n != 0 && e.2.loc / 32 == line) = false) (unawaited : s.waiting line = []) :
    exec (.engineClaim k line) s =
      .next (({ s with dir := Tab.put s.dir line (.engine k []) } : State).setTok k { u with lines := u.lines ++ [line] }) := by
  simp [exec_engineClaim, execEngineClaim, token, active, copy, running, next, claim_uncached token checked uncached idle unawaited]

/-- A release takes the line out of the directory and lets those that waited proceed. -/
theorem releaseLine_rest (s : State) (l : Nat) : s.releaseLine l = { s with dir := Tab.del s.dir l, waits := (s.releaseLine l).waits } := by
  simp only [State.releaseLine]
  split
  · split <;> rfl
  · rfl

theorem engineRelease_releases {k line : Nat} {u : Token} (token : s.tok? k = some u) (family : u.maj = 0x11)
    (running : s.hub.frozen = false) (written : u.mask.contains line = true) (held : u.lines.contains line = true) :
    exec (.engineRelease k line) s = .next ((s.setTok k
      { u with lines := u.lines.filter (· != line), mask := u.mask.filter (· != line) }).releaseLine line) := by
  simp only [exec_engineRelease, execEngineRelease, token, written, family, running, State.unclaim, held, beq_self_eq_true, Bool.not_false,
    Bool.and_self, if_true]

/-! ### Scrubs (R211, R214) -/

/-- What a scrub finds of no launch is counted on the device: place 0 is no pager core (R218). -/
theorem charge_device (s : State) : s.charge none 0 0 = s.setHub { s.hub with errCorr := satAt (2 ^ 64 - 1) (s.hub.errCorr + 1) } := rfl

theorem chargeBad_device (s : State) :
    s.chargeBad none 0 0 = s.setHub { s.hub with errUncorr := satAt (2 ^ 64 - 1) (s.hub.errUncorr + 1) } := rfl

theorem satAt_pred (n : Nat) : satAt (2 ^ 64 - 1) (n + 1) = if n + 1 ≤ 2 ^ 64 - 1 then n + 1 else 2 ^ 64 - 1 := by
  unfold satAt
  split <;> split <;> omega

/-- A scrub of a granule of class full that is not poisoned turns on what its damaged symbols let the code find. -/
theorem scrubRead_found {pa : Nat} (physical : pa < 2 ^ 64) (free : s.homeWaits pa = false) (full : s.frameClass pa = 0)
    (sound : (s.granule (pa / 64)).poison = false) {found : Found} (finds : classify (pa / 64) 0 (s.granule (pa / 64)).hbm = found) :
    (found = .none → exec (.scrubRead pa) s = .next s) ∧
    (found = .corrected → exec (.scrubRead pa) s =
      .next ((s.setGran (pa / 64) { s.granule (pa / 64) with hbm := [] }).charge none 0 0)) ∧
    (found = .detected → exec (.scrubRead pa) s =
      .next ((s.setGran (pa / 64) { s.granule (pa / 64) with hbm := [], poison := true }).chargeBad none 0 0)) := by
  have location : locIn 0 pa = pa := by simp [locIn]
  have goes : ¬ (2 ^ 64 ≤ pa ∨ s.homeWaits pa = true ∨ s.frameClass pa ≠ 0 ∨ (s.granule (pa / 64)).poison = true) := by
    simpa [free, full, sound] using physical
  simp only [exec_scrubRead, execScrubRead, State.scrub, location, if_neg goes, finds]
  refine ⟨?_, ?_, ?_⟩ <;> rintro rfl <;> rfl

/-! ### Walks (R228 to R230) -/

/-- A miss that joins no walk of its page takes a walk context, or waits for one at the service core. -/
theorem tlbMiss_starts {p : Nat} {va : Word} (misses : (s.thread p).wait = .walk va) (single : s.walkOf p = none)
    (serves : s.serves (walkCluster (cluOfPlace p)) = true)
    (first : s.walks.find? (fun e => e.2.cl == walkCluster (cluOfPlace p) && e.2.ctx == (s.thread p).ctxNo &&
      e.2.vpn == va.toNat / 0x10000 && !e.2.queued) = none)
    (room : s.busyWalks (walkCluster (cluOfPlace p)) < 8 ∨ s.inboxUsed (coreOf (placeOf (walkCluster (cluOfPlace p)) 16 0)) < 32) :
    exec (.tlbMiss p) s = .next { s with
      walks := Tab.put s.walks s.nextId { cl := walkCluster (cluOfPlace p), ctx := (s.thread p).ctxNo, vpn := va.toNat / 0x10000,
                                          places := [p], queued := decide (8 ≤ s.busyWalks (walkCluster (cluOfPlace p))) }
      nextId := s.nextId + 1 } := by
  have goes : ¬ (8 ≤ s.busyWalks (walkCluster (cluOfPlace p)) ∧
      32 ≤ s.inboxUsed (coreOf (placeOf (walkCluster (cluOfPlace p)) 16 0))) := by omega
  simp only [exec_tlbMiss, execTlbMiss, State.tlbMiss, misses, single, serves, Bool.not_true, Bool.false_eq_true, if_false, first,
    if_neg goes, State.bump]

/-- The misses that take the place of a walk change the walks only. -/
theorem takeMisses_rest (cl : Nat) (ws : List (Nat × Walk)) (s : State) :
    State.takeMisses cl ws s = { s with walks := (State.takeMisses cl ws s).walks } := by
  induction ws generalizing s with
  | nil => rfl
  | cons w ws ih =>
    simp only [State.takeMisses]
    split
    · rw [ih]
    · split
      · rw [ih]
      · rfl

theorem endWalk_rest (s : State) (k cl : Nat) : s.endWalk k cl = { s with walks := (s.endWalk k cl).walks } := by
  rw [State.endWalk, takeMisses_rest]

/-- R229, R230: the state in which the answer of a walk is given, whose tables have been checked in `s1`: a malformed table is counted. -/
def State.walked (s1 : State) (cl : Nat) : Except Bool TlbEntry → State
  | .error true => s1.setClu cl { s1.clu cl with walkErrs := satAt (2 ^ 64 - 1) ((s1.clu cl).walkErrs + 1) }
  | _ => s1

theorem walked_threads (s : State) (cl : Nat) (r : Except Bool TlbEntry) : (s.walked cl r).threads = s.threads := by
  unfold State.walked
  split <;> rfl

theorem walked_mem (s : State) (cl : Nat) (r : Except Bool TlbEntry) : (s.walked cl r).mem = s.mem := by
  unfold State.walked
  split <;> rfl

/-- What a walk finds once the granules of its table words have been checked (R218, log entry 102). -/
def State.walkFinds (s1 : State) (good : Bool) (cl ctx va : Nat) : Except Bool TlbEntry :=
  if good then s1.walkTable cl ctx va else .error true

/-- The reply to a walk of one context, which then ends. -/
theorem walkReply_answers {p k : Nat} {w : Walk} {good : Bool} {s1 : State} (walk : s.walkOf p = some (k, w)) (started : w.queued = false)
    (serves : s.serves w.cl = true) (alone : w.places = [p])
    (checked : s.checkTables { launch := (s.thread p).launchNo, grp := (s.thread p).grp, place := p }
      (s.walkLocs w.cl (w.vpn * 0x10000) 4 (s.context w.ctx).root.toNat) = (good, s1)) :
    let r := s1.walkFinds good w.cl w.ctx (w.vpn * 0x10000)
    exec (.walkReply p) s = .next (((s1.walked w.cl r).answer w.vpn r p).endWalk k w.cl) := by
  intro r
  have goes : (w.queued || !s.serves w.cl) = false := by rw [started, serves]; rfl
  simp only [exec_walkReply, execWalkReply, State.walkReply, walk, goes, Bool.false_eq_true, if_false, State.walkFor, checked, alone,
    List.foldl_cons, List.foldl_nil]
  rfl

section
variable {p vpn : Nat} {va : Word} (waits : (s.thread p).wait = .walk va) (page : vpn = va.toNat / 0x10000)
include waits page

/-- R228: the entry goes into both TLBs, and the access goes on. -/
theorem answer_entry (e : TlbEntry) : s.answer vpn (.ok e) p =
    ((s.setCore (coreOf p) { s.core (coreOf p) with tlb := coreTlbPut (s.core (coreOf p)).tlb e }).setClu (cluOfPlace p)
      { s.clu (cluOfPlace p) with tlb := cluTlbPut (s.clu (cluOfPlace p)).tlb e }).setThread p { s.thread p with wait := .none } := by
  simp only [State.answer, waits, page, ne_eq, not_true_eq_false, if_false]
  rfl

/-- R229: the access faults page-absent when it runs again. -/
theorem answer_absent (bad : Bool) : s.answer vpn (.error bad) p = s.setThread p { s.thread p with wait := .answer 0x0017 va } := by
  simp only [State.answer, waits, page, ne_eq, not_true_eq_false, if_false]
  rfl

end

section
variable {p k : Nat} {w : Walk} {good : Bool} {s1 : State} {va : Word} (walk : s.walkOf p = some (k, w)) (started : w.queued = false)
  (serves : s.serves w.cl = true) (alone : w.places = [p]) (page : w.vpn = va.toNat / 0x10000)
  (checked : s.checkTables { launch := (s.thread p).launchNo, grp := (s.thread p).grp, place := p }
    (s.walkLocs w.cl (w.vpn * 0x10000) 4 (s.context w.ctx).root.toNat) = (good, s1)) (waits : (s1.thread p).wait = .walk va)
include walk started serves alone page checked waits

theorem walkReply_entry {e : TlbEntry} (finds : s1.walkFinds good w.cl w.ctx (w.vpn * 0x10000) = .ok e) :
    ∃ t, exec (.walkReply p) s = .next t ∧ (t.thread p).wait = .none ∧
      (t.core (coreOf p)).tlb = coreTlbPut (s1.core (coreOf p)).tlb e ∧
      (t.clu (cluOfPlace p)).tlb = cluTlbPut (s1.clu (cluOfPlace p)).tlb e ∧ t.mem = s1.mem := by
  have runs := walkReply_answers walk started serves alone checked
  have same : s1.walked w.cl (.ok e) = s1 := rfl
  simp only [finds, same, answer_entry waits page] at runs
  refine ⟨_, runs, ?_⟩
  rw [endWalk_rest]
  exact ⟨congrArg Thread.wait (thread_setThread ..), congrArg Core.tlb (Tab.getD_put_self ..),
    congrArg Cluster.tlb (Tab.getD_put_self ..), rfl⟩

theorem walkReply_absent {bad : Bool} (finds : s1.walkFinds good w.cl w.ctx (w.vpn * 0x10000) = .error bad) :
    ∃ t, exec (.walkReply p) s = .next t ∧ (t.thread p).wait = .answer 0x0017 va ∧ t.mem = s1.mem ∧
      (bad = true → (t.clu w.cl).walkErrs = satAt (2 ^ 64 - 1) ((s1.clu w.cl).walkErrs + 1)) := by
  have runs := walkReply_answers walk started serves alone checked
  have waiting : ((s1.walked w.cl (.error bad)).thread p).wait = .walk va := by rw [thread_eq _ _ _ (walked_threads ..), waits]
  simp only [finds, answer_absent waiting page] at runs
  refine ⟨_, runs, ?_⟩
  rw [endWalk_rest]
  refine ⟨congrArg Thread.wait (thread_setThread ..), walked_mem .., ?_⟩
  rintro rfl
  exact congrArg Cluster.walkErrs (Tab.getD_put_self ..)

end

end

/-- Settles O44: one rule for each step, read off its function. -/
theorem memorySystemSteps : Obligations.MemorySystemSteps := by
  unfold Obligations.MemorySystemSteps
  refine ⟨fun s => ⟨?fetch, ?claim, ?release, ?scrub, ?classes, rfl⟩, fun s p va misses => ⟨?miss, ?reply⟩⟩
  case fetch => exact fun p bs s' runs free fetched => instructionFetch_fetches runs free fetched
  case claim =>
    intro k line u token active copy running next checked uncached idle unawaited
    exact ⟨_, engineClaim_claims token active copy running next checked uncached idle unawaited, rfl, tok?_setTok .., rfl, rfl⟩
  case release =>
    intro k line u token family running written held
    refine ⟨_, engineRelease_releases token family running written held, ?_⟩
    rw [releaseLine_rest]
    exact ⟨rfl, tok?_setTok .., rfl, rfl⟩
  case scrub =>
    intro pa physical free full sound
    refine ⟨fun none => ?_, fun a one => ?_, fun a b two => ?_⟩
    · exact (scrubRead_found physical free full sound (by rw [none]; rfl)).1 rfl
    · rw [(scrubRead_found physical free full sound (by rw [one]; rfl)).2.1 rfl, charge_device, setGran_hub, satAt_pred]
    · have runs := (scrubRead_found physical free full sound (by rw [two]; rfl)).2.2 rfl
      rw [chargeBad_device, setGran_hub, satAt_pred] at runs
      refine ⟨_, runs, ?_, rfl, rfl⟩
      exact congrArg Gran.poison (Tab.getD_put_self ..)
  case classes => exact fun j v block => clsBlkWrite_refused_or_done block
  case miss =>
    rintro _ single rfl serves first room
    refine ⟨_, _, tlbMiss_starts misses single serves first room, rfl, Tab.get?_put_self .., rfl, rfl, rfl, rfl, decide_eq_true_iff⟩
  case reply =>
    intro k w good s1 walk started serves alone page checked waits
    refine ⟨fun e ok table => ?entry, fun bad table => ?absent⟩
    case entry => exact walkReply_entry walk started serves alone page checked waits (by rw [State.walkFinds, if_pos ok, table])
    case absent =>
      have finds : s1.walkFinds good w.cl w.ctx (w.vpn * 0x10000) = .error bad := by
        obtain ⟨ok, table⟩ | ⟨unread, rfl⟩ := table
        · rw [State.walkFinds, if_pos ok, table]
        · rw [State.walkFinds, unread]
          rfl
      obtain ⟨t, runs, answered, mem, counted⟩ := walkReply_absent walk started serves alone page checked waits finds
      exact ⟨t, runs, answered, mem, fun isBad => (counted isBad).trans (satAt_pred _)⟩

end Sys2Proof.Machine
end

section
/-! PROOFS. Injection and class query (O35).

Both forms check an address, take its location and file an access of the granule. The own scratchpad is the window in which they part from
an ordinary access: `err.inj` refuses the targets of translated memory there, `cls.q` goes past the bank budgets. -/

namespace Sys2Proof.Machine

section
variable {s s' : State} {p n al loc o : Nat} {k : AKind} {priv plain : Bool} {va : Word} {w : Win}

/-! ### What a passed check says of the address (R22, R159) -/

theorem windowOf_of_windowCheck {a : Nat} (h : windowCheck priv k a va = .ok w) : windowOf a = some w := by
  unfold windowCheck at h
  grind

theorem windowOf_of_byteCheck {a : Nat} (h : byteCheck priv k a va = .ok w) : windowOf a = some w := by
  unfold byteCheck at h
  split at h
  · exact windowOf_of_windowCheck h
  · cases h

theorem devCheck_keeps {v : Win} (h : devCheck plain n v va = .ok w) : v = w := by
  unfold devCheck at h
  grind

theorem beyond_byte (a : Nat) : beyond a 1 = none := by
  cases window : windowOf a with
  | none => exact beyond_of_windowOf_none window
  | some w => exact Inside.beyond ⟨window, w, window, by cases w <;> simp [Win.same]⟩

theorem windowOf_of_addrCheck (fits : beyond va.toNat n = none) (h : addrCheck priv plain k va n al = .ok w) :
    windowOf va.toNat = some w := by
  cases byte : byteCheck priv k va.toNat va with
  | error e => cases (addrCheck_error fits byte).symm.trans h
  | ok v =>
    cases dev : devCheck plain n v va with
    | error e => cases (addrCheck_devCheck_error fits byte dev).symm.trans h
    | ok u =>
      obtain rfl := devCheck_keeps dev
      rw [addrCheck_ok fits byte dev] at h
      split at h
      · cases h
        exact windowOf_of_byteCheck byte
      · cases h

theorem scratch_window (h : windowOf va.toNat = some (.scratch o)) : 0x7F0000000000 ≤ va.toNat ∧ va.toNat < 0x7F0000020000 := by
  grind [windowOf, nearBase]

theorem addrCheck_of_access (access : s.access p k plain va n = .ok (loc, s')) : ∃ w, addrCheck (s.privileged p) plain k va n n = .ok w := by
  cases checked : addrCheck (s.privileged p) plain k va n n with
  | ok w => exact ⟨w, rfl⟩
  | error e => rw [access_error checked] at access; cases access

/-- A byte of the own scratchpad has a location of the scratchpads. -/
theorem scratch_tag (checked : addrCheck (s.privileged p) plain k va n n = .ok (.scratch o))
    (access : s.access p k plain va n = .ok (loc, s')) : 18 ≤ locTag loc := by
  rw [access_own checked rfl, nearLoc_scratch] at access
  split at access
  · obtain ⟨rfl, -⟩ := Prod.mk.inj (Except.ok.inj access)
    rw [locTag]
    omega
  · cases access

theorem lo64_regVal (s : State) (r : Spec) : lo64 (s.regVal r) = s.val64 r := rfl

theorem unordered_ok (plain : s.me.ordered = false) : s.unordered = .ok () := by
  simp only [State.unordered, plain, Bool.false_eq_true, if_false]

end

section
variable {s s' : State} {a b d : Spec} {loc : Nat}

/-! ### `err.inj` (R224) -/

section
variable (readA : s.canRead a) (readB : s.canRead b) (good : injBad (s.val64 b) (s.val64 a) = false)
include readA readB good

theorem errInj_register (target : injTgt (s.val64 b) = 4) (plain : s.me.ordered = false) :
    exec (.errInj a b) s =
      .next ((s.injectReg (injReg (s.val64 b)) (injSym (s.val64 b)) (injCnt (s.val64 b))).fin 4) := by
  simp [exec_errInj, execErrInj, read2_ok s a b readA readB, lo64_regVal, good, target, unordered_ok plain]

theorem errInj_tile (target : injTgt (s.val64 b) = 3) (plain : s.me.ordered = false) :
    exec (.errInj a b) s = .next ((s.setMe { s.me with injTile := true }).fin 4) := by
  simp [exec_errInj, execErrInj, read2_ok s a b readA readB, lo64_regVal, good, target, unordered_ok plain]

theorem errInj_memory (target : injTgt (s.val64 b) ≤ 2) (access : s.access s.cur .write false (s.val64 a) 1 = .ok (loc, s'))
    (hbm : injTgt (s.val64 b) = 0 → locTag loc = 0) (l2 : injTgt (s.val64 b) = 1 → locTag loc < 18)
    (near : injTgt (s.val64 b) = 2 → 18 ≤ locTag loc) (plain : s'.me.ordered = false) :
    exec (.errInj a b) s = settle s (s'.issueStore 4
      (s'.access0 (.inj (injTgt (s.val64 b)) (injSym (s.val64 b)) (injCnt (s.val64 b))) (s.val64 a) 64 (loc / 64 * 64))) := by
  obtain ⟨w, checked⟩ := addrCheck_of_access access
  have memory : injTgt (s.val64 b) ≠ 3 ∧ injTgt (s.val64 b) ≠ 4 := by omega
  simp only [exec_errInj, execErrInj, read2_ok s a b readA readB, bind_ok, lo64_regVal, good, Bool.false_eq_true, if_false, memory.1,
    memory.2, checked, access, unordered_ok plain, newAcc_eq_access0]
  split
  · have onChip := scratch_tag checked access
    have target : injTgt (s.val64 b) = 2 := by omega
    simp [target, onChip, tagScratch]
  · obtain target | target | target : injTgt (s.val64 b) = 0 ∨ injTgt (s.val64 b) = 1 ∨ injTgt (s.val64 b) = 2 := by omega
    · simp [target, hbm target]
    · simp [target, l2 target, tagScratch]
    · simp [target, near target, tagScratch]

end

/-! ### `cls.q` (R223) -/

theorem bit_ofNat (b : Bool) : (if b = true then 1 else 0 : BitVec 256) = BitVec.ofNat 256 b.toNat := by cases b <;> rfl

theorem clsQ_outside_scratch (read : s.canRead a) (outside : (s.val64 a).toNat < 0x7F0000000000 ∨ 0x7F0000020000 ≤ (s.val64 a).toNat)
    (access : s.access s.cur .read false (s.val64 a) 1 = .ok (loc, s')) :
    ∃ x, x ≤ 1 ∧ exec (.clsQ d a) s = settle s (s'.issueLoad 4 d
      { s'.access0 .clsq (s.val64 a) 64 (loc / 64 * 64) with data := BitVec.ofNat 256 x }) := by
  obtain ⟨w, checked⟩ := addrCheck_of_access access
  have notOwn (o : Nat) (own : w = .scratch o) : False := by
    have := scratch_window (windowOf_of_addrCheck (beyond_byte _) (own ▸ checked))
    omega
  simp only [exec_clsQ, execClsQ, read64_ok s a read, bind_ok, checked, access, bit_ofNat, newAcc_eq_access0]
  exact ⟨_, Bool.toNat_le _, rfl⟩

theorem clsQ_scratch (read : s.canRead a) (lo : 0x7F0000000000 ≤ (s.val64 a).toNat) (hi : (s.val64 a).toNat < 0x7F0000020000) :
    exec (.clsQ d a) s = settle s (s.issueLoad 4 d (s.access0 .clsq (s.val64 a) 64
      (18 * 2 ^ 64 + s.cur / 8 * 0x20000 + ((s.val64 a).toNat - 0x7F0000000000) / 64 * 64))) := by
  have granule : nearLoc s.cur (.scratch ((s.val64 a).toNat - 0x7F0000000000)) / 64 * 64 =
      18 * 2 ^ 64 + s.cur / 8 * 0x20000 + ((s.val64 a).toNat - 0x7F0000000000) / 64 * 64 := by
    rw [nearLoc_scratch]
    omega
  have checked : addrCheck (s.privileged s.cur) false .read (s.val64 a) 1 1 = .ok (.scratch ((s.val64 a).toNat - 0x7F0000000000)) :=
    addrCheck_aligned (inside_scratch Nat.one_pos lo hi) rfl (Nat.mod_one _)
  simp only [exec_clsQ, execClsQ, read64_ok s a read, bind_ok, pure_ok, checked, granule, windowOf_scratch lo hi, Bool.false_eq_true,
    if_false, newAcc_eq_access0]
  rfl

end

/-- Settles O35: injection into the context is one write of its state; the other forms file the access that they checked. -/
theorem injectionAndClassQuery : Obligations.InjectionAndClassQuery := by
  unfold Obligations.InjectionAndClassQuery
  rintro s s' d a b _ loc readA readB rfl good
  refine ⟨errInj_register readA readB good, errInj_tile readA readB good, ?memory, ?query, ?scratch⟩
  case memory =>
    intro target access hbm l2 near plain room
    rw [errInj_memory readA readB good target access hbm l2 near plain]
    exact issueStore_settles s room
  case query =>
    intro outside access can
    obtain ⟨x, bit, runs⟩ := clsQ_outside_scratch (d := d) readA outside access
    obtain ⟨t, issues, issued⟩ := issueLoad_settles s can
    exact ⟨t, x, runs.trans issues, bit, issued⟩
  case scratch =>
    intro lo hi can
    rw [clsQ_scratch readA lo hi]
    exact issueLoad_settles s can

end Sys2Proof.Machine
end

section
/-! PROOFS. What the checks of an access change (O10).

The checks read the state and write the TLBs, the dirty log of the core and the list of its pager: each of these writes is a case of
`State.Checked`, which composes along a check. -/

namespace Sys2Proof.Machine

/-! ### Cores and clusters after a write -/

theorem core_setCore (s : State) (c i : Nat) (v : Core) : (s.setCore c v).core i = if i = c then v else s.core i := by
  simp only [State.core, setCore_cores, Tab.getD, Tab.get?_put]
  split <;> rfl

theorem clu_setClu (s : State) (k i : Nat) (v : Cluster) : (s.setClu k v).clu i = if i = k then v else s.clu i := by
  simp only [State.clu, setClu_clus, Tab.getD, Tab.get?_put]
  split <;> rfl

@[simp] theorem clu_setCore (s : State) (c i : Nat) (v : Core) : (s.setCore c v).clu i = s.clu i := rfl

@[simp] theorem core_setClu (s : State) (k i : Nat) (v : Cluster) : (s.setClu k v).core i = s.core i := rfl

/-- A place and its core stand in the same cluster (R17). -/
theorem cluOfCore_coreOf (p : Nat) : cluOfCore (coreOf p) = cluOfPlace p := by
  have cluster : p / 8 * 8 / 256 = p / 256 := by omega
  have die : p / 8 * 8 / 8192 = p / 8192 := by omega
  simp only [cluOfCore, cluOfPlace, coreOf, cluster, die]

/-! ### What may change (R227, R228, R237) -/

/-- From `s` to `t`, of the cores and clusters, nothing has changed but the TLBs of core `c` and of its cluster, the dirty log of the core,
and the requests to its pager. -/
structure State.Checked (s t : State) (c : Nat) : Prop where
  core : ∀ i, t.core i = { s.core i with
    tlb := (t.core i).tlb, dlog := (t.core i).dlog, dlogAsked := (t.core i).dlogAsked, asked := (t.core i).asked }
  pages : ∀ i, i ≠ c → (t.core i).tlb = (s.core i).tlb ∧ (t.core i).dlog = (s.core i).dlog ∧ (t.core i).dlogAsked = (s.core i).dlogAsked
  asked : ∀ i, i ≠ pagerOf c → (t.core i).asked = (s.core i).asked
  clu : ∀ k, t.clu k = { s.clu k with tlb := (t.clu k).tlb }
  clus : ∀ k, k ≠ cluOfCore c → t.clu k = s.clu k

section
variable {s t u : State} {c ctx p n al loc : Nat} {e : TlbEntry} {r : PagerReq} {tlb : List TlbEntry} {dlog : List Word} {dlogAsked : Bool}
  {k : AKind} {plain : Bool} {a : Word}

theorem State.Checked.refl : s.Checked s c := ⟨fun _ => rfl, fun _ _ => ⟨rfl, rfl, rfl⟩, fun _ _ => rfl, fun _ => rfl, fun _ _ => rfl⟩

theorem State.Checked.trans (first : s.Checked t c) (second : t.Checked u c) : s.Checked u c where
  core i := by rw [second.core i, first.core i]
  pages i other := by
    obtain ⟨tlb, dlog, asked⟩ := first.pages i other
    obtain ⟨tlb', dlog', asked'⟩ := second.pages i other
    exact ⟨tlb'.trans tlb, dlog'.trans dlog, asked'.trans asked⟩
  asked i other := (second.asked i other).trans (first.asked i other)
  clu k := by rw [second.clu k, first.clu k]
  clus k other := (second.clus k other).trans (first.clus k other)

/-- The core's own TLB and dirty log. -/
theorem State.Checked.setCore : s.Checked (s.setCore c { s.core c with tlb, dlog, dlogAsked }) c where
  core i := by
    rw [core_setCore]
    split
    case isTrue here => exact here ▸ rfl
    case isFalse => rfl
  pages i other := by
    rw [core_setCore, if_neg other]
    exact ⟨rfl, rfl, rfl⟩
  asked i _ := by
    rw [core_setCore]
    split
    case isTrue here => exact here ▸ rfl
    case isFalse => rfl
  clu _ := rfl
  clus _ _ := rfl

/-- A request to the core's pager. -/
theorem State.Checked.askPager : s.Checked (s.askPager c r) c where
  core i := by
    rw [State.askPager, core_setCore]
    split
    case isTrue here => exact here ▸ rfl
    case isFalse => rfl
  pages i _ := by
    rw [State.askPager, core_setCore]
    split
    case isTrue here => exact here ▸ ⟨rfl, rfl, rfl⟩
    case isFalse => exact ⟨rfl, rfl, rfl⟩
  asked i other := by rw [State.askPager, core_setCore, if_neg other]
  clu _ := rfl
  clus _ _ := rfl

/-- The TLB of the core's cluster. -/
theorem State.Checked.setClu : s.Checked (s.setClu (cluOfCore c) { s.clu (cluOfCore c) with tlb }) c where
  core _ := rfl
  pages _ _ := ⟨rfl, rfl, rfl⟩
  asked _ _ := rfl
  clu k := by
    rw [clu_setClu]
    split
    case isTrue here => exact here ▸ rfl
    case isFalse => rfl
  clus k other := by rw [clu_setClu, if_neg other]

/-! ### The checks of an access, from the dirty log up -/

theorem logPage_checked (logged : s.logPage c ctx e = some t) : s.Checked t c := by
  simp only [State.logPage] at logged
  split at logged
  · cases logged
  · cases logged
    split
    · exact (State.Checked.setCore.trans .askPager).trans .setClu
    · exact State.Checked.setCore.trans .setClu

theorem logDirty_checked (logged : s.logDirty p ctx e = .ok t) : s.Checked t (coreOf p) := by
  simp only [State.logDirty] at logged
  split at logged
  case h_1 page =>
    cases logged
    exact logPage_checked page
  case h_2 => cases logged

theorem tlbLookup_checked (found : s.tlbLookup c ctx n = some (e, t)) : s.Checked t c := by
  simp only [State.tlbLookup] at found
  split at found
  · cases found
    exact .refl
  · split at found
    · cases found
    · cases found
      exact State.Checked.setClu.trans .setCore

theorem useEntry_checked (ok : s.useEntry p e k a = .ok (loc, t)) : s.Checked t (coreOf p) := by
  unfold State.useEntry at ok
  have ok := ok_of_checked (ok_of_checked (ok_of_checked (ok_of_checked ok)))
  split at ok
  · split at ok
    case h_1 logged =>
      cases ok
      exact logDirty_checked logged
    case h_2 => cases ok
  · cases ok
    exact .refl

theorem translate_checked (ok : s.translate p k a = .ok (loc, t)) : s.Checked t (coreOf p) := by
  simp only [State.translate] at ok
  have ok := ok_of_checked ok
  split at ok
  · cases ok
  · split at ok
    case h_1 found =>
      split at ok
      · cases ok
      · exact (tlbLookup_checked found).trans (useEntry_checked ok)
    case h_2 => cases ok

theorem accessAl_checked (ok : s.accessAl p k plain a n al = .ok (loc, t)) : s.Checked t (coreOf p) := by
  simp only [State.accessAl] at ok
  split at ok
  · cases ok
  · exact translate_checked ok
  · split at ok
    · split at ok
      · cases ok
        exact .refl
      · cases ok
    · cases ok
      exact .refl

end

/-- Settles O10: along the checks of an access only the TLBs, the dirty log and the list of the pager are written. -/
theorem accessChecksChangeOnlyTlbs : Obligations.AccessChecksChangeOnlyTlbs := by
  unfold Obligations.AccessChecksChangeOnlyTlbs
  intro s t p k plain a n loc access
  have checked : s.Checked t (coreOf p) := accessAl_checked access
  exact ⟨access_keeps access, checked.core, checked.pages, checked.asked, checked.clu,
    fun cl other => checked.clus cl (cluOfCore_coreOf p ▸ other)⟩

end Sys2Proof.Machine
end

section
/-! PROOFS. TLB writes, invalidations and probes; sleepers that wake and dirty logs that are harvested (O34). -/

namespace Sys2Proof.Machine

/-! ### Fields of words, and tables whose values change -/

theorem wbits_of_lt {v : Word} {n : Nat} (small : v.toNat < 2 ^ n) : wbits v 0 n = v.toNat := by
  rw [wbits, bits, Nat.pow_zero, Nat.div_one, Nat.mod_eq_of_lt small]

theorem wbits_above {v : Word} {lo : Nat} (n : Nat) (small : v.toNat < 2 ^ lo) : wbits v lo n = 0 := by
  rw [wbits, bits, Nat.div_eq_of_lt small, Nat.zero_mod]

/-- A code of R236 takes up the low byte of its word. -/
theorem wakeCode_fields {v : Word} (known : v.toNat ≤ 2) : wbits v 0 8 = v.toNat ∧ wbits v 8 56 = 0 :=
  ⟨wbits_of_lt (by omega), wbits_above 56 (by omega)⟩

theorem Tab.get?_mapV {α β : Type} (f : Nat → α → β) (t : Tab α) (k : Nat) :
    Tab.get? (Tab.mapV f t) k = (Tab.get? t k).map (f k) := by
  induction t with
  | nil => rfl
  | cons e t ih =>
    simp only [Tab.mapV, List.map_cons, Tab.get?]
    split
    case isTrue here => exact here ▸ rfl
    case isFalse => exact ih

/-- A change that leaves a value of no entry as it is. -/
theorem Tab.getD_mapV {α : Type} {f : Nat → α → α} {d : α} (t : Tab α) {k : Nat} (unlisted : f k d = d) :
    Tab.getD (Tab.mapV f t) k d = f k (Tab.getD t k d) := by
  rw [Tab.getD, Tab.get?_mapV, Tab.getD]
  cases Tab.get? t k with
  | none => exact unlisted.symm
  | some v => rfl

section
variable {s : State} {a b d : Spec}

/-! ### `tlb.wr` (R232) -/

/-- The TLBs that selector `v` names hold the entry: that of its core, that of the own cluster, or both. -/
def State.putTlbs (s : State) (v : Word) (e : TlbEntry) : State :=
  let t := if selTgt v = 0 ∨ selTgt v = 2 then
    s.setCore (selCore v) { s.core (selCore v) with tlb := coreTlbPut (s.core (selCore v)).tlb e } else s
  if selTgt v = 1 ∨ selTgt v = 2 then
    t.setClu (cluOfPlace s.cur) { t.clu (cluOfPlace s.cur) with tlb := cluTlbPut (t.clu (cluOfPlace s.cur)).tlb e }
  else t

theorem putTlbs_rest (s : State) (v : Word) (e : TlbEntry) : s.SameButUnits (s.putTlbs v e) := by
  simp only [State.putTlbs]
  split <;> split <;> rfl

theorem core_putTlbs (s : State) (v : Word) (e : TlbEntry) : ((s.putTlbs v e).core (selCore v)).tlb =
    if selTgt v = 0 ∨ selTgt v = 2 then coreTlbPut (s.core (selCore v)).tlb e else (s.core (selCore v)).tlb := by
  by_cases core : selTgt v = 0 ∨ selTgt v = 2
  · by_cases clu : selTgt v = 1 ∨ selTgt v = 2 <;>
      simp only [State.putTlbs, if_pos core, clu, if_true, if_false, core_setClu, core_setCore]
  · by_cases clu : selTgt v = 1 ∨ selTgt v = 2 <;> simp only [State.putTlbs, if_neg core, clu, if_true, if_false, core_setClu]

theorem clu_putTlbs (s : State) {v : Word} (e : TlbEntry) (clu : selTgt v = 1 ∨ selTgt v = 2) :
    ((s.putTlbs v e).clu (cluOfPlace s.cur)).tlb = cluTlbPut (s.clu (cluOfPlace s.cur)).tlb e := by
  simp only [State.putTlbs, if_pos clu, clu_setClu, if_true]
  split <;> rfl

section
variable (readA : s.canRead a) (readB : s.canRead b) (sel : s.selCheck (s.val64 b) 0 [0, 1, 2] = .ok ())
include readA readB sel

theorem tlbWr_refused (bad : entryOk (s.regVal a) = false) :
    exec (.tlbWr a b) s = .next (s.takeFault { code := 0x0061, syn := s.val64 a }) := by
  simp only [exec_tlbWr, execTlbWr, read2_ok s a b readA readB, bind_ok, lo64_regVal, sel, bad, Bool.not_false, if_true, bind_error]
  rfl

theorem tlbWr_ok (good : entryOk (s.regVal a) = true) (plain : s.me.ordered = false) :
    exec (.tlbWr a b) s = .next ((s.putTlbs (s.val64 b) (s.regVal a)).fin 4) := by
  simp only [exec_tlbWr, execTlbWr, read2_ok s a b readA readB, bind_ok, lo64_regVal, sel, good, Bool.not_true, Bool.false_eq_true,
    if_false, unordered_ok plain, pure_ok, settle_ok]
  rfl

theorem tlbWr_core (good : entryOk (s.regVal a) = true) (plain : s.me.ordered = false) (target : selTgt (s.val64 b) = 0) :
    exec (.tlbWr a b) s = .next ((s.setCore (selCore (s.val64 b))
      { s.core (selCore (s.val64 b)) with tlb := coreTlbPut (s.core (selCore (s.val64 b))).tlb (s.regVal a) }).fin 4) := by
  have alone : ¬ (selTgt (s.val64 b) = 1 ∨ selTgt (s.val64 b) = 2) := by omega
  simp only [tlbWr_ok readA readB sel good plain, State.putTlbs, if_pos (Or.inl target), if_neg alone]

theorem tlbWr_cluster (good : entryOk (s.regVal a) = true) (plain : s.me.ordered = false)
    (target : selTgt (s.val64 b) = 1 ∨ selTgt (s.val64 b) = 2) :
    ∃ t, exec (.tlbWr a b) s = .next t ∧ t.me.pc = s.me.pc + 4 ∧ t.mem = s.mem ∧
      (t.clu (cluOfPlace s.cur)).tlb = cluTlbPut (s.clu (cluOfPlace s.cur)).tlb (s.regVal a) ∧
      (t.core (selCore (s.val64 b))).tlb =
        if selTgt (s.val64 b) = 2 then coreTlbPut (s.core (selCore (s.val64 b))).tlb (s.regVal a)
        else (s.core (selCore (s.val64 b))).tlb := by
  have rest := putTlbs_rest s (s.val64 b) (s.regVal a)
  have me : (s.putTlbs (s.val64 b) (s.regVal a)).me = s.me := me_eq _ _ (congrArg State.threads rest :) (congrArg State.cur rest :)
  have both : selTgt (s.val64 b) = 0 ∨ selTgt (s.val64 b) = 2 ↔ selTgt (s.val64 b) = 2 := by omega
  refine ⟨_, tlbWr_ok readA readB sel good plain, ?_, (congrArg State.mem rest :), clu_putTlbs s _ target,
    (core_putTlbs s _ _).trans (if_congr both rfl rfl)⟩
  rw [fin_me, me]
  rfl

end

/-! ### `tlb.inv` (R233) -/

/-- A core after an invalidation by selector `v`, mode `mode` and page `vpn`. -/
def invCore (mode : Nat) (v : Word) (vpn c : Nat) (k : Core) : Core :=
  if selTgt v == 3 || ((selTgt v == 0 || selTgt v == 2) && c == selCore v) then
    { k with tlb := k.tlb.filter fun e => !invHits mode (selCtx v) vpn e }
  else k

/-- A cluster after an invalidation that a context of cluster `own` issues. -/
def invClu (mode : Nat) (v : Word) (vpn own cl : Nat) (k : Cluster) : Cluster :=
  if selTgt v == 3 || ((selTgt v == 1 || selTgt v == 2) && cl == own) then
    { k with tlb := k.tlb.filter fun e => !invHits mode (selCtx v) vpn e }
  else k

/-- R233: the state in which the named entries are gone. -/
def State.invalidated (s : State) (mode : Nat) (v : Word) (vpn : Nat) : State :=
  { s with cores := Tab.mapV (invCore mode v vpn) s.cores, clus := Tab.mapV (invClu mode v vpn (cluOfPlace s.cur)) s.clus }

section
variable {mode vpn c k : Nat} {v : Word} {e : TlbEntry}

theorem core_invalidated (s : State) (mode : Nat) (v : Word) (vpn c : Nat) :
    (s.invalidated mode v vpn).core c = invCore mode v vpn c (s.core c) :=
  Tab.getD_mapV _ (by unfold invCore; split <;> rfl)

theorem clu_invalidated (s : State) (mode : Nat) (v : Word) (vpn k : Nat) :
    (s.invalidated mode v vpn).clu k = invClu mode v vpn (cluOfPlace s.cur) k (s.clu k) :=
  Tab.getD_mapV _ (by unfold invClu; split <;> rfl)

theorem kept_not_hit {tlb : List TlbEntry} {ctx : Nat} (kept : e ∈ tlb.filter fun e => !invHits mode ctx vpn e) :
    invHits mode ctx vpn e = false := by
  simpa using (List.mem_filter.mp kept).2

theorem invalidated_core_entry (named : selTgt v = 3 ∨ ((selTgt v = 0 ∨ selTgt v = 2) ∧ c = selCore v))
    (left : e ∈ ((s.invalidated mode v vpn).core c).tlb) : invHits mode (selCtx v) vpn e = false := by
  rw [core_invalidated, invCore, if_pos (by simpa using named)] at left
  exact kept_not_hit left

theorem invalidated_clu_entry (named : selTgt v = 3 ∨ ((selTgt v = 1 ∨ selTgt v = 2) ∧ k = cluOfPlace s.cur))
    (left : e ∈ ((s.invalidated mode v vpn).clu k).tlb) : invHits mode (selCtx v) vpn e = false := by
  rw [clu_invalidated, invClu, if_pos (by simpa using named)] at left
  exact kept_not_hit left

/-- With no access in flight the invalidation is not held up. -/
theorem tlbInv_ok (readA : s.canRead a) (readB : s.canRead b) (sel : s.selCheck (s.val64 b) mode [0, 1, 2, 3] = .ok ())
    (plain : s.me.ordered = false) (idle : s.acc = []) :
    s.tlbInv mode a b = .ok ((s.invalidated mode (s.val64 b) (wbits (s.val64 a) 16 32)).fin 4) := by
  simp only [State.tlbInv, read2_ok s a b readA readB, bind_ok, lo64_regVal, sel, unordered_ok plain]
  exact if_neg (by simp [idle])

theorem tlbInv_settles {i : Instr} (arm : exec i s = settle s (s.tlbInv mode a b)) (readA : s.canRead a) (readB : s.canRead b)
    (plain : s.me.ordered = false) (sel : s.selCheck (s.val64 b) mode [0, 1, 2, 3] = .ok ()) (idle : s.acc = []) :
    ∃ t, exec i s = .next t ∧ t.me = s.me.fin 4 ∧ t = { s with threads := t.threads, cores := t.cores, clus := t.clus } ∧
      (∀ c, selTgt (s.val64 b) = 3 ∨ ((selTgt (s.val64 b) = 0 ∨ selTgt (s.val64 b) = 2) ∧ c = selCore (s.val64 b)) →
        ∀ e ∈ (t.core c).tlb, invHits mode (selCtx (s.val64 b)) (wbits (s.val64 a) 16 32) e = false) ∧
      (∀ k, selTgt (s.val64 b) = 3 ∨ ((selTgt (s.val64 b) = 1 ∨ selTgt (s.val64 b) = 2) ∧ k = cluOfPlace s.cur) →
        ∀ e ∈ (t.clu k).tlb, invHits mode (selCtx (s.val64 b)) (wbits (s.val64 a) 16 32) e = false) :=
  ⟨_, arm.trans (congrArg (settle s) (tlbInv_ok readA readB sel plain idle)), fin_me .., rfl,
    fun _ named _ left => invalidated_core_entry named left, fun _ named _ left => invalidated_clu_entry named left⟩

end

/-! ### `tlb.prb` (R234) -/

theorem tlbPrb_settles (readA : s.canRead a) (readB : s.canRead b) (write : s.canWrite d) (plain : s.me.ordered = false)
    (sel : s.selCheck (s.val64 b) 0 [0, 1] = .ok ()) :
    ∃ t, exec (.tlbPrb d a b) s = .next t ∧ s.Wrote t 4 d
      (((if selTgt (s.val64 b) = 0 then fixedEntry (selCore (s.val64 b)) (selCtx (s.val64 b)) (wbits (s.val64 a) 16 32) else none) <|>
        (if selTgt (s.val64 b) = 0 then (s.core (selCore (s.val64 b))).tlb else (s.clu (cluOfPlace s.cur)).tlb).find?
          (teMatch (selCtx (s.val64 b)) (wbits (s.val64 a) 16 32))).getD 0) := by
  by_cases core : selTgt (s.val64 b) = 0
  · simp only [exec_tlbPrb, execTlbPrb, read2_ok s a b readA readB, bind_ok, lo64_regVal, sel, unordered_ok plain, core, if_true]
    exact put_settles s write
  · simp only [exec_tlbPrb, execTlbPrb, read2_ok s a b readA readB, bind_ok, lo64_regVal, sel, unordered_ok plain, core, if_false]
    exact put_settles s write

/-! ### `pg.wake` (R236) -/

/-- The thread that a wake leaves at a place, once its request has left the pager's list. -/
theorem thread_unask (s : State) (p q : Nat) (th : Thread) : ((s.setThread p th).unask p).thread q = (s.setThread p th).thread q := rfl

/-- A fault for an access asleep goes to its context, unless a speculative ordered task must wait for the frontier. -/
theorem sleeperFault_unask {p : Nat} {th : Thread} (f : Flt) (calm : th.speculative = false) :
    ((s.setThread p th).unask p).sleeperFault p f = (s.setThread p { th with wait := .fault f th.pc }).unask p := by
  simp only [State.sleeperFault, thread_unask, thread_setThread, calm, Bool.false_eq_true, if_false]
  simp only [State.unask, State.pagerTook, State.setThread, Tab.put_put]

/-- What the access asleep goes on with, for each code: it runs again, or raises page-poison or page-absent. -/
def wakeOutcome (code : Nat) (va ipc : Word) : Wait :=
  if code = 0 then .none else .fault { code := if code = 1 then 0x0016 else 0x0017, addr := va } ipc

/-- The sleeper at `p` as the wake leaves it; its pre-emption bound was paused meanwhile. -/
def State.woken (s : State) (p code since : Nat) (va : Word) : Thread :=
  { s.thread p with wait := wakeOutcome code va (s.thread p).pc, pendAt := pauseFrom s.cyc since (s.thread p).pendAt }

section
variable {p since : Nat} {va : Word} (readA : s.canRead a) (readB : s.canRead b) (plain : s.me.ordered = false)
  (place : p = wbits (s.val64 a) 0 16) (valid : validPlace p = true) (known : (s.val64 b).toNat ≤ 2)
include readA readB plain place valid known

theorem pgWake_wakes (sleeps : (s.thread p).wait = .pager va since) (calm : (s.thread p).speculative = false) : exec (.pgWake d a b) s =
    settle s (((s.setThread p (s.woken p (s.val64 b).toNat since va)).unask p).put 4 d 1) := by
  obtain ⟨code, reserved⟩ := wakeCode_fields known
  simp only [exec_pgWake, execPgWake, read2_ok s a b readA readB, bind_ok, lo64_regVal, code, reserved, Nat.not_lt.mpr known,
    ne_eq, not_true_eq_false, or_self, ← place, valid, Bool.not_true, Bool.false_eq_true, if_false, unordered_ok plain, sleeps]
  by_cases quiet : (s.val64 b).toNat = 0
  · simp only [State.woken, wakeOutcome, if_pos quiet]
  · have asleep : ({ s.thread p with wait := .none, pendAt := pauseFrom s.cyc since (s.thread p).pendAt } : Thread).speculative = false :=
      calm
    simp only [State.woken, wakeOutcome, if_neg quiet]
    exact congrArg (fun x : State => settle s (x.put 4 d 1)) (sleeperFault_unask _ asleep)

theorem pgWake_none (write : s.canWrite d) (awake : ∀ va since, (s.thread p).wait ≠ .pager va since) :
    ∃ t, exec (.pgWake d a b) s = .next t ∧ s.Wrote t 4 d 0 := by
  obtain ⟨code, reserved⟩ := wakeCode_fields known
  simp only [exec_pgWake, execPgWake, read2_ok s a b readA readB, bind_ok, lo64_regVal, code, reserved, Nat.not_lt.mpr known,
    ne_eq, not_true_eq_false, or_self, ← place, valid, Bool.not_true, Bool.false_eq_true, if_false, unordered_ok plain]
  exact put_settles s write

/-- R236: another context's wake answers its access and returns 1. -/
theorem pgWake_settles (sleeps : (s.thread p).wait = .pager va since) (calm : (s.thread p).speculative = false) (write : s.canWrite d)
    (other : p ≠ s.cur) (dest : d ≠ 1) :
    ∃ t, exec (.pgWake d a b) s = .next t ∧ (t.thread p).wait = wakeOutcome (s.val64 b).toNat va (s.thread p).pc ∧
      t.me.regs[d] = 1 ∧ t.me.pc = s.me.pc + 4 ∧ t.mem = s.mem := by
  have ready : ((s.setThread p (s.woken p (s.val64 b).toNat since va)).unask p).canWrite d := write
  obtain ⟨t, puts, wrote⟩ := put_settles s ready (len := 4) (v := 1)
  have sleeper : t.thread p = s.woken p (s.val64 b).toNat since va := (wrote.only.others p other).trans (thread_setThread ..)
  have pc : ((s.setThread p (s.woken p (s.val64 b).toNat since va)).unask p).me.pc = s.me.pc :=
    congrArg Thread.pc (thread_setThread_ne s p s.cur _ other.symm)
  exact ⟨t, (pgWake_wakes readA readB plain place valid known sleeps calm).trans puts, congrArg Thread.wait sleeper, wrote.dest dest,
    wrote.pc.trans (congrArg (· + wd 4) pc), (congrArg State.mem wrote.only.rest :)⟩

end

/-! ### `dl.hv` (R238) -/

section
variable {s2 : State} {loc last c : Nat} {f : PagerReq → Bool}

theorem writeSpan_nil (s : State) (cls : Nat) (w : Reader) (n loc : Nat) : s.writeSpan cls w n loc [] = (none, s) := by cases n <;> rfl

/-- A store that waited on the full log runs again from where it stood. -/
theorem wakeDirty_pc (s : State) (c : Nat) : (s.wakeDirty c).me.pc = s.me.pc := by
  rw [State.me, State.thread, State.wakeDirty, Tab.getD_mapV _ rfl]
  split
  · split <;> rfl
  · rfl

theorem dlHv_empty (readA : s.canRead a) (readB : s.canRead b) (form : (s.val64 a).toNat < 2 ^ 16) (core : (s.val64 a).toNat % 8 = 0)
    (valid : validPlace (s.val64 a).toNat = true) (own : cluOfPlace (s.val64 a).toNat = cluOfPlace s.cur)
    (pair : isDispatch (s.val64 a).toNat = isDispatch s.cur) (buffer : s.hvBuffer (s.val64 b) = .ok (loc, last, s2))
    (free : s2.busy d = false) (plain : s2.me.ordered = false) (performed : s2.anyAcc (fun _ => true) = false)
    (empty : (s2.core ((s.val64 a).toNat / 8)).dlog = []) :
    exec (.dlHv d a b) s = settle s ((((s2.setCore ((s.val64 a).toNat / 8)
      { s2.core ((s.val64 a).toNat / 8) with dlog := [], dlogAsked := false }).wakeDirty ((s.val64 a).toNat / 8)).pagerTook
        (fun r => r == .harvest ((s.val64 a).toNat / 8))).put 4 d 0) := by
  have place : wbits (s.val64 a) 0 16 = (s.val64 a).toNat := wbits_of_lt form
  have low : (s.val64 a).toNat / 2 ^ 16 = 0 := Nat.div_eq_of_lt form
  simp only [exec_dlHv, execDlHv, read2_ok s a b readA readB, bind_ok, lo64_regVal, place, low, core, valid, own, pair, buffer,
    unordered_ok plain, State.free1, free, performed, empty, List.flatMap_nil, List.length_nil, Nat.min, Nat.zero_min, List.take_nil,
    List.drop_nil, writeSpan_nil, Option.isSome_none, ne_eq, not_true_eq_false, or_self, Bool.not_true, Bool.and_false, Bool.false_eq_true,
    if_false]
  rfl

/-- R238: a harvest of an empty log returns 0 entries and writes no byte. -/
theorem dlHv_settles (runs : exec (.dlHv d a b) s = settle s ((((s2.setCore c
      { s2.core c with dlog := [], dlogAsked := false }).wakeDirty c).pagerTook f).put 4 d 0)) (free : s2.busy d = false) (dest : d ≠ 1) :
    ∃ t, exec (.dlHv d a b) s = .next t ∧ t.me.regs[d] = 0 ∧ t.me.pc = s2.me.pc + 4 ∧ t.mem = s2.mem := by
  have ready : (((s2.setCore c { s2.core c with dlog := [], dlogAsked := false }).wakeDirty c).pagerTook f).canWrite d := .inr free
  obtain ⟨t, puts, wrote⟩ := put_settles s ready (len := 4) (v := 0)
  exact ⟨t, runs.trans puts, wrote.dest dest, wrote.pc.trans (congrArg (· + wd 4) (wakeDirty_pc ..)),
    (congrArg State.mem wrote.only.rest :)⟩

end

end

/-- Settles O34: each instruction checks its operands and makes its one change. -/
theorem translationAndPagers : Obligations.TranslationAndPagers := by
  unfold Obligations.TranslationAndPagers
  constructor
  case left =>
    rintro s d a b _ readA readB write rfl plain
    refine ⟨?core, ?cluster, ?refused, ?invalidate, ?probe⟩
    case core => exact fun sel good target => tlbWr_core readA readB sel good plain target
    case cluster => exact fun sel good target => tlbWr_cluster readA readB sel good plain target
    case refused => exact fun sel bad => tlbWr_refused readA readB sel bad
    case invalidate =>
      simp only [List.forall_mem_cons]
      exact ⟨tlbInv_settles rfl readA readB plain, tlbInv_settles rfl readA readB plain, tlbInv_settles rfl readA readB plain,
        List.forall_mem_nil _⟩
    case probe => exact fun sel => tlbPrb_settles readA readB write plain sel
  case right =>
    intro s d a b readA readB write plain
    refine ⟨?wake, ?none, ?harvest⟩
    case wake =>
      intro p va since place valid other sleeps calm
      simp only [List.forall_mem_cons]
      have wakes {c : Word} (code : s.val64 b = c) (known : c.toNat ≤ 2) (dest : d ≠ 1) :=
        code ▸ pgWake_settles readA readB plain place valid (code ▸ known) sleeps calm write other dest
      exact ⟨fun code => wakes code (by decide), fun code => wakes code (by decide), fun code => wakes code (by decide),
        List.forall_mem_nil _⟩
    case none => exact fun valid known awake => pgWake_none readA readB plain rfl valid known write awake
    case harvest =>
      intro s2 loc last form core valid own pair buffer free plain2 performed empty dest
      exact dlHv_settles (dlHv_empty readA readB form core valid own pair buffer free plain2 performed empty) free dest

end Sys2Proof.Machine
end

section
/-! PROOFS. How a record leaves (R76, R248, R273): replies, requests and their tags (O26). -/

namespace Sys2Proof.Machine

section
variable {s s' s'' : State} {a b d : Spec} {m : Msg} {len loc k n : Nat}

/-! ### The payload and the send -/

theorem payload_ok (pay : s.canPay a) : s.payload a = .ok (s.payOf a) := by
  obtain ⟨first, second, third⟩ := pay
  unfold State.payload
  split
  case isTrue none =>
    subst none
    rfl
  case isFalse => simp only [readReg_ok s _ first, readReg_ok s _ second, readReg_ok s _ third, bind_ok, pure_ok, State.payOf]

theorem myMsg_eq_recordOf (s : State) (h0 h1 : Word) (pay : Vector Reg 3) (dest : Dest) :
    s.myMsg h0 h1 pay dest = s.recordOf h0 h1 pay dest := rfl

/-- R76, R192: what can be sent ends the region and stands in the mesh. -/
theorem send_ok (can : s.canSend) : s.send m = .ok ((s.endRegion s.cur).launchMsg m) := by
  obtain ⟨performed, stored, room, plain⟩ := can
  have plain' : (s.endRegion s.cur).me.speculative = false := by rw [endRegion_me]; exact plain
  have room' : ¬ 8 ≤ (s.endRegion s.cur).me.sends := by rw [endRegion_me]; exact Nat.not_le.mpr room
  simp only [State.send, State.release, regionEnd_ok performed stored, bind_ok, plain', Bool.false_eq_true, if_false, if_neg room', pure_ok]

theorem launchMsg_mesh (s : State) (m : Msg) :
    (s.launchMsg m).mesh = Tab.put s.mesh s.nextId
      { m with h1 := mkH1 (hRoute m.h1) (hRtag m.h1) (s.cyc % 2 ^ 24), ord := s.nextId, counted := true } := by
  rw [State.launchMsg, setMe_mesh, State.post, Msg.stamped]
  rfl

theorem launchMsg_me (s : State) (m : Msg) : (s.launchMsg m).me = { s.me with sends := s.me.sends + 1, wait := .none } := me_setMe ..

/-- An instruction that ends with its send. -/
theorem launchMsg_sent (s : State) (len : Nat) (m : Msg) : s.Sent (((s.endRegion s.cur).launchMsg m).fin len) len m where
  mesh := by rw [State.fin, setMe_mesh, launchMsg_mesh, endRegion_cyc, endRegion_nextId, endRegion_rest]
  me := by rw [fin_me, launchMsg_me, endRegion_me]; rfl
  rest := by rw [endRegion_rest]; rfl
  others p other := by
    have elsewhere : p ≠ (s.endRegion s.cur).cur := by rwa [endRegion_cur]
    exact (thread_setMe_ne ((s.endRegion s.cur).launchMsg m) p _ elsewhere).trans
      ((thread_setMe_ne ((s.endRegion s.cur).post { m with counted := true }) p _ elsewhere).trans (endRegion_others other))

/-- The rest of an instruction of four bytes whose checks have passed: it sends `m` and ends. -/
theorem send_settles (σ : State) (can : s.canSend) (m : Msg) :
    ∃ t, settle σ (do let u ← s.send m; pure (u.fin 4)) = .next t ∧ s.Sent t 4 m :=
  ⟨_, by rw [send_ok can, bind_ok, pure_ok, settle_ok], launchMsg_sent s 4 m⟩

/-! ### Fields of a header (R239) -/

theorem mkH1_toNat (r g e : Nat) : (mkH1 r g e).toNat = r % 2 ^ 24 + g % 2 ^ 16 * 2 ^ 24 + e % 2 ^ 24 * 2 ^ 40 := by
  rw [mkH1, wd, BitVec.toNat_ofNat]
  omega

theorem hRoute_mkH1 (r g e : Nat) : hRoute (mkH1 r g e) = r % 2 ^ 24 := by
  rw [hRoute, wbits, bits, mkH1_toNat]
  omega

theorem hRoute_stamped (h1 : Word) (g e : Nat) : hRoute (mkH1 (hRoute h1) g e) = hRoute h1 := by
  rw [hRoute_mkH1, hRoute, wbits, bits]
  exact Nat.mod_mod ..

/-- R239: a record with its send time has the scope that it was made with. -/
theorem recordOf_stamped (s : State) (h0 h1 : Word) (pay : Vector Reg 3) (dest : Dest) (now ord : Nat) :
    ({ s.recordOf h0 h1 pay dest with h1 := mkH1 (hRoute h1) (hRtag h1) now, ord, counted := true } : Msg) =
      { s.recordOf h0 (mkH1 (hRoute h1) (hRtag h1) now) pay dest with ord, counted := true } := by
  simp only [State.recordOf, hRoute_stamped]

/-! ### Replies and the tag table (R269, R271) -/

theorem rpl_sends (pay : s.canPay a) (can : s.canSend) :
    ∃ t, exec (.rpl a) s = .next t ∧ s.Sent t 4 (s.recordOf (mkH0 2 0 0)
      (mkH1 (hRoute s.me.h1 % 2 ^ 16) (hRtag s.me.h1) 0) (s.payOf a) (.core (hRoute s.me.h1 % 2 ^ 16 / 8))) := by
  simp only [exec_rpl, execRpl, latch_one_ok pay.1, payload_ok pay, bind_ok, myMsg_eq_recordOf]
  exact send_settles s can _

/-- The running context is held no longer (R76). -/
def State.unheld (s : State) : State := s.setMe { s.me with wait := .none }

theorem unheld_only (s : State) : s.OnlyMe s.unheld := ⟨rfl, fun p other => thread_setMe_ne s p _ other, rfl⟩

theorem unheld_store_settles (σ : State) {acc : Access} (room : s.me.cst < 63) :
    ∃ t, settle σ (s.unheld.issueStore 4 acc) = .next t ∧ s.Issued t 4 { s.me with cst := s.me.cst + 1, wait := .none } acc := by
  have me : s.unheld.me = { s.me with wait := .none } := me_setMe ..
  have room' : s.unheld.me.cst < 63 := me ▸ room
  refine ⟨_, (congrArg (settle σ) (issueStore_ok room')).trans (settle_ok ..), (unheld_only s).issued ?_⟩
  rw [me]
  rfl

/-- R269: the region ends, and the store of the entry is issued. -/
theorem tagBind_settles (readA : s.canRead a) (readB : s.canRead b) (tag : (s.val64 a).toNat < 1024) (kind : hKind (s.val64 b) = 0)
    (even : (s.val64 b).getLsbD 0 = false) (table : s.me.tagbase ≠ 0)
    (access : s.access s.cur .write false (s.me.tagEntry (s.val64 a).toNat) 16 = .ok (loc, s')) (can : s'.canSend) :
    exec (.tagBind a b) s = settle s ((s'.endRegion s'.cur).unheld.issueStore 4
      { (s'.endRegion s'.cur).access0 .store (s.me.tagEntry (s.val64 a).toNat) 16 loc with
        data := (scalar (s.val64 b)).setWidth 256 }) := by
  obtain ⟨performed, stored, sends, plain⟩ := can
  have sends' : ¬ 8 ≤ (s'.endRegion s'.cur).me.sends := by rw [endRegion_me]; exact Nat.not_le.mpr sends
  have small : (s.val64 a).toNat / 1024 = 0 := Nat.div_eq_of_lt tag
  have form : ¬ (hKind (s.val64 b) ≠ 0 ∨ (s.val64 b).getLsbD 0 = true) := not_or.mpr ⟨not_not.mpr kind, ne_true_of_eq_false even⟩
  simp only [exec_tagBind, execTagBind, read2_ok s a b readA readB, bind_ok, lo64_regVal, small, ne_eq, not_true_eq_false, if_false,
    if_neg form, if_neg table, access, orderedPlace_ok s' _ _ plain, State.release, regionEnd_ok performed stored, if_neg sends',
    newAcc_eq_access0]
  rfl

/-! ### Requests (R270) -/

/-- Reply slot `k` of core `c` is taken. -/
def State.withReplySlot (s : State) (c k : Nat) (r : RSlot) : State :=
  s.setCore c { s.core c with slots := Tab.put (s.core c).slots k r }

theorem withReplySlot_slot (s : State) (c k : Nat) (r : RSlot) : Tab.get? ((s.withReplySlot c k r).core c).slots k = some r := by
  rw [State.withReplySlot, core_setCore, if_pos rfl]
  exact Tab.get?_put_self ..

theorem pcCheck_even {h0 : Word} (even : h0.getLsbD 0 = false) : pcCheck h0 = .ok () := if_neg (ne_true_of_eq_false even)

/-- R76, R270: the request is sent, the reply slot taken, and the tag with the slot is the result. -/
theorem rq_settles {e : Reg} (readB : s.canRead b) (pay : s.canPay a) (kind : hKind (s.val64 b) = 0) (even : (s.val64 b).getLsbD 0 = false)
    (group : s.groupCheck (hGrp (s.val64 b)) = .ok ()) (route : s.routeCheck (hRoute (hi64 (s.regVal b))) [0, 1, 2, 3] = .ok ())
    (tag : hRtag (hi64 (s.regVal b)) = n * 64) (table : s.me.tagbase ≠ 0)
    (access : s.access s.cur .read false (s.me.tagEntry n) 16 = .ok (loc, s')) (free : s'.busy d = false) (can : s'.canSend)
    (slot : Tab.freeKey ((s'.endRegion s'.cur).core (coreOf s'.cur)).slots 0 64 = some k)
    (entry : (s'.endRegion s'.cur).fetchQuad loc (s.me.tagEntry n) = .ok (e, s'')) (bound : hPc (lo64 e) ≠ 0) (can' : s''.canSend) :
    exec (.rq d a b) s = settle s
      ((((s''.endRegion s''.cur).launchMsg (s''.recordOf (s.val64 b) (mkH1 (hRoute (hi64 (s.regVal b))) (n * 64 + k) 0) (s.payOf a)
          (routeDest (hRoute (hi64 (s.regVal b)))))).withReplySlot (coreOf s'.cur) k
        { handler := BitVec.ofNat 64 (hPc (lo64 e)), grp := hGrp (lo64 e), tag := n, launch := s''.me.launchNo }).put 4 d
      (scalar (BitVec.ofNat 64 (n * 64 + k)))) := by
  obtain ⟨performed, stored, sends, plain⟩ := can
  have number : n * 64 / 64 = n := Nat.mul_div_cancel n (by decide)
  have noSlot : n * 64 % 64 = 0 := Nat.mul_mod_left n 64
  have sends' : ¬ 8 ≤ (s'.endRegion s'.cur).me.sends := by rw [endRegion_me]; exact Nat.not_le.mpr sends
  have dest : s'.free1 d = .ok () := by simp [State.free1, free]
  have launch (m : Msg) : ((s''.endRegion s''.cur).launchMsg m).me.launchNo = s''.me.launchNo := by rw [launchMsg_me, endRegion_me]; rfl
  simp only [exec_rq, execRq, latch_two_ok pay.1 readB, readReg_ok s b readB, payload_ok pay, bind_ok, lo64_regVal, kind, pcCheck_even even,
    group, route, tag, number, noSlot, ne_eq, not_true_eq_false, if_false, if_neg table, access, dest, State.release,
    regionEnd_ok performed stored, endRegion_cur, slot, decide_eq_false sends', Bool.and_false, Bool.false_eq_true, entry, if_neg bound,
    send_ok can', myMsg_eq_recordOf, launch]
  rfl

end

/-- Settles O26: each form is its checks and one send; a request takes its slot and a tag its entry besides. -/
theorem repliesAndRequests : Obligations.RepliesAndRequests := by
  unfold Obligations.RepliesAndRequests
  refine ⟨fun s a pay can => rpl_sends pay can, ?bind, ?request⟩
  case bind =>
    intro s s' a b loc readA readB tag kind even table access can room
    have cst : (s'.endRegion s'.cur).me.cst = s'.me.cst := by rw [endRegion_me]
    obtain ⟨t, stores, issued⟩ := unheld_store_settles s (cst ▸ room)
    rw [cst] at issued
    exact ⟨t, (tagBind_settles readA readB tag kind even table access can).trans stores, issued⟩
  case request =>
    rintro s s' s'' d a b _ _ _ e loc k n readB pay rfl rfl kind even group route tag table access dest free can slot entry
      rfl bound can' free'
    have runs := rq_settles readB pay kind even group route tag table access free can slot entry bound can'
    generalize sent : (s''.endRegion s''.cur).launchMsg _ = u at runs
    have ready : (u.withReplySlot (coreOf s'.cur) k
        { handler := BitVec.ofNat 64 (hPc (lo64 e)), grp := hGrp (lo64 e), tag := n, launch := s''.me.launchNo }).canWrite d :=
      sent ▸ canWrite_endRegion (.inr free')
    obtain ⟨t, puts, wrote⟩ := put_settles s ready
    refine ⟨t, runs.trans puts, wrote.dest dest, ?slot, ?mesh⟩
    case slot =>
      have cores := congrArg State.cores wrote.only.rest
      rw [State.core, cores]
      exact withReplySlot_slot ..
    case mesh =>
      have mesh := congrArg State.mesh wrote.only.rest
      rw [mesh, ← recordOf_stamped, State.withReplySlot, setCore_mesh, ← sent, launchMsg_mesh, endRegion_nextId, endRegion_cyc]
      exact Tab.get?_put_self ..

end Sys2Proof.Machine
end

section
/-! PROOFS. The spawn to a home (O25).

The second clause of O25 takes the home of the named address from its location. R155 takes it from the physical address, which for a page
of the host is not the location: that is the bus address, which the host-window base has moved (R226). The model follows R155. -/

namespace Sys2Proof.Machine

section
variable {s s' t : State} {a b : Spec} {m m' : Msg} {len loc : Nat}

/-- R155, R249: the record that names an address outside the near windows goes to the cluster at the home of its physical address. -/
theorem spawnD_sends (readB : s.canRead b) (pay : s.canPay a) (kind : hKind (s.val64 b) = 0) (even : (s.val64 b).getLsbD 0 = false)
    (group : s.groupCheck (hGrp (s.val64 b)) = .ok ()) (access : s.access s.cur .read false (hi64 (s.regVal b)) 1 = .ok (loc, s'))
    (far : locTag loc < 18) (can : s'.canSend) (budget : s'.tasksFull s'.me.launchNo (hGrp (s.val64 b)) = false) :
    ∃ t, exec (.spawnD a b) s = .next t ∧ s'.Sent t 4 (s'.recordOf (s.val64 b)
      (mkH1 (2 ^ 22 + bits (locOff loc) 8 14 * 2 ^ 8 + s'.homeSlice loc) 0 0) (s.payOf a) (.task (s'.homeSlice loc))) := by
  have named : s.namedCluster (hi64 (s.regVal b)) = .ok (s'.homeSlice loc, locOff loc, s') := by
    have beyond : ¬ tagScratch ≤ locTag loc := Nat.not_le.mpr far
    simp only [State.namedCluster, access, bind_ok, if_neg beyond, pure_ok]
  have room (h1 : Word) (dest : Dest) : s'.sendTask (s'.recordOf (s.val64 b) h1 (s.payOf a) dest) =
      s'.send (s'.recordOf (s.val64 b) h1 (s.payOf a) dest) := if_neg (ne_true_of_eq_false budget)
  simp only [exec_spawnD, execSpawnD, latch_two_ok pay.1 readB, readReg_ok s b readB, payload_ok pay, bind_ok, lo64_regVal, kind, ne_eq,
    not_true_eq_false, if_false, pcCheck_even even, group, named, myMsg_eq_recordOf, room]
  exact send_settles s can _

/-- A step sends one record. -/
theorem State.Sent.dest_unique (first : s.Sent t len m) (second : s.Sent t len m') : m.dest = m'.dest := by
  have same := congrArg (Tab.get? · s.nextId) (first.mesh.symm.trans second.mesh)
  simp only [Tab.get?_put_self, Option.some.injEq] at same
  exact (congrArg Msg.dest same :)

end

/-- The firmware task at place 0 runs with page 4 mapped to page 9 of the host, whose window begins at 0x10000. Its v32 holds the header of
a record for that page. -/
def hostPageNamed : State :=
  { State.reset with
    hub := { Hub.reset with hwin := 0x10000 }
    cores := [(0, { Core.idle with tlb := [BitVec.ofNat 128 (4 * 2 ^ 80 + 9 * 2 ^ 16 + 2 ^ 14 + 0x39)] })]
    threads := [(0, { Thread.idle 0 with
      state := .ready
      regs := (Vector.replicate 64 0).set 48 (mkReg 0 0x40000)
      task := some { ctx := 0, launch := none, kind := 0, entry := none, irrev := false, code := none, arrival := 0, admitted := 0,
                     slot := 0 } })] }

/-- The named byte lies at bus address 0xA0000; its physical address is 0x90000. -/
theorem hostPageNamed_access : hostPageNamed.access hostPageNamed.cur .read false (hi64 (hostPageNamed.regVal 48)) 1 =
    .ok (2 ^ 64 + 0xA0000, hostPageNamed) := rfl

/-- Refutes O25: of a host page the second clause takes the home from the bus address, where R155 and the model take it from the physical
address. They differ by the host-window base. -/
theorem not_spawnsAndSendsLeaveAsRecords : ¬ Obligations.SpawnsAndSendsLeaveAsRecords := by
  unfold Obligations.SpawnsAndSendsLeaveAsRecords
  rintro ⟨-, toHome, -⟩
  have readB : hostPageNamed.canRead 48 := .inr ⟨by decide, rfl, rfl⟩
  have pay : hostPageNamed.canPay 1 := ⟨.inl rfl, .inl rfl, .inl rfl⟩
  have can : hostPageNamed.canSend := ⟨rfl, rfl, by decide, rfl⟩
  obtain ⟨t, claimed, sent⟩ := toHome _ _ 1 48 _ _ _ readB pay rfl rfl rfl rfl rfl hostPageNamed_access can rfl
  obtain ⟨u, runs, sends⟩ := spawnD_sends readB pay rfl rfl rfl hostPageNamed_access (by decide) can rfl
  obtain rfl : t = u := Host.Outcome.next.inj (claimed.symm.trans runs)
  have home : (64 : Nat) = 0 := Dest.task.inj (sent.dest_unique sends)
  exact absurd home (by decide)

end Sys2Proof.Machine
end

section
/-! PROOFS. Aborts (O37).

The last clause of O37 wants the aborted record in the task unit, and for that room in it. The undo drops the records of the task's children
wherever they wait (R259), cluster by cluster as the table of clusters lists them. The clause does not ask that the table lists a cluster
once (`Tab.wf`, which O16 asks of the table of copies). Where it lists one twice, the part of the second entry that stays becomes the task
unit of the cluster; if that is full, the aborted record, which has the latest key, goes to the spill area (R244). -/

namespace Sys2Proof.Machine

/-- The uncommitted task at place 0, sent as the only record of kind 1. -/
def soleCommit : Commit :=
  { ts := 0, seq := 0, launch := 1, ctx := 0, state := .running, irrev := false, place := some 0, rdSig := 0, wrSig := 0, rdLines := [],
    wrLines := [], plainLines := [], undo := [], items := [], children := 0, parent := none
    msg := { State.reset.recordOf (mkH0 1 0 0x2000) 0 #v[0, 0, 0] (.task 0) with launch := some 1, ord := 1 } }

/-- A record of kind 0 that waits in a task unit, sent by the ordered task of a commit entry or by none. -/
def plainRecord (parent : Option (Nat × Nat)) : Msg := { State.reset.recordOf (mkH0 0 0 0x2000) 0 #v[0, 0, 0] (.task 0) with parent }

/-- Cluster 0 is listed with the commit entry of the running task and again with a full task unit, in which a child of the task waits. -/
def listedTwice : State :=
  { State.reset with
    threads := [(0, { Thread.idle 0 with
      state := .ready
      task := some { ctx := 0, launch := some 1, kind := 1, entry := some 0, irrev := false, code := none, arrival := 0, admitted := 0,
                     slot := 0 } })]
    clus := [(0, { Cluster.idle with commits := [(0, soleCommit)] }),
      (0, { Cluster.idle with tu := List.replicate 1024 (plainRecord none) ++ [plainRecord (some (0, 0))] })] }

/-- The records in the task unit of cluster 0 after an instruction. -/
def unitAfter : Out → List Msg
  | .next t => (t.clu 0).tu
  | _ => []

/-- R244: the abort leaves no record with the header of the aborted one in the task unit. -/
theorem listedTwice_abort_spills : (unitAfter (exec .abort listedTwice)).all (fun m => m.h0 != soleCommit.msg.h0) = true := by
  decide +kernel

/-- Refutes O37: the table of clusters may list a cluster twice, and then the aborted record need not stay in the task unit. -/
theorem not_continuationsAndAborts : ¬ Obligations.ContinuationsAndAborts := by
  unfold Obligations.ContinuationsAndAborts
  rintro ⟨-, abort⟩
  obtain ⟨-, waits⟩ := abort listedTwice
  obtain ⟨t, runs, -, -, -, m, mem, same, -⟩ :=
    waits 0 soleCommit rfl rfl rfl rfl rfl rfl rfl rfl rfl rfl rfl rfl (by decide)
  have spilled := listedTwice_abort_spills
  rw [runs] at spilled
  exact bne_iff_ne.mp (List.all_eq_true.mp spilled m mem) same

end Sys2Proof.Machine
end

section
/-! PROOFS. Configuring ports (O28).

The first clause of O28 wants a port that `port.cfg` sets to capacity 0 to have none. Where no take waits on it, such a port is stored no
longer, that is, its first entry goes from the table of ports. The clause does not ask that the table lists a port once (`Tab.wf`, which O16
asks of the table of copies). Where it lists one twice, the second entry, which stays, becomes the port. -/

namespace Sys2Proof.Machine

/-- Port 0 of the own cluster, configured by firmware for one message, is listed twice. -/
def portListedTwice : State :=
  { State.reset with
    clus := [(0, { Cluster.idle with ports := List.replicate 2 (0, { Port.empty with cap := 1, owner := ownerNo none }) })] }

/-- The capacity of port 0 of cluster 0 after an instruction. -/
def capAfter : Out → Option Nat
  | .next t => some (t.port 0 0).cap
  | _ => none

/-- R277, R278: the second entry stays. -/
theorem portListedTwice_portCfg : capAfter (exec (.portCfg 1 1) portListedTwice) = some 1 := by decide +kernel

/-- Refutes O28: the table of ports may list a port twice, and then a port whose capacity is set to 0 keeps one. -/
theorem not_portAndPatternInstructions : ¬ Obligations.PortAndPatternInstructions := by
  unfold Obligations.PortAndPatternInstructions
  rintro ⟨own, -⟩
  obtain ⟨ports, -⟩ := own portListedTwice 1 1 0 0 0 0 (.inl rfl) (.inl rfl) (.inr rfl) (by decide) rfl rfl rfl rfl
  obtain ⟨configure, -⟩ := ports rfl
  obtain ⟨t, runs, -, -, unconfigured, -⟩ := configure 0 rfl (by decide) rfl (by decide) (by decide) (by decide) (fun _ => rfl) (by decide)
  have kept := portListedTwice_portCfg
  rw [runs] at kept
  have zero : (t.port 0 0).cap = 0 := unconfigured rfl
  have one : (t.port 0 0).cap = 1 := Option.some.inj kept
  omega

end Sys2Proof.Machine
end

section
/-! PROOFS. Messages taken from a port, and arrivals (O29). -/

namespace Sys2Proof.Machine

section
variable {s t : State} {d a : Spec} {k : PredNo} {cl i : Nat} {m : PMsg} {ms : List PMsg} {th : Thread}

/-! ### Ports and the cluster that holds them (R276, R286) -/

theorem port_of_clus (same : t.clus = s.clus) : t.port cl i = s.port cl i := by simp only [State.port, State.port?, State.clu, same]

theorem port_setPort (s : State) (cl i : Nat) (p : Port) : (s.setPort cl i p).port cl i = p := by
  simp [State.port, State.port?, State.setPort, State.clu]

/-- The checks of a port's address read the place, the task's launch, the ports and the records under way. -/
theorem ownPort_of_same {pat : Bool} {x : Word} (cur : t.cur = s.cur) (user : t.user = s.user) (clus : t.clus = s.clus)
    (mesh : t.mesh = s.mesh) : t.ownPort pat x = s.ownPort pat x := by
  simp only [State.ownPort, State.foreignPort, cur, user, port_of_clus clus, mesh]

theorem takeHead_empty (empty : (s.port cl i).msgs = []) : s.takeHead cl i = none := by simp only [State.takeHead, empty]

theorem takeHead_head (head : (s.port cl i).msgs = m :: ms) :
    s.takeHead cl i = some (m, s.setPort cl i { s.port cl i with msgs := ms }) := by
  simp only [State.takeHead, head]

/-! ### What stays as it was when `lt` is made stale (R37, R85) -/

theorem stale_rest (s : State) : s.stale = { s with threads := s.stale.threads, acc := s.stale.acc } := by
  unfold State.stale
  rw [clearWlt_rest]
  rfl

theorem stale_ownPort {pat : Bool} {x : Word} : s.stale.ownPort pat x = s.ownPort pat x := by
  refine ownPort_of_same (stale_cur s) ?_ ?_ ?_
  · rw [State.user, stale_me]
    rfl
  · rw [stale_rest]
  · rw [stale_rest]

/-- The accesses of the context stay outstanding. -/
theorem clearWlt_anyAcc (s : State) : s.clearWlt.anyAcc (fun _ => true) = s.anyAcc (fun _ => true) := by
  unfold State.clearWlt
  split
  · simp only [State.anyAcc, List.any_map]
    congr 1
    funext e
    simp only [Function.comp]
    split <;> rfl
  · rfl

/-- Only `lt` awaits its loads no longer (R37). -/
theorem clearWlt_busy (s : State) (other : d ≠ 0) : s.clearWlt.busy d = s.busy d := by
  have unlatched : (d == 0) = false := beq_eq_false_iff_ne.mpr other
  unfold State.clearWlt
  split
  · simp only [State.busy, List.any_map]
    congr 1
    funext e
    simp only [Function.comp]
    split
    · by_cases latch : e.2.dst = some 0
      · simp [latch, other, Ne.symm other]
      · simp [latch, unlatched]
    · rfl
  · rfl

/-! ### The registers of a take (R290) -/

/-- What a take from an empty port writes. -/
def noMsg : PMsg := { pay := #v[0, 0, 0], sender := 0, h0 := 0, rtag := 0, stime := 0 }

/-- An instruction of four bytes has completed and has written message `m` to the three registers from `d`. Port `i` of cluster `cl` is now
`p`; memory is as it was. -/
structure State.Took (s t : State) (d : Spec) (m : PMsg) (cl i : Nat) (p : Port) : Prop where
  first : t.me.regs[d] = m.pay[0]
  second : t.me.regs[specPlus d 1] = m.pay[1]
  third : t.me.regs[specPlus d 2] = m.pay[2]
  latch : t.me.regs[(0 : Spec)] = m.pay[0]
  pc : t.me.pc = s.me.pc + 4
  port : t.port cl i = p
  mem : t.mem = s.mem

/-- What comes before the take leaves the pc and memory. -/
theorem State.Took.of_start {v : State} {p : Port} (took : v.Took t d m cl i p) (pc : v.me.pc = s.me.pc) (mem : v.mem = s.mem) :
    s.Took t d m cl i p :=
  { took with pc := pc ▸ took.pc, mem := took.mem.trans mem }

theorem specPlus_val {n : Nat} (named : d ≠ 1) (fits : d.val + n < 64) : (specPlus d n).val = d.val + n := by
  rw [specPlus, if_neg named]
  exact Nat.mod_eq_of_lt fits

theorem ne_one_of_le (lo : 16 ≤ d.val) : d ≠ 1 := by
  rintro rfl
  exact absurd lo (by decide)

theorem take_regs (u : Thread) (m : PMsg) (named : d ≠ 1) : (u.take d m).regs =
    (((u.regs.set (specPlus d 1) m.pay[1]).set (specPlus d 2) m.pay[2]).set d m.pay[0]).set 0 m.pay[0] := by
  simp only [Thread.take, Thread.result, if_neg named]

theorem takeInto_me (s : State) (m : PMsg) (named : d ≠ 1) : (s.takeInto d m).me = (s.me.take d m).hears m.clock := by
  rw [State.takeInto, if_neg named, me_eq _ _ (clearWlt_threads _) (clearWlt_cur _), me_setMe]

theorem takeInto_rest (s : State) (d : Spec) (m : PMsg) :
    s.takeInto d m = { s with threads := (s.takeInto d m).threads, acc := (s.takeInto d m).acc } := by
  unfold State.takeInto
  split
  · rfl
  · rw [clearWlt_rest]
    rfl

/-- A context that has the registers of the take and goes on has taken the message. -/
theorem took_of_setMe (lo : 16 ≤ d.val) (hi : d.val ≤ 61) (regs : th.regs = (s.takeInto d m).me.regs) (pc : th.pc = s.me.pc + 4) :
    s.Took ((s.takeInto d m).setMe th) d m cl i (s.port cl i) := by
  have named := ne_one_of_le lo
  have one := specPlus_val (n := 1) named (by omega)
  have two := specPlus_val (n := 2) named (by omega)
  have values : th.regs = _ := (takeInto_me s m named ▸ regs).trans (take_regs s.me m named)
  have zero : 0 ≠ d.val := by omega
  have clus : ((s.takeInto d m).setMe th).clus = s.clus := by rw [setMe_clus, takeInto_rest]
  refine ⟨?_, ?_, ?_, ?_, by rw [me_setMe, pc], port_of_clus clus, by rw [setMe_mem, takeInto_rest]⟩
  all_goals simp [values, one, two, zero]

theorem takeInto_pc (s : State) (m : PMsg) (named : d ≠ 1) : (s.takeInto d m).me.pc = s.me.pc := by
  rw [takeInto_me s m named]
  simp only [Thread.take, Thread.result, if_neg named]
  rfl

theorem takeInto_fin (lo : 16 ≤ d.val) (hi : d.val ≤ 61) : s.Took ((s.takeInto d m).fin 4) d m cl i (s.port cl i) := by
  refine took_of_setMe lo hi rfl ?_
  rw [← takeInto_pc s m (ne_one_of_le lo)]
  rfl

theorem takeInto_setPred_fin (lo : 16 ≤ d.val) (hi : d.val ≤ 61) (written : k ≠ 0) (b : Bool) :
    let t := ((s.takeInto d m).setMe ((s.takeInto d m).me.setPred k b)).fin 4
    s.Took t d m cl i (s.port cl i) ∧ t.me.pred k = b := by
  intro t
  have ends : t = (s.takeInto d m).setMe (((s.takeInto d m).me.setPred k b).fin 4) := by simp only [t, State.fin, me_setMe, setMe_setMe]
  rw [ends]
  constructor
  · refine took_of_setMe lo hi (Thread.setPred_regs ..) ?_
    rw [← takeInto_pc s m (ne_one_of_le lo), ← Thread.setPred_pc (s.takeInto d m).me k b]
    rfl
  · rw [me_setMe]
    exact pred_setPred _ b written

/-! ### `port.take` (R290) -/

theorem free3_ok (first : s.busy d = false) (second : s.busy (specPlus d 1) = false) (third : s.busy (specPlus d 2) = false) :
    s.free3 d = .ok () := by
  simp [State.free3, first, second, third]

/-- A take of the running context from the port that `x` names passes its checks. -/
structure State.CanTake (s : State) (d : Spec) (x : Word) (cl i : Nat) : Prop where
  own : s.ownPort false x = .ok (cl, i)
  unordered : s.me.ordered = false
  performed : s.anyAcc (fun _ => true) = false
  stored : s.me.failed = none
  free : s.free3 d = .ok ()

/-- It passes them as well once the take, a blocking one, has made `lt` stale (R85). -/
theorem State.CanTake.stale {x : Word} (can : s.CanTake d x cl i) (lo : 16 ≤ d.val) (hi : d.val ≤ 61) : s.stale.CanTake d x cl i where
  own := stale_ownPort.trans can.own
  unordered := by rw [stale_me]; exact can.unordered
  performed := (clearWlt_anyAcc _).trans can.performed
  stored := by rw [stale_me]; exact can.stored
  free := by
    have named := ne_one_of_le lo
    have one := specPlus_val (n := 1) named (by omega)
    have two := specPlus_val (n := 2) named (by omega)
    have busy {r : Spec} (other : r.val ≠ 0) : s.stale.busy r = s.busy r := clearWlt_busy _ (fun zero => other (congrArg Fin.val zero))
    rw [State.free3, busy (by omega), busy (by omega), busy (by omega)]
    exact can.free

theorem endRegion_clus (s : State) (p : Nat) : (s.endRegion p).clus = s.clus := by rw [endRegion_rest]

theorem endRegion_port (s : State) (p cl i : Nat) : (s.endRegion p).port cl i = s.port cl i := port_of_clus (endRegion_clus s p)

/-- The region has ended, and the head of the port has been taken, the messages `ms` left. -/
def State.headTaken (s : State) (cl i : Nat) (ms : List PMsg) : State :=
  (s.endRegion s.cur).setPort cl i { s.port cl i with msgs := ms }

theorem takeHead_endRegion (head : (s.port cl i).msgs = m :: ms) :
    (s.endRegion s.cur).takeHead cl i = some (m, s.headTaken cl i ms) := by
  rw [State.headTaken, ← endRegion_port s s.cur]
  exact takeHead_head (by rw [endRegion_port, head])

theorem headTaken_port (s : State) (cl i : Nat) (ms : List PMsg) : (s.headTaken cl i ms).port cl i = { s.port cl i with msgs := ms } :=
  port_setPort ..

theorem endRegion_pc (s : State) : (s.endRegion s.cur).me.pc = s.me.pc := by rw [endRegion_me]

theorem headTaken_pc (s : State) (cl i : Nat) (ms : List PMsg) : (s.headTaken cl i ms).me.pc = s.me.pc := endRegion_pc s

theorem headTaken_mem (s : State) (cl i : Nat) (ms : List PMsg) : (s.headTaken cl i ms).mem = s.mem := endRegion_mem s s.cur

theorem portTake_head (read : s.canRead a) (can : s.CanTake d (s.val64 a) cl i) (lo : 16 ≤ d.val) (hi : d.val ≤ 61) (written : k ≠ 0)
    (head : (s.port cl i).msgs = m :: ms) :
    ∃ t, exec (.portTake d a k) s = .next t ∧ s.Took t d m cl i { s.port cl i with msgs := ms } ∧ t.me.pred k = true := by
  obtain ⟨took, set⟩ := takeInto_setPred_fin (s := s.headTaken cl i ms) (m := m) (cl := cl) (i := i) lo hi written true
  rw [headTaken_port] at took
  refine ⟨_, ?_, took.of_start (headTaken_pc ..) (headTaken_mem ..), set⟩
  simp only [exec_portTake, execPortTake, read64_ok s a read, can.own, can.unordered, can.free, regionEnd_ok can.performed can.stored,
    bind_ok, Bool.false_eq_true, if_false, takeHead_endRegion head, pure_ok, settle_ok]

theorem portTake_empty (read : s.canRead a) (can : s.CanTake d (s.val64 a) cl i) (lo : 16 ≤ d.val) (hi : d.val ≤ 61) (written : k ≠ 0)
    (empty : (s.port cl i).msgs = []) :
    ∃ t, exec (.portTake d a k) s = .next t ∧ s.Took t d noMsg cl i (s.port cl i) ∧ t.me.pred k = false := by
  obtain ⟨took, cleared⟩ := takeInto_setPred_fin (s := s.endRegion s.cur) (m := noMsg) (cl := cl) (i := i) lo hi written false
  rw [endRegion_port] at took
  have left : (s.endRegion s.cur).takeHead cl i = none := takeHead_empty (by rw [endRegion_port, empty])
  refine ⟨_, ?_, took.of_start (endRegion_pc s) (endRegion_mem ..), cleared⟩
  simp only [exec_portTake, execPortTake, read64_ok s a read, can.own, can.unordered, can.free, regionEnd_ok can.performed can.stored,
    bind_ok, Bool.false_eq_true, if_false, left, pure_ok, settle_ok]
  rfl

/-! ### `port.take.w` (R85, R290) -/

theorem stale_port (s : State) (cl i : Nat) : s.stale.port cl i = s.port cl i := port_of_clus (by rw [stale_rest])

theorem portTakeW_head (read : s.canRead a) (free : s.me.preempted = false) (can : s.CanTake d (s.val64 a) cl i) (lo : 16 ≤ d.val)
    (hi : d.val ≤ 61) (head : (s.port cl i).msgs = m :: ms) :
    ∃ t, exec (.portTakeW d a) s = .next t ∧ s.Took t d m cl i { s.port cl i with msgs := ms } := by
  have can := can.stale lo hi
  have took := takeInto_fin (s := s.stale.headTaken cl i ms) (m := m) (cl := cl) (i := i) lo hi
  rw [headTaken_port, stale_port] at took
  refine ⟨_, ?_, took.of_start ?_ ?_⟩
  · simp only [exec_portTakeW, execPortTakeW, blocking_ok free, read64_ok s a read, can.own, can.unordered, can.free,
      regionEnd_ok can.performed can.stored, bind_ok, Bool.false_eq_true, if_false, takeHead_endRegion (s := s.stale) (stale_port .. ▸ head),
      pure_ok, settle_ok]
  · rw [headTaken_pc, stale_me]
  · rw [headTaken_mem, stale_rest]

/-- The context waits behind the port's other takers, its region ended. -/
def State.takerQueued (s : State) (cl i : Nat) : State :=
  (s.endRegion s.cur).setPort cl i { s.port cl i with takers := (s.port cl i).takers ++ [s.cur] }

theorem takerQueued_me (s : State) (cl i : Nat) : (s.takerQueued cl i).me = { s.me with region := s.me.region + 1 } := endRegion_me s

theorem takerQueued_port (s : State) (cl i : Nat) :
    (s.takerQueued cl i).port cl i = { s.port cl i with takers := (s.port cl i).takers ++ [s.cur] } :=
  port_setPort ..

theorem portTakeW_blocks (read : s.canRead a) (free : s.me.preempted = false) (can : s.CanTake d (s.val64 a) cl i) (lo : 16 ≤ d.val)
    (hi : d.val ≤ 61) (empty : (s.port cl i).msgs = []) :
    exec (.portTakeW d a) s = .next ((s.stale.takerQueued cl i).block (.take (cl * 1024 + i) d)) := by
  have can := can.stale lo hi
  have left : (s.stale.endRegion s.stale.cur).takeHead cl i = none := takeHead_empty (by rw [endRegion_port, stale_port, empty])
  simp only [exec_portTakeW, execPortTakeW, blocking_ok free, read64_ok s a read, can.own, can.unordered, can.free,
    regionEnd_ok can.performed can.stored, bind_ok, Bool.false_eq_true, if_false, left, endRegion_port, endRegion_cur, pure_ok, settle_ok,
    State.takerQueued]

/-! ### Records that reach a port (R274, R280, R281) -/

/-- A record that counts with no sender changes nothing where it is accepted (R76, R245). -/
theorem accepted_self {r : Msg} (uncounted : r.counted = false) (orphan : r.parent = none) : s.accepted r = s := by
  simp [State.accepted, uncounted, orphan]

/-- R274, R281: a record of the owner's context that reaches a configured port goes to the oldest waiting take, else to the messages where
there is room; a port of policy 2 drops it. -/
theorem portArrive_own {r : Msg} (plain : droppedKind r.kind = false) (configured : (s.port cl i).cap ≠ 0)
    (launched : ∀ L, s.launch? (s.port cl i).owner = some L → L.sub.ctx = r.ctx)
    (firmware : s.launch? (s.port cl i).owner = none → r.ctx = 0) :
    ((s.port cl i).takers = [] → (s.port cl i).msgs.length < (s.port cl i).cap →
      s.portArrive cl i r = (s.setPort cl i { s.port cl i with msgs := (s.port cl i).msgs ++ [r.held] }).evaluate cl) ∧
    (∀ p ps, (s.port cl i).takers = p :: ps →
      s.portArrive cl i r = (s.setPort cl i { s.port cl i with takers := ps }).serveTake p r.held) ∧
    ((s.port cl i).takers = [] → (s.port cl i).cap ≤ (s.port cl i).msgs.length → (s.port cl i).pol = 2 →
      s.portArrive cl i r = (s.setPort cl i { s.port cl i with ovf := true }).joinDrop cl) := by
  simp only [State.portArrive]
  rw [if_neg ?admitted]
  case admitted =>
    split
    case h_1 L found => simp [plain, configured, launched L found]
    case h_2 none => simp [plain, configured, firmware none]
  refine ⟨fun waits room => ?_, fun p ps waits => ?_, fun waits full drops => ?_⟩
  · simp only [waits, if_pos room]
  · simp only [waits]
  · simp only [waits, if_neg (Nat.not_lt.mpr full), drops]

theorem portArrival_next {n : Nat} {r : Msg} (listed : Tab.get? s.mesh n = some r) (dest : r.dest = .port cl i)
    (first : s.inOrder n r = true) (runs : s.hub.frozen = false) (uncounted : r.counted = false) (orphan : r.parent = none) :
    exec (.portArrival n) s = .next (({ s with mesh := Tab.del s.mesh n } : State).portArrive cl i r) := by
  simp only [exec_portArrival, execPortArrival, listed, dest, first, runs, accepted_self uncounted orphan, Bool.not_false, Bool.and_self,
    if_true]

end

/-- Settles O29: a take is its checks, the end of its region and the write of three registers; an arrival goes one of three ways. -/
theorem portTakesAndArrivals : Obligations.PortTakesAndArrivals := by
  unfold Obligations.PortTakesAndArrivals
  refine ⟨?take, ?arrive⟩
  case take =>
    intro s d a k cl i read lo hi written own unordered performed stored first second third
    have can : s.CanTake d (s.val64 a) cl i := ⟨own, unordered, performed, stored, free3_ok first second third⟩
    constructor
    · refine fun m ms head => ⟨?_, fun free => ?_⟩
      · obtain ⟨t, runs, took, set⟩ := portTake_head read can lo hi written head
        exact ⟨t, runs, took.first, took.second, took.third, took.latch, set, took.pc, by rw [took.port], took.mem⟩
      · obtain ⟨t, runs, took⟩ := portTakeW_head read free can lo hi head
        exact ⟨t, runs, took.first, took.second, took.third, took.pc, by rw [took.port], took.mem⟩
    · refine fun empty => ⟨?_, fun free ready => ⟨_, portTakeW_blocks read free can lo hi empty, ?_, ?_, ?_, ?_⟩⟩
      · obtain ⟨t, runs, took, cleared⟩ := portTake_empty read can lo hi written empty
        exact ⟨t, runs, took.first, took.second, took.third, cleared, took.pc, took.port⟩
      · rw [block_me, takerQueued_me, stale_me]
        exact become_state ready
      · rw [block_me]
      · rw [block_me, Thread.become_pc, takerQueued_me, stale_me]
      · rw [State.block, port_of_clus (setMe_clus ..), takerQueued_port, stale_port, stale_cur]
  case arrive =>
    intro s n cl i r listed dest first runs plain uncounted orphan configured launched firmware
    rw [portArrival_next listed dest first runs uncounted orphan]
    obtain ⟨kept, taken, dropped⟩ :=
      portArrive_own (s := { s with mesh := Tab.del s.mesh n }) plain configured launched firmware
    exact ⟨fun waits room => congrArg _ (kept waits room), fun p ps waits => congrArg _ (taken p ps waits),
      fun waits full drops => congrArg _ (dropped waits full drops)⟩

end Sys2Proof.Machine
end

section
/-! PROOFS. Signals (O30). -/

namespace Sys2Proof.Machine

section
variable {s s' s'' : State} {d a b : Spec} {loc : Nat} {kind : AccKind} {va : Word}

/-- R393, R400: a signal's access ends the region and is filed. -/
theorem sigAccess_settles (σ : State) (data : Reg) (performed : s.anyAcc (fun _ => true) = false) (stored : s.me.failed = none)
    (can : (s.endRegion s.cur).canLoad d) :
    ∃ u, settle σ (s.sigAccess d kind va loc data) = .next u ∧
      (s.endRegion s.cur).Issued u 4 ((s.endRegion s.cur).me.loading d)
        (({ s.access0 kind va 8 loc with
            data := data.setWidth 256, ord := if kind = .sigRd then .acq else .ar, scope := .sys } : Access).into d) := by
  simp only [State.sigAccess, regionEnd_ok performed stored, bind_ok, newAcc_eq_access0]
  exact issueLoad_settles σ can

section
variable (plain : s'.me.speculative = false) (performed : s'.anyAcc (fun _ => true) = false) (stored : s'.me.failed = none)
  (can : (s'.endRegion s'.cur).canLoad d)
include plain performed stored can

theorem sigOp_settles (op : RmwOp) (readA : s.canRead a) (readB : s.canRead b) (signal : s.sigLoc true (s.val64 a) = .ok (loc, s')) :
    ∃ u, settle s (s.sigOp op d a b) = .next u ∧
      (s'.endRegion s'.cur).Issued u 4 ((s'.endRegion s'.cur).me.loading d)
        (({ s'.access0 (.sig op) (s.val64 a) 8 loc with
            data := (s.regVal b).setWidth 256, ord := .ar, scope := .sys } : Access).into d) := by
  simp only [State.sigOp, read2_ok s a b readA readB, bind_ok, lo64_regVal, signal, plain, Bool.false_eq_true, if_false]
  exact sigAccess_settles s (s.regVal b) performed stored can

theorem sigRd_settles (readA : s.canRead a) (signal : s.sigLoc false (s.val64 a) = .ok (loc, s')) :
    ∃ u, exec (.sigRd d a) s = .next u ∧
      (s'.endRegion s'.cur).Issued u 4 ((s'.endRegion s'.cur).me.loading d)
        (({ s'.access0 .sigRd (s.val64 a) 8 loc with ord := .acq, scope := .sys } : Access).into d) := by
  simp only [exec_sigRd, execSigRd, read64_ok s a readA, bind_ok, signal, plain, Bool.false_eq_true, if_false]
  exact sigAccess_settles s 0 performed stored can

end

/-! ### `sig.wait` (R82, R401) -/

theorem hearAt_keeps (s : State) (loc n : Nat) (acq : Option Scope) :
    s.hearAt s.cur loc n acq = { s with threads := (s.hearAt s.cur loc n acq).threads } := by
  unfold State.hearAt
  split <;> rfl

theorem foldl_acquire_pc (rs : List Rel) (p : Nat) (z : Scope) (t : Thread) : (rs.foldl (fun t r => t.acquire p z r) t).pc = t.pc := by
  induction rs generalizing t with
  | nil => rfl
  | cons r rs ih => rw [List.foldl_cons, ih, acquire_rest]

/-- Hearing releases moves no pc. -/
theorem hearAt_pc (s : State) (loc n : Nat) (acq : Option Scope) : (s.hearAt s.cur loc n acq).me.pc = s.me.pc := by
  unfold State.hearAt
  split
  · rfl
  · refine (congrArg Thread.pc (thread_setThread s s.cur _)).trans ?_
    cases acq with
    | none => rfl
    | some z => exact foldl_acquire_pc _ _ _ _

theorem hearAt_canWrite (n : Nat) (acq : Option Scope) (write : s.canWrite d) : (s.hearAt s.cur loc n acq).canWrite d := by
  rw [hearAt_keeps]
  exact write

theorem blockSig_me (s : State) (k : Blk) (ready : s.me.state = .ready) :
    (s.blockSig k).me = { s.me with cld := s.me.cld + 1, state := .blocked, blk := some k } := by
  rw [State.blockSig, block_me, me_setMe, Thread.become, if_neg (by simp [ready])]

/-- What `sig.wait` does with what it reads at the signal. -/
def State.sigAnswer (s : State) (loc : Nat) (va thr : Word) (d : Spec) : Option Nat → Res
  | some v => if sigMet v thr then (s.hearAt s.cur loc 8 (some .sys)).put 4 d (scalar (wd v)) else pure (s.blockSig (.sig loc va thr d))
  | none => pure (s.blockSig (.sig loc va thr d))

theorem sigWait_reads {r : Option Nat} (readA : s.canRead a) (readB : s.canRead b) (free : s.me.preempted = false)
    (signal : s.stale.sigLoc false (s.val64 a) = .ok (loc, s')) (plain : s'.me.speculative = false)
    (performed : s'.anyAcc (fun _ => true) = false) (stored : s'.me.failed = none) (room : s'.me.cld < 63)
    (value : (s'.endRegion s'.cur).sigValue loc (s.val64 a) = .ok (r, s'')) :
    exec (.sigWait d a b) s = settle s (s''.sigAnswer loc (s.val64 a) (s.val64 b) d r) := by
  simp only [exec_sigWait, execSigWait, blocking_ok free, read2_ok s a b readA readB, bind_ok, lo64_regVal, signal, plain,
    Bool.false_eq_true, if_false, if_neg (Nat.not_le.mpr room), regionEnd_ok performed stored, value]
  rfl

theorem sigAnswer_met {v : Nat} {thr : Word} (σ : State) (met : toInt 64 v ≤ thr.toInt) (write : s.canWrite d) (named : d ≠ 1) :
    ∃ t, settle σ (s.sigAnswer loc va thr d (some v)) = .next t ∧ t.me.regs[d] = scalar (wd v) ∧ t.me.pc = s.me.pc + 4 := by
  have wrote := done_wrote (s.hearAt s.cur loc 8 (some .sys)) 4 d (scalar (wd v))
  refine ⟨_, ?_, wrote.dest named, wrote.pc.trans (congrArg (· + 4) (hearAt_pc ..))⟩
  have below : sigMet v thr = true := decide_eq_true met
  simp only [State.sigAnswer, below, if_true, put_ok _ _ _ _ (hearAt_canWrite 8 (some .sys) write), settle_ok]

theorem sigAnswer_unmet {r : Option Nat} {thr : Word} (σ : State) (unmet : ∀ v, r = some v → thr.toInt < toInt 64 v) :
    settle σ (s.sigAnswer loc va thr d r) = .next (s.blockSig (.sig loc va thr d)) := by
  cases r with
  | none => rfl
  | some v =>
    have above : sigMet v thr = false := decide_eq_false (not_le.mpr (unmet v rfl))
    simp only [State.sigAnswer, above, Bool.false_eq_true, if_false, pure_ok, settle_ok]

end

/-- Settles O30: four accesses that share their issue, and the two ways of a wait. -/
theorem signalInstructions : Obligations.SignalInstructions := by
  unfold Obligations.SignalInstructions
  constructor
  case left =>
    intro s s' d a b loc readA readB plain performed stored can
    constructor
    · intro signal
      have issues := fun op => sigOp_settles plain performed stored can op readA readB signal
      simp only [List.forall_mem_cons]
      exact ⟨issues .sadd, issues .swap, issues .cas, List.forall_mem_nil _⟩
    · exact sigRd_settles plain performed stored can readA
  case right =>
    intro s s' s'' d a b loc r readA readB free named signal plain performed stored room value
    rw [sigWait_reads readA readB free signal plain performed stored room value]
    constructor
    · rintro v rfl met write
      exact sigAnswer_met s met write named
    · intro unmet ready
      have blocked := blockSig_me s'' (.sig loc (s.val64 a) (s.val64 b) d) ready
      exact ⟨_, sigAnswer_unmet s unmet, by rw [blocked], by rw [blocked], by rw [blocked], by rw [blocked]⟩

end Sys2Proof.Machine
end

section
/-! PROOFS. Fields of words and of control blocks (R10, R355). -/

namespace Sys2Proof.Machine

section
variable {w : Word} {lo n lo' n' v : Nat}

theorem testBit_wbits (w : Word) (lo n i : Nat) : (wbits w lo n).testBit i = (decide (i < n) && w.toNat.testBit (lo + i)) := by
  rw [wbits, bits, Nat.testBit_mod_two_pow, Nat.testBit_div_two_pow, Nat.add_comm i lo]

/-- The bits above a field, the field and the bits below it. -/
theorem setBits_toNat (w : Word) (v : Nat) (fits : lo + n ≤ 64) :
    (setBits w lo n v).toNat = 2 ^ lo * (2 ^ n * (w.toNat / 2 ^ (lo + n)) + v % 2 ^ n) + w.toNat % 2 ^ lo := by
  have upper : w.toNat / 2 ^ lo / 2 ^ n = w.toNat / 2 ^ (lo + n) := by rw [Nat.div_div_eq_div_mul, ← Nat.pow_add]
  have field := Nat.div_add_mod (w.toNat / 2 ^ lo) (2 ^ n)
  have whole := Nat.div_add_mod w.toNat (2 ^ lo)
  rw [upper] at field
  rw [setBits, wd, BitVec.toNat_ofNat, bits]
  have parts : w.toNat = 2 ^ lo * (2 ^ n * (w.toNat / 2 ^ (lo + n))) + w.toNat / 2 ^ lo % 2 ^ n * 2 ^ lo + w.toNat % 2 ^ lo := by
    rw [Nat.mul_comm (w.toNat / 2 ^ lo % 2 ^ n), ← Nat.mul_add, field, whole]
  have replaced : w.toNat - w.toNat / 2 ^ lo % 2 ^ n * 2 ^ lo + v % 2 ^ n * 2 ^ lo =
      2 ^ lo * (2 ^ n * (w.toNat / 2 ^ (lo + n)) + v % 2 ^ n) + w.toNat % 2 ^ lo := by
    rw [Nat.mul_add, Nat.mul_comm (2 ^ lo) (v % 2 ^ n)]
    omega
  rw [replaced]
  refine Nat.mod_eq_of_lt ?_
  have top : w.toNat / 2 ^ (lo + n) < 2 ^ (64 - (lo + n)) := by
    rw [Nat.div_lt_iff_lt_mul (Nat.two_pow_pos _), ← Nat.pow_add, Nat.sub_add_cancel fits]
    exact w.isLt
  have low := Nat.mod_lt w.toNat (Nat.two_pow_pos lo)
  have mid := Nat.mod_lt v (Nat.two_pow_pos n)
  calc 2 ^ lo * (2 ^ n * (w.toNat / 2 ^ (lo + n)) + v % 2 ^ n) + w.toNat % 2 ^ lo
      < 2 ^ lo * (2 ^ n * (w.toNat / 2 ^ (lo + n)) + v % 2 ^ n + 1) := by rw [Nat.mul_succ]; omega
    _ ≤ 2 ^ lo * (2 ^ n * (w.toNat / 2 ^ (lo + n) + 1)) := Nat.mul_le_mul_left _ (by rw [Nat.mul_succ]; omega)
    _ ≤ 2 ^ lo * (2 ^ n * 2 ^ (64 - (lo + n))) := Nat.mul_le_mul_left _ (Nat.mul_le_mul_left _ top)
    _ = 2 ^ 64 := by rw [← Nat.mul_assoc, ← Nat.pow_add, ← Nat.pow_add, Nat.add_sub_cancel' fits]

theorem testBit_setBits (w : Word) (v i : Nat) (fits : lo + n ≤ 64) : (setBits w lo n v).toNat.testBit i =
    if lo ≤ i ∧ i < lo + n then v.testBit (i - lo) else w.toNat.testBit i := by
  rw [setBits_toNat w v fits, Nat.testBit_two_pow_mul_add _ (Nat.mod_lt _ (Nat.two_pow_pos _)),
    Nat.testBit_two_pow_mul_add _ (Nat.mod_lt _ (Nat.two_pow_pos _)), Nat.testBit_mod_two_pow, Nat.testBit_mod_two_pow,
    Nat.testBit_div_two_pow]
  by_cases below : i < lo
  · simp [below, Nat.not_le.mpr below]
  · by_cases inside : i < lo + n
    · have rel : i - lo < n := by omega
      simp [below, inside, rel, Nat.not_lt.mp below]
    · have rel : ¬ i - lo < n := by omega
      simp only [below, rel, inside, if_false, and_false]
      congr 1
      omega

theorem wbits_setBits_same (w : Word) (v : Nat) (fits : lo + n ≤ 64) : wbits (setBits w lo n v) lo n = v % 2 ^ n := by
  refine Nat.eq_of_testBit_eq fun i => ?_
  rw [testBit_wbits, testBit_setBits w v _ fits, Nat.testBit_mod_two_pow]
  by_cases inside : i < n
  · simp [inside]
  · simp [inside]

theorem wbits_setBits_disjoint (w : Word) (v : Nat) (fits : lo + n ≤ 64) (apart : lo' + n' ≤ lo ∨ lo + n ≤ lo') :
    wbits (setBits w lo n v) lo' n' = wbits w lo' n' := by
  refine Nat.eq_of_testBit_eq fun i => ?_
  rw [testBit_wbits, testBit_wbits, testBit_setBits w v _ fits]
  by_cases inside : i < n'
  · rw [if_neg (by omega)]
  · simp [inside]

end

section
variable {g : Group} {k lo n lo' n' v : Nat}

theorem Group.w_eq (g : Group) (inside : k < 16) : g.w k lo n = wbits g.gcb[k] lo n := by
  rw [Group.w, Vector.getElem?_eq_getElem inside]
  rfl

theorem Group.put_gcb_ne (g : Group) {j : Nat} (inside : j < 16) (other : j ≠ k) : (g.put k lo n v).gcb[j] = g.gcb[j] := by
  simp [Group.put, Ne.symm other]

theorem Group.put_gcb_self (g : Group) (inside : k < 16) : (g.put k lo n v).gcb[k] = setBits g.gcb[k] lo n v := by
  simp [Group.put, Vector.getElem?_eq_getElem inside]

theorem Group.w_put_self (g : Group) (inside : k < 16) (fits : lo + n ≤ 64) : (g.put k lo n v).w k lo n = v % 2 ^ n := by
  rw [Group.w_eq _ inside, Group.put_gcb_self g inside, wbits_setBits_same _ _ fits]

theorem Group.w_put_word {j : Nat} (g : Group) (inside : j < 16) (other : j ≠ k) : (g.put k lo n v).w j lo' n' = g.w j lo' n' := by
  rw [Group.w_eq _ inside, Group.w_eq _ inside, Group.put_gcb_ne g inside other]

theorem Group.w_put_field (g : Group) (inside : k < 16) (fits : lo + n ≤ 64) (apart : lo' + n' ≤ lo ∨ lo + n ≤ lo') :
    (g.put k lo n v).w k lo' n' = g.w k lo' n' := by
  rw [Group.w_eq _ inside, Group.w_eq _ inside, Group.put_gcb_self g inside, wbits_setBits_disjoint _ _ fits apart]

theorem Group.w_lt (g : Group) (k lo n : Nat) : g.w k lo n < 2 ^ n := Nat.mod_lt _ (Nat.two_pow_pos n)

end

end Sys2Proof.Machine
end

section
/-! PROOFS. Groups (O31). -/

namespace Sys2Proof.Machine

section
variable {s s1 s2 s3 t : State} {d a b : Spec} {l g loc loc2 : Nat} {q : Group} {ws : List Word}

theorem group?_setGroup (s : State) (l g : Nat) (q : Group) : (s.setGroup l g q).group? l g = some q := Tab.get?_put_self ..

/-- What an instruction that writes a register leaves of the groups. -/
theorem State.Wrote.groups {len : Nat} {v : Reg} (wrote : s.Wrote t len d v) : t.groups = s.groups :=
  (congrArg State.groups wrote.only.rest :)

theorem State.Wrote.mem {len : Nat} {v : Reg} (wrote : s.Wrote t len d v) : t.mem = s.mem := (congrArg State.mem wrote.only.rest :)

theorem noSpec_ok (plain : s.me.speculative = false) : s.noSpec = .ok () := if_neg (ne_true_of_eq_false plain)

theorem launch_of_launchNo (task : s.me.launchNo = some l) : s.myLaunch = .ok l := by rw [State.myLaunch, task]

/-! ### `grp.new` (R356) -/

/-- The control block of a new group names its parent and its slot, and the group is Live with no errors counted. -/
theorem newGroup_fields (gcb par : Vector Word 16) (spm slot parent : Nat) (addr : Word) (loc : Nat) :
    (newGroup gcb par spm slot parent addr loc).st = 1 ∧ (newGroup gcb par spm slot parent addr loc).par = parent % 4096 ∧
      (newGroup gcb par spm slot parent addr loc).slot = slot % 4096 ∧ (newGroup gcb par spm slot parent addr loc).ecnt = 0 := by
  have word : (newGroup gcb par spm slot parent addr loc).gcb[0] =
      setBits (setBits (setBits (inherit gcb par)[0] 36 12 parent) 48 12 slot) 60 4 1 := by simp [newGroup]
  have errors : (newGroup gcb par spm slot parent addr loc).gcb[3] = setBits (inherit gcb par)[3] 32 32 0 := by simp [newGroup]
  rw [Group.st, Group.par, Group.slot, Group.ecnt, Group.w_eq _ (by decide), Group.w_eq _ (by decide), Group.w_eq _ (by decide),
    Group.w_eq _ (by decide), word, errors]
  refine ⟨wbits_setBits_same _ _ (by decide), ?_, ?_, wbits_setBits_same _ _ (by decide)⟩
  · rw [wbits_setBits_disjoint _ _ (by decide) (by decide), wbits_setBits_disjoint _ _ (by decide) (by decide),
      wbits_setBits_same _ _ (by decide)]
    rfl
  · rw [wbits_setBits_disjoint _ _ (by decide) (by decide), wbits_setBits_same _ _ (by decide)]
    rfl

/-- R359: a child of a group that is not in Ending is as it was made. -/
theorem Group.under_live {parent : Option Group} (live : ∀ b, parent = some b → b.st ≠ 3) : q.under parent = q := by
  refine if_neg fun ending => ?_
  obtain ⟨b, found, state⟩ := Option.map_eq_some_iff.mp ending
  exact live b found state

/-- R356: a launch with a free slot takes a group in one. -/
theorem addGroup_free (mk : Nat → Group) (free : s.freeSlots l ≠ []) : ∃ slot ∈ s.freeSlots l,
    s.addGroup l mk = some (slot, (s.draw.setGroup l slot { mk slot with ser := s.nextId }).bump) := by
  obtain ⟨f, fs, listed⟩ := List.exists_cons_of_ne_nil free
  unfold State.addGroup
  rw [listed]
  refine ⟨_, ?_, rfl⟩
  split
  case isTrue root => exact root ▸ List.mem_cons_self ..
  case isFalse =>
    have inside : Config.choice s.fresh % (fs.length + 1) < (f :: fs).length := Nat.mod_lt _ (Nat.succ_pos _)
    rw [List.getElem?_eq_getElem inside]
    exact List.getElem_mem inside

/-- The group that `grp.new` makes in a slot. -/
def State.madeGroup (s : State) (ws : List Word) (l slot : Nat) (addr : Word) (loc : Nat) : Group :=
  { newGroup (vec16 ws) (((s.group? l s.me.grp).map (·.gcb)).getD (Vector.replicate 16 0))
      (wbits (((s.group? l s.me.grp).map (·.gcb)).getD (Vector.replicate 16 0))[2] 0 8) slot s.me.grp addr loc with ser := s.nextId }

theorem madeGroup_fields (s : State) (ws : List Word) (l slot : Nat) (addr : Word) (loc : Nat) :
    (s.madeGroup ws l slot addr loc).st = 1 ∧ (s.madeGroup ws l slot addr loc).par = s.me.grp % 4096 ∧
      (s.madeGroup ws l slot addr loc).slot = slot % 4096 ∧ (s.madeGroup ws l slot addr loc).ecnt = 0 :=
  newGroup_fields _ _ _ slot s.me.grp addr loc

theorem grpNew_makes (readA : s.canRead a) (read : s.access s.cur .read false (s.val64 a) 128 = .ok (loc, s1))
    (write : s1.access s1.cur .write false (s.val64 a) 128 = .ok (loc2, s2)) (plain : s2.me.speculative = false)
    (task : s2.me.launchNo = some l) (words : s2.readWords loc (s.val64 a) 16 = .ok (ws, s3))
    (good : gcbBreach s3.mayRes (vec16 ws) = none) (live : ∀ b, s3.group? l s3.me.grp = some b → b.st ≠ 3)
    (free : s3.freeSlots l ≠ []) (dest : s3.canWrite d) : ∃ slot ∈ s3.freeSlots l, exec (.grpNew d a) s = .next
      ((s3.draw.setGroup l slot (s3.madeGroup ws l slot (s.val64 a) loc)).bump.done 4 d (scalar (wd slot))) := by
  obtain ⟨slot, unused, added⟩ := addGroup_free (fun slot => newGroup (vec16 ws)
    (((s3.group? l s3.me.grp).map (·.gcb)).getD (Vector.replicate 16 0))
    (wbits (((s3.group? l s3.me.grp).map (·.gcb)).getD (Vector.replicate 16 0))[2] 0 8) slot s3.me.grp (s.val64 a) loc) free
  refine ⟨slot, unused, ?_⟩
  simp only [exec_grpNew, execGrpNew, read64_ok s a readA, read, write, noSpec_ok plain, launch_of_launchNo task, words, good, added,
    bind_ok, Group.under_live live]
  have ready : (s3.draw.setGroup l slot (s3.madeGroup ws l slot (s.val64 a) loc)).bump.canWrite d := dest
  exact congrArg (settle s) (put_ok _ 4 d (scalar (wd slot)) ready)

/-! ### Words of a control block (R364) -/

variable {n : BitVec 4} {v : Word}

theorem grpRd_reads (readA : s.canRead a) (write : s.canWrite d) (slot : s.slotOperand (s.val64 a) = .ok (l, g, q)) :
    ∃ t, exec (.grpRd d a n) s = .next t ∧
      (s.hearAt s.cur q.loc 128 (some .dev)).Wrote t 4 d (scalar (s.gcbWord l g q n.toNat)) :=
  ⟨_, by simp only [exec_grpRd, execGrpRd, read64_ok s a readA, slot, bind_ok, put_ok _ _ _ _ (hearAt_canWrite 128 (some .dev) write),
    settle_ok], done_wrote ..⟩

theorem ebudRd_reads (readA : s.canRead a) (write : s.canWrite d) (slot : s.slotOperand (s.val64 a) = .ok (l, g, q)) :
    ∃ t, exec (.ebudRd d a) s = .next t ∧ (s.hearAt s.cur q.loc 128 (some .dev)).Wrote t 4 d
      (mkReg (BitVec.ofNat 64 (q.elim + q.ecnt * 2 ^ 32)) (if q.st = 2 then 1 else 0)) :=
  ⟨_, by simp only [exec_ebudRd, execEbudRd, read64_ok s a readA, slot, bind_ok, put_ok _ _ _ _ (hearAt_canWrite 128 (some .dev) write),
    settle_ok]; rfl, done_wrote ..⟩

section
variable (readA : s.canRead a) (readB : s.canRead b) (slot : s.slotOperand (s.val64 a) = .ok (l, g, q))
include readA slot

theorem grpEnd_ends (plain : s.me.speculative = false) (k : Bool) : exec (.grpEnd a k) s = .next ((s.fin 4).endGroup l g k) := by
  simp only [exec_grpEnd, execGrpEnd, read64_ok s a readA, slot, noSpec_ok plain, bind_ok, pure_ok, settle_ok]

include readB

/-- The words that software may set (R355). -/
def rwWord (k : Nat) : Bool := k == 1 || k == 2 || (4 ≤ k && k ≤ 7) || k == 11

theorem grpSet_refused (other : rwWord n.toNat = false) : exec (.grpSet n a b) s = .next (s.takeFault { code := 0x0001 }) := by
  rw [rwWord] at other
  simp only [exec_grpSet, execGrpSet, read2_ok s a b readA readB, lo64_regVal, slot, bind_ok, other, Bool.not_false, if_true, bind_error,
    fltC, settle_flt, Code.illegal]

/-- The limit of a group's banks: those of its parent, or of its kernel (R356). -/
def State.bankLimit (s : State) (l g : Nat) (q : Group) : Nat :=
  if q.par = g then ((s.launch? l).map (·.sbm)).getD 255 else ((s.group? l q.par).map (·.spm)).getD 255

/-- The word that `grp.set` stores. -/
def State.settableWord (s : State) (l g : Nat) (q : Group) (k : Nat) (w : Word) : Word :=
  if k = 2 then setBits w 0 8 (wbits w 0 8 &&& s.bankLimit l g q) else w

/-- The group after `grp.set`: with word 1 goes the capacity of a group that is no stage (R363). -/
def Group.withWord (q : Group) (k : Nat) (w : Word) : Group :=
  let q : Group := { q with gcb := q.gcb.setIfInBounds k w }
  if k = 1 ∧ q.stg = 0 then q.put 8 0 16 q.cor else q

theorem grpSet_sets (plain : s.me.speculative = false) (rw : rwWord n.toNat = true)
    (good : gcbWordOk (q.stg != 0) s.mayRes n.toNat (s.val64 b) = true) :
    exec (.grpSet n a b) s =
      .next ((s.setGroup l g (q.withWord n.toNat (s.settableWord l g q n.toNat (s.val64 b)))).fin 4) := by
  rw [rwWord] at rw
  simp only [exec_grpSet, execGrpSet, read2_ok s a b readA readB, lo64_regVal, slot, bind_ok, rw, good, noSpec_ok plain, Bool.not_true,
    Bool.false_eq_true, if_false, pure_ok, settle_ok]
  rfl

/-- The group after `ebud.set` (R359). -/
def Group.withBudget (q : Group) (w : Word) : Group :=
  let q := q.put 3 0 32 (wbits w 0 32)
  let q := if w.getLsbD 32 then q.put 3 32 32 0 else q
  if q.st = 2 then q.put 0 60 4 1 else q

theorem ebudSet_sets (plain : s.me.speculative = false) (form : (s.val64 b).toNat < 2 ^ 33)
    (performed : s.anyAcc (fun _ => true) = false) : ∃ r : Rel, exec (.ebudSet a b) s =
      .next (((s.setGroup l g (q.withBudget (s.val64 b))).putRels (q.withBudget (s.val64 b)).loc 8 true [r]).fin 4) := by
  have upper : (s.val64 b).toNat / 2 ^ 33 = 0 := Nat.div_eq_of_lt form
  refine ⟨{ place := s.cur, scope := .dev, loc := (q.withBudget (s.val64 b)).loc, n := 8, clock := s.clockOf s.cur }, ?_⟩
  simp only [exec_ebudSet, execEbudSet, read2_ok s a b readA readB, lo64_regVal, slot, bind_ok, upper, noSpec_ok plain, performed, ne_eq,
    not_true_eq_false, Bool.false_eq_true, if_false, pure_ok, settle_ok]
  rfl

end

/-! ### What a set word leaves -/

theorem withWord_gcb (q : Group) {k j : Nat} (w : Word) (inside : j < 16) (other : j ≠ k) (cap : k = 1 → j ≠ 8) :
    (q.withWord k w).gcb[j] = q.gcb[j] := by
  rw [Group.withWord]
  split
  case isTrue stage => rw [Group.put_gcb_ne _ inside (cap stage.1)]; simp [Ne.symm other]
  case isFalse => simp [Ne.symm other]

theorem withWord_self (q : Group) {k : Nat} (w : Word) (inside : k < 16) : (q.withWord k w).gcb[k] = w := by
  rw [Group.withWord]
  split
  case isTrue stage => rw [Group.put_gcb_ne _ inside (by omega)]; simp
  case isFalse => simp

theorem withWord_stg (q : Group) (w : Word) : ({ q with gcb := q.gcb.setIfInBounds 1 w } : Group).stg = q.stg := by
  rw [Group.stg, Group.stg, Group.w_eq _ (by decide), Group.w_eq _ (by decide)]
  simp

/-- R363, R364: word 1 carries the cores of a group that is no stage. -/
theorem withWord_cap (q : Group) (w : Word) : (q.withWord 1 w).cap = if q.stg = 0 then wbits w 32 16 else q.cap := by
  rw [Group.withWord, withWord_stg]
  by_cases stage : q.stg = 0
  · have limit := Group.w_lt ({ q with gcb := q.gcb.setIfInBounds 1 w }) 1 32 16
    simp only [stage, and_self, if_true]
    rw [Group.cap, Group.w_put_self _ (by decide) (by decide), Group.cor, Nat.mod_eq_of_lt limit, Group.w_eq _ (by decide)]
    simp
  · simp only [stage, and_false, if_false]
    rw [Group.cap, Group.cap, Group.w_eq _ (by decide), Group.w_eq _ (by decide)]
    simp

/-- R356: the banks stay within the parent's. -/
theorem withWord_spm (s : State) (q : Group) (w : Word) {x : Group} (parent : s.group? l q.par = some x) (child : q.par ≠ g) :
    (q.withWord 2 (s.settableWord l g q 2 w)).spm = wbits w 0 8 &&& x.spm := by
  have limit : s.bankLimit l g q = x.spm := by rw [State.bankLimit, if_neg child, parent]; rfl
  have byte : wbits w 0 8 &&& x.spm < 2 ^ 8 := lt_of_le_of_lt Nat.and_le_left (Nat.mod_lt _ (by decide))
  rw [Group.spm, Group.w_eq _ (by decide), withWord_self _ _ (by decide), State.settableWord, if_pos rfl, limit,
    wbits_setBits_same _ _ (by decide), Nat.mod_eq_of_lt byte]

theorem withBudget_fields (q : Group) (w : Word) : (q.withBudget w).elim = w.toNat % 2 ^ 32 ∧
    (q.withBudget w).ecnt = (if w.getLsbD 32 then 0 else q.ecnt) ∧ (q.withBudget w).st = (if q.st = 2 then 1 else q.st) := by
  have limit : wbits w 0 32 % 2 ^ 32 = w.toNat % 2 ^ 32 := by simp [wbits, bits]
  have counted : ∀ r : Group, (if w.getLsbD 32 then r.put 3 32 32 0 else r).st = r.st := by
    intro r
    split
    · exact Group.w_put_word _ (by decide) (by decide)
    · rfl
  have state : (q.put 3 0 32 (wbits w 0 32)).st = q.st := Group.w_put_word _ (by decide) (by decide)
  have third : ∀ (r : Group) (lo : Nat), (if r.st = 2 then r.put 0 60 4 1 else r).w 3 lo 32 = r.w 3 lo 32 := by
    intro r lo
    split
    · exact Group.w_put_word _ (by decide) (by decide)
    · rfl
  refine ⟨?_, ?_, ?_⟩
  · rw [Group.elim, Group.withBudget, third]
    split
    · rw [Group.w_put_field _ (by decide) (by decide) (by decide), Group.w_put_self _ (by decide) (by decide), limit]
    · rw [Group.w_put_self _ (by decide) (by decide), limit]
  · rw [Group.ecnt, Group.withBudget, third]
    split
    · exact Group.w_put_self _ (by decide) (by decide)
    · rw [Group.w_put_field _ (by decide) (by decide) (by decide)]
      rfl
  · rw [Group.withBudget, counted, state]
    split
    · exact Group.w_put_self _ (by decide) (by decide)
    · rw [counted, state]

end

/-- Settles O31: each instruction is its checks and one group put into the table; the fields of the group are read off its words. -/
theorem groupInstructions : Obligations.GroupInstructions := by
  unfold Obligations.GroupInstructions
  constructor
  case left =>
    intro s s1 s2 s3 d a l loc loc2 ws readA named read write plain task words good live free dest
    obtain ⟨slot, unused, runs⟩ := grpNew_makes readA read write plain task words good live free dest
    have wrote := done_wrote (s3.draw.setGroup l slot (s3.madeGroup ws l slot (s.val64 a) loc)).bump 4 d (scalar (wd slot))
    obtain ⟨state, parent, number, errors⟩ := madeGroup_fields s3 ws l slot (s.val64 a) loc
    refine ⟨_, slot, s3.madeGroup ws l slot (s.val64 a) loc, runs, unused, wrote.dest named, ?_, state, parent, number, errors, rfl,
      wrote.pc, wrote.mem, fun k other => ?_⟩
    · rw [State.group?, wrote.groups]
      exact Tab.get?_put_self ..
    · rw [wrote.groups]
      exact Tab.get?_put_ne _ _ _ _ other
  case right =>
    intro s d a b l g q readA readB write named slot plain
    refine ⟨fun n => grpRd_reads readA write slot, ebudRd_reads readA write slot, grpEnd_ends readA slot plain, ?whole, ?first, ?banks,
      ?refused, ?budget⟩
    case whole =>
      intro n which good
      have rw : rwWord n.toNat = true := by rcases which with rfl | rfl | rfl | rfl | rfl <;> rfl
      have unlike : n.toNat ≠ 1 ∧ n.toNat ≠ 2 := by rcases which with rfl | rfl | rfl | rfl | rfl <;> decide
      rw [grpSet_sets readA readB slot plain rw good, State.settableWord, if_neg unlike.2, Group.withWord, if_neg (fun h => unlike.1 h.1)]
    case first =>
      intro good
      refine ⟨_, _, grpSet_sets readA readB slot plain rfl good, group?_setGroup .., withWord_self q _ (by decide),
        fun stage => (withWord_cap q _).trans (if_pos stage), fun stage => (withWord_cap q _).trans (if_neg stage),
        fun k one eight => withWord_gcb q _ k.isLt (fun h => one (Fin.ext h)) (fun _ h => eight (Fin.ext h)), ?_, rfl⟩
      rw [fin_me]
      rfl
    case banks =>
      intro good
      refine ⟨_, _, grpSet_sets readA readB slot plain rfl good, group?_setGroup .., fun x parent child => withWord_spm s q _ parent child,
        fun k two => withWord_gcb q _ k.isLt (fun h => two (Fin.ext h)) (fun h => absurd h (by decide)), ?_, rfl⟩
      rw [fin_me]
      rfl
    case refused =>
      intro n which
      refine grpSet_refused readA readB slot ?_
      revert n
      decide
    case budget =>
      intro form performed
      obtain ⟨r, runs⟩ := ebudSet_sets readA readB slot plain form performed
      obtain ⟨limit, errors, state⟩ := withBudget_fields q (s.val64 b)
      refine ⟨_, _, runs, ?_, limit, errors, state, ?_, ?_⟩
      · rw [State.putRels]
        split
        · exact group?_setGroup ..
        · exact group?_setGroup ..
      · rw [fin_me, State.putRels]
        split <;> rfl
      · rw [State.putRels]
        split <;> rfl

end Sys2Proof.Machine
end

section
/-! PROOFS. What writes of the part itself leave as it was. -/

namespace Sys2Proof.Machine

/-- Only memory and the device copies of host- and peer-backed lines have changed. -/
def State.SameButMem (s t : State) : Prop := t = { s with mem := t.mem, copies := t.copies }

section
variable {s t u : State}

theorem State.SameButMem.refl (s : State) : s.SameButMem s := rfl

theorem State.SameButMem.trans (first : s.SameButMem t) (second : t.SameButMem u) : s.SameButMem u := by
  unfold State.SameButMem at *
  rw [second, first]

theorem State.SameButMem.foldl {α : Type} {f : State → α → State} (step : ∀ (s : State) a, s.SameButMem (f s a)) (l : List α) (s : State) :
    s.SameButMem (l.foldl f s) := by
  induction l generalizing s with
  | nil => exact .refl s
  | cons a l ih => exact (step s a).trans (ih (f s a))

theorem putByte_keeps (s : State) (a : Nat) (b : Byte) : s.SameButMem (s.putByte a b) := by
  unfold State.putByte
  split <;> rfl

theorem putBytes_keeps (s : State) (a : Nat) (bs : List Byte) : s.SameButMem (s.putBytes a bs) := by
  induction bs generalizing s a with
  | nil => exact .refl s
  | cons b bs ih => exact (putByte_keeps s a b).trans (ih _ _)

theorem writeN_keeps (s : State) (a n v : Nat) : s.SameButMem (s.writeN a n v) := putBytes_keeps ..

end

/-- An entry of a table into which one value was put is that value or stood in the table. -/
theorem Tab.mem_put {α : Type} {t : Tab α} {k : Nat} {v : α} {e : Nat × α} (listed : e ∈ Tab.put t k v) : e = (k, v) ∨ e ∈ t := by
  induction t with
  | nil => exact .inl (List.mem_singleton.mp listed)
  | cons x t ih =>
    obtain ⟨j, w⟩ := x
    simp only [Tab.put] at listed
    split at listed
    · exact (List.mem_cons.mp listed).imp_right (List.mem_cons_of_mem _)
    · split at listed
      · exact List.mem_cons.mp listed
      · rcases List.mem_cons.mp listed with rfl | rest
        · exact .inr (List.mem_cons_self ..)
        · exact (ih rest).imp_right (List.mem_cons_of_mem _)

section
variable {s : State} {n k : Nat} {c : Ctx}

theorem context_setCtx (s : State) (n : Nat) (c : Ctx) : (s.setCtx n c).context n = c := Tab.getD_put_self ..

theorem context_setCtx_ne (other : k ≠ n) : (s.setCtx n c).context k = s.context k := Tab.getD_put_ne _ _ _ _ _ other

end

section
variable {s : State} {d : Spec} {acc : Access}

/-- An access that returns no value to a register keeps no register waiting. -/
theorem busy_file (free : s.busy d = false) (dst : acc.dst = none) (wlt : acc.wlt = false) : (s.file acc).busy d = false := by
  refine List.any_eq_false.mpr fun e listed => ?_
  rcases Tab.mem_put listed with rfl | old
  · simp [dst, wlt]
  · exact List.any_eq_false.mp free e old

/-- It goes on as it is when `lt` takes a later result (R36). -/
theorem clearWlt_get? {id : Nat} (filed : Tab.get? s.acc id = some acc) (dst : acc.dst = none) (wlt : acc.wlt = false) :
    Tab.get? s.clearWlt.acc id = some acc := by
  unfold State.clearWlt
  split
  · have pairs : (s.acc.map fun e => if e.2.place == s.cur then
        (e.1, { e.2 with wlt := false, dst := if e.2.dst = some 0 then none else e.2.dst }) else e) =
      s.acc.map fun e => (e.1, if e.2.place == s.cur then
        { e.2 with wlt := false, dst := if e.2.dst = some 0 then none else e.2.dst } else e.2) :=
      List.map_congr_left fun e _ => by split <;> rfl
    simp only [pairs]
    refine (Tab.get?_map (fun a : Access => if a.place == s.cur then
      { a with wlt := false, dst := if a.dst = some 0 then none else a.dst } else a) s.acc id).trans ?_
    rw [filed, Option.map_some]
    congr 1
    split
    · obtain ⟨⟩ := acc
      simp_all
    · rfl
  · exact filed

end

end Sys2Proof.Machine
end

section
/-! PROOFS. Software contexts are stored, created, updated and destroyed (O41). -/

namespace Sys2Proof.Machine

section
variable {s s' t : State} {d a b : Spec} {n loc : Nat} {va : Word} {w : Nat → Nat}

theorem ctxLdCreate_creates (operands : s.ldOperands 0 a b = .ok (n, va)) (image : s.ldImage va = .ok (w, s'))
    (unused : (s'.context n).st = .destroyed) (plain : s'.me.ordered = false) :
    exec (.ctxLdCreate a b) s = .next ((s'.setCtx n (Ctx.empty.ofImage w .created)).fin 4) := by
  simp only [exec_ctxLdCreate, execCtxLdCreate, operands, image, unused, unordered_ok plain, ne_eq, not_true_eq_false, if_false, bind_ok,
    pure_ok, settle_ok]

theorem ctxLdUpdate_updates (operands : s.ldOperands 1 a b = .ok (n, va)) (image : s.ldImage va = .ok (w, s'))
    (plain : s'.me.ordered = false) (state : (s'.context n).st = .idle ∨ (s'.context n).st = .suspended)
    (first : w 0 = if (s'.context n).prv then 1 else 0) (fixed : ∀ k ∈ [5, 6, 7], BitVec.ofNat 64 (w k) = s'.ctxWord n k) :
    exec (.ctxLdUpdate a b) s = .next ((s'.setCtx n ((s'.context n).ofImage w (s'.context n).st)).fin 4) := by
  have allowed : ¬((s'.context n).st ≠ .idle ∧ (s'.context n).st ≠ .suspended) := by tauto
  have word (k : Nat) (named : k ∈ [5, 6, 7]) : (wd (w k) == s'.ctxWord n k) = true := beq_iff_eq.mpr (fixed k named)
  have same : [0, 5, 6, 7].find? (fun k => !if k = 0 then w 0 == (if (s'.context n).prv then 1 else 0) else wd (w k) == s'.ctxWord n k) =
      none := by
    simp [first, word 5 (by decide), word 6 (by decide), word 7 (by decide)]
  simp only [exec_ctxLdUpdate, execCtxLdUpdate, operands, image, if_neg allowed, same, unordered_ok plain, bind_ok, pure_ok, settle_ok]

/-! ### Destroying a context (R372) -/

theorem releaseTable_keeps (s : State) (cl lv tab : Nat) : s.SameButMem (s.releaseTable cl lv tab) := by
  induction lv generalizing s tab with
  | zero => exact .refl s
  | succ lv ih =>
    unfold State.releaseTable
    split
    · exact .refl s
    · refine .foldl (fun s i => ?_) _ s
      dsimp only
      split
      · exact .refl s
      · split
        · exact .refl s
        · split
          · exact writeN_keeps ..
          · split
            · exact ih ..
            · exact .refl s

/-- What stays of a context's translations. -/
theorem dropTlb_core (s : State) (n k : Nat) : ∀ e ∈ ((s.dropTlb n).core k).tlb, teCtx e ≠ n := by
  intro e listed
  have kept : e ∈ ((s.core k).tlb.filter fun e => teCtx e != n) := by
    have core : (s.dropTlb n).core k = { s.core k with tlb := (s.core k).tlb.filter fun e => teCtx e != n } :=
      Tab.getD_mapV (f := fun _ (k : Core) => { k with tlb := k.tlb.filter fun e => teCtx e != n }) s.cores rfl
    rwa [core] at listed
  exact bne_iff_ne.mp (List.mem_filter.mp kept).2

theorem dropTlb_clu (s : State) (n k : Nat) : ∀ e ∈ ((s.dropTlb n).clu k).tlb, teCtx e ≠ n := by
  intro e listed
  have kept : e ∈ ((s.clu k).tlb.filter fun e => teCtx e != n) := by
    have clu : (s.dropTlb n).clu k = { s.clu k with tlb := (s.clu k).tlb.filter fun e => teCtx e != n } :=
      Tab.getD_mapV (f := fun _ (k : Cluster) => { k with tlb := k.tlb.filter fun e => teCtx e != n }) s.clus rfl
    rwa [clu] at listed
  exact bne_iff_ne.mp (List.mem_filter.mp kept).2

/-- The last three steps of a destruction: translations and walks go, pages are released, the record is empty. -/
theorem destroyContext_ends (s : State) (n : Nat) : ∃ (v : State) (walks : Tab Walk) (tab : Nat), (∀ e ∈ walks, e.2.ctx ≠ n) ∧
    s.destroyContext n =
      (({ v.dropTlb n with walks } : State).releaseTable (cluOfPlace ({ v.dropTlb n with walks } : State).cur) 4 tab).setCtx n Ctx.empty := by
  refine ⟨_, _, _, ?_, rfl⟩
  exact fun e listed => bne_iff_ne.mp (List.of_mem_filter (p := fun e : Nat × Walk => e.2.ctx != n) listed)

theorem destroyContext_leaves (s : State) (n : Nat) : (s.destroyContext n).context n = Ctx.empty ∧
    (∀ k, ∀ e ∈ ((s.destroyContext n).core k).tlb, teCtx e ≠ n) ∧ (∀ k, ∀ e ∈ ((s.destroyContext n).clu k).tlb, teCtx e ≠ n) ∧
      ∀ e ∈ (s.destroyContext n).walks, e.2.ctx ≠ n := by
  obtain ⟨v, walks, tab, gone, ends⟩ := destroyContext_ends s n
  have released := releaseTable_keeps ({ v.dropTlb n with walks } : State) (cluOfPlace ({ v.dropTlb n with walks } : State).cur) 4 tab
  rw [ends, released]
  exact ⟨context_setCtx .., dropTlb_core v n, dropTlb_clu v n, gone⟩

theorem ctxLdDestroy_destroys (operands : s.ldOperands 2 a b = .ok (n, va)) (plain : s.me.ordered = false)
    (state : (s.context n).st = .created ∨ (s.context n).st = .idle ∨ (s.context n).st = .suspended)
    (performed : s.acc.any (fun e => e.2.ctx == n) = false) (written : s.endsHeld n = false) :
    exec (.ctxLdDestroy a b) s = .next ((s.destroyContext n).fin 4) := by
  have allowed : ¬((s.context n).st ≠ .created ∧ (s.context n).st ≠ .idle ∧ (s.context n).st ≠ .suspended) := by tauto
  simp only [exec_ctxLdDestroy, execCtxLdDestroy, operands, if_neg allowed, unordered_ok plain, performed, written, Bool.or_false,
    Bool.false_eq_true, if_false, bind_ok, pure_ok, settle_ok]

/-! ### Storing a context's record (R374) -/

theorem free1_ok (free : s.busy d = false) : s.free1 d = .ok () := by simp [State.free1, free]

/-- The store of a context's record. -/
def State.recordStore (s : State) (n loc : Nat) (va : Word) : Access := s.access0 (.wide (s.recordBytes n) false) va 64 loc

/-- The state in which `ctx.sv` writes its result. -/
def State.recordFiled (s : State) (n loc : Nat) (va : Word) : State :=
  (s.file (s.recordStore n loc va)).setMe { s.me with cst := s.me.cst + 1 }

/-- What `ctx.sv` returns (R374). -/
def Ctx.stateWord (c : Ctx) : Word := wd (c.st.code + (if c.st = .frozen then c.pst.code else 0) * 16)

theorem ctxSv_stores (readA : s.canRead a) (readB : s.canRead b) (number : (s.val64 a).toNat < 2 ^ 10)
    (access : s.access s.cur .write false (s.val64 b) 64 = .ok (loc, s')) (plain : s'.me.ordered = false) (free : s'.busy d = false)
    (room : s'.me.cst < 63) : exec (.ctxSv d a b) s =
      .next ((s'.recordFiled (s.val64 a).toNat loc (s.val64 b)).done 4 d (scalar (s'.context (s.val64 a).toNat).stateWord)) := by
  have form : (s.val64 a).toNat / 2 ^ 10 = 0 := Nat.div_eq_of_lt number
  have ready : (s'.recordFiled (s.val64 a).toNat loc (s.val64 b)).canWrite d :=
    .inr (busy_file (acc := s'.recordStore (s.val64 a).toNat loc (s.val64 b)) free rfl rfl)
  simp only [exec_ctxSv, execCtxSv, read2_ok s a b readA readB, lo64_regVal, form, access, unordered_ok plain, free1_ok free, bind_ok,
    ne_eq, not_true_eq_false, if_false, if_neg (Nat.not_le.mpr room), newAcc_eq_access0]
  exact congrArg (settle s) (put_ok _ 4 d _ ready)

theorem recordFiled_done (named : d ≠ 1) (v : Reg) : let t := (s.recordFiled n loc va).done 4 d v
    t.me.pc = s.me.pc + 4 ∧ t.me.cst = s.me.cst + 1 ∧ t.mem = s.mem ∧ Tab.get? t.acc s.nextId = some (s.recordStore n loc va) ∧
      (∀ id, id ≠ s.nextId → (Tab.get? t.acc id).map Access.core = (Tab.get? s.acc id).map Access.core) ∧
        (∀ k, t.context k = s.context k) ∧ t.me.regs[d] = v := by
  intro t
  have wrote : (s.recordFiled n loc va).Wrote t 4 d v := done_wrote ..
  have me : (s.recordFiled n loc va).me = { s.me with cst := s.me.cst + 1 } := me_setMe ..
  have filed : Tab.get? (s.recordFiled n loc va).acc s.nextId = some (s.recordStore n loc va) := Tab.get?_put_self ..
  refine ⟨wrote.pc.trans (by rw [me]; rfl), (congrArg Thread.cst wrote.me).trans (by rw [me]), wrote.mem, ?_, fun id other => ?_,
    fun k => ?_, wrote.dest named⟩
  · have latched : t.acc = ((s.recordFiled n loc va).setMe ((s.recordFiled n loc va).me.result d v)).clearWlt.acc := by
      simp only [t, State.done, State.wrote, if_neg named]
      rfl
    rw [latched]
    exact clearWlt_get? filed rfl rfl
  · refine (Tab.get?_congr wrote.only.accs id).trans ?_
    exact congrArg _ (Tab.get?_put_ne _ _ _ _ other)
  · exact congrArg (fun c => Tab.getD c k Ctx.empty) (congrArg State.ctxs wrote.only.rest :)

end

/-- Settles O41: three forms of `ctx.ld` put or empty a context's record; `ctx.sv` files the store of one. -/
theorem contextInstructions : Obligations.ContextInstructions := by
  unfold Obligations.ContextInstructions
  intro s s' d a b n va w readA readB
  refine ⟨?create, ?update, ?destroy, ?store⟩
  case create =>
    intro operands image unused plain
    refine ⟨_, ctxLdCreate_creates operands image unused plain, by rw [fin_me]; rfl, rfl, fun k other => ?_, ?_⟩
    · exact context_setCtx_ne other
    · exact context_setCtx ..
  case update =>
    intro operands image plain state first fixed
    have now := context_setCtx s' n ((s'.context n).ofImage w (s'.context n).st)
    refine ⟨_, ctxLdUpdate_updates operands image plain state first fixed, by rw [fin_me]; rfl, rfl, ?_⟩
    exact ⟨congrArg Ctx.root now, congrArg Ctx.bas now, congrArg Ctx.lay now, (congrArg Ctx.st now :), (congrArg Ctx.saves now :),
      fun k other => context_setCtx_ne other⟩
  case destroy =>
    intro operands plain state performed written
    have leaves := destroyContext_leaves s n
    have runs := ctxLdDestroy_destroys operands plain state performed written
    generalize s.destroyContext n = v at leaves runs
    exact ⟨_, runs, leaves⟩
  case store =>
    intro loc number access plain free room named
    exact ⟨_, ctxSv_stores readA readB number access plain free room, recordFiled_done named _⟩

end Sys2Proof.Machine
end

section
/-! PROOFS. Records that the part writes into memory (R388, R420). -/

namespace Sys2Proof.Machine

section
variable {s : State} {loc : Nat} {bs : List Byte} {w : Reader}

theorem locTag_of_lt (low : loc < 2 ^ 64) : locTag loc = 0 := Nat.div_eq_of_lt low

theorem isRemote_of_lt (low : loc < 2 ^ 64) : isRemote loc = false := by rw [isRemote, locTag_of_lt low]; rfl

theorem putByte_local (s : State) (b : Byte) (low : loc < 2 ^ 64) : s.putByte loc b = { s with mem := memPut s.mem loc b } :=
  if_neg (ne_true_of_eq_false (isRemote_of_lt low))

theorem putBytes_local (s : State) (bs : List Byte) (low : loc + bs.length ≤ 2 ^ 64) :
    s.putBytes loc bs = { s with mem := memPutN s.mem loc bs } := by
  induction bs generalizing s loc with
  | nil => rfl
  | cons b bs ih =>
    have length : (b :: bs).length = bs.length + 1 := rfl
    rw [State.putBytes, putByte_local s b (by omega), ih _ (by omega)]
    rfl

theorem checkGran_sound (cls : Nat) (sound : s.sound loc) (low : loc < 2 ^ 64) : s.checkGran loc cls w = (.good, s) := by
  obtain ⟨poison, hbm, l2, near⟩ := sound
  have clean : classify (loc / 64) cls [] = .none := rfl
  simp [State.checkGran, poison, hbm, l2, locTag_of_lt low, isRemote_of_lt low, tagScratch, clean]

/-- R215: a store of class full to a sound granule of HBM puts its bytes. -/
theorem storeGran_sound (sound : s.sound loc) (low : loc + bs.length ≤ 2 ^ 64) (within : loc < 2 ^ 64) :
    s.storeGran loc 0 bs w =
      (true, { s.setGran (loc / 64) { s.granule (loc / 64) with l2 := [], l2Dirty := true } with mem := memPutN s.mem loc bs }) := by
  have small : ¬ 0 ≥ 2 := by decide
  simp only [State.storeGran, checkGran_sound 0 sound within, if_neg small, locTag_of_lt within, if_true]
  rw [putBytes_local _ _ low]
  rfl

theorem leBytes_length (n v : Nat) : (leBytes n v).length = n := by
  induction n generalizing v with
  | zero => rfl
  | succ n ih => exact congrArg (· + 1) (ih _)

/-- The state after a record of 16 bytes has been written to a sound granule. -/
def State.recorded (s : State) (loc : Nat) (bs : List Byte) : State :=
  { s.setGran (loc / 64) { s.granule (loc / 64) with l2 := [], l2Dirty := true } with mem := memPutN s.mem loc bs }

theorem putRecord_sound {p lo hi : Nat} (sound : s.sound loc) (low : loc < 2 ^ 53) :
    s.putRecord p loc lo hi = s.recorded loc (leBytes 8 lo ++ leBytes 8 hi) := by
  have fits : loc + (leBytes 8 lo ++ leBytes 8 hi).length ≤ 2 ^ 64 := by
    rw [List.length_append, leBytes_length, leBytes_length]
    omega
  rw [State.putRecord, storeGran_sound sound fits (by omega)]
  rfl

theorem recorded_core (s : State) (loc : Nat) (bs : List Byte) (c : Nat) : (s.recorded loc bs).core c = s.core c := rfl

end

end Sys2Proof.Machine
end

section
/-! PROOFS. The debug instructions and the debugger's steps (O43). -/

namespace Sys2Proof.Machine

section
variable {s t : State} {d a b : Spec} {c p : Nat} {w : Word}

/-! ### Every thread context at once (R74) -/

/-- A change of every listed context that leaves idle ones alone changes every context. -/
theorem thread_mapV (s : State) {f : Nat → Thread → Thread} (p : Nat) (idle : f p (Thread.idle p) = Thread.idle p) :
    ({ s with threads := Tab.mapV f s.threads } : State).thread p = f p (s.thread p) :=
  Tab.getD_mapV s.threads idle

/-- What a change of every listed context makes of one: it is changed, or it is idle before and after. -/
theorem thread_mapV_or_idle (s : State) (f : Nat → Thread → Thread) (p : Nat) :
    ({ s with threads := Tab.mapV f s.threads } : State).thread p = f p (s.thread p) ∨
      (({ s with threads := Tab.mapV f s.threads } : State).thread p = Thread.idle p ∧ s.thread p = Thread.idle p) := by
  simp only [State.thread, Tab.getD, Tab.get?_mapV]
  cases Tab.get? s.threads p with
  | none => exact .inr ⟨rfl, rfl⟩
  | some u => exact .inl rfl

theorem haltCore_thread (s : State) (c p : Nat) : (s.haltCore c).thread p =
    if coreOf p = c ∧ (s.thread p).task.isSome ∧ (s.thread p).state ≠ .halted then
      { s.thread p with state := .halted, prev := (s.thread p).state } else s.thread p :=
  thread_mapV s p (if_neg fun h => Bool.false_ne_true h.2.1)

theorem idle_not_halted (p : Nat) : (Thread.idle p).state ≠ .halted := by
  rw [Thread.idle]
  split <;> decide

theorem unhaltCore_thread (s : State) (c p : Nat) : (s.unhaltCore c).thread p =
    if coreOf p = c ∧ (s.thread p).state = .halted then { s.thread p with state := (s.thread p).prev } else s.thread p :=
  thread_mapV s p (if_neg fun h => idle_not_halted p h.2)

theorem pauseCounts_state (s : State) (f : Nat → Bool) (from_ upto p : Nat) :
    ((s.pauseCounts f from_ upto).thread p).state = (s.thread p).state ∧
      ((s.pauseCounts f from_ upto).thread p).prev = (s.thread p).prev := by
  rcases thread_mapV_or_idle s (fun p t => t.pauseCounts p (f (coreOf p)) f from_ upto) p with paused | ⟨after, before⟩
  · exact ⟨(congrArg Thread.state paused :), (congrArg Thread.prev paused :)⟩
  · exact ⟨congrArg Thread.state (after.trans before.symm), congrArg Thread.prev (after.trans before.symm)⟩

/-! ### A stop (R81, R418) -/

theorem dbgStop_core (s : State) (c : Nat) (cause : BitVec 3) : (s.dbgStop c cause).core c =
    { s.core c with hlt := true, hltAt := if (s.core c).hlt then (s.core c).hltAt else s.cyc, cause } :=
  Tab.getD_put_self ..

theorem dbgStop_thread (s : State) (c : Nat) (cause : BitVec 3) (p : Nat) : (s.dbgStop c cause).thread p =
    if coreOf p = c ∧ (s.thread p).task.isSome ∧ (s.thread p).state ≠ .halted then
      { s.thread p with state := .halted, prev := (s.thread p).state } else s.thread p :=
  haltCore_thread _ c p

/-- A bound context of the core is Halted and remembers its state, and the contexts of other cores are as they were. -/
theorem dbgStop_halts (s : State) (c : Nat) (cause : BitVec 3) :
    (∀ p, coreOf p = c → (s.thread p).task.isSome = true → ((s.dbgStop c cause).thread p).state = .halted ∧
      ((s.thread p).state ≠ .halted → ((s.dbgStop c cause).thread p).prev = (s.thread p).state)) ∧
    ∀ p, coreOf p ≠ c → (s.dbgStop c cause).thread p = s.thread p := by
  constructor
  · intro p here bound
    rw [dbgStop_thread]
    by_cases halted : (s.thread p).state = .halted
    · rw [if_neg fun h => h.2.2 halted]
      exact ⟨halted, fun other => absurd halted other⟩
    · rw [if_pos ⟨here, bound, halted⟩]
      exact ⟨rfl, fun _ => rfl⟩
  · intro p elsewhere
    rw [dbgStop_thread, if_neg fun h => elsewhere h.1]

/-- The instruction that completes leaves what a stop looks at. -/
theorem fin_thread (s : State) (len p : Nat) : ((s.fin len).thread p).state = (s.thread p).state ∧
    ((s.fin len).thread p).prev = (s.thread p).prev ∧ ((s.fin len).thread p).task = (s.thread p).task := by
  by_cases running : p = s.cur
  · have me : (s.fin len).thread p = s.me.fin len := running ▸ fin_me s len
    rw [me, running]
    exact ⟨rfl, rfl, rfl⟩
  · rw [State.fin, thread_setMe_ne _ _ _ running]
    exact ⟨rfl, rfl, rfl⟩

theorem dbgRead_stop_bit (set : (s.core c).dbgStopSet = true) : (s.dbgRead c 0).getLsbD 1 = true := by
  simp only [State.dbgRead, set, if_true, wd, BitVec.getLsbD_ofNat]
  have sel := (s.core c).sel.isLt
  have bit : ∀ x y z u : Nat, x ≤ 1 → (x + 2 + 4 * y + 8 * z + u * 16).testBit 1 = true := by
    intro x y z u small
    rw [Nat.testBit_eq_decide_div_mod_eq, decide_eq_true_eq]
    omega
  have shape : (if (s.core c).dbgEn then 1 else 0) + 2 + (if (s.core c).dbgGoSet then 4 else 0) + (if (s.core c).step then 8 else 0) +
      (s.core c).sel.toNat * 16 + (if (s.core c).trcEn then 128 else 0) =
      (s.core c).dbgEn.toNat + 2 + 4 * (s.core c).dbgGoSet.toNat + 8 * (s.core c).step.toNat +
        ((s.core c).sel.toNat + 8 * (s.core c).trcEn.toNat) * 16 := by
    cases (s.core c).dbgEn <;> cases (s.core c).dbgGoSet <;> cases (s.core c).step <;> cases (s.core c).trcEn <;> simp <;> omega
  rw [shape, bit _ _ _ _ (Bool.toNat_le _)]
  rfl

theorem dbgBrk_off (plain : s.me.speculative = false) (k : BitVec 6) (off : (s.core (coreOf s.cur)).dbgEn = false) :
    exec (.dbgBrk k) s = .next (s.fin 4) := by
  have off' : ((s.fin 4).core (coreOf (s.fin 4).cur)).dbgEn = false := off
  simp only [exec_dbgBrk, execDbgBrk, noSpec_ok plain, bind_ok, off', Bool.false_eq_true, if_false, pure_ok, settle_ok]

theorem dbgBrk_on (plain : s.me.speculative = false) (k : BitVec 6) (on : (s.core (coreOf s.cur)).dbgEn = true) :
    exec (.dbgBrk k) s = .next (((s.fin 4).setCore (coreOf s.cur) { s.core (coreOf s.cur) with code := k.setWidth 8 }).dbgStop
      (coreOf s.cur) 2) := by
  have on' : ((s.fin 4).core (coreOf (s.fin 4).cur)).dbgEn = true := on
  simp only [exec_dbgBrk, execDbgBrk, noSpec_ok plain, bind_ok, pure_ok, settle_ok]
  rw [if_pos on']
  rfl

theorem dbgBrk_stops (plain : s.me.speculative = false) (k : BitVec 6) (on : (s.core (coreOf s.cur)).dbgEn = true)
    (bound : s.me.task.isSome = true) : ∃ t, exec (.dbgBrk k) s = .next t ∧ t.me.state = .halted ∧
      t.me.pc = s.me.pc + 4 ∧ (t.core (coreOf s.cur)).hlt = true ∧ (t.core (coreOf s.cur)).cause = 2 ∧
      (t.core (coreOf s.cur)).code = k.setWidth 8 ∧ t.mem = s.mem := by
  refine ⟨_, dbgBrk_on plain k on, ?_⟩
  obtain ⟨halts, -⟩ := dbgStop_halts ((s.fin 4).setCore (coreOf s.cur) { s.core (coreOf s.cur) with code := k.setWidth 8 })
    (coreOf s.cur) 2
  have task : ((s.fin 4).thread s.cur).task = s.me.task := (fin_thread s 4 s.cur).2.2
  have pc : ((s.fin 4).thread s.cur).pc = s.me.pc + 4 := congrArg Thread.pc (fin_me s 4)
  refine ⟨(halts s.cur rfl (task ▸ bound)).1, ?_, ?_, ?_, ?_, rfl⟩
  · refine (congrArg Thread.pc (dbgStop_thread ..)).trans ?_
    split <;> exact pc
  · rw [dbgStop_core]
  · rw [dbgStop_core]
  · rw [dbgStop_core]
    exact congrArg Core.code (Tab.getD_put_self ..)

/-! ### `dbg.mark` (R420) -/

/-- Where the next trace record of a core goes. -/
def State.traceAt (s : State) (c : Nat) : Nat :=
  ((s.core c).trcBase.toNat + 16 * ((s.core c).trcWi.toNat % 2 ^ (s.core c).trcCfg.toNat)) % 2 ^ 53

theorem trace_off {ev : Nat} {v : Word} (off : (s.core (coreOf p)).trcEn = false) : s.trace p ev v = s := by
  simp [State.trace, off]

theorem trace_on {ev : Nat} {v : Word} (on : (s.core (coreOf p)).trcEn = true) (lo : 8 ≤ (s.core (coreOf p)).trcCfg.toNat)
    (hi : (s.core (coreOf p)).trcCfg.toNat ≤ 20) (sound : s.sound (s.traceAt (coreOf p))) :
    s.trace p ev v = (s.recorded (s.traceAt (coreOf p)) (leBytes 8 v.toNat ++
        leBytes 8 (s.cyc % 2 ^ 32 * 2 ^ 32 + ev * 2 ^ 28 + p % 8 * 2 ^ 25))).setCore (coreOf p)
      { s.core (coreOf p) with trcWi := (s.core (coreOf p)).trcWi + 1 } := by
  have place : locIn 0 (((s.core (coreOf p)).trcBase.toNat +
      16 * ((s.core (coreOf p)).trcWi.toNat % 2 ^ (s.core (coreOf p)).trcCfg.toNat)) % 2 ^ 53) = s.traceAt (coreOf p) := by
    rw [locIn, Nat.zero_mul, Nat.zero_add, State.traceAt]
  have writes : ((s.core (coreOf p)).trcEn && decide (8 ≤ (s.core (coreOf p)).trcCfg.toNat) &&
      decide ((s.core (coreOf p)).trcCfg.toNat ≤ 20)) = true := by simp [on, lo, hi]
  unfold State.trace
  dsimp only
  rw [if_pos writes, place, putRecord_sound sound (Nat.mod_lt _ (Nat.two_pow_pos 53)), recorded_core]

theorem traced_fin (s : State) (loc : Nat) (bs : List Byte) (c : Nat) (k : Core) : let t := ((s.recorded loc bs).setCore c k).fin 4
    t.me.pc = s.me.pc + 4 ∧ t.me.regs = s.me.regs ∧ t.core c = k ∧ t.mem = memPutN s.mem loc bs := by
  intro t
  have me : t.me = s.me.fin 4 := fin_me ..
  exact ⟨congrArg Thread.pc me, (congrArg Thread.regs me :), Tab.getD_put_self .., rfl⟩

theorem dbgMark_marks (readA : s.canRead a) (plain : s.me.speculative = false) :
    exec (.dbgMark a) s = .next ((s.trace s.cur 6 (s.val64 a)).fin 4) := by
  simp only [exec_dbgMark, execDbgMark, read64_ok s a readA, noSpec_ok plain, bind_ok, pure_ok, settle_ok]

/-! ### `prof.rd` (R422) -/

theorem profRd_reads {n : Nat} (readA : s.canRead a) (write : s.canWrite d) (counter : s.profile (s.val64 a) = some n) :
    ∃ t, exec (.profRd d a) s = .next t ∧ s.Wrote t 4 d (scalar (BitVec.ofNat 64 n)) :=
  ⟨_, by simp only [exec_profRd, execProfRd, read64_ok s a readA, bind_ok, counter, put_ok _ _ _ _ write, settle_ok]; rfl, done_wrote ..⟩

theorem profRd_refused (readA : s.canRead a) (unknown : s.profile (s.val64 a) = none) :
    exec (.profRd d a) s = .next (s.takeFault { code := 0x0078, syn := s.val64 a }) := by
  simp only [exec_profRd, execProfRd, read64_ok s a readA, bind_ok, unknown, fltS, settle_flt, Code.profileSelector]

/-! ### Stop, go and step of a named core (R418, R424) -/

theorem dbgStopStop_stops (operands : s.dbgOperands 0 a b = .ok (c, w)) :
    exec (.dbgStopStop a b) s = .next ((s.fin 4).dbgStop c 4) := by
  simp only [exec_dbgStopStop, execDbgStopStop, operands, bind_ok, pure_ok, settle_ok]

theorem dbgStopGo_goes (operands : s.dbgOperands 1 a b = .ok (c, w)) : exec (.dbgStopGo a b) s = .next ((s.fin 4).dbgGo c) := by
  simp only [exec_dbgStopGo, execDbgStopGo, operands, bind_ok, pure_ok, settle_ok]

theorem dbgStopStep_steps (operands : s.dbgOperands 2 a b = .ok (c, w)) : exec (.dbgStopStep a b) s =
    .next ((s.fin 4).setCore c { (s.fin 4).core c with sel := BitVec.ofNat 3 (wbits w 2 3), step := true }) := by
  simp only [exec_dbgStopStep, execDbgStopStep, operands, bind_ok, pure_ok, settle_ok]

/-- A core id is named only where a place of it is one of R17. -/
theorem validPlace_of_named (named : (if validPlace (c * 8) then .ok (c, w) else .error .wait : Except Stop (Nat × Word)) = .ok (c, w)) :
    validPlace (c * 8) = true := by
  by_contra invalid
  rw [if_neg invalid] at named
  cases named

/-- A core that goes on, while the part is not frozen (R74, R81). -/
theorem dbgGo_goes (s : State) (c : Nat) (runs : s.hub.frozen = false) :
    ((s.dbgGo c).core c).hlt = false ∧ ((s.dbgGo c).core c).cause = 0 ∧ (s.dbgGo c).mem = s.mem ∧
      ∀ p, coreOf p = c →
        ((s.dbgGo c).thread p).state = if (s.thread p).state = .halted then (s.thread p).prev else (s.thread p).state := by
  obtain ⟨u, paused, go⟩ : ∃ u : State, (u.mem = s.mem ∧ ∀ p, (u.thread p).state = (s.thread p).state ∧
      (u.thread p).prev = (s.thread p).prev) ∧ s.dbgGo c = (u.setCore c { u.core c with hlt := false, cause := 0 }).unhaltCore c := by
    by_cases halted : (s.core c).hlt = true
    · refine ⟨s.pauseCounts (fun x => x == c) (s.core c).hltAt s.cyc, ⟨rfl, fun p => pauseCounts_state s _ _ _ p⟩, ?_⟩
      have runs' : (s.pauseCounts (fun x => x == c) (s.core c).hltAt s.cyc).hub.frozen = false := runs
      simp only [State.dbgGo, halted, runs, Bool.false_eq_true, if_true, if_false]
      exact if_neg (ne_true_of_eq_false runs')
    · refine ⟨s, ⟨rfl, fun p => ⟨rfl, rfl⟩⟩, ?_⟩
      simp only [State.dbgGo, if_neg halted]
      exact if_neg (ne_true_of_eq_false runs)
  obtain ⟨mem, kept⟩ := paused
  have core : (s.dbgGo c).core c = { u.core c with hlt := false, cause := 0 } := go ▸ Tab.getD_put_self ..
  refine ⟨by rw [core], by rw [core], (congrArg State.mem go).trans mem, fun p here => ?_⟩
  have thread : (s.dbgGo c).thread p = if coreOf p = c ∧ (u.thread p).state = .halted then
      { u.thread p with state := (u.thread p).prev } else u.thread p := go ▸ unhaltCore_thread _ c p
  obtain ⟨state, prev⟩ := kept p
  rw [thread, ← state, ← prev]
  by_cases halted : (u.thread p).state = .halted
  · rw [if_pos ⟨here, halted⟩, if_pos halted]
  · rw [if_neg fun h => halted h.2, if_neg halted]

/-! ### DBG_DAT (R418) -/

/-- What a debugger's write of a general register makes of the thread it names. -/
theorem dbgDatWrite_regs {r : Fin 64} (halted : (s.core c).hlt = true) (place : s.dbgPlace c = c * 8)
    (plain : ¬(r.val = 1 ∨ specReserved r.val = true)) (spec : bits (s.core c).dbgSel.toNat 8 6 = r.val)
    (space : bits (s.core c).dbgSel.toNat 16 2 = 0) (low : (s.core c).dbgSel.getLsbD 14 = false) :
    ∃ u : Thread, s.dbgDatWrite c w = s.setThread (c * 8) u ∧
      u.regs = (s.thread (c * 8)).regs.setIfInBounds r.val (mkReg w (hi64 (((s.thread (c * 8)).regs[r.val]?).getD 0))) := by
  unfold State.dbgDatWrite
  dsimp only
  rw [halted, place, spec, space, low]
  simp only [Bool.not_true, Bool.false_eq_true, if_false, if_neg plain]
  exact ⟨_, rfl, rfl⟩

theorem setIfInBounds_getElem (rs : Vector Reg 64) (r : Fin 64) (f : Reg → Reg) :
    (rs.setIfInBounds r.val (f ((rs[r.val]?).getD 0)))[r] = f rs[r] := by
  simp

/-- DBG_SEL names the low half of a register of the core's first context. -/
theorem dbgDatWrite_low {r : Fin 64} (halted : (s.core c).hlt = true) (named : 8 ≤ r.val)
    (sel : (s.core c).dbgSel = BitVec.ofNat 18 (r.val * 256)) :
    ((s.dbgDatWrite c w).thread (c * 8)).regs[r] = mkReg w (hi64 (s.thread (c * 8)).regs[r]) := by
  have inside := r.isLt
  have value : (s.core c).dbgSel.toNat = r.val * 256 := by rw [sel, BitVec.toNat_ofNat]; omega
  have place : s.dbgPlace c = c * 8 := by rw [State.dbgPlace, value]; omega
  have spec : bits (s.core c).dbgSel.toNat 8 6 = r.val := by rw [value, bits]; omega
  have space : bits (s.core c).dbgSel.toNat 16 2 = 0 := by rw [value, bits]; omega
  have low : (s.core c).dbgSel.getLsbD 14 = false := by
    rw [BitVec.getLsbD, value]
    exact Nat.testBit_lt_two_pow (by omega)
  have plain : ¬(r.val = 1 ∨ specReserved r.val = true) := by
    rintro (one | reserved)
    · omega
    · simp only [specReserved, Bool.and_eq_true, decide_eq_true_eq] at reserved
      omega
  obtain ⟨u, eq, regs⟩ := dbgDatWrite_regs (w := w) halted place plain spec space low
  rw [eq, thread_setThread, regs]
  exact setIfInBounds_getElem _ r fun old => mkReg w (hi64 old)

end

/-- Settles O43: a stop and a go change every context of the core alike; the other forms write one register or one record. -/
theorem debugInstructions : Obligations.DebugInstructions := by
  unfold Obligations.DebugInstructions
  intro s d a b k c w readA readB write plain
  refine ⟨dbgBrk_off plain k, dbgBrk_stops plain k, ?markOff, ?markOn, fun n => profRd_reads readA write, profRd_refused readA,
    ?stop, ?go, ?step, ?control⟩
  case markOff =>
    intro off
    rw [dbgMark_marks readA plain, trace_off off]
  case markOn =>
    intro on lo hi place sound
    rw [dbgMark_marks readA plain, trace_on on lo hi sound]
    obtain ⟨pc, regs, core, mem⟩ := traced_fin s (s.traceAt (coreOf s.cur)) (leBytes 8 (s.val64 a).toNat ++
      leBytes 8 (s.cyc % 2 ^ 32 * 2 ^ 32 + 6 * 2 ^ 28 + s.cur % 8 * 2 ^ 25)) (coreOf s.cur)
      { s.core (coreOf s.cur) with trcWi := (s.core (coreOf s.cur)).trcWi + 1 }
    exact ⟨_, rfl, pc, regs, by rw [core], mem⟩
  case stop =>
    simp only [List.forall_mem_cons]
    refine ⟨fun operands => ?_, fun named => ?_, List.forall_mem_nil _⟩
    · refine ⟨_, dbgStopStop_stops operands, by rw [dbgStop_core], by rw [dbgStop_core], rfl, fun h => absurd h (by decide), ?_⟩
      obtain ⟨halts, others⟩ := dbgStop_halts (s.fin 4) c 4
      refine ⟨fun p here bound => ?_, others⟩
      obtain ⟨state, -, task⟩ := fin_thread s 4 p
      obtain ⟨halted, remembers⟩ := halts p here (task ▸ bound)
      exact ⟨halted, fun other => (remembers (state ▸ other)).trans state⟩
    · have runs : exec (.dbgCtlStop c) s = .next (s.ctlStop c) := by
        rw [exec_dbgCtlStop, execDbgCtlStop, if_pos (validPlace_of_named named)]
      obtain ⟨halts, others⟩ := dbgStop_halts (s.setCore c { s.core c with dbgStopSet := true }) c 1
      refine ⟨_, runs, by rw [State.ctlStop, dbgStop_core], by rw [State.ctlStop, dbgStop_core], rfl, fun _ => ?_, halts, others⟩
      refine dbgRead_stop_bit ?_
      rw [State.ctlStop, dbgStop_core]
      exact congrArg Core.dbgStopSet (Tab.getD_put_self s.cores c { s.core c with dbgStopSet := true } Core.idle)
  case go =>
    simp only [List.forall_mem_cons]
    refine ⟨fun operands runs => ?_, fun named runs => ?_, List.forall_mem_nil _⟩
    · obtain ⟨hlt, cause, mem, states⟩ := dbgGo_goes (s.fin 4) c runs
      refine ⟨_, dbgStopGo_goes operands, hlt, cause, mem, fun p here => ?_⟩
      obtain ⟨state, prev, -⟩ := fin_thread s 4 p
      rw [states p here, state, prev]
    · have goes : exec (.dbgCtlGo c) s = .next (s.ctlGo c) := by
        rw [exec_dbgCtlGo, execDbgCtlGo, if_pos (validPlace_of_named named)]
      exact ⟨_, goes, dbgGo_goes (s.setCore c { s.core c with dbgGoSet := true }) c runs⟩
  case step =>
    intro operands
    have core := Tab.getD_put_self (s.fin 4).cores c { (s.fin 4).core c with sel := BitVec.ofNat 3 (wbits w 2 3), step := true } Core.idle
    exact ⟨_, dbgStopStep_steps operands, congrArg Core.step core, congrArg Core.sel core, congrArg Thread.pc (fin_me s 4), rfl⟩
  case control =>
    intro valid
    refine ⟨?_, ?_, fun halted r named sel => dbgDatWrite_low halted named sel⟩
    · rw [exec_dbgCtlStep, execDbgCtlStep, if_pos valid]
    · rw [exec_dbgDatWrite, execDbgDatWrite, if_pos valid]

end Sys2Proof.Machine
end

section
/-! PROOFS. Queues that change, and the records of the decision log (R376, R388). -/

namespace Sys2Proof.Machine

section
variable {s t : State} {k d : Nat} {q o : Queue}

/-- A queue has changed; besides the table of queues only memory, its control block, has (R376). -/
structure State.PutsQueue (s : State) (k : Nat) (q : Queue) (t : State) : Prop where
  queue : ∃ stale, t.queue? k = some { q with stale }
  rest : t = { s with queues := t.queues, mem := t.mem, copies := t.copies }

theorem setQueue_puts (s : State) (k : Nat) (q : Queue) : s.PutsQueue k q (s.setQueue k q) := by
  have put (u : State) (r : Queue) : ({ u with queues := Tab.put u.queues k r } : State).queue? k = some r := Tab.get?_put_self ..
  unfold State.setQueue
  dsimp only
  split
  · exact ⟨⟨q.stale, put s q⟩, rfl⟩
  · split
    · exact ⟨⟨true, put { s with queues := Tab.put s.queues k q } { q with stale := true }⟩, rfl⟩
    · rename_i loc _
      generalize [2, 4, 5, 6, 7].filter _ = words
      have writes := State.SameButMem.foldl (fun s i => writeN_keeps s (loc + 8 * i) 8 (q.word i).toNat) words
        { s with queues := Tab.put s.queues k q }
      generalize List.foldl _ _ words = t at writes
      have kept : t.queues = Tab.put s.queues k q := congrArg State.queues writes
      refine ⟨⟨q.stale, ?_⟩, by rw [kept]; exact writes⟩
      rw [State.queue?, kept]
      exact put s q

/-- A queue whose block keeps its words changes in the table alone. -/
theorem setQueue_of_words (found : s.queue? k = some o) (words : ∀ i, o.word i = q.word i) :
    s.setQueue k q = { s with queues := Tab.put s.queues k q } := by
  have none_new : [2, 4, 5, 6, 7].filter (fun i => (some o).map (fun o => o.word i) != some (q.word i)) = [] := by
    simp [words]
  simp only [State.setQueue, found, none_new, List.isEmpty_nil, Bool.true_or, if_true]

theorem State.PutsQueue.me (puts : s.PutsQueue k q t) : t.me = s.me := by
  rw [puts.rest]
  rfl

theorem State.PutsQueue.logAt (puts : s.PutsQueue k q t) (d : Nat) : t.logAt d = s.logAt d := by
  rw [puts.rest]
  rfl

theorem State.PutsQueue.logSound (puts : s.PutsQueue k q t) (sound : s.logSound d) : t.logSound d := by
  rw [State.logSound, puts.logAt]
  rw [puts.rest]
  exact sound

/-! ### The decision log (R388) -/

/-- What a record of two words leaves in a log whose base and size are set. -/
def State.logged (s : State) (d lo hi : Nat) : State :=
  if 8 ≤ (s.die d).dlgn.toNat ∧ (s.die d).dlgn.toNat ≤ 20 then
    s.recorded (s.logAt d) (leBytes 8 lo ++ leBytes 8 (s.cyc % 2 ^ 32 * 2 ^ 32 + hi % 2 ^ 32 / 4 * 4)) else s

theorem logged_rest (s : State) (d lo hi : Nat) :
    s.logged d lo hi = { s with gran := (s.logged d lo hi).gran, mem := (s.logged d lo hi).mem } := by
  unfold State.logged
  split <;> rfl

theorem logAt_lt (s : State) (d : Nat) : s.logAt d < 2 ^ 53 := Nat.mod_lt _ (Nat.two_pow_pos 53)

theorem dlogPut_sound {lo hi : Nat} (sound : s.logSound d) : s.dlogPut d lo hi =
    (s.logged d lo hi).setDie d { (s.die d).count 0 with dwi := ((s.die d).dwi + 1) % 2 ^ 64 } := by
  have place : locIn 0 (s.logAt d) = s.logAt d := by rw [locIn]; omega
  have written : (if 8 ≤ (s.die d).dlgn.toNat ∧ (s.die d).dlgn.toNat ≤ 20 then
      s.putRecord (dispatchPlace d) (locIn 0 (s.logAt d)) lo (s.cyc % 2 ^ 32 * 2 ^ 32 + hi % 2 ^ 32 / 4 * 4) else s) = s.logged d lo hi := by
    rw [State.logged, place, putRecord_sound sound (logAt_lt s d)]
  have die : (s.logged d lo hi).die d = s.die d := by rw [logged_rest]; rfl
  unfold State.dlogPut
  dsimp only
  rw [← State.logAt, written, die]

/-- A record changes the log's ring, its granule and its counters. -/
theorem record_rest (sound : s.logSound d) (act rsn slot ctx obj : Nat) : let t := s.record d act rsn slot ctx obj
    t = { s with gran := t.gran, mem := t.mem, dies := t.dies } := by
  intro t
  have put (lo hi : Nat) : s.dlogPut d lo hi = { s with gran := (s.dlogPut d lo hi).gran, mem := (s.dlogPut d lo hi).mem,
                                                         dies := (s.dlogPut d lo hi).dies } := by
    rw [dlogPut_sound sound, logged_rest]
    rfl
  simp only [t, State.record]
  split
  · rw [put]
    rfl
  · exact put ..

end

end Sys2Proof.Machine
end

section
/-! PROOFS. `que.sub`, the slots, and the decision log (O42). -/

namespace Sys2Proof.Machine

section
variable {s t u : State} {d a b : Spec} {ctx die loc k : Nat} {q : Queue}

/-! ### Registration (R384) -/

theorem queSubRegister_registers (readA : s.canRead a) (readB : s.canRead b) (write : s.canWrite d) (plain : s.me.ordered = false)
    (checked : s.subCheck 0 (s.val64 a) (s.val64 b) = .ok (ctx, die, loc)) (new : s.findQueue ctx (s.val64 a) = none)
    (room : (s.queues.filter (fun e => e.2.die == die)).length < 1024) :
    exec (.queSubRegister d a b) s = .next ((s.setQueue s.nextId (s.newQueue (s.val64 a) loc ctx die)).bump.done 4 d
      (scalar (wd (s.newQueue (s.val64 a) loc ctx die).st.code))) := by
  have rest := (setQueue_puts s s.nextId (s.newQueue (s.val64 a) loc ctx die)).rest
  have registered : s.register (s.val64 a) (s.val64 b) = .ok ((s.newQueue (s.val64 a) loc ctx die).st.code,
      (s.setQueue s.nextId (s.newQueue (s.val64 a) loc ctx die)).bump) := by
    simp only [State.register, checked, new, Option.isSome_none, Bool.false_eq_true, if_false, if_neg (Nat.not_le.mpr room), bind_ok, pure_ok]
  simp only [exec_queSubRegister, execQueSubRegister, read2_ok s a b readA readB, lo64_regVal, registered, bind_ok]
  generalize s.setQueue s.nextId (s.newQueue (s.val64 a) loc ctx die) = t at rest
  have same : t.bump.unordered = .ok () := unordered_ok (by rw [rest]; exact plain)
  have ready : t.bump.canWrite d := by rw [rest]; exact write
  rw [same]
  exact congrArg (settle s) (put_ok _ 4 d _ ready)

/-- R377, R384: the state that a registration gives a queue. -/
theorem newQueue_state (s : State) (qcb : Word) (loc ctx die : Nat) : let q := s.newQueue qcb loc ctx die
    q.qcb = qcb ∧ q.ctx = ctx ∧ q.die = die ∧ q.loc = loc ∧ q.ri = s.readN (loc + 16) 8 ∧ q.si = q.ri ∧ q.started = [] ∧
      q.es = (if q.st = .stopped then 3 else 0) ∧
      (q.st = .stopped ↔ ¬(q.ri ≤ s.readN (loc + 8) 8 ∧ s.readN (loc + 8) 8 ≤ q.ri + 2 ^ q.lgn)) ∧
      (q.st = .idle → s.readN (loc + 8) 8 = q.ri) ∧ q.st ≠ .mapped := by
  have ok (r : Queue) (n : Nat) : r.wiOk n = true ↔ r.ri ≤ n ∧ n ≤ r.ri + 2 ^ r.lgn := by simp [Queue.wiOk]
  simp only [State.newQueue]
  by_cases good : s.readN (loc + 16) 8 ≤ s.readN (loc + 8) 8 ∧
      s.readN (loc + 8) 8 ≤ s.readN (loc + 16) 8 + 2 ^ bits (s.readN (loc + 24) 8) 0 5
  · rw [if_neg (by rw [Bool.not_eq_true', Bool.not_eq_false]; exact (ok _ _).mpr good)]
    by_cases same : s.readN (loc + 8) 8 = s.readN (loc + 16) 8
    · rw [if_neg (not_not.mpr same)]
      simpa using ⟨good, same⟩
    · rw [if_pos same]
      simpa [Queue.pend] using good
  · rw [if_pos (by rw [Bool.not_eq_true', ← Bool.not_eq_true, ok]; exact good)]
    simpa using good

/-! ### Leaving (R384) -/

theorem giveResult_me (s : State) (d : Spec) (v : Reg) (len : Nat) :
    (s.giveResult s.cur d v len).me = (({ (s.me.result d v) with wait := .none } : Thread).fin len) := by
  have held : s.giveResult s.cur d v len =
      { (s.setMe { (s.me.result d v) with wait := .none }).clearWlt.fin len with cur := s.cur } := rfl
  have cur : ((s.setMe { (s.me.result d v) with wait := .none }).clearWlt.fin len).cur = s.cur := clearWlt_cur ..
  have same : s.giveResult s.cur d v len = (s.setMe { (s.me.result d v) with wait := .none }).clearWlt.fin len := by
    rw [held, ← cur]
  rw [same, fin_me, me_eq _ _ (clearWlt_threads _) (clearWlt_cur _), me_setMe]

theorem giveResult_queues (s : State) (p : Nat) (d : Spec) (v : Reg) (len : Nat) : (s.giveResult p d v len).queues = s.queues := by
  simp only [State.giveResult, State.fin, setMe_queues]
  rw [clearWlt_rest]
  rfl

theorem result_regs_self (u : Thread) (v : Reg) (named : d ≠ 1) : (u.result d v).regs[d] = v := by
  rw [Thread.result, if_neg named]
  by_cases latch : d = 0
  · subst latch
    exact Vector.getElem_set_self ..
  · have other : (0 : Nat) ≠ d.val := fun eq => latch (Fin.ext eq.symm)
    simp [other]

/-- A fold over a table into which one value was put acts by that value alone where the others do nothing. -/
theorem foldl_put {α β : Type} (f : β → Nat × α → β) (l : Tab α) (n : Nat) (v : α) (idle : ∀ e ∈ l, ∀ x, f x e = x) (x : β) :
    (Tab.put l n v).foldl f x = f x (n, v) := by
  have rest (l : Tab α) (idle : ∀ e ∈ l, ∀ x, f x e = x) (x : β) : l.foldl f x = x := by
    induction l generalizing x with
    | nil => rfl
    | cons e l ih => rw [List.foldl_cons, idle e (List.mem_cons_self ..), ih fun e listed => idle e (List.mem_cons_of_mem _ listed)]
  induction l generalizing x with
  | nil => rfl
  | cons e l ih =>
    obtain ⟨j, w⟩ := e
    have tail : ∀ e ∈ l, ∀ x, f x e = x := fun e listed => idle e (List.mem_cons_of_mem _ listed)
    rw [Tab.put]
    split
    · rw [List.foldl_cons, rest l tail]
    · split
      · rw [List.foldl_cons, rest _ idle]
      · rw [List.foldl_cons, idle _ (List.mem_cons_self ..), ih tail]

/-- The only context that waits for a queue's leaving is the running one: it takes its result. -/
theorem wakeSubs_me {v : Thread} (waits : v.wait = .queue k d) (threads : t.threads = Tab.put s.threads t.cur v)
    (others : ∀ e ∈ s.threads, ∀ d', e.2.wait ≠ .queue k d') : t.wakeSubs k = t.giveResult t.cur d 0 4 := by
  unfold State.wakeSubs
  rw [threads, foldl_put]
  · simp only [waits, if_true]
  · intro e listed x
    split
    · rename_i n d' wait
      exact if_neg (fun same : n = k => others e listed d' (same ▸ wait))
    · rfl

/-- A queue that has begun to leave: its barriers are cancelled (R397). -/
def Queue.left (q : Queue) : Queue :=
  { q with leaving := true, started := q.started.map fun p => if p.kind = 2 ∧ p.done = none then { p with done := some (some 0) } else p }

theorem left_word (q : Queue) (i : Nat) : q.word i = q.left.word i := by
  unfold Queue.word
  split <;> rfl

theorem beginLeave_left (found : s.queue? k = some q) (away : q.st ≠ .mapped) :
    s.beginLeave k = ({ s with queues := Tab.put s.queues k q.left } : State).leaveCheck k := by
  have unmapped : s.unmapQueue k 7 = s := by simp only [State.unmapQueue, State.unmapTo, found, ne_eq, away, not_false_eq_true, if_true]
  simp only [State.beginLeave, unmapped, found]
  exact congrArg (State.leaveCheck · k) (setQueue_of_words found (left_word q))

theorem queSubUnregister_leaves (readA : s.canRead a) (readB : s.canRead b) (write : s.canWrite d) (named : d ≠ 1)
    (plain : s.me.ordered = false) (checked : s.subCheck 1 (s.val64 a) (s.val64 b) = .ok (ctx, die, loc))
    (found : s.findQueue ctx (s.val64 a) = some (k, q)) (listed : s.queue? k = some q) (away : q.st ≠ .mapped) :
    exec (.queSubUnregister d a b) s = .next (({ s.setMe { s.me with wait := .queue k d } with
      queues := Tab.put s.queues k q.left } : State).leaveCheck k) := by
  have leaving : s.unregister (s.val64 a) (s.val64 b) = .ok k := by simp only [State.unregister, checked, found, bind_ok, pure_ok]
  have free : s.free1 d = .ok () := free1_ok (write.resolve_left named)
  simp only [exec_queSubUnregister, execQueSubUnregister, read2_ok s a b readA readB, lo64_regVal, leaving, unordered_ok plain, free,
    bind_ok, pure_ok, settle_ok]
  rw [beginLeave_left (s := s.setMe { s.me with wait := .queue k d }) listed away]
  rfl

theorem leaveCheck_stays (found : s.queue? k = some q) (held : q.started ≠ [] ∨ q.stale = true ∨ s.qcbLoc q = none) :
    s.leaveCheck k = s := by
  have waits : (q.leaving && q.started.isEmpty && !q.stale && (s.qcbLoc q).isSome) = false := by
    rcases held with started | stale | unwritten
    · simp [started]
    · simp [stale]
    · simp [unwritten]
  simp only [State.leaveCheck, found, waits, Bool.false_eq_true, if_false]

theorem leaveCheck_leaves (found : s.queue? k = some q) (leaving : q.leaving = true) (started : q.started = []) (fresh : q.stale = false)
    (written : (s.qcbLoc q).isSome = true) : s.leaveCheck k = s.removeQueue k := by
  simp only [State.leaveCheck, found, leaving, started, fresh, written, List.isEmpty_nil, Bool.not_false, Bool.and_self, if_true]

/-- A queue that goes is no more in the table, and the one that waits for it goes on. -/
theorem removeQueue_goes {v : Thread} (found : s.queue? k = some q) (waits : v.wait = .queue k d)
    (threads : s.threads = Tab.put t.threads s.cur v) (others : ∀ e ∈ t.threads, ∀ d', e.2.wait ≠ .queue k d') :
    (s.removeQueue k).queues = Tab.del s.queues k ∧
      (s.removeQueue k).me = (({ (s.me.result d 0) with wait := .none } : Thread).fin 4) := by
  have removed : ∃ u : State, s.SameButMem u ∧ ∃ bells, s.removeQueue k =
      (({ u with queues := Tab.del u.queues k } : State).setHub { u.hub with bells }).wakeSubs k := by
    unfold State.removeQueue
    rw [found]
    dsimp only
    split
    · exact ⟨_, writeN_keeps .., _, rfl⟩
    · exact ⟨s, .refl s, _, rfl⟩
  obtain ⟨u, kept, bells, eq⟩ := removed
  have mine : u.threads = s.threads := (congrArg State.threads (show u = _ from kept) :)
  have cur : u.cur = s.cur := (congrArg State.cur (show u = _ from kept) :)
  have queues : u.queues = s.queues := (congrArg State.queues (show u = _ from kept) :)
  rw [eq, wakeSubs_me (s := t) waits (by simpa [mine, cur] using threads) others]
  refine ⟨(giveResult_queues ..).trans (congrArg (Tab.del · k) queues), (giveResult_me ..).trans ?_⟩
  exact congrArg (fun t : Thread => ({ (t.result d 0) with wait := .none } : Thread).fin 4) (me_eq s u mine cur)

/-! ### Resumption (R384) -/

/-- A queue whose bounds of R377 are checked anew. -/
def State.restarted (s : State) (q : Queue) : Queue :=
  let q : Queue := { q with es := 0, lst := 0, fidx := 0, dr := false }
  if !q.wiOk (s.wiOf q) then { q with es := 3 } else if s.wiOf q ≠ q.si then q.pend s.cyc else { q with st := .idle }

theorem wiOk_iff (q : Queue) (n : Nat) : q.wiOk n = true ↔ q.ri ≤ n ∧ n ≤ q.ri + 2 ^ q.lgn := by simp [Queue.wiOk]

theorem restarted_state (s : State) (stopped : q.st = .stopped) : let r := s.restarted q
    r.lst = 0 ∧ r.fidx = 0 ∧ r.dr = false ∧ r.es = (if q.ri ≤ s.wiOf q ∧ s.wiOf q ≤ q.ri + 2 ^ q.lgn then 0 else 3) ∧
      r.st = (if ¬ (q.ri ≤ s.wiOf q ∧ s.wiOf q ≤ q.ri + 2 ^ q.lgn) then .stopped else if s.wiOf q = q.si then .idle else .pending) ∧
      r.ri = q.ri := by
  have wi : s.wiOf { q with es := 0, lst := 0, fidx := 0, dr := false } = s.wiOf q := rfl
  have ok := wiOk_iff { q with es := 0, lst := 0, fidx := 0, dr := false } (s.wiOf q)
  simp only [State.restarted, wi]
  by_cases good : q.ri ≤ s.wiOf q ∧ s.wiOf q ≤ q.ri + 2 ^ q.lgn
  · rw [if_neg (by rw [Bool.not_eq_true', Bool.not_eq_false, ok]; exact good)]
    by_cases same : s.wiOf q = q.si
    · rw [if_neg (not_not.mpr same)]
      simpa [same] using good
    · rw [if_pos same]
      simp [good, same, Queue.pend]
  · rw [if_pos (by rw [Bool.not_eq_true', ← Bool.not_eq_true, ok]; exact good)]
    simp [good, stopped]

theorem queSubResume_resumes (readA : s.canRead a) (readB : s.canRead b) (write : s.canWrite d) (plain : s.me.ordered = false)
    (checked : s.subCheck 2 (s.val64 a) (s.val64 b) = .ok (ctx, die, loc)) (found : s.findQueue ctx (s.val64 a) = some (k, q))
    (stopped : q.st = .stopped) :
    exec (.queSubResume d a b) s = .next ((s.setQueue k (s.restarted q)).done 4 d (scalar (wd (s.restarted q).st.code))) := by
  have rest := (setQueue_puts s k (s.restarted q)).rest
  have resumed : s.restartQueue (s.val64 a) (s.val64 b) = .ok ((s.restarted q).st.code, s.setQueue k (s.restarted q)) := by
    simp only [State.restartQueue, checked, found, if_neg (not_not.mpr stopped), bind_ok, pure_ok]
    rfl
  simp only [exec_queSubResume, execQueSubResume, read2_ok s a b readA readB, lo64_regVal, resumed, bind_ok]
  generalize s.setQueue k (s.restarted q) = t at rest
  have same : t.unordered = .ok () := unordered_ok (by rw [rest]; exact plain)
  have ready : t.canWrite d := by rw [rest]; exact write
  rw [same]
  exact congrArg (settle s) (put_ok _ 4 d _ ready)

/-! ### Slots (R384, R389) -/

/-- What a queue's change and a record of it leave: the queue, and the running context as it was. -/
theorem setQueue_record (r : Queue) (sound : s.logSound die) (act rsn slot obj : Nat) :
    let t := ((s.setQueue k r).record die act rsn slot ctx obj).fin 4
    (∃ stale, t.queue? k = some { r with stale }) ∧ t.me.pc = s.me.pc + 4 ∧ t.me.regs = s.me.regs := by
  have puts := setQueue_puts s k r
  have rest := record_rest (puts.logSound sound) act rsn slot ctx obj
  obtain ⟨stale, listed⟩ := puts.queue
  have me : ((s.setQueue k r).record die act rsn slot ctx obj).me = s.me := by
    rw [rest]
    exact puts.me
  refine ⟨⟨stale, ?_⟩, ?_, ?_⟩
  · rw [rest]
    exact listed
  · rw [fin_me, me]
    rfl
  · rw [fin_me, me]
    rfl

theorem slotMap_maps (readA : s.canRead a) (readB : s.canRead b) (plain : s.me.ordered = false) (form : (s.val64 b).toNat < 2 ^ 16)
    (found : s.queues.find? (fun e => e.2.qcb == s.val64 a && e.2.die == wbits (s.val64 b) 0 8 / 32) = some (k, q))
    (listed : s.queue? k = some q) (exists_ : (s.context q.ctx).st ≠ .destroyed) (block : s.qcbAt q.ctx q.die (s.val64 a) = .ok loc)
    (state : q.st = .idle ∨ q.st = .pending) (stays : q.leaving = false) (runs : (s.context q.ctx).st ≠ .suspended)
    (free : s.slotQueue (wbits (s.val64 b) 0 8) = none) : exec (.slotMap a b) s =
      .next (((s.setQueue k { q with st := .mapped, slot := wbits (s.val64 b) 0 8, epri := q.pri, nmap := q.nmap + 1, mapAt := s.cyc,
                                     bySoft := !isDispatch s.cur, waiting := false }).record q.die 0 (softRsn (s.val64 b))
        (wbits (s.val64 b) 0 8) q.ctx q.qcb.toNat).fin 4) := by
  have word : (s.val64 b).toNat / 2 ^ 16 = 0 := Nat.div_eq_of_lt form
  have allowed : ¬((q.st ≠ .idle ∧ q.st ≠ .pending) ∨ q.leaving = true ∨ (s.context q.ctx).st = .suspended) := by
    simp only [stays, runs, Bool.false_eq_true, or_false]
    tauto
  simp only [exec_slotMap, execSlotMap, read2_ok s a b readA readB, lo64_regVal, word, ne_eq, not_true_eq_false, if_false, found,
    if_neg exists_, block, bind_ok, if_neg allowed, unordered_ok plain, free, pure_ok, settle_ok, State.mapQueue, listed]

/-- A queue as it is unmapped by software (R377, R384). -/
def State.unmapped (s : State) (q : Queue) : Queue :=
  let r : Queue := { q with npre := q.npre + 1, waiting := false, bySoft := false }
  if !q.wiOk (s.wiOf q) then { r with st := .stopped, es := 3 } else if q.si ≠ s.wiOf q then r.pend s.cyc else { r with st := .idle }

theorem unmapped_state (s : State) (q : Queue) : let r := s.unmapped q
    r.st = (if ¬ (q.ri ≤ s.wiOf q ∧ s.wiOf q ≤ q.ri + 2 ^ q.lgn) then .stopped else if q.si = s.wiOf q then .idle else .pending) ∧
      r.npre = q.npre + 1 ∧ r.ri = q.ri ∧ r.started = q.started := by
  have ok := wiOk_iff q (s.wiOf q)
  simp only [State.unmapped]
  by_cases good : q.ri ≤ s.wiOf q ∧ s.wiOf q ≤ q.ri + 2 ^ q.lgn
  · rw [if_neg (by rw [Bool.not_eq_true', Bool.not_eq_false, ok]; exact good)]
    by_cases same : q.si = s.wiOf q
    · rw [if_neg (not_not.mpr same)]
      simp [good, same]
    · rw [if_pos same]
      simp [good, same, Queue.pend]
  · rw [if_pos (by rw [Bool.not_eq_true', ← Bool.not_eq_true, ok]; exact good)]
    simp [good]

theorem unmapQueue_unmaps (listed : s.queue? k = some q) (mapped : q.st = .mapped) (rsn : Nat) : s.unmapQueue k rsn =
    (s.setQueue k (s.unmapped q)).record q.die 1 (if (!q.wiOk (s.wiOf q)) = true then 4 else rsn) q.slot q.ctx q.qcb.toNat := by
  simp only [State.unmapQueue, State.unmapTo, listed, mapped, ne_eq, not_true_eq_false, if_false, Bool.not_false, Bool.true_and,
    Bool.false_eq_true]
  rfl

theorem slotQueue_mapped (found : s.slotQueue loc = some (k, q)) : q.st = .mapped := by
  have holds := List.find?_some found
  exact beq_iff_eq.mp (Bool.and_eq_true_iff.mp holds).1

/-- What an unmapping of a slot leaves (R389). -/
def State.slotEmptied (s : State) (slot rsn : Nat) : State :=
  match s.slotQueue slot with
  | some (k, _) => s.unmapQueue k rsn
  | none => s

theorem slotUnm_runs (readA : s.canRead a) (readB : s.canRead b) (plain : s.me.ordered = false) (slot : (s.val64 a).toNat < 2 ^ 8)
    (form : (s.val64 b).toNat < 2 ^ 16) (low : (s.val64 b).toNat % 2 ^ 8 = 0) : exec (.slotUnm a b) s =
      .next ((s.slotEmptied (s.val64 a).toNat (softRsn (s.val64 b))).fin 4) := by
  have number : (s.val64 a).toNat / 2 ^ 8 = 0 := Nat.div_eq_of_lt slot
  have reason : ¬((s.val64 b).toNat / 2 ^ 16 ≠ 0 ∨ (s.val64 b).toNat % 2 ^ 8 ≠ 0) := by omega
  simp only [exec_slotUnm, execSlotUnm, read2_ok s a b readA readB, lo64_regVal, number, ne_eq, not_true_eq_false, if_false, if_neg reason,
    unordered_ok plain, bind_ok, pure_ok, settle_ok, wbits_of_lt slot]
  rfl

theorem slotRd_reads (readA : s.canRead a) (write : s.canWrite d) (plain : s.me.ordered = false) (slot : (s.val64 a).toNat < 2 ^ 8) :
    exec (.slotRd d a) s = .next (s.done 4 d (match s.slotQueue (s.val64 a).toNat with
      | some (_, q) => mkReg q.qcb (wd (q.st.code + q.epri % 16 * 16))
      | none => 0)) := by
  have number : (s.val64 a).toNat / 2 ^ 8 = 0 := Nat.div_eq_of_lt slot
  simp only [exec_slotRd, execSlotRd, read64_ok s a readA, number, ne_eq, not_true_eq_false, if_false, unordered_ok plain, bind_ok,
    wbits_of_lt slot]
  exact congrArg (settle s) (put_ok _ 4 d _ write)

/-! ### The decision log (R388, R389) -/

theorem dlogWr_writes (readA : s.canRead a) (readB : s.canRead b) (plain : s.me.ordered = false) (number : (s.val64 b).toNat < 2 ^ 3) :
    exec (.dlogWr a b) s = .next ((s.dlogPut (s.val64 b).toNat (s.val64 a).toNat (wbits (hi64 (s.regVal a)) 0 32)).fin 4) := by
  have form : (s.val64 b).toNat / 2 ^ 3 = 0 := Nat.div_eq_of_lt number
  simp only [exec_dlogWr, execDlogWr, read2_ok s a b readA readB, lo64_regVal, form, ne_eq, not_true_eq_false, if_false, unordered_ok plain,
    bind_ok, pure_ok, settle_ok]

theorem logged_mem (s : State) (d lo : Nat) (w : Word) : (s.logged d lo (wbits w 0 32)).mem =
    if 8 ≤ (s.die d).dlgn.toNat ∧ (s.die d).dlgn.toNat ≤ 20 then
      memPutN s.mem (s.logAt d) (leBytes 8 lo ++ leBytes 8 (s.cyc % 2 ^ 32 * 2 ^ 32 + wbits w 2 30 * 4)) else s.mem := by
  have kept : wbits w 0 32 % 2 ^ 32 / 4 * 4 = wbits w 2 30 * 4 := by
    simp only [wbits, bits]
    omega
  rw [State.logged, kept]
  split <;> rfl

theorem dlogRd_reads (readA : s.canRead a) (write : s.canWrite d) (plain : s.me.ordered = false) (form : (s.val64 a).toNat < 2 ^ 11)
    (unused : wbits (s.val64 a) 3 5 = 0) : exec (.dlogRd d a) s =
      .next (s.done 4 d (scalar (wd (((s.die (wbits (s.val64 a) 8 3)).dcnt[wbits (s.val64 a) 0 3]?).getD 0)))) := by
  have word : ¬((s.val64 a).toNat / 2 ^ 11 ≠ 0 ∨ wbits (s.val64 a) 3 5 ≠ 0) := by
    rw [Nat.div_eq_of_lt form, unused]
    tauto
  simp only [exec_dlogRd, execDlogRd, read64_ok s a readA, if_neg word, unordered_ok plain, bind_ok]
  exact congrArg (settle s) (put_ok _ 4 d _ write)

end

/-- Settles O42: each form changes one queue, or the log; the decision record of a slot leaves queues and contexts alone. -/
theorem queueInstructions : Obligations.QueueInstructions := by
  unfold Obligations.QueueInstructions
  refine ⟨fun s d a b ctx die loc readA readB write named plain => ⟨?register, ?unregister, ?resume⟩,
    fun s d a b readA readB write plain => ⟨?map, ?unmap, fun slot => ⟨_, slotRd_reads readA write plain slot, done_wrote ..⟩, ?log,
      fun form unused => ⟨_, dlogRd_reads readA write plain form unused, done_wrote ..⟩⟩⟩
  case register =>
    intro checked new room
    have puts := setQueue_puts s s.nextId (s.newQueue (s.val64 a) loc ctx die)
    have state := newQueue_state s (s.val64 a) loc ctx die
    have runs := queSubRegister_registers readA readB write plain checked new room
    generalize s.newQueue (s.val64 a) loc ctx die = q at puts state runs
    generalize s.setQueue s.nextId q = u at puts runs
    have wrote := done_wrote u.bump 4 d (scalar (wd q.st.code))
    obtain ⟨stale, listed⟩ := puts.queue
    obtain ⟨qcb, inCtx, onDie, at_, ri, si, started, es, stops, idle, unmapped⟩ := state
    have queues : (u.bump.done 4 d (scalar (wd q.st.code))).queues = u.queues := (congrArg State.queues wrote.only.rest :)
    refine ⟨_, { q with stale }, runs, (congrArg (Tab.get? · s.nextId) queues).trans listed, qcb, inCtx, onDie, at_, es, ri, si, started,
      stops, idle, unmapped, wrote.dest named, wrote.pc.trans (congrArg (fun t : Thread => t.pc + 4) puts.me :),
      (congrArg State.nextId wrote.only.rest :).trans ?_⟩
    exact congrArg (· + 1) (congrArg State.nextId puts.rest :)
  case unregister =>
    intro k q checked found listed away others
    have runs := queSubUnregister_leaves readA readB write named plain checked found listed away
    have now : ({ s.setMe { s.me with wait := .queue k d } with queues := Tab.put s.queues k q.left } : State).queue? k = some q.left :=
      Tab.get?_put_self ..
    refine ⟨fun started fresh written => ?_, fun held => ?_⟩
    · rw [leaveCheck_leaves now rfl (by rw [Queue.left, started]; rfl) fresh written] at runs
      obtain ⟨queues, me⟩ := removeQueue_goes (t := s) (v := { s.me with wait := .queue k d }) now rfl rfl others
      have mine : ({ s.setMe { s.me with wait := .queue k d } with queues := Tab.put s.queues k q.left } : State).me =
        { s.me with wait := .queue k d } := me_setMe ..
      rw [mine] at me
      refine ⟨_, runs, ?_, congrArg Thread.wait me, (congrArg Thread.pc me).trans (by simp [wd]), q.left, queues⟩
      rw [me]
      exact result_regs_self _ _ named
    · rw [leaveCheck_stays now (held.imp_left fun started none => started (List.map_eq_nil_iff.mp none))] at runs
      have mine : ({ s.setMe { s.me with wait := .queue k d } with queues := Tab.put s.queues k q.left } : State).me =
        { s.me with wait := .queue k d } := me_setMe ..
      exact ⟨_, q.left, runs, by rw [mine], by rw [mine], now, rfl⟩
  case resume =>
    intro k q checked found stopped
    have puts := setQueue_puts s k (s.restarted q)
    have state := restarted_state s stopped
    have runs := queSubResume_resumes readA readB write plain checked found stopped
    generalize s.restarted q = r at puts state runs
    generalize s.setQueue k r = u at puts runs
    have wrote := done_wrote u 4 d (scalar (wd r.st.code))
    obtain ⟨stale, listed⟩ := puts.queue
    obtain ⟨lst, fidx, dr, es, st, ri⟩ := state
    have queues : (u.done 4 d (scalar (wd r.st.code))).queues = u.queues := (congrArg State.queues wrote.only.rest :)
    exact ⟨_, { r with stale }, runs, (congrArg (Tab.get? · k) queues).trans listed, lst, fidx, dr, es, st, ri, wrote.dest named,
      wrote.pc.trans (congrArg (fun t : Thread => t.pc + 4) puts.me :)⟩
  case map =>
    intro k q loc form found listed exists_ block state stays runs free sound
    obtain ⟨⟨stale, now⟩, pc, regs⟩ := setQueue_record (k := k) (ctx := q.ctx) { q with
      st := .mapped, slot := wbits (s.val64 b) 0 8, epri := q.pri, nmap := q.nmap + 1, mapAt := s.cyc, bySoft := !isDispatch s.cur,
      waiting := false } sound 0 (softRsn (s.val64 b)) (wbits (s.val64 b) 0 8) q.qcb.toNat
    exact ⟨_, _, slotMap_maps readA readB plain form found listed exists_ block state stays runs free, now, rfl, rfl, rfl, rfl, rfl, pc, regs⟩
  case unmap =>
    intro slot form low
    have runs := slotUnm_runs readA readB plain slot form low
    refine ⟨fun free => by rw [runs, State.slotEmptied, free], fun k q found listed sound => ?_⟩
    rw [State.slotEmptied, found] at runs
    simp only [unmapQueue_unmaps listed (slotQueue_mapped found)] at runs
    obtain ⟨st, npre, ri, started⟩ := unmapped_state s q
    obtain ⟨⟨stale, now⟩, pc, regs⟩ := setQueue_record (k := k) (ctx := q.ctx) (s.unmapped q) sound 1
      (if (!q.wiOk (s.wiOf q)) = true then 4 else softRsn (s.val64 b)) q.slot q.qcb.toNat
    exact ⟨_, _, runs, now, st, npre, ri, started, pc, regs⟩
  case log =>
    intro number sound
    have runs := dlogWr_writes readA readB plain number
    rw [dlogPut_sound sound] at runs
    have me : ((s.logged (s.val64 b).toNat (s.val64 a).toNat (wbits (hi64 (s.regVal a)) 0 32)).setDie (s.val64 b).toNat
        { (s.die (s.val64 b).toNat).count 0 with dwi := ((s.die (s.val64 b).toNat).dwi + 1) % 2 ^ 64 }).me = s.me := by
      rw [logged_rest]
      rfl
    refine ⟨_, runs, by rw [fin_me, me]; rfl, by rw [fin_me, me]; rfl, ?_, logged_mem ..⟩
    exact (congrArg Die.dwi (Tab.getD_put_self ..) :)

end Sys2Proof.Machine
end

section
/-! PROOFS. Steps that end tasks, records and tokens, or write memory for the part, change neither the table of launches nor that of
groups. -/

namespace Sys2Proof.Machine

/-- The launches and the groups. -/
def State.owners (s : State) : Tab Launch × Tab Group := (s.launches, s.groups)

section
variable {s t : State}

theorem launches_of_owners (same : t.owners = s.owners) : t.launches = s.launches := congrArg Prod.fst same
theorem groups_of_owners (same : t.owners = s.owners) : t.groups = s.groups := congrArg Prod.snd same

theorem foldl_owners {α : Type} {f : State → α → State} (step : ∀ s a, (f s a).owners = s.owners) (l : List α) (s : State) :
    (l.foldl f s).owners = s.owners := by
  induction l generalizing s with
  | nil => rfl
  | cons a l ih => exact (ih _).trans (step s a)

/-! ### Records and tasks -/

theorem accepted_owners (s : State) (m : Msg) : (s.accepted m).owners = s.owners := by
  unfold State.accepted
  dsimp only
  split
  · split <;> rfl
  · split
    · split <;> rfl
    · split <;> rfl

theorem countLoss_owners (s : State) (cl n : Nat) : (s.countLoss cl n).owners = s.owners := by
  unfold State.countLoss
  split <;> rfl

theorem dropMsgs_owners (s : State) (f : Msg → Bool) (count : Bool) : (s.dropMsgs f count).owners = s.owners := by
  have lost (cl n : Nat) (s : State) : (if count = true then s.countLoss cl n else s).owners = s.owners := by
    split
    · exact countLoss_owners ..
    · rfl
  unfold State.dropMsgs
  dsimp only
  refine Eq.trans (foldl_owners ?units _ _) (Eq.trans (foldl_owners ?inboxes _ _) (foldl_owners ?mesh (s.mesh.filter (fun e => f e.2)) s))
  case units => exact fun s e => (lost _ _ _).trans rfl
  case inboxes => exact fun s e => (lost _ _ _).trans rfl
  case mesh => exact fun s e => (lost _ _ _).trans (accepted_owners ..)

theorem dropSaved_owners (s : State) (f : Msg → Bool) (count : Bool) : (s.dropSaved f count).owners = s.owners :=
  foldl_owners (fun s cl => countLoss_owners s cl 1) _ _

theorem dropJoin_owners (s : State) (l : Nat) : (s.dropJoin l).owners = s.owners := by
  unfold State.dropJoin
  change (State.dropSaved _ _ _).owners = _
  rw [dropSaved_owners, dropMsgs_owners]

theorem endRegion_owners (s : State) (p : Nat) : (s.endRegion p).owners = s.owners := by rw [endRegion_rest]; rfl

theorem vacate_owners (s : State) (p : Nat) : (s.vacate p).owners = s.owners := by
  have unbound (s : State) : (s.unbindXq p).owners = s.owners := by unfold State.unbindXq; dsimp only; split <;> rfl
  have untaken (s : State) : (s.untake p).owners = s.owners := by unfold State.untake; dsimp only; split <;> rfl
  have unloaded (s : State) : (s.ignoreLoads p).owners = s.owners := rfl
  have freed (s : State) (t : Thread) : (s.setThread p t).owners = s.owners := rfl
  unfold State.vacate
  dsimp only
  rw [freed, unloaded, untaken, unbound, endRegion_owners]

theorem fafenAdd_owners (s : State) (p : Nat) : (s.fafenAdd p).owners = s.owners := by
  unfold State.fafenAdd
  dsimp only
  split
  · rfl
  · split <;> rfl

/-! ### Tokens -/

theorem releaseLines_owners (s : State) (ls : List Nat) : (s.releaseLines ls).owners = s.owners :=
  foldl_owners (fun s l => by rw [releaseLine_rest]; rfl) ls s

theorem wakeTok_owners (s : State) (t : Token) : (s.wakeTok t).owners = s.owners := by
  unfold State.wakeTok
  dsimp only
  split <;> rfl

theorem freeTok_owners (s : State) (k : Nat) : (s.freeTok k).owners = s.owners := by
  unfold State.freeTok
  split
  · rfl
  · exact (releaseLines_owners ..).trans (wakeTok_owners ..)

/-! ### Memory, and the signals that the part writes -/

theorem State.SameButMem.owners (kept : s.SameButMem t) : t.owners = s.owners := by
  rw [show t = _ from kept]
  rfl

/-- The dispatch pair serves no task's request (R14, R218). -/
theorem servedTask_dispatch (s : State) (die : Nat) : s.servedTask (dispatchPlace die) = none := by
  have pair : dispatchPlace die / 256 % 32 = 24 := by rw [dispatchPlace]; omega
  have plain : isService (dispatchPlace die) = false := by
    rw [isService, pair]
    rfl
  rw [State.servedTask, plain]
  rfl

/-- An error that a read of the dispatch pair finds is counted on the device (R218). -/
def Reader.ofDispatch (die : Nat) : Reader := { launch := none, grp := 0, place := dispatchPlace die }

/-- Readers whose errors only the device counts (R218). -/
def Reader.Device (w : Reader) : Prop := w.launch = none ∧ ∀ s : State, s.servedTask w.place = none

theorem Reader.ofDispatch_device (die : Nat) : (Reader.ofDispatch die).Device := ⟨rfl, fun s => servedTask_dispatch s die⟩

theorem chargeTo_counts {w : Reader} (device : w.Device) (s : State) :
    s.chargeTo w = s.setHub { s.hub with errCorr := satAt (2 ^ 64 - 1) (s.hub.errCorr + 1) } := by
  obtain ⟨unlaunched, unserved⟩ := device
  rw [State.chargeTo, State.charge, unlaunched]
  change (match s.servedTask w.place with | none => _ | some (n, g) => _) = _
  rw [unserved]

theorem chargeBad_counts {w : Reader} (device : w.Device) (s : State) : s.chargeBad w.launch w.grp w.place =
    s.setHub { s.hub with errUncorr := satAt (2 ^ 64 - 1) (s.hub.errUncorr + 1) } := by
  obtain ⟨unlaunched, unserved⟩ := device
  rw [State.chargeBad, unlaunched]
  change (match s.servedTask w.place with | none => _ | some _ => _) = _
  rw [unserved]

/-- Only memory, its check bits, its device copies and the counters of errors have changed. -/
def State.SameButStore (s t : State) : Prop :=
  t = { s with mem := t.mem, copies := t.copies, gran := t.gran, dir := t.dir, rels := t.rels,
               hub := { s.hub with errCorr := t.hub.errCorr, errUncorr := t.hub.errUncorr, sigLost := t.hub.sigLost } }

theorem State.SameButStore.refl (s : State) : s.SameButStore s := rfl

theorem State.SameButStore.trans {u : State} (first : s.SameButStore t) (second : t.SameButStore u) : s.SameButStore u := by
  unfold State.SameButStore at *
  rw [second, first]

theorem State.SameButMem.store (kept : s.SameButMem t) : s.SameButStore t := by
  rw [show t = _ from kept]
  rfl

theorem putBytes_store (s : State) (a : Nat) (bs : List Byte) : s.SameButStore (s.putBytes a bs) := (putBytes_keeps s a bs).store

theorem chargeTo_store {w : Reader} (device : w.Device) (s : State) : s.SameButStore (s.chargeTo w) := by
  rw [chargeTo_counts device]
  rfl

theorem setGran_store (s : State) (g : Nat) (k : Gran) : s.SameButStore (s.setGran g k) := rfl

/-- R211, R218: what a read for the device leaves of a granule. -/
theorem checkGran_store {w : Reader} (device : w.Device) (s : State) (loc cls : Nat) : s.SameButStore (s.checkGran loc cls w).2 := by
  have refetched (k : Gran) (b : Bool) :
      s.SameButStore (if b = true then (s.setGran (loc / 64) k).chargeTo w else s) := by
    split
    · exact (setGran_store ..).trans (chargeTo_store device _)
    · exact .refl s
  have corrected (u : State) (b : Bool) (k : Gran) :
      u.SameButStore ((if b = true then u else u.setGran (loc / 64) k).chargeTo w) := by
    refine State.SameButStore.trans ?_ (chargeTo_store device _)
    split
    · exact .refl u
    · exact setGran_store ..
  have detected (u : State) (k : Gran) : u.SameButStore ((u.setGran (loc / 64) k).chargeBad w.launch w.grp w.place) := by
    rw [chargeBad_counts device]
    rfl
  have altered (u : State) (b : Bool) (o : GOut) (a : Nat) (bs : List Byte) (k : Gran) : u.SameButStore (if b = true then
      (o, u.chargeTo w) else (.good, ((u.putBytes a bs).setGran (loc / 64) k).chargeTo w)).2 := by
    split
    · exact chargeTo_store device _
    · exact (putBytes_store ..).trans ((setGran_store ..).trans (chargeTo_store device _))
  unfold State.checkGran
  dsimp only
  split
  · exact .refl s
  · split
    · exact refetched ..
    · exact State.SameButStore.trans (refetched _ _) (corrected _ _ _)
    · exact State.SameButStore.trans (refetched _ _) (detected _ _)
    · exact State.SameButStore.trans (refetched _ _) (altered _ _ _ _ _ _)
    · exact refetched ..

theorem ite_store {c : Prop} [Decidable c] {u : State} (yes : s.SameButStore t) (no : s.SameButStore u) :
    s.SameButStore (if c then t else u) := by
  split
  · exact yes
  · exact no

/-- R215: what a store merges into is written back as it was read. -/
theorem repaired_store (s : State) (o : GOut) (a : Nat) : s.SameButStore (match o with
    | .flipped _ | .altered _ => s.putBytes a (o.apply a (s.bytesAt a 64))
    | _ => s) := by
  cases o with
  | flipped l => exact putBytes_store ..
  | altered l => exact putBytes_store ..
  | bad b => exact .refl s
  | good => exact .refl s

theorem storeGran_store {w : Reader} (device : w.Device) (s : State) (loc cls : Nat) (bs : List Byte) :
    s.SameButStore (s.storeGran loc cls bs w).2 := by
  have read := checkGran_store device s loc cls
  unfold State.storeGran
  dsimp only
  split
  · exact (setGran_store ..).trans (putBytes_store ..)
  · split
    · rename_i eq
      rw [eq] at read
      exact read
    · rename_i eq
      rw [eq] at read
      exact read.trans ((repaired_store ..).trans ((ite_store (setGran_store ..) (setGran_store ..)).trans (putBytes_store ..)))

theorem putRecord_store (s : State) (die loc lo hi : Nat) : s.SameButStore (s.putRecord (dispatchPlace die) loc lo hi) :=
  storeGran_store (Reader.ofDispatch_device die) ..

theorem dropCopy_store (s : State) (l : Nat) : s.SameButStore (s.dropCopy l) := by
  unfold State.dropCopy
  split
  · exact .refl s
  · dsimp only
    split <;> split <;> rfl

/-- The state that a part of a step leaves, be it complete or not. -/
def leftBy : Part State → State
  | .ok t => t
  | .error x => x.2

theorem sigWrite_store (s : State) (loc die : Nat) (op : RmwOp) (v : Reg) : s.SameButStore (leftBy (s.sigWrite loc op v (.ofDispatch die))) := by
  have dropped : s.SameButStore (if isRemote loc = true then s.dropCopy (loc / 32) else s) := ite_store (dropCopy_store ..) (.refl s)
  unfold State.sigWrite
  dsimp only
  generalize (if isRemote loc = true then s.dropCopy (loc / 32) else s) = u at dropped
  have read := checkGran_store (Reader.ofDispatch_device die) u loc (u.locClass loc)
  split
  · exact .refl s
  · split
    · exact .refl s
    · split
      · rename_i eq
        rw [eq] at read
        exact dropped.trans read
      · rename_i o x _ eq
        rw [eq] at read
        split
        · exact (dropped.trans read).trans rfl
        · have store (bs : List Byte) := storeGran_store (Reader.ofDispatch_device die) x loc (u.locClass loc) bs
          split
          all_goals
            rename_i eq
            have put := congrArg Prod.snd eq ▸ store _
            exact (dropped.trans read).trans put

theorem countLost_store (s : State) (code : Nat) : s.SameButStore (s.countLost code) := by
  unfold State.countLost
  split <;> rfl

/-- R352, R381: what the part's write of a signal leaves. -/
theorem completion_store (s : State) (cl ctx die : Nat) (ok : Bool) (va : Word) (clock : Clock) :
    s.SameButStore (s.completion cl ctx (dispatchPlace die) ok va clock).2 := by
  unfold State.completion
  split
  · exact .refl s
  · split
    · exact countLost_store ..
    · rename_i loc _
      have wrote := sigWrite_store s loc die (if ok then .sadd else .swap) (scalar (wd (2 ^ 64 - 1)))
      rw [Reader.ofDispatch] at wrote
      split
      · rename_i eq
        rw [eq] at wrote
        refine State.SameButStore.trans wrote ?_
        unfold State.sigRel State.putRels
        dsimp only
        split <;> rfl
      · rename_i eq
        rw [eq] at wrote
        exact wrote

theorem State.SameButStore.owners (kept : s.SameButStore t) : t.owners = s.owners := by
  rw [show t = _ from kept]
  rfl

/-- Besides what a store changes, only the dies' registers have changed. -/
def State.SameButLog (s t : State) : Prop :=
  t = { s with mem := t.mem, copies := t.copies, gran := t.gran, dir := t.dir, rels := t.rels, dies := t.dies,
               hub := { s.hub with errCorr := t.hub.errCorr, errUncorr := t.hub.errUncorr, sigLost := t.hub.sigLost } }

theorem record_log (s : State) (d act rsn slot ctx obj : Nat) : s.SameButLog (s.record d act rsn slot ctx obj) := by
  have store : s.SameButStore (if 8 ≤ (s.die d).dlgn.toNat ∧ (s.die d).dlgn.toNat ≤ 20 then
      s.putRecord (dispatchPlace d) (locIn 0 (s.logAt d)) obj (s.cyc % 2 ^ 32 * 2 ^ 32 +
        (act % 16 * 2 ^ 28 + rsn % 256 * 2 ^ 20 + slot % 256 * 2 ^ 12 + ctx % 1024 * 2 ^ 2) % 2 ^ 32 / 4 * 4) else s) := by
    split
    · exact putRecord_store ..
    · exact .refl s
  have put : s.SameButLog (s.dlogPut d obj (act % 16 * 2 ^ 28 + rsn % 256 * 2 ^ 20 + slot % 256 * 2 ^ 12 + ctx % 1024 * 2 ^ 2)) := by
    unfold State.dlogPut
    dsimp only
    rw [← State.logAt, show _ = _ from store]
    rfl
  unfold State.record
  dsimp only
  split
  · rw [show _ = _ from put]
    rfl
  · exact put

theorem State.SameButLog.owners (kept : s.SameButLog t) : t.owners = s.owners := by
  rw [show t = _ from kept]
  rfl

end

end Sys2Proof.Machine
end

section
/-! PROOFS. The states of a launch and the end of a group (O50). -/

namespace Sys2Proof.Machine

section
variable {s t s' : State} {l k : Nat} {L : Launch}

/-! ### A launch that fails (R349, R350) -/

/-- A launch is ending with a status and a detail. -/
def State.EndsWith (s : State) (l status detail : Nat) : Prop :=
  ∃ M, s.launch? l = some M ∧ M.ending = true ∧ M.status = status ∧ M.detail = detail

section
variable {status detail : Nat}

theorem State.EndsWith.of_owners (ends : s.EndsWith l status detail) (same : t.owners = s.owners) : t.EndsWith l status detail := by
  obtain ⟨M, found, rest⟩ := ends
  exact ⟨M, (congrArg (Tab.get? · l) (launches_of_owners same)).trans found, rest⟩

theorem State.EndsWith.launchHears (ends : s.EndsWith l status detail) (n : Option Nat) (c : Clock) :
    (s.launchHears n c).EndsWith l status detail := by
  obtain ⟨M, found, rest⟩ := ends
  unfold State.launchHears
  split
  · exact ⟨M, found, rest⟩
  · rename_i n
    split
    · rename_i N named
      by_cases same : l = n
      · subst same
        obtain rfl : M = N := Option.some.inj (found.symm.trans named)
        exact ⟨_, Tab.get?_put_self .., rest⟩
      · exact ⟨M, (Tab.get?_put_ne _ _ _ _ same).trans found, rest⟩
    · exact ⟨M, found, rest⟩

theorem State.EndsWith.freeThreads (ends : s.EndsWith l status detail) (ps : List Nat) :
    (ps.foldl State.freeThread s).EndsWith l status detail := by
  induction ps generalizing s with
  | nil => exact ends
  | cons p ps ih => exact ih ((ends.launchHears ..).of_owners ((vacate_owners ..).trans (fafenAdd_owners ..)))

theorem killLaunch_ends (found : s.launch? l = some L) (runs : L.ending = false) (own : ¬(status = 3 ∨ status = 5)) :
    (s.killLaunch l status).EndsWith l status L.detail := by
  have marked : (s.setLaunch l { L with ending := true, status }).EndsWith l status L.detail :=
    ⟨_, Tab.get?_put_self .., rfl, rfl, rfl⟩
  simp only [State.killLaunch, found, runs, Bool.false_eq_true, if_false, own, false_and]
  have dropped := marked.of_owners ((dropJoin_owners _ l).trans ((dropSaved_owners _ (fun m => m.launch == some l) false).trans
    (dropMsgs_owners _ (fun m => m.launch == some l) false)))
  have forgotten (u : State) (ts : List Token) : ({ u with late := ts } : State).owners = u.owners := rfl
  have uncommitted (u : State) (f : Commit → Bool) : (u.dropCommits f).owners = u.owners := rfl
  exact (dropped.freeThreads _).of_owners ((forgotten ..).trans ((foldl_owners freeTok_owners _ _).trans (uncommitted ..)))

theorem failLaunch_ends (found : s.launch? l = some L) (runs : L.ending = false) (own : ¬(status = 3 ∨ status = 5)) (detail : Nat) :
    (s.failLaunch l status detail).EndsWith l status detail := by
  simp only [State.failLaunch, found]
  exact killLaunch_ends (L := { L with detail }) (Tab.get?_put_self ..) runs own

end

/-! ### Admission (R349) -/

theorem giveResult_rest (s : State) (p : Nat) (d : Spec) (v : Reg) (len : Nat) : s.giveResult p d v len =
    { s with threads := (s.giveResult p d v len).threads, acc := (s.giveResult p d v len).acc } := by
  unfold State.giveResult
  dsimp only
  rw [clearWlt_rest]
  rfl

theorem giveResult_thread (s : State) (p : Nat) (d : Spec) (v : Reg) (len : Nat) : (s.giveResult p d v len).thread p =
    ({ ((s.thread p).result d v) with wait := .none } : Thread).fin len :=
  giveResult_me { s with cur := p } d v len

theorem launchAdmit_admits {v : Submit} (submitted : Tab.get? s.subs k = some v) (free : Tab.freeKey s.launches 0 4096 = some l) :
    (s.launchAdmit k).launch? l = some (Launch.new v k s.cyc) ∧ (s.launchAdmit k).subs = Tab.del s.subs k ∧
      (s.launchAdmit k).mem = s.mem ∧
      ∀ p d since, s.threads.find? (fun e => match e.2.wait with | .launch n _ _ => n == k | _ => false) = some (p, s.thread p) →
        (s.thread p).wait = .launch k since d → (s.launchAdmit k).thread p =
          (({ ((s.thread p).result d (scalar (wd l))) with wait := .none } : Thread).fin 4) := by
  unfold State.launchAdmit
  rw [submitted, free]
  dsimp only
  have entered : (({ s with subs := Tab.del s.subs k } : State).setLaunch l (Launch.new v k s.cyc)).launch? l =
    some (Launch.new v k s.cyc) := Tab.get?_put_self ..
  have threads : (({ s with subs := Tab.del s.subs k } : State).setLaunch l (Launch.new v k s.cyc)).threads = s.threads := rfl
  split
  · rename_i p u found
    split
    · rename_i n since d wait
      refine ⟨?_, ?_, ?_, fun p' d' since' found' wait' => ?_⟩
      · rw [giveResult_rest]
        exact entered
      · rw [giveResult_rest]
        rfl
      · rw [giveResult_rest]
        rfl
      · obtain ⟨rfl, rfl⟩ := Prod.mk.inj (Option.some.inj (found.symm.trans found'))
        obtain ⟨-, -, rfl⟩ := Wait.launch.inj (wait.symm.trans wait')
        exact giveResult_thread ..
    · rename_i other
      refine ⟨entered, rfl, rfl, fun p' d' since' found' wait' => ?_⟩
      obtain ⟨rfl, rfl⟩ := Prod.mk.inj (Option.some.inj (found.symm.trans found'))
      exact absurd wait' (other _ _ _)
  · rename_i unfound
    exact ⟨entered, rfl, rfl, fun p' d' since' found' _ => by cases unfound.symm.trans found'⟩

/-! ### Checking (R350) -/

theorem addGroup_root {mk : Nat → Group} (head : (s.freeSlots l).head? = some 0) :
    s.addGroup l mk = some (0, (s.draw.setGroup l 0 { mk 0 with ser := s.nextId }).bump) := by
  obtain ⟨fs, listed⟩ := List.head?_eq_some_iff.mp head
  unfold State.addGroup
  rw [listed]
  rfl

theorem askReside_rest (s : State) (l : Nat) : s.askReside l = { s with cores := (s.askReside l).cores } := by
  unfold State.askReside
  split
  · split <;> rfl
  · rfl

theorem pagerOf_die : ∀ die < 8, pagerOf (coreOf (placeOf (24 * die) 0 0)) = 1024 * die + 17 := by decide

/-- R225: what is not leased yet is asked of the pager of the launch's die. -/
theorem askReside_asks (found : s.launch? l = some L) (inside : L.sub.die < 8) (absent : (s.askReside l).allLeased L = false) :
    .reside l ∈ ((s.askReside l).core (1024 * L.sub.die + 17)).asked := by
  unfold State.askReside at absent ⊢
  rw [found] at absent ⊢
  by_cases leased : s.allLeased L = true
  · simp only [leased, if_true, Bool.true_eq_false] at absent
  · simp only [leased, if_false, State.askPager, pagerOf_die _ inside, Bool.false_eq_true]
    rw [core_setCore, if_pos rfl]
    exact List.mem_append_right _ (List.mem_singleton_self _)

/-- The launch that has passed its checks, and its root group (R348, R356). -/
def State.passedLaunch (s : State) (l : Nat) (L : Launch) (f : LaunchForm) : State :=
  ((s.draw.setGroup l 0 { newGroup (vec16 f.root) (Vector.replicate 16 0) L.sbm 0 0 L.sub.desc[1] f.loc with ser := s.nextId }).bump).setLaunch l
    { L with root := 0 }

theorem launchCheck_passes {f : LaunchForm} (live : s.live = true) (found : s.launch? l = some L) (runs : L.ending = false)
    (state : L.state = .checking) (passes : s.checkLaunch L.sub = .ok (f, s')) (head : (s'.freeSlots l).head? = some 0) :
    exec (.launchCheck l) s = .next ((s'.passedLaunch l (L.filled f.head f.leases (s'.context L.sub.ctx).areas f.safes) f).askReside l) := by
  have allowed : ¬(L.state ≠ .checking ∨ L.ending = true) := by simp [state, runs]
  rw [exec_launchCheck, execLaunchCheck, if_pos live]
  unfold State.launchCheck
  simp only [found, if_neg allowed, passes, addGroup_root head]
  rfl

theorem launchCheck_stops {w : Option Nat} (live : s.live = true) (found : s.launch? l = some L) (runs : L.ending = false)
    (state : L.state = .checking) (fails : s.checkLaunch L.sub = .error (w, s')) :
    exec (.launchCheck l) s = .next (match w with | none => s' | some w => s'.failLaunch l 1 w) := by
  have allowed : ¬(L.state ≠ .checking ∨ L.ending = true) := by simp [state, runs]
  rw [exec_launchCheck, execLaunchCheck, if_pos live]
  unfold State.launchCheck
  simp only [found, if_neg allowed, fails]
  cases w <;> rfl

/-! ### Residing, Awaiting weir, Placing (R349, R351) -/

theorem launchResident_settles {backed : Bool} (live : s.live = true) (found : s.launch? l = some L) (runs : L.ending = false)
    (state : L.state = .residing) (leased : s.allLeased L = backed) : exec (.launchResident l backed) s =
      .next (if backed then (s.pagerTook (· == .reside l)).setLaunch l
        { L with state := if L.ord then .awaitWeir else .placing, waitAt := s.cyc }
      else (s.pagerTook (· == .reside l)).failLaunch l 2 0) := by
  have allowed : ¬(L.state ≠ .residing ∨ L.ending = true ∨ s.allLeased L ≠ backed) := by simp [state, runs, leased]
  rw [exec_launchResident, execLaunchResident, if_pos live, State.launchResident]
  simp only [found, if_neg allowed]
  cases backed <;> rfl

theorem launchWeirSlot_places (live : s.live = true) (found : s.launch? l = some L) (runs : L.ending = false) (state : L.state = .awaitWeir)
    (room : s.weirSlots < 64) (first : ∀ e ∈ s.launches, e.2.state = .awaitWeir → L.order ≤ e.2.order) :
    exec (.launchWeirSlot l) s = .next (s.setLaunch l { L with state := .placing, waitAt := s.cyc }) := by
  have none_earlier : s.launches.any (fun e => e.2.state == .awaitWeir && !e.2.ending && decide (e.2.order < L.order)) = false := by
    refine List.any_eq_false.mpr fun e listed holds => ?_
    simp only [Bool.and_eq_true, beq_iff_eq, decide_eq_true_eq] at holds
    have later := first e listed holds.1.1
    omega
  have allowed : ¬(L.state ≠ .awaitWeir ∨ L.ending = true ∨ 64 ≤ s.weirSlots ∨
      s.launches.any (fun e => e.2.state == .awaitWeir && !e.2.ending && decide (e.2.order < L.order)) = true) := by
    simp [state, runs, none_earlier, room]
  rw [exec_launchWeirSlot, execLaunchWeirSlot, if_pos live, State.launchWeirSlot]
  simp only [found, if_neg allowed]

theorem launchPlace_places {cl : Nat} (live : s.live = true) (found : s.launch? l = some L) (runs : L.ending = false)
    (state : L.state = .placing) (inside : cl < 192) (alone : ∀ e ∈ s.launches, e.2.state = .placing → e.1 = l)
    (loaded : (s.die L.sub.die).go = false) (room : s.tasksFull (some l) L.root = false)
    (ctx : (s.context L.sub.ctx).st = .idle ∨ (s.context L.sub.ctx).st = .running) : ∃ v,
      ((s.setLaunch l { L with state := .running }).setCtx L.sub.ctx { s.context L.sub.ctx with st := .running }).SameButLog v ∧
        exec (.launchPlace l cl) s = .next (v.post (State.entryMsg l L cl)) := by
  have none_above : s.launches.any (fun e => e.2.state == .placing && !e.2.ending && e.2.sub.die == L.sub.die && e.1 != l &&
      decide (s.rootPri (l, L) < s.rootPri e)) = false := by
    refine List.any_eq_false.mpr fun e listed holds => ?_
    simp only [Bool.and_eq_true, beq_iff_eq, bne_iff_ne] at holds
    obtain ⟨⟨⟨⟨placing, -⟩, -⟩, other⟩, -⟩ := holds
    exact other (alone e listed placing)
  have allowed : ¬(L.state ≠ .placing ∨ L.ending = true ∨ 192 ≤ cl ∨ s.launches.any (fun e => e.2.state == .placing && !e.2.ending &&
      e.2.sub.die == L.sub.die && e.1 != l && decide (s.rootPri (l, L) < s.rootPri e)) = true ∨ s.tasksFull (some l) L.root = true ∨
      (s.die L.sub.die).go = true ∨ ((s.context L.sub.ctx).st ≠ .idle ∧ (s.context L.sub.ctx).st ≠ .running)) := by
    simp only [state, runs, none_above, room, loaded, Nat.not_le.mpr inside]
    tauto
  refine ⟨_, record_log _ L.sub.die 2 0 0 L.sub.ctx (l + cl / 24 * 2 ^ 16 + cl % 24 * 2 ^ 19 + L.root * 2 ^ 24), ?_⟩
  rw [exec_launchPlace, execLaunchPlace, if_pos live, State.launchPlace]
  simp only [found, if_neg allowed]

/-! ### The end of a launch and of a group (R352, R359) -/

/-- The block of an ended group says so, where it can be written. -/
def State.writeEnded (l : Nat) (s : State) (e : Nat × Group) : State :=
  match s.gcbLoc l e.2 with
  | some loc => s.writeN loc 8 ((e.2.put 0 60 4 4).gcb[0]).toNat
  | none => s

theorem writeEnded_owners (s : State) (e : Nat × Group) : (s.writeEnded l e).owners = s.owners := by
  unfold State.writeEnded
  split
  · exact (writeN_keeps ..).owners
  · rfl

theorem endGroups_owners (s : State) (l : Nat) :
    (s.endGroups l).owners = (s.owners.1, s.owners.2.filter (fun e => e.1 / 4096 != l)) :=
  congrArg (fun o : Tab Launch × Tab Group => (o.1, o.2.filter (fun e : Nat × Group => e.1 / 4096 != l)))
    (foldl_owners (writeEnded_owners (l := l)) (s.groups.filter (fun e => e.1 / 4096 == l)) s)

theorem packetDone_owners (s : State) (q idx : Nat) (r : Option Nat) (wrote : Nat) : (s.packetDone q idx r wrote).owners = s.owners := by
  unfold State.packetDone
  split <;> rfl

theorem tellEnd_owners (s : State) (v : Submit) (status word : Nat) (c : Clock) : (s.tellEnd v status word c).owners = s.owners := by
  have signalled := (completion_store s (192 + v.die) v.ctx v.die (status == 0) v.desc[3] c).owners
  unfold State.tellEnd
  dsimp only
  split
  · exact (packetDone_owners ..).trans signalled
  · exact signalled

theorem idleContext_owners (s : State) (n : Nat) : (s.idleContext n).owners = s.owners := by
  unfold State.idleContext
  dsimp only
  split <;> rfl

theorem endLaunch_owners (success : L.status = 0) :
    (s.endLaunch l L).owners = (Tab.del s.launches l, s.groups.filter (fun e => e.1 / 4096 != l)) := by
  have unreported (u : State) : u.reportLaunch L = u := by
    unfold State.reportLaunch
    split
    · rw [if_pos (.inl success)]
    · rfl
  have taken (u : State) : (({ u with launches := Tab.del u.launches l } : State).pagerTook (· == .reside l)).owners =
    (Tab.del u.owners.1 l, u.owners.2) := rfl
  have freed (u : State) : (((u.toksWhere (fun t => t.launch == some l)).foldl State.freeTok u)).owners = u.owners :=
    foldl_owners freeTok_owners _ _
  have released (u : State) (cores : Tab Core) (clus : Tab Cluster) : ({ u with cores, clus } : State).owners = u.owners := rfl
  unfold State.endLaunch
  dsimp only
  rw [idleContext_owners, unreported, tellEnd_owners, taken, endGroups_owners, freed, released, dropJoin_owners]
  rfl

theorem launchEnd_ends (live : s.live = true) (found : s.launch? l = some L) (runs : L.ending = false) (state : L.state = .running)
    (quiet : s.launchQuiet l = true) (performed : ∀ e ∈ s.acc, e.2.launch ≠ some l) (told : s.subHeld L.sub = false)
    (written : ∀ e ∈ s.groups, e.1 / 4096 = l → (s.gcbLoc l e.2).isSome = true) : exec (.launchEnd l) s = .next (s.endLaunch l L) := by
  have no_access : s.acc.any (fun e => e.2.launch == some l) = false :=
    List.any_eq_false.mpr fun e listed same => performed e listed (beq_iff_eq.mp same)
  have no_block : s.groups.any (fun e => e.1 / 4096 == l && (s.gcbLoc l e.2).isNone) = false := by
    refine List.any_eq_false.mpr fun e listed holds => ?_
    obtain ⟨own, none⟩ := Bool.and_eq_true_iff.mp holds
    have some := written e listed (beq_iff_eq.mp own)
    rw [Option.isNone_iff_eq_none] at none
    rw [none] at some
    cases some
  rw [exec_launchEnd, execLaunchEnd, if_pos live, State.launchEnd]
  simp only [found, no_access, told, no_block, runs, Bool.or_self, Bool.false_eq_true, if_false, state, quiet, and_self, if_true]

/-- R363: a launch none of whose groups is a stage has no ring to govern. -/
theorem governRing_plain (plain : ∀ e ∈ s.groups, e.2.stg = 0) (h : Nat) : s.governRing l h = s := by
  have nobody (f : Group → Bool) : s.groups.filter (fun e => e.1 / 4096 == l && e.2.stg != 0 && e.2.st != 4 && f e.2) = [] :=
    List.filter_eq_nil_iff.mpr fun e listed => by simp [plain e listed]
  unfold State.governRing
  dsimp only
  rw [nobody fun g => g.w 7 16 16 == h]
  rfl

theorem sluiceGovernorVisit_marks (live : s.live = true) (found : s.launch? l = some L) (runs : L.ending = false)
    (state : L.state = .running) (due : L.visited < s.cyc / 4096) (plain : ∀ e ∈ s.groups, e.2.stg = 0) :
    exec (.sluiceGovernorVisit l) s = .next (s.setLaunch l { L with visited := s.cyc / 4096 }) := by
  have allowed : ¬(L.state ≠ .running ∨ L.ending = true ∨ s.cyc / 4096 ≤ L.visited) := by simp [state, runs, due]
  have still : ∀ i, (s.setLaunch l { L with visited := s.cyc / 4096 }).governRing l (i + 1) =
    s.setLaunch l { L with visited := s.cyc / 4096 } := fun i => governRing_plain (s := s.setLaunch l _) plain (i + 1)
  rw [exec_sluiceGovernorVisit, execSluiceGovernorVisit, if_pos live]
  unfold State.govern
  rw [found]
  simp only [if_neg allowed]
  exact congrArg Host.Outcome.next (List.foldl_fixed' still _)

theorem groupEnded_ends {g : Nat} {b : Group} (found : s.group? l g = some b) (ending : b.st = 3) (kids : s.kidCount l g = 0)
    (orphans : s.orphanCount l g = 0) (left : ∀ x ∈ s.runningGroups l ++ s.savedGroups l, s.inSubtree l g x = false)
    (block : (s.gcbLoc l b).isSome = true) : ∃ t, exec (.groupEnded l g) s = .next t ∧
      t.groups = (if b.par = g then Tab.put s.groups (groupKey l g) (b.put 0 60 4 4) else
        Tab.del (Tab.put s.groups (groupKey l g) (b.put 0 60 4 4)) (groupKey l g)) := by
  have nobody : (s.runningGroups l ++ s.savedGroups l).all (fun x => !s.inSubtree l g x) = true :=
    List.all_eq_true.mpr fun x listed => by rw [left x listed]; rfl
  have allowed : b.st = 3 ∧ s.kidCount l g = 0 ∧ s.orphanCount l g = 0 ∧
      (s.runningGroups l ++ s.savedGroups l).all (fun x => !s.inSubtree l g x) = true ∧ (s.gcbLoc l b).isSome = true :=
    ⟨ending, kids, orphans, nobody, block⟩
  have emptied (u : State) (f : Msg → Bool) (h : Token → Bool) :
      ((u.toksWhere h).foldl State.freeTok ((s.dropMsgs f true).dropSaved f true)).groups = s.groups :=
    groups_of_owners ((foldl_owners freeTok_owners _ _).trans ((dropSaved_owners ..).trans (dropMsgs_owners ..)))
  have block_written (u : State) (loc : Nat) (r : Group) (ks : List Nat) :
      (ks.foldl (fun s k => s.writeN (loc + 8 * k) 8 (s.gcbWord l g r k).toNat) u).groups = u.groups :=
    groups_of_owners (foldl_owners (fun s k => (writeN_keeps ..).owners) _ _)
  refine ⟨_, rfl, ?_⟩
  unfold State.groupEnded
  rw [found]
  dsimp only
  rw [if_pos allowed]
  simp only [block_written, State.setGroup, emptied]

end

/-- Settles O50: each event makes one change to the launch; the rest of a launch's end and of a group's keep launches and groups. -/
theorem launchSteps : Obligations.LaunchSteps := by
  unfold Obligations.LaunchSteps
  intro s l cl live
  refine ⟨?enter, fun L found runs => ⟨?fails, ?waits, ?passes, ?resident, ?weir, ?place, ?ended, ?govern⟩, ?group⟩
  case enter =>
    intro k v submitted free
    obtain ⟨entered, subs, mem, gives⟩ := launchAdmit_admits submitted free
    refine ⟨_, by rw [exec_launchAdmit, execLaunchAdmit, if_pos live], entered, subs, mem, fun p d since found wait named => ?_⟩
    rw [gives p d since found wait]
    exact ⟨result_regs_self _ _ named, by simp [wd], rfl⟩
  case fails =>
    intro w s' state fails kept
    obtain ⟨M, ends⟩ := failLaunch_ends kept runs (status := 1) (by decide) w
    exact ⟨_, M, launchCheck_stops live found runs state fails, ends⟩
  case waits => exact fun s' state waits => launchCheck_stops live found runs state waits
  case passes =>
    intro f s' state passes head
    have launched : (s'.passedLaunch l (L.filled f.head f.leases (s'.context L.sub.ctx).areas f.safes) f).launch? l =
      some { L.filled f.head f.leases (s'.context L.sub.ctx).areas f.safes with root := 0 } := Tab.get?_put_self ..
    obtain ⟨st, par, -⟩ := newGroup_fields (vec16 f.root) (Vector.replicate 16 0)
      (L.filled f.head f.leases (s'.context L.sub.ctx).areas f.safes).sbm 0 0 L.sub.desc[1] f.loc
    refine ⟨_, { L.filled f.head f.leases (s'.context L.sub.ctx).areas f.safes with root := 0 },
      { newGroup (vec16 f.root) (Vector.replicate 16 0) (L.filled f.head f.leases (s'.context L.sub.ctx).areas f.safes).sbm 0 0
          L.sub.desc[1] f.loc with ser := s'.nextId },
      launchCheck_passes live found runs state passes head, ?_, rfl, rfl, rfl, rfl, rfl, rfl, rfl, ?_, st, par, ?_, askReside_asks launched⟩
    · rw [askReside_rest]
      exact launched
    · rw [askReside_rest]
      exact Tab.get?_put_self ..
    · rw [askReside_rest]
      rfl
  case resident =>
    intro state
    refine ⟨fun leased => launchResident_settles live found runs state leased, fun absent => ?_⟩
    obtain ⟨M, now, ending, status, -⟩ := failLaunch_ends (s := s.pagerTook (· == .reside l)) found runs (status := 2) (by decide) 0
    exact ⟨_, M, launchResident_settles live found runs state absent, now, ending, status⟩
  case weir => exact fun state room first => launchWeirSlot_places live found runs state room first
  case place =>
    intro state inside alone loaded room ctx
    obtain ⟨v, log, runs⟩ := launchPlace_places live found runs state inside alone loaded room ctx
    refine ⟨_, { (State.entryMsg l L cl).stamped v.cyc with ord := v.nextId }, runs, ?_, ?_, ?_, rfl, rfl, rfl, rfl⟩
    · rw [show v = _ from log]
      exact Tab.get?_put_self ..
    · rw [show v = _ from log]
      exact congrArg Ctx.st (Tab.getD_put_self ..)
    · rw [show v = _ from log]
      exact Tab.get?_put_self ..
  case ended =>
    intro state success quiet performed told written
    have owners := endLaunch_owners (s := s) (l := l) success
    exact ⟨_, launchEnd_ends live found runs state quiet performed told written, congrArg Prod.fst owners, congrArg Prod.snd owners⟩
  case govern => exact fun state due plain => sluiceGovernorVisit_marks live found runs state due plain
  case group =>
    intro g b found ending kids orphans left block
    obtain ⟨t, runs, groups⟩ := groupEnded_ends found ending kids orphans left block
    refine ⟨t, runs, fun child => groups.trans (if_neg child), fun root => ?_⟩
    rw [State.group?, groups, if_pos root]
    exact Tab.get?_put_self ..

end Sys2Proof.Machine
end

section
/-! PROOFS. The issue of child operations (O39). -/

namespace Sys2Proof.Machine

section
variable {s s' t : State} {d a : Spec} {i : BitVec 7} {o : Opts} {c : Machine.Checked}
  {maj fn slot cl : Nat} {chk : Vector Word 4 → Except Stop Machine.Checked}

/-- R294, R298: a slot is taken from its cluster. -/
theorem takeSlot_rest (taken : s.takeSlot cl = some (slot, s')) : s' = { s with fresh := s'.fresh, clus := s'.clus } := by
  unfold State.takeSlot at taken
  dsimp only at taken
  split at taken
  · obtain ⟨-, rfl⟩ := Prod.mk.inj (Option.some.inj taken)
    rfl
  · split at taken
    · obtain ⟨-, rfl⟩ := Prod.mk.inj (Option.some.inj taken)
      rfl
    · cases taken

/-- The counter that a collective takes its number from (R321). -/
def State.tookInst (s : State) (maj : Nat) (c : Machine.Checked) : State :=
  if maj = 0x12 ∧ !c.desc.isEmpty then
    { s with colls := Tab.put s.colls (coreOf s.cur * 2 ^ 32 + descWord c.desc 0 % 2 ^ 32) c.inst }
  else s

/-- A token is filed, and its context counts it (R82, R296). -/
def State.filedTok (s : State) (key maj fn : Nat) (u : Token) (c : Machine.Checked) : State :=
  let t := (s.setTok key u).bump
  let t := t.setMe (t.me.count maj)
  (t.setMe { t.me with wait := .none, injTile := if maj = 0x10 ∧ fn ≤ 1 then false else t.me.injTile }).tookInst maj c

theorem issue_ok (readA : s.canRead a) (write : s.canWrite d) (named : d ≠ 1) (eq : o = mkOpts i (s.regVal a)) (choice : o.ntc < 5)
    (low : (s.val64 a).toNat < 2 ^ 32) (target : targetCheck o.ntc o.target = .ok ())
    (dep : o.dep ≠ 0 → ∃ r, s.handle false (wd o.dep) = .ok r) (wake : s.wakeCheck o.ntc o.target = .ok ())
    (signal : o.ntc = 4 → s.baseCheck .write o.target = .ok ()) (performed : s.anyAcc (fun _ => true) = false)
    (plain : s.me.speculative = false) (room : s.slotsFull s.me.launchNo s.me.grp = false) (checked : chk s.me.x = .ok c)
    (core : c.core = .ok ()) (after : c.after = .ok ()) (count : s.me.countFull maj = false)
    (taken : s.takeSlot s.homeCluster = some (slot, s')) : s.issue maj fn d a i chk =
      let h := mkHdl s.homeCluster slot (Tab.getD (s'.clu s.homeCluster).gens slot 1)
      (s'.filedTok (s.homeCluster * 1024 + slot) maj fn (s'.newToken maj fn h o c none) c).put 4 d (scalar (wd h)) := by
  have upper : (s.val64 a).toNat / 2 ^ 32 = 0 := Nat.div_eq_of_lt low
  have form : descr ((s.val64 a).toNat / 2 ^ 32 != 0) (s.val64 a) 4 = .ok () := by rw [upper]; rfl
  unfold State.issue
  simp only [readReg_ok s a readA, bind_ok, ← eq, if_neg (Nat.not_le.mpr choice), checked, lo64_regVal, form, target, wake, core, after,
    free1_ok (write.resolve_left named), performed, plain, count, room, taken, Bool.not_false, Bool.true_and, Bool.false_and,
    Bool.false_eq_true, if_false, pure_ok]
  by_cases held : o.dep ≠ 0
  · obtain ⟨r, handle⟩ := dep held
    by_cases told : o.ntc = 4
    · simp only [if_pos held, handle, bind_ok, if_pos told, signal told]
      rfl
    · simp only [if_pos held, handle, bind_ok, if_neg told]
      rfl
  · by_cases told : o.ntc = 4
    · simp only [if_neg held, if_pos told, signal told, bind_ok]
      rfl
    · simp only [if_neg held, if_neg told]
      rfl

theorem tookInst_rest (s : State) (maj : Nat) (c : Machine.Checked) : s.tookInst maj c = { s with colls := (s.tookInst maj c).colls } := by
  unfold State.tookInst
  split <;> rfl

section
variable {key : Nat} {u : Token}

theorem filedTok_tok? (k : Nat) : (s.filedTok key maj fn u c).tok? k = if k = key then some u else s.tok? k := by
  unfold State.filedTok
  rw [tookInst_rest]
  exact Tab.get?_put ..

theorem filedTok_me : (s.filedTok key maj fn u c).me =
    { s.me.count maj with wait := .none, injTile := if maj = 0x10 ∧ fn ≤ 1 then false else (s.me.count maj).injTile } := by
  have counted : ((s.setTok key u).bump.setMe ((s.setTok key u).bump.me.count maj)).me = s.me.count maj := me_setMe ..
  unfold State.filedTok
  rw [tookInst_rest]
  refine (me_setMe ..).trans ?_
  rw [counted]

theorem filedTok_canWrite (write : s.canWrite d) : (s.filedTok key maj fn u c).canWrite d := by
  unfold State.filedTok
  rw [tookInst_rest]
  exact write

theorem filedTok_mem : (s.filedTok key maj fn u c).mem = s.mem := by
  unfold State.filedTok
  rw [tookInst_rest]
  rfl

theorem count_ctl (x : Thread) (maj : Nat) : (x.count maj).ctl = x.ctl + (if maj = 0x10 then 1 else 0) := by
  unfold Thread.count
  split <;> rfl

theorem count_ccp (x : Thread) (maj : Nat) : (x.count maj).ccp = x.ccp + (if maj = 0x10 then 0 else 1) := by
  unfold Thread.count
  split <;> rfl

theorem count_pc (x : Thread) (maj : Nat) : (x.count maj).pc = x.pc := by
  unfold Thread.count
  split <;> rfl

/-- What an issue leaves once its handle has been written. -/
theorem filedTok_done (named : d ≠ 1) (v : Reg) : let t := (s.filedTok key maj fn u c).done 4 d v
    t.tok? key = some u ∧ t.me.regs[d] = v ∧ t.me.pc = s.me.pc + 4 ∧ t.me.ctl = s.me.ctl + (if maj = 0x10 then 1 else 0) ∧
      t.me.ccp = s.me.ccp + (if maj = 0x10 then 0 else 1) ∧ t.mem = s.mem ∧ ∀ k, k ≠ key → t.tok? k = s.tok? k := by
  intro t
  have wrote : (s.filedTok key maj fn u c).Wrote t 4 d v := done_wrote ..
  have toks (k : Nat) : t.tok? k = (s.filedTok key maj fn u c).tok? k :=
    congrArg (Tab.get? · k) (congrArg State.toks wrote.only.rest :)
  refine ⟨(toks key).trans ((filedTok_tok? key).trans (if_pos rfl)), wrote.dest named, ?_, ?_, ?_, wrote.mem.trans filedTok_mem,
    fun k other => (toks k).trans ((filedTok_tok? k).trans (if_neg other))⟩
  · exact wrote.pc.trans (congrArg (fun x : Thread => x.pc + 4) filedTok_me |>.trans (congrArg (· + 4) (count_pc ..)))
  · exact (congrArg Thread.ctl wrote.me :).trans ((congrArg Thread.ctl filedTok_me).trans (count_ctl ..))
  · exact (congrArg Thread.ccp wrote.me :).trans ((congrArg Thread.ccp filedTok_me).trans (count_ccp ..))

end

end

/-- Settles O39: all forms are one issue with different checks; what it files is the token of R296. -/
theorem issueMakesAToken : Obligations.IssueMakesAToken := by
  unfold Obligations.IssueMakesAToken
  intro s d a i o readA write named eq choice low target dep wake signal performed plain room q listed c slot s' checked core after count taken
  have runs : exec q.1 s = settle s (s.issue q.2.1 q.2.2.1 d a i q.2.2.2) := by
    fin_cases listed <;> rfl
  obtain ⟨instr, maj, fn, chk⟩ := q
  dsimp only at runs checked count ⊢
  rw [issue_ok readA write named eq choice low target dep wake signal performed plain room checked core after count taken] at runs
  obtain ⟨fresh, clus, rfl⟩ : ∃ fresh clus, s' = { s with fresh, clus } := ⟨_, _, takeSlot_rest taken⟩
  dsimp only at runs
  generalize mkHdl s.homeCluster slot (Tab.getD (({ s with fresh, clus } : State).clu s.homeCluster).gens slot 1) = h at runs ⊢
  have gate (u : Token) (new : u = ({ s with fresh, clus } : State).newToken maj fn h o c none) :
      u.st = if o.gate then .issued else .waiting := by
    rw [new]
    simp [State.newToken]
  rw [put_ok _ 4 d _ (filedTok_canWrite (s := { s with fresh, clus }) write), settle_ok] at runs
  obtain ⟨filed, rest⟩ := filedTok_done (s := { s with fresh, clus }) (maj := maj) (fn := fn) (c := c)
    (key := s.homeCluster * 1024 + slot) (u := ({ s with fresh, clus } : State).newToken maj fn h o c none) named (scalar (wd h))
  exact ⟨_, _, runs, filed, rfl, rfl, rfl, gate _ rfl, rfl, rfl, rfl, rfl, rfl, rfl, rfl, rfl, rfl, rfl, rfl, rfl, rfl, rest⟩

end Sys2Proof.Machine
end

section
/-! PROOFS. Tokens run and end (O48).

The clause of O48 about a drain says that the token's saturation flag is the old one or that of the rows just written, where the token is
of no launch. An error that such a drain finds is charged to the task that its service core serves (R218), and where that exhausts the
budget of a root group the launch ends and its tokens' slots are freed. The clause does not ask that the table of tokens lists a slot once
(`Tab.wf`, which O16 asks of the table of copies). Where it lists the slot of the drain again with a token of that launch, the drain's own
entry goes, and the second entry becomes the token that the drain counts for. -/

namespace Sys2Proof.Machine

/-- A drain of one raw element to core 0 by service core c16, for no launch, that has saturated before. -/
def savedDrain : Token :=
  { State.reset.newToken 0x10 2 1 (mkOpts 0 0) (State.reset.plainChecked (.ok ())) none with
    st := .running, launch := none, place := 128, x := #v[0, 0, BitVec.ofNat 64 (2 ^ 36), 0], cls := 0, qsat := true }

/-- A launch whose root group ends it with the first error. -/
def strictLaunch : Launch := Launch.new { desc := #v[0, 0, 0, 0], ctx := 0, die := 0, from? := none, queue := none } 0 0

def strictRoot : Group :=
  { addr := 0, loc := 0, gcb := #v[BitVec.ofNat 64 (2 ^ 60), 0, 0, 1, 0, 0, 0, 0, 0, 0, 0, 0, 0, 0, 0, 0] }

/-- A task of the launch sleeps on service core c16; the granule that the drain writes is damaged in one symbol; slot 0 is listed with the
drain and again with a token of the launch. -/
def drainListedTwice : State :=
  { State.reset with
    toks := [(0, savedDrain), (0, { savedDrain with launch := some 0, qsat := false })]
    launches := [(0, strictLaunch)]
    groups := [(0, strictRoot)]
    threads := [(0, { Thread.idle 0 with
      wait := .pager 0 0
      task := some { ctx := 0, launch := some 0, kind := 0, entry := none, irrev := false, code := none, arrival := 0, admitted := 0,
                     slot := 0 } })]
    cores := [(16, { Core.idle with asked := [.sleep 0 0] })]
    gran := [(nearLoc 128 (.remote 0 0) / 64, { Gran.clean with near := [0] })] }

/-- The rows of the drain, written. -/
def drainWritten : Eng (State × Encoded) :=
  State.drainRows savedDrain (dRows savedDrain.x[2]) 0 (drainListedTwice.engFp savedDrain).2
    { bytes := [], scales := [], qr := 0, qsat := false, fp := (drainListedTwice.engFp savedDrain).1 }

/-- The saturation flag of slot 0 after the drain. -/
def flagAfter : Eng (State × Encoded) → Option Bool
  | .ok (s, _) => (s.tok? 0).map Token.qsat
  | .error _ => none

/-- R217, R218: the token of the launch stands in the slot, and has not saturated. -/
theorem drainWritten_flag : flagAfter drainWritten = some false := by decide +kernel

/-- Refutes O48: the table of tokens may list a slot twice, and a drain may end the token that it writes for. -/
theorem not_tokensRunAndEnd : ¬ Obligations.TokensRunAndEnd := by
  unfold Obligations.TokensRunAndEnd
  rintro ⟨runs, -⟩
  obtain ⟨-, -, -, -, drain⟩ := runs drainListedTwice 0 0 savedDrain rfl rfl
  have after := drainWritten_flag
  obtain ⟨s', r, written⟩ : ∃ s' r, drainWritten = .ok (s', r) := by
    cases eq : drainWritten with
    | error e => rw [eq] at after; cases after
    | ok x => exact ⟨x.1, x.2, rfl⟩
  rw [written] at after
  obtain ⟨v, found, flag⟩ := Option.map_eq_some_iff.mp after
  obtain ⟨-, -, kept⟩ := drain s' r v rfl rfl rfl rfl rfl written found
  have saturated : v.qsat = (true || r.qsat) := kept rfl
  rw [flag, Bool.true_or] at saturated
  cases saturated

end Sys2Proof.Machine
end

section
/-! PROOFS. The package edge: the host's windows and link, links between dies, Notur ports, reset and boot (R403 to R417, R423). -/

namespace Sys2Proof.Machine

/-! ### What the shared parts of these steps leave -/

/-- R416: a message to the host writes memory and the interrupt's own registers. -/
theorem raiseMsix_rest (s : State) (v : Nat) : s.raiseMsix v = { s with
    mem := (s.raiseMsix v).mem, hub := { s.hub with raised := (s.raiseMsix v).hub.raised, msix := (s.raiseMsix v).hub.msix } } := by
  unfold State.raiseMsix
  dsimp only
  split <;> rfl

section
variable {s : State} {v : Nat}

@[simp] theorem raiseMsix_threads : (s.raiseMsix v).threads = s.threads := by rw [raiseMsix_rest]
@[simp] theorem raiseMsix_fatal : (s.raiseMsix v).hub.fatal = s.hub.fatal := by rw [raiseMsix_rest]
@[simp] theorem raiseMsix_retrain : (s.raiseMsix v).hub.retrain = s.hub.retrain := by rw [raiseMsix_rest]
@[simp] theorem raiseMsix_eyeSeen : (s.raiseMsix v).hub.eyeSeen = s.hub.eyeSeen := by rw [raiseMsix_rest]
@[simp] theorem raiseMsix_attRun : (s.raiseMsix v).hub.attRun = s.hub.attRun := by rw [raiseMsix_rest]
@[simp] theorem raiseMsix_attReq : (s.raiseMsix v).hub.attReq = s.hub.attReq := by rw [raiseMsix_rest]
@[simp] theorem raiseMsix_acc : (s.raiseMsix v).acc = s.acc := by rw [raiseMsix_rest]
@[simp] theorem raiseMsix_ntr (p : Nat) : (s.raiseMsix v).ntr p = s.ntr p := by rw [State.ntr, raiseMsix_rest]; rfl

end

@[simp] theorem ntr_setNtr (s : State) (p : Nat) (n : Notur) : (s.setNtr p n).ntr p = n := Tab.getD_put_self ..

/-- R410: a port fails what has left through it, and with no access in flight nothing. -/
theorem failPort_quiet {s : State} (quiet : s.acc = []) (p : Nat) : s.failPort p = s := by
  unfold State.failPort
  split
  · rfl
  · rw [quiet]
    rfl

theorem failPorts_quiet {s : State} (quiet : s.acc = []) : s.failPorts = s := by
  have every (l : List Nat) : l.foldl State.failPort s = s := by
    induction l with
    | nil => rfl
    | cons p l ih => rw [List.foldl_cons, failPort_quiet quiet, ih]
  exact every _

/-- Reads and writes of the outside world are charged to the device (R218). -/
theorem outer_device : outer.Device := ⟨rfl, fun _ => rfl⟩

theorem readSpan_store {w : Reader} (device : w.Device) (cls k : Nat) (s : State) (loc n : Nat) :
    s.SameButStore (s.readSpan cls w k loc n).2 := by
  induction k generalizing s loc n with
  | zero => exact .refl s
  | succ k ih =>
    unfold State.readSpan
    split
    · exact .refl s
    · have read := checkGran_store device s loc cls
      dsimp only
      split
      · rename_i eq
        rw [eq] at read
        exact read
      · rename_i eq
        rw [eq] at read
        have rest := ih (s.checkGran loc cls w).2 (loc + Nat.min n (spanTo loc)) (n - Nat.min n (spanTo loc))
        rw [eq] at rest
        split
        · rename_i eq
          rw [eq] at rest
          exact read.trans rest
        · exact read.trans rest

/-! ### The host's window into memory (R404) -/

theorem hostBar2Write_none {s : State} {off : Nat} {bs : List Byte} (live : s.live = true) (up : s.hub.rate ≠ 0)
    (outside : s.aperture off bs.length = none) : exec (.hostBar2Write off bs) s = .next (s.setHub { s.hub with ur := true }) := by
  rw [exec_hostBar2Write, execHostBar2Write, live, beq_false_of_ne up, outside]
  rfl

theorem hostBar2Write_some {s : State} {off pa : Nat} {bs : List Byte} (live : s.live = true) (up : s.hub.rate ≠ 0)
    (inside : s.aperture off bs.length = some pa) (free : s.outerWaits (locIn 0 pa) bs.length = false) :
    exec (.hostBar2Write off bs) s =
      .next ((s.outerStore (locIn 0 pa) bs).setHub { (s.outerStore (locIn 0 pa) bs).hub with ur := false }) := by
  rw [exec_hostBar2Write, execHostBar2Write, live, beq_false_of_ne up, inside]
  dsimp only
  rw [free]
  rfl

theorem hostBar2Read_some {s u : State} {off n pa : Nat} {bs : List Byte} (live : s.live = true) (up : s.hub.rate ≠ 0)
    (inside : s.aperture off n = some pa) (free : s.outerWaits (locIn 0 pa) n = false)
    (read : s.readSpan (s.locClass (locIn 0 pa)) outer (n / 64 + 2) (locIn 0 pa) n = (.ok bs, u)) :
    exec (.hostBar2Read off n) s =
      .next (u.setHub { u.hub with answer := BitVec.ofNat 64 (leNat (bs.take 8)), bytes := bs, ur := false }) := by
  rw [exec_hostBar2Read, execHostBar2Read, live, beq_false_of_ne up, inside]
  dsimp only
  rw [free, State.outerRead, State.outerBytes, read]
  rfl

/-! ### The host link (R403, R406) -/

section
variable {s : State} {id : Nat} {a : Access}

theorem hostFail_sent (found : Tab.get? s.acc id = some a) (host : locTag a.loc = 1) (sent : a.sent = true) :
    s.hostFail id = s.accFault id a { code := 0x001F, addr := a.va } := by
  rw [State.hostFail, found]
  dsimp only
  rw [sent, host]
  rfl

theorem hostLinkTimeout_fails (found : Tab.get? s.acc id = some a) (host : locTag a.loc = 1) (sent : a.sent = true)
    (awake : s.hub.frozen = false) (late : a.issued + 2 ^ 24 ≤ s.cyc) :
    exec (.hostLinkTimeout id) s = .next (s.accFault id a { code := 0x001F, addr := a.va }) := by
  rw [exec_hostLinkTimeout, execHostLinkTimeout, found]
  dsimp only
  rw [hostFail_sent found host sent, awake, decide_eq_true late]
  rfl

theorem hostLinkCompletion_runs (found : Tab.get? s.acc id = some a) (host : locTag a.loc = 1) (awake : s.hub.frozen = false)
    (up : s.hub.rate ≠ 0) (err : Bool) (bs : List Byte) :
    exec (.hostLinkCompletion id err bs) s = .next (if err then s.hostFail id else s.linkAnswer id bs) := by
  rw [exec_hostLinkCompletion, execHostLinkCompletion, found]
  dsimp only
  rw [awake, host, beq_false_of_ne up]
  rfl

/-- R181: the acknowledgement of the write-back of one line. -/
theorem linkAnswer_cwb (found : Tab.get? s.acc id = some a) (sent : a.sent = true) (own : a.outside = false)
    (kind : a.kind = .cwb [a.loc / 32]) (bs : List Byte) : s.linkAnswer id bs = (s.cleanCopy (a.loc / 32)).retireAcc id a := by
  have mine : (locTag (a.loc / 32 * 32) == locTag a.loc) = true := by
    rw [beq_iff_eq, locTag, locTag]
    omega
  rw [State.linkAnswer, found]
  simp only [sent, own, kind, List.filter_cons, mine]
  rfl

/-- R178, R191: a line that comes from the host becomes a device copy. -/
theorem linkAnswer_line (found : Tab.get? s.acc id = some a) (sent : a.sent = true) (own : a.outside = false)
    (kind : ∀ ls, a.kind ≠ .cwb ls) (fresh : Tab.get? s.copies (a.loc / 32) = none) {bs : List Byte} (whole : bs.length = 32) :
    s.linkAnswer id bs = (({ s with
      mem := memPutN s.mem (a.loc / 32 * 32) bs,
      copies := Tab.put s.copies (a.loc / 32) { bytes := bs, dirty := false } } : State).setAcc id { a with sent := false }) := by
  have line : (List.range 32).map (fun i => (bs[i]?).getD 0) = bs := by
    refine List.ext_getElem (by rw [List.length_map, List.length_range, whole]) fun i _ inside => ?_
    rw [List.getElem_map, List.getElem_range, List.getElem?_eq_getElem inside, Option.getD_some]
  rw [State.linkAnswer, found]
  simp only [sent, own, line, fresh]
  rw [if_neg (by decide), if_neg (by decide), if_neg (by decide)]

end

theorem hostLinkTraining_runs {s : State} {ltssm : BitVec 6} {rate : BitVec 3} {wid : BitVec 5} (on : s.hub.phase ≠ 0) (known : rate ≠ 7) :
    exec (.hostLinkTraining ltssm rate wid) s = .next (if rate = 0 then s.setHub { s.hub with ltssm := ltssm, rate := rate, wid := wid }
      else (s.setHub { s.hub with ltssm := ltssm, rate := rate, wid := wid }).flushMsix) := by
  rw [exec_hostLinkTraining, execHostLinkTraining, if_neg (not_or.mpr ⟨on, known⟩)]

/-! ### Links between dies (R407) -/

section
variable {s : State} {a b : Nat}

theorem d2dRetrain_starts (live : s.live = true) (order : a < b) (known : b ≤ 8) (idle : Tab.get? s.hub.d2d (16 * a + b) = none) :
    exec (.d2dRetrain a b) s = .next (s.setHub { s.hub with d2d := Tab.put s.hub.d2d (16 * a + b) s.cyc }) := by
  rw [exec_d2dRetrain, execD2dRetrain, live, d2dEnds, decide_eq_true order, decide_eq_true known, idle]
  rfl

theorem d2dRetrainDone_ends {since : Nat} (busy : Tab.get? s.hub.d2d (16 * a + b) = some since) :
    ∃ t, exec (.d2dRetrainDone a b) s = .next t ∧ t.hub = { s.hub with d2d := Tab.del s.hub.d2d (16 * a + b) } ∧ t.mem = s.mem := by
  rw [exec_d2dRetrainDone, execD2dRetrainDone, busy]
  exact ⟨_, rfl, rfl, rfl⟩

/-- FATAL_STAT with its valid bit. -/
theorem fatal_valid (n a b : Nat) : (wd (2 ^ 63 + n % 2 ^ 32 * 2 ^ 16 + 1 * 2 ^ 8 + a % 16 * 2 ^ 4 + b % 16)).getLsbD 63 = true := by
  rw [wd, BitVec.getLsbD_ofNat, Nat.testBit_eq_decide_div_mod_eq]
  have : (2 ^ 63 + n % 2 ^ 32 * 2 ^ 16 + 1 * 2 ^ 8 + a % 16 * 2 ^ 4 + b % 16) / 2 ^ 63 = 1 := by omega
  rw [this]
  rfl

theorem fatalLink_thread (p : Nat) : (s.fatalLink a b).thread p = if (s.thread p).task.isSome = true ∧ (s.thread p).state ≠ .halted then
    { s.thread p with state := .halted, prev := (s.thread p).state } else s.thread p := by
  rw [State.thread, State.fatalLink, raiseMsix_threads]
  dsimp only
  rw [Tab.getD_mapV]
  case unlisted => exact if_neg fun busy => absurd busy.1 Bool.false_ne_true
  rfl

theorem d2dRetrainTimeout_fatal {since : Nat} (busy : Tab.get? s.hub.d2d (16 * a + b) = some since) (late : since + 2 ^ 20 ≤ s.cyc)
    (first : s.hub.fatal = 0) : ∃ t, exec (.d2dRetrainTimeout a b) s = .next t ∧ t.hub.fatal.getLsbD 63 = true ∧
      ∀ p, (s.thread p).task.isSome = true → (t.thread p).state = .halted := by
  change ∃ t, execD2dRetrainTimeout a b s = .next t ∧ _
  have fails : execD2dRetrainTimeout a b s = .next (s.fatalLink a b) := by
    rw [execD2dRetrainTimeout, busy]
    dsimp only
    rw [if_pos ⟨late, by rw [first]; rfl⟩]
  refine ⟨_, fails, ?_, fun p works => ?_⟩
  · rw [State.fatalLink, raiseMsix_fatal]
    exact fatal_valid ..
  · rw [fatalLink_thread]
    split
    case isTrue => rfl
    case isFalse kept => exact not_not.mp fun running => kept ⟨works, running⟩

end

end Sys2Proof.Machine
end

section
/-! PROOFS. Notur ports, reset and boot, attestation, and the registers that the host reaches (R408 to R417, R423). -/

namespace Sys2Proof.Machine

/-! ### Notur ports (R408 to R410) -/

section
variable {s : State} {p : Nat}

theorem noturEnable_trains (port : p < 16) (on : s.hub.phase = 2) (off : (s.ntr p).st = 0 ∨ (s.ntr p).st = 4) :
    exec (.noturEnable p) s = .next (s.setNtr p { s.ntr p with en := true, st := 1, row := 0, since := s.cyc }) := by
  rw [exec_noturEnable, execNoturEnable, on, decide_eq_true port, State.ntrEnable, if_pos off]
  rfl

theorem noturDisable_quiet (port : p < 16) (on : s.hub.phase = 2) (quiet : s.acc = []) :
    exec (.noturDisable p) s = .next (s.setNtr p { s.ntr p with en := false, st := 0, row := 0, replay := [] }) := by
  have alone : (s.ntrDisable p).failPort p = s.ntrDisable p := failPort_quiet (s := s.ntrDisable p) quiet p
  rw [exec_noturDisable, execNoturDisable, on, decide_eq_true port, alone]
  rfl

/-- R409: training that ends has nothing to send again. -/
theorem noturTrainingDone_up (port : p < 16) (awake : s.hub.frozen = false) (trains : (s.ntr p).st = 1) (bad : Option (Fin 8)) :
    exec (.noturTrainingDone p bad) s = .next (match bad with
      | none => s.setNtr p { s.ntr p with st := 2, row := 0, rep := false, bad := 0 }
      | some k => s.setNtr p { s.ntr p with st := 2, row := 0, rep := true, bad := k.val }) := by
  simp only [exec_noturTrainingDone, execNoturTrainingDone, decide_eq_true port, trains, awake]
  cases (s.ntr p).replay <;> cases bad <;> rfl

theorem portDown_quiet (quiet : s.acc = []) : s.portDown p = (s.setNtr p { s.ntr p with st := 4 }).raiseMsix 1 := by
  unfold State.portDown
  exact failPort_quiet (by rw [raiseMsix_acc]; exact quiet) p

theorem portDown_state (quiet : s.acc = []) : ((s.portDown p).ntr p).st = 4 ∧ (s.portDown p).threads = s.threads := by
  rw [portDown_quiet quiet, raiseMsix_ntr, ntr_setNtr, raiseMsix_threads]
  exact ⟨rfl, rfl⟩

theorem noturTrainingTimeout_down (port : p < 16) (trains : (s.ntr p).st = 1) (late : (s.ntr p).since + 2 ^ 22 ≤ s.cyc) :
    exec (.noturTrainingTimeout p) s = .next (s.portDown p) := by
  rw [exec_noturTrainingTimeout, execNoturTrainingTimeout, trains, decide_eq_true port, decide_eq_true late]
  rfl

theorem noturRetrainTimeout_down (port : p < 16) (trains : (s.ntr p).st = 3) (late : (s.ntr p).since + 2 ^ 21 ≤ s.cyc) :
    exec (.noturRetrainTimeout p) s = .next (s.portDown p) := by
  rw [exec_noturRetrainTimeout, execNoturRetrainTimeout, trains, decide_eq_true port, decide_eq_true late]
  rfl

theorem noturFlitReceive_runs (port : p < 16) (live : s.live = true) (f : NoturFlit) :
    exec (.noturFlitReceive p f) s = .next (s.recvFlit p f) := by
  rw [exec_noturFlitReceive, execNoturFlitReceive, live, decide_eq_true port]
  rfl

theorem recvFlit_ack (up : (s.ntr p).st = 2) (awake : s.hub.frozen = false) (q n : BitVec 12) :
    s.recvFlit p { seq := q, crcOk := true, body := .ack n } = s.controlFlit p (.ack n) := by
  simp only [State.recvFlit, up, awake]
  rfl

/-- R408: what follows a flit with a wrong check sum. -/
theorem recvFlit_damaged (up : (s.ntr p).st = 2) (awake : s.hub.frozen = false) (q : BitVec 12) (body : NoturBody) :
    s.recvFlit p { seq := q, crcOk := false, body := body } =
      (s.emit p (s.ntr p).sendSeq (.replay (s.ntr p).recvSeq)).askReplay p true := by
  simp only [State.recvFlit, up, awake]
  rfl

theorem recvFlit_read {pa n : Nat} (up : (s.ntr p).st = 2) (awake : s.hub.frozen = false) (free : s.flitWaits p (.read pa n) = false) :
    s.recvFlit p { seq := (s.ntr p).recvSeq, crcOk := true, body := .read pa n } =
      ((s.setNtr p { s.ntr p with recvSeq := (s.ntr p).recvSeq + 1, row := 0 }).emit p (s.ntr p).sendSeq (.ack (s.ntr p).recvSeq)).takeFlit
        p (s.ntr p).recvSeq (.read pa n) := by
  simp only [State.recvFlit, up, awake, free]
  rfl

/-- R408: asking for replay counts the flit, and the 64th in a row makes the port retrain. -/
theorem askReplay_ntr : ((s.askReplay p true).ntr p).crc = satAt (2 ^ 32 - 1) ((s.ntr p).crc + 1) ∧
    ((s.askReplay p true).ntr p).st = if 64 ≤ (s.ntr p).row + 1 then 3 else (s.ntr p).st := by
  unfold State.askReplay
  rw [ntr_setNtr]
  dsimp only
  split <;> exact ⟨rfl, rfl⟩

theorem State.SameButStore.ntr {t : State} (kept : s.SameButStore t) : t.ntr p = s.ntr p := by
  rw [show t = _ from kept]
  rfl

theorem outerRead_ntr (loc n : Nat) : (s.outerRead loc n).ntr p = s.ntr p := by
  have read := readSpan_store outer_device (s.locClass loc) (n / 64 + 2) s loc n
  unfold State.outerRead State.outerBytes
  split
  rename_i eq
  split at eq
  all_goals
    rename_i found
    cases eq
    rw [found] at read
    exact read.ntr

/-- R178, R408: the answer to a read goes out under the number of its request and stays in the replay buffer. -/
theorem takeFlit_read {pa n : Nat} {port : Notur} (seq : BitVec 12) (backed : s.frameClass pa ≠ 3) (own : s.ntr p = port) :
    (s.takeFlit p seq (.read pa n)).ntr p = { port with
      sendSeq := port.sendSeq + 1,
      replay := port.replay ++ [(port.sendSeq, .response seq.toNat (s.takeFlit p seq (.read pa n)).hub.bytes)] } := by
  have taken : s.takeFlit p seq (.read pa n) =
      (s.outerRead (locIn 0 pa) n).flitOut p (.response seq.toNat (s.outerRead (locIn 0 pa) n).hub.bytes) :=
    if_pos (bne_iff_ne.mpr backed)
  rw [taken]
  refine (ntr_setNtr ..).trans ?_
  rw [outerRead_ntr, own]
  rfl

theorem sat32_succ (n : Nat) : satAt (2 ^ 32 - 1) (n + 1) = if n + 1 ≤ 2 ^ 32 - 1 then n + 1 else 2 ^ 32 - 1 := by
  unfold satAt
  split <;> split <;> omega

end

/-! ### Reset and boot (R6, R412) -/

theorem memGet_filter_remote (m : List Host.Cell) {a : Nat} (own : isRemote a = false) :
    memGet (m.filter (fun c => isRemote c.1)) a = 0 := by
  induction m with
  | nil => rfl
  | cons c m ih =>
    rw [List.filter_cons]
    split
    · next remote =>
      have other : c.1 ≠ a := fun same => by rw [same, own] at remote; exact absurd remote (by decide)
      rw [memGet, if_neg other, ih]
    · exact ih

/-- Only the dies' registers and the Notur ports have changed. -/
def State.SameButPorts (s t : State) : Prop := t = { s with dies := t.dies, hub := { s.hub with ntr := t.hub.ntr } }

theorem State.SameButPorts.trans {s t u : State} (first : s.SameButPorts t) (second : t.SameButPorts u) : s.SameButPorts u := by
  unfold State.SameButPorts at *
  rw [second, first]

theorem State.SameButPorts.foldl {α : Type} {f : State → α → State} (step : ∀ (s : State) a, s.SameButPorts (f s a)) (l : List α)
    (s : State) : s.SameButPorts (l.foldl f s) := by
  induction l generalizing s with
  | nil => rfl
  | cons a l ih => exact (step s a).trans (ih _)

theorem ntrEnable_ports (s : State) (p : Nat) : s.SameButPorts (s.ntrEnable p) := by
  unfold State.ntrEnable
  dsimp only
  split <;> rfl

theorem bootFields_ports (s : State) : (s.setCtx 0 Ctx.firmware).SameButPorts s.bootFields := by
  unfold State.bootFields
  dsimp only
  refine State.SameButPorts.trans (.foldl ?die _ _) (.foldl ?port _ _)
  case die => exact fun _ _ => rfl
  case port =>
    intro s p
    split
    · exact ntrEnable_ports s p
    · rfl

theorem bootVerifyComplete_runs {s : State} (booting : s.hub.phase = 1) :
    exec (.bootVerifyComplete 0) s = .next (s.setHub { s.hub with phase := 2 }).bootFields := by
  rw [exec_bootVerifyComplete, execBootVerifyComplete, booting]
  rfl

theorem bootVerifyComplete_fails {s : State} {c : Nat} (booting : s.hub.phase = 1) (low : 1 ≤ c) (high : c ≤ 3) :
    exec (.bootVerifyComplete c) s = .next (s.setHub { s.hub with phase := 4, boot := BitVec.ofNat 8 c }) := by
  rw [exec_bootVerifyComplete, execBootVerifyComplete, if_neg (by omega), if_neg (by omega)]

/-! ### Attestation and eye margins (R413, R414) -/

theorem attReqComplete_ends {s : State} (runs : s.hub.attRun = true) (ok : Bool) :
    ∃ t, exec (.attReqComplete ok) s = .next t ∧ t.hub.attRun = false ∧
      t.hub.attReq = (if ok = true ∧ s.hub.rate ≠ 0 then 0 else 1) ∧ t.threads = s.threads := by
  have buffer : s.attWriteBuffer.threads = s.threads := by
    unfold State.attWriteBuffer
    dsimp only
    split <;> rfl
  rw [exec_attReqComplete, execAttReqComplete, if_neg (by rw [runs]; decide)]
  refine ⟨_, rfl, ?_⟩
  dsimp only
  rw [raiseMsix_attRun, raiseMsix_attReq, raiseMsix_threads]
  split
  · exact ⟨rfl, rfl, buffer⟩
  · exact ⟨rfl, rfl, rfl⟩

theorem eyeMarginAlert_retrains {s : State} {l : HbmLane} {h v : BitVec 8} (on : s.hub.phase = 2) (stack : l.stack < 8)
    (low : h < Tab.getD s.hub.eyeThr l.stack 0 ∨ v < Tab.getD s.hub.eyeThr l.stack 0) :
    ∃ t, exec (.eyeMarginAlert l h v) s = .next t ∧ (Tab.get? t.hub.retrain l.stack).isSome = true ∧ t.threads = s.threads ∧
      Tab.get? t.hub.eyeSeen (65536 * l.stack + l.lane.toNat) = some (h.setWidth 16 ||| (v.setWidth 16 <<< 8)) := by
  rw [exec_eyeMarginAlert, execEyeMarginAlert]
  dsimp only
  rw [if_pos ⟨on, stack, low⟩]
  refine ⟨_, rfl, ?_, raiseMsix_threads, ?_⟩
  · rw [raiseMsix_retrain]
    dsimp only [State.setHub]
    split
    · assumption
    · rw [Tab.get?_put_self]
      rfl
  · rw [raiseMsix_eyeSeen]
    exact Tab.get?_put_self ..

/-! ### Registers that the host or the management bus reaches (R404, R415 to R417, R423) -/

/-- R412: while boot has failed BAR 4 answers BOOT_STAT alone. -/
theorem bar4Read_bootStat {s : State} {a n v : Nat} (failed : s.hub.phase = 4) (read : s.bar4Read a n = some v) :
    a / 8 = 0x7FFF00400300 / 8 := by
  unfold State.bar4Read at read
  dsimp only at read
  rw [failed] at read
  split at read
  · cases read
  · split at read
    · split at read
      · omega
      · cases read
    · omega

section
variable {s : State}

theorem attWrite_starts {v : Word} (idle : s.hub.attRun = false) (known : v.toNat % 64 ≤ 1) :
    s.attWrite v = s.setHub { s.hub with attRun := true, attReq := v } := by
  rw [State.attWrite, idle, if_neg Bool.false_ne_true, if_pos known]

theorem registerWrite_word {v : Word} (on : s.hub.phase = 2) (sound : s.hub.fatal = 0) (quiet : s.acc = []) :
    exec (.registerWrite 0x7FFF00400008 (.word v)) s = .next (s.setHub { s.hub with apt := v &&& ~~~(0xFFFF : Word) }) := by
  have merged : merge s.hub.apt (wd v.toNat) (wd (2 ^ 64 - 1)) = v := by
    rw [merge, wd, wd, BitVec.ofNat_toNat, BitVec.setWidth_eq]
    have ones : BitVec.ofNat 64 (2 ^ 64 - 1) = BitVec.allOnes 64 := rfl
    rw [ones, BitVec.not_allOnes, BitVec.and_zero, BitVec.zero_or, BitVec.and_allOnes]
  have written : s.devWrite 0x400008 8 v.toNat = s.setHub { s.hub with apt := v &&& ~~~(0xFFFF : Word) } := by
    change s.setHub { s.hub with apt := merge s.hub.apt (wd v.toNat) (wd (2 ^ 64 - 1)) &&& ~~~(0xFFFF : Word) } = _
    rw [merged]
  have alone : (s.devWrite 0x400008 8 v.toNat).failPorts = s.devWrite 0x400008 8 v.toNat := failPorts_quiet (by rw [written]; exact quiet)
  change execRegisterWrite 0x7FFF00400008 (.word v) s = _
  unfold execRegisterWrite
  dsimp only
  rw [if_neg (by rw [on, sound]; decide), alone, written]

theorem registerWrite_half {v : BitVec 32} (on : s.hub.phase = 2) (sound : s.hub.fatal = 0) (quiet : s.acc = []) :
    exec (.registerWrite 0x7FFF0040000C (.half v)) s =
      .next (s.setHub { s.hub with apt := (v.setWidth 64 <<< 32) ||| (s.hub.apt &&& 0xFFFF0000) }) := by
  have merged : merge s.hub.apt (wd (v.toNat % 2 ^ 32 * 2 ^ 32)) (wd ((2 ^ 32 - 1) * 2 ^ 32)) &&& ~~~(0xFFFF : Word) =
      (v.setWidth 64 <<< 32) ||| (s.hub.apt &&& 0xFFFF0000) := by
    have high : v.setWidth 64 <<< 32 &&& (BitVec.allOnes 64 <<< 32) = v.setWidth 64 <<< 32 := by
      rw [← BitVec.shiftLeft_and_distrib, BitVec.and_allOnes]
    have low : ~~~(BitVec.allOnes 64 <<< 32) &&& ~~~(0xFFFF : Word) = 0xFFFF0000 := by decide
    have top : BitVec.allOnes 64 <<< 32 &&& ~~~(0xFFFF : Word) = BitVec.allOnes 64 <<< 32 := by decide
    have data : wd (v.toNat % 2 ^ 32 * 2 ^ 32) = v.setWidth 64 <<< 32 := by
      refine BitVec.eq_of_toNat_eq ?_
      have small := v.isLt
      rw [wd, BitVec.toNat_ofNat, BitVec.toNat_shiftLeft, BitVec.toNat_setWidth, Nat.shiftLeft_eq]
      omega
    rw [merge, data, show wd ((2 ^ 32 - 1) * 2 ^ 32) = BitVec.allOnes 64 <<< 32 by decide, high, BitVec.and_or_distrib_right,
      BitVec.and_assoc, low, ← high, BitVec.and_assoc, top, BitVec.or_comm]
  have written : s.devWrite 0x40000C 4 v.toNat = s.setHub { s.hub with apt := (v.setWidth 64 <<< 32) ||| (s.hub.apt &&& 0xFFFF0000) } := by
    change s.setHub { s.hub with apt := merge s.hub.apt (wd (v.toNat % 2 ^ 32 * 2 ^ 32)) (wd ((2 ^ 32 - 1) * 2 ^ 32)) &&& ~~~(0xFFFF : Word) } = _
    rw [merged]
  have alone : (s.devWrite 0x40000C 4 v.toNat).failPorts = s.devWrite 0x40000C 4 v.toNat := failPorts_quiet (by rw [written]; exact quiet)
  change execRegisterWrite 0x7FFF0040000C (.half v) s = _
  unfold execRegisterWrite
  dsimp only
  rw [if_neg (by rw [on, sound]; decide), alone, written]

theorem throttle_counts (d cause qty v : Nat) :
    ((s.throttle d cause qty v).die d).thrWi = satAt (2 ^ 64 - 1) ((s.die d).thrWi + 1) ∧ (s.throttle d cause qty v).threads = s.threads := by
  refine ⟨congrArg Die.thrWi (Tab.getD_put_self ..), ?_⟩
  exact (congrArg State.threads (show _ = _ from putRecord_store s d _ _ _) :)

/-- R417: an aligned block is the register itself. -/
theorem hubBytes_aligned {o : Nat} (aligned : o % 8 = 0) : s.hubBytes o = s.hubRead o := by
  have own : o / 8 * 8 = o := by omega
  unfold State.hubBytes
  dsimp only
  rw [own, aligned]
  generalize (if o + 8 < 65536 then (s.hubRead (o + 8)).toNat else 0) = next
  refine BitVec.eq_of_toNat_eq ?_
  have small := (s.hubRead o).isLt
  rw [wd, BitVec.toNat_ofNat]
  omega

end

/-! ### The obligation -/

/-- Settles O52: the steps at the package edge are single writes of the hub's registers; ports without accesses in flight fail none. -/
theorem linksAndModuleEdge : Obligations.LinksAndModuleEdge := by
  refine ⟨fun s => ⟨?window, ?link, ?training, ?dies, ?ports⟩, fun s => ⟨?reset, ?falls, ?rises, ?boot, ?report, ?eye, fun k => rfl,
    fun failed a n v => bar4Read_bootStat failed, ?registers, ?throttle, ?bus⟩⟩
  case window =>
    exact fun live up => ⟨fun _ _ => hostBar2Write_none live up, fun _ _ _ => hostBar2Write_some live up,
      fun _ _ _ _ _ => hostBar2Read_some live up⟩
  case link =>
    intro id a found host sent awake
    refine ⟨fun up own kind bs => ?_, fun up own kind fresh bs whole => ?_, fun up => ?_, hostLinkTimeout_fails found host sent awake⟩
    · exact (hostLinkCompletion_runs found host awake up _ _).trans (congrArg _ (linkAnswer_cwb found sent own kind bs))
    · exact (hostLinkCompletion_runs found host awake up _ _).trans (congrArg _ (linkAnswer_line found sent own kind fresh whole))
    · exact (hostLinkCompletion_runs found host awake up _ _).trans (congrArg _ (hostFail_sent found host sent))
  case training => exact fun _ _ _ => hostLinkTraining_runs
  case dies =>
    exact fun a b order known => ⟨fun live => d2dRetrain_starts live order known,
      fun since busy => ⟨d2dRetrainDone_ends busy, d2dRetrainTimeout_fatal busy⟩⟩
  case ports =>
    intro p port awake
    refine ⟨noturEnable_trains port, noturDisable_quiet port, fun trains => ⟨?_, fun k => ?_⟩, fun trains late quiet => ?_,
      fun trains late quiet => ?_, fun live up => ⟨fun q n => ?_, fun pa n backed free => ?_, fun n body => ?_⟩⟩
    · exact noturTrainingDone_up port awake trains none
    · exact noturTrainingDone_up port awake trains (some k)
    · exact ⟨_, noturTrainingTimeout_down port trains late, portDown_state quiet⟩
    · exact ⟨_, noturRetrainTimeout_down port trains late, portDown_state quiet⟩
    · refine ⟨_, noturFlitReceive_runs port live _, ?_⟩
      rw [recvFlit_ack up awake, State.controlFlit, ntr_setNtr]
      exact ⟨rfl, rfl, up, rfl, rfl⟩
    · refine ⟨_, noturFlitReceive_runs port live _, ?_⟩
      rw [recvFlit_read up awake free, takeFlit_read]
      case backed => exact backed
      case own => exact ntr_setNtr ..
      exact ⟨rfl, rfl⟩
    · refine ⟨_, noturFlitReceive_runs port live _, ?_⟩
      rw [recvFlit_damaged up awake, askReplay_ntr.1, askReplay_ntr.2, sat32_succ]
      exact ⟨rfl, rfl, if_congr Iff.rfl rfl up, rfl, rfl⟩
  case reset => exact ⟨_, rfl, rfl, rfl, rfl, rfl, rfl, rfl, rfl, rfl, fun _ => memGet_filter_remote s.mem⟩
  case falls =>
    intro good
    refine ⟨s.cold 0 false, ?_, rfl, rfl, rfl⟩
    rw [exec_powerGoodChange, execPowerGoodChange, good]
    rfl
  case rises =>
    intro bad
    refine ⟨s.cold 1 true, ?_, rfl, rfl, rfl⟩
    rw [exec_powerGoodChange, execPowerGoodChange, bad]
    rfl
  case boot =>
    intro booting
    refine ⟨⟨_, bootVerifyComplete_runs booting, ?_⟩, fun c => bootVerifyComplete_fails booting⟩
    rw [show State.bootFields _ = _ from bootFields_ports _]
    exact ⟨rfl, Tab.getD_put_self .., rfl, rfl⟩
  case report => exact attReqComplete_ends
  case eye => exact fun l h v => eyeMarginAlert_retrains
  case registers =>
    intro on
    refine ⟨fun v idle => ⟨fun code => ?report, fun code => ?key⟩, fun v low high => ?raised, fun v out => ?unraised,
      fun v low high => ?limit, fun v out => ?unlimited, fun v => registerWrite_word on, fun v => registerWrite_half on⟩
    case report =>
      rw [exec_attReqReport, execAttReqReport, on, code, attWrite_starts idle (by omega)]
      rfl
    case key =>
      rw [exec_attReqPubkey, execAttReqPubkey, on, code, attWrite_starts idle (by omega)]
      rfl
    case raised =>
      rw [exec_hostIrqWrite, execHostIrqWrite, if_pos on, State.irqWrite, if_pos ⟨low, high⟩]
    case unraised =>
      rw [exec_hostIrqWrite, execHostIrqWrite, if_pos on, State.irqWrite, if_neg (by omega)]
    case limit =>
      rw [exec_pwrLimWrite, execPwrLimWrite, if_pos on, State.pwrWrite, if_pos ⟨low, high⟩]
    case unlimited =>
      rw [exec_pwrLimWrite, execPwrLimWrite, if_pos on, State.pwrWrite, if_neg (by omega)]
  case throttle =>
    intro d c y v live die cause quantity
    refine ⟨s.throttle d c.toNat y.toNat v.toNat, ?_, ?_, (throttle_counts ..).2⟩
    · rw [exec_throttleChange, execThrottleChange, live, decide_eq_true die, decide_eq_true cause, decide_eq_true quantity]
      rfl
    · rw [(throttle_counts ..).1, satAt_pred]
  case bus =>
    intro good o low
    refine ⟨?_, hubBytes_aligned⟩
    rw [exec_smbusBlockRead, execSmbusBlockRead, if_neg (by rw [good]; simp; omega), if_neg (by omega)]

end Sys2Proof.Machine
end

section
/-! PROOFS. Tokens that end: what that leaves of other tokens, of the contexts and of the rest of the machine (R299, R310, R321). -/

namespace Sys2Proof.Machine

section
variable {s t u : State} {j k : Nat}

@[simp] theorem uncount_pc (x : Thread) (maj : Nat) : (x.uncount maj).pc = x.pc := by unfold Thread.uncount; split <;> rfl
@[simp] theorem uncount_regs (x : Thread) (maj : Nat) : (x.uncount maj).regs = x.regs := by unfold Thread.uncount; split <;> rfl

/-- A change of tokens, of the lines they hold and of counters: no context has moved or written a register. -/
structure State.EndsTokens (s t : State) : Prop where
  rest : t = { s with toks := t.toks, threads := t.threads, dir := t.dir, waits := t.waits }
  pc : ∀ p, (t.thread p).pc = (s.thread p).pc
  regs : ∀ p, (t.thread p).regs = (s.thread p).regs

namespace State.EndsTokens

theorem refl (s : State) : s.EndsTokens s := ⟨rfl, fun _ => rfl, fun _ => rfl⟩

theorem trans (first : s.EndsTokens t) (second : t.EndsTokens u) : s.EndsTokens u where
  rest := by rw [second.rest, first.rest]
  pc p := (second.pc p).trans (first.pc p)
  regs p := (second.regs p).trans (first.regs p)

theorem me_pc (ends : s.EndsTokens t) : t.me.pc = s.me.pc := by
  have cur : t.cur = s.cur := by rw [ends.rest]
  rw [State.me, cur]
  exact ends.pc _

theorem me_regs (ends : s.EndsTokens t) : t.me.regs = s.me.regs := by
  have cur : t.cur = s.cur := by rw [ends.rest]
  rw [State.me, cur]
  exact ends.regs _

theorem mem (ends : s.EndsTokens t) : t.mem = s.mem := by rw [ends.rest]

end State.EndsTokens

theorem releaseLines_rest (s : State) (ls : List Nat) :
    s.releaseLines ls = { s with dir := ls.foldl Tab.del s.dir, waits := (s.releaseLines ls).waits } := by
  induction ls generalizing s with
  | nil => rfl
  | cons l ls ih =>
    have first := releaseLine_rest s l
    have rest := ih (s.releaseLine l)
    unfold State.releaseLines at *
    rw [List.foldl_cons, List.foldl_cons, rest, first]

theorem releaseLines_ends (s : State) (ls : List Nat) : s.EndsTokens (s.releaseLines ls) := by
  rw [releaseLines_rest]
  exact ⟨rfl, fun _ => rfl, fun _ => rfl⟩

theorem setTok_ends (s : State) (k : Nat) (x : Token) : s.EndsTokens (s.setTok k x) := ⟨rfl, fun _ => rfl, fun _ => rfl⟩

theorem setThread_ends {p : Nat} {x : Thread} (pc : x.pc = (s.thread p).pc) (regs : x.regs = (s.thread p).regs) :
    s.EndsTokens (s.setThread p x) := by
  refine ⟨rfl, fun q => ?_, fun q => ?_⟩
  · by_cases own : q = p
    · rw [own, thread_setThread, pc]
    · rw [thread_setThread_ne _ _ _ _ own]
  · by_cases own : q = p
    · rw [own, thread_setThread, regs]
    · rw [thread_setThread_ne _ _ _ _ own]

/-- R82, R299: the state in which an ending token's slot is written. -/
def State.gaveUp (s : State) (x : Token) : State :=
  match x.holder with
  | some p => if x.hold = 0 ∧ x.defer = none then
      (s.releaseLines x.lines).setThread p (((s.releaseLines x.lines).thread p).uncount x.maj) else s.releaseLines x.lines
  | none => s.releaseLines x.lines

theorem gaveUp_ends (s : State) (x : Token) : s.EndsTokens (s.gaveUp x) := by
  have released := releaseLines_ends s x.lines
  unfold State.gaveUp
  split
  · split
    · exact released.trans (setThread_ends (uncount_pc ..) (uncount_regs ..))
    · exact released
  · exact released

theorem gaveUp_toks (s : State) (x : Token) : (s.gaveUp x).toks = s.toks := by
  have released : (s.releaseLines x.lines).toks = s.toks := by rw [releaseLines_rest]
  unfold State.gaveUp
  split
  · split <;> exact released
  · exact released

theorem gaveUp_dir (s : State) (x : Token) : (s.gaveUp x).dir = x.lines.foldl Tab.del s.dir := by
  have released : (s.releaseLines x.lines).dir = x.lines.foldl Tab.del s.dir := by rw [releaseLines_rest]
  unfold State.gaveUp
  split
  · split <;> exact released
  · exact released

/-- What ends one token, that is not terminal, writes its slot. -/
theorem endOne_writes {x : Token} {st : TokSt} (held : s.tok? k = some x) (runs : x.st.terminal = false) :
    ∃ y : Token, s.endOne k st = (s.gaveUp x).setTok k y ∧ y.st = st ∧ y.hdl = x.hdl := by
  rw [State.endOne, held]
  dsimp only
  rw [if_neg (ne_true_of_eq_false runs)]
  refine ⟨_, rfl, rfl, ?_⟩
  dsimp only
  split <;> rfl

theorem endOne_ends (s : State) (k : Nat) (st : TokSt) : s.EndsTokens (s.endOne k st) := by
  cases held : s.tok? k with
  | none => rw [State.endOne, held]; exact .refl s
  | some x =>
    cases ended : x.st.terminal with
    | true => rw [State.endOne, held]; dsimp only; rw [if_pos ended]; exact .refl s
    | false =>
      obtain ⟨y, eq, -⟩ := endOne_writes (st := st) held ended
      rw [eq]
      exact (gaveUp_ends s x).trans (setTok_ends ..)

/-- Tokens other than `k` end. -/
def State.EndsBeside (k : Nat) (s t : State) : Prop := s.EndsTokens t ∧ t.tok? k = s.tok? k

theorem State.EndsBeside.refl (k : Nat) (s : State) : s.EndsBeside k s := ⟨.refl s, rfl⟩

theorem State.EndsBeside.trans (first : State.EndsBeside k s t) (second : State.EndsBeside k t u) : State.EndsBeside k s u :=
  ⟨first.1.trans second.1, second.2.trans first.2⟩

theorem foldl_beside {f : State → Nat → State} (l : List Nat) (step : ∀ s, ∀ j ∈ l, State.EndsBeside k s (f s j)) (s : State) :
    State.EndsBeside k s (l.foldl f s) := by
  induction l generalizing s with
  | nil => exact .refl k s
  | cons j l ih => exact (step s j List.mem_cons_self).trans (ih (fun s i listed => step s i (List.mem_cons_of_mem j listed)) _)

theorem setTok_beside (s : State) (x : Token) (other : j ≠ k) : State.EndsBeside k s (s.setTok j x) :=
  ⟨setTok_ends .., Tab.get?_put_ne _ _ _ _ other.symm⟩

theorem endOne_beside (s : State) (st : TokSt) (other : j ≠ k) : State.EndsBeside k s (s.endOne j st) := by
  refine ⟨endOne_ends .., ?_⟩
  cases held : s.tok? j with
  | none => rw [State.endOne, held]
  | some x =>
    cases ended : x.st.terminal with
    | true => rw [State.endOne, held]; dsimp only; rw [if_pos ended]
    | false =>
      obtain ⟨y, eq, -⟩ := endOne_writes (st := st) held ended
      rw [eq, (setTok_beside _ _ other).2, State.tok?, gaveUp_toks]
      rfl

theorem settleSus_beside (s : State) (other : j ≠ k) : State.EndsBeside k s (s.settleSus j) := by
  unfold State.settleSus
  split
  · split
    · exact .refl k s
    · exact setTok_beside s _ other
  · exact .refl k s

/-- R321: the partners of a started collective fault, not the token itself. -/
theorem failMates_beside (s : State) (k : Nat) (x : Token) : State.EndsBeside k s (s.failMates k x) := by
  unfold State.failMates
  split
  · refine foldl_beside _ (fun s j partner => ?_) s
    obtain ⟨e, listed, rfl⟩ := List.mem_map.mp partner
    have other : e.1 ≠ k := by
      have passes := (List.mem_filter.mp listed).2
      simp only [Bool.and_eq_true, bne_iff_ne] at passes
      exact passes.1.1.1
    split
    · exact (setTok_beside s _ other).trans (endOne_beside _ _ other)
    · exact .refl k s
  · exact .refl k s

/-- R310: a cancelled token is no stream that a tile leaves. -/
theorem leaveStream_beside {x : Token} (held : s.tok? k = some x) (cancelled : x.st = .cancelled) (h : Nat) :
    State.EndsBeside k s (s.leaveStream h) := by
  unfold State.leaveStream
  split
  · rename_i y found
    split
    · rename_i runs
      have other : hdlKey h ≠ k := by
        intro same
        rw [same, held] at found
        cases found
        rw [cancelled] at runs
        exact absurd runs.2 (by decide)
      dsimp only
      split
      · exact (setTok_beside s _ other).trans (endOne_beside _ _ other)
      · exact (setTok_beside s _ other).trans (settleSus_beside _ other)
    · exact .refl k s
  · exact .refl k s

theorem leaveStreams_beside {x : Token} (held : s.tok? k = some x) (cancelled : x.st = .cancelled) (y : Token) :
    State.EndsBeside k s (s.leaveStreams y) := by
  unfold State.leaveStreams
  split
  · have first := leaveStream_beside held cancelled y.x[0].toNat
    exact first.trans (leaveStream_beside (first.2.trans held) cancelled _)
  · exact .refl k s

/-- R299, R329: a token that is cancelled before it ends. -/
theorem endTok_cancels {x : Token} (held : s.tok? k = some x) (runs : x.st.terminal = false) :
    ∃ y, (s.endTok k .cancelled).tok? k = some y ∧ y.st = .cancelled ∧ y.hdl = x.hdl ∧ s.EndsTokens (s.endTok k .cancelled) ∧
      (x.startedColl = false → x.maj ≠ 0x10 ∨ (x.st ≠ .running ∧ x.st ≠ .draining) →
        (s.endTok k .cancelled).dir = x.lines.foldl Tab.del s.dir) := by
  obtain ⟨y, ended, cancelled, handle⟩ := endOne_writes (st := .cancelled) held runs
  have own : (s.endOne k .cancelled).tok? k = some y := by rw [ended, tok?_setTok]
  have mates := failMates_beside (s.endOne k .cancelled) k x
  have streams := leaveStreams_beside (mates.2.trans own) cancelled x
  have whole : s.endTok k .cancelled = ((s.endOne k .cancelled).failMates k x).leaveStreams x := by
    rw [State.endTok, held]
    dsimp only
    rw [if_neg (ne_true_of_eq_false runs), if_neg (by decide)]
  rw [whole]
  refine ⟨y, (streams.2.trans mates.2).trans own, cancelled, handle, ((endOne_ends ..).trans mates.1).trans streams.1, fun alone stands => ?_⟩
  have noMates : (s.endOne k .cancelled).failMates k x = s.endOne k .cancelled :=
    if_neg fun collective => absurd (alone.symm.trans collective.2) (by decide)
  have noStreams (t : State) : t.leaveStreams x = t := by
    refine if_neg fun ⟨tile, _, active⟩ => ?_
    rcases stands with other | ⟨idle, undrained⟩
    · exact other tile
    · exact active.elim idle undrained
  rw [noMates, noStreams, ended]
  exact gaveUp_dir s x

end

end Sys2Proof.Machine
end

section
/-! PROOFS. The token control instructions (O40). -/

namespace Sys2Proof.Machine

section
variable {s t : State} {d a b : Spec} {h : Word} {k : Nat} {u : Token}

/-! ### Handles (R294) -/

/-- A handle that passes its checks names the token in its slot. -/
structure State.Names (s : State) (h : Word) (k : Nat) (u : Token) : Prop where
  key : k = hdlKey h.toNat
  held : s.tok? k = some u
  handle : u.hdl = h.toNat
  form : wbits h 0 14 ≠ 0
  own (any : Bool) : s.handle any h = .ok (k, u)

theorem handle_names (ok : s.handle false h = .ok (k, u)) : s.Names h k u := by
  unfold State.handle State.liveTok at ok
  split at ok
  case isTrue => cases ok
  case isFalse formed =>
    split at ok
    case h_2 => cases ok
    case h_1 x held =>
      split at ok
      case isFalse => cases ok
      case isTrue handle =>
        simp only [bind_ok] at ok
        split at ok
        case isTrue => cases ok
        case isFalse own =>
          cases ok
          refine ⟨rfl, held, handle, fun zero => formed (.inr (.inr zero)), fun any => ?_⟩
          have other : (!any && u.launch != s.me.launchNo) = false := by
            simp only [Bool.not_false, Bool.true_and, Bool.not_eq_true] at own
            rw [own, Bool.and_false]
          rw [State.handle, State.liveTok, if_neg formed, held]
          dsimp only
          rw [if_pos handle]
          simp only [bind_ok, other, Bool.false_eq_true, if_false, pure_ok]

theorem State.Names.hdl_ne_zero (names : s.Names h k u) : u.hdl ≠ 0 := by
  intro zero
  have form := names.form
  rw [names.handle] at zero
  rw [wbits, bits, zero] at form
  exact form rfl

theorem State.Names.word_ne_zero (names : s.Names h k u) : h ≠ 0 := by
  intro zero
  have form := names.form
  rw [zero] at form
  exact form rfl

theorem State.Names.of_same {s' : State} (names : s.Names h k u) (toks : s'.toks = s.toks) (launch : s'.me.launchNo = s.me.launchNo) :
    s'.Names h k u where
  key := names.key
  held := by rw [State.tok?, toks]; exact names.held
  handle := names.handle
  form := names.form
  own any := by
    rw [← names.own any]
    unfold State.handle State.liveTok State.tok?
    rw [toks, launch]

theorem speculative_of_unordered (plain : s.me.ordered = false) : s.me.speculative = false := by
  unfold Thread.ordered Thread.entry? at plain
  unfold Thread.speculative
  split
  · rename_i x task
    rw [task] at plain
    rw [show x.entry.isSome = false from plain, Bool.false_and]
  · rfl

/-- Making `lt` stale, and a later result, leave no register less ready than it was (R36, R37). -/
theorem clearWlt_free (free : s.busy d = false) : s.clearWlt.busy d = false := by
  by_cases latch : d = 0
  · subst latch
    unfold State.clearWlt
    split
    · refine List.any_eq_false.mpr fun e listed => ?_
      obtain ⟨x, old, rfl⟩ := List.mem_map.mp listed
      have kept := List.any_eq_false.mp free x old
      by_cases mine : (x.2.place == s.cur) = true
      · rw [if_pos mine]
        dsimp only
        split <;> simp_all
      · rw [if_neg mine]
        exact kept
    · exact free
  · rw [clearWlt_busy s latch, free]

theorem stale_toks : s.stale.toks = s.toks := by rw [stale_rest]
theorem stale_mem : s.stale.mem = s.mem := by rw [stale_rest]

theorem canWrite_free (write : s.canWrite d) (named : d ≠ 1) : s.busy d = false := write.resolve_left named

/-! ### Looking at a token and waiting for it (R192, R325, R326) -/

/-- The context that tests a token, its predicate not yet written. -/
def Thread.looksAt (x : Thread) (u : Token) : Thread := if u.st.terminal then x.hears u.clock else x

theorem looksAt_rest (x : Thread) (u : Token) : x.looksAt u = { x with known := (x.looksAt u).known } := by
  unfold Thread.looksAt
  split <;> rfl

theorem looksAt_known (x : Thread) (ended : u.st.terminal = true) : ∀ e ∈ u.clock, e.2 ≤ Tab.getD (x.looksAt u).known e.1 0 := by
  rw [Thread.looksAt, if_pos ended]
  exact (getD_join ..).2

theorem tokTest_runs {p : PredNo} (names : s.Names (s.val64 a) k u) (readA : s.canRead a) (write : s.canWrite d) :
    ∃ t, exec (.tokTest d a p) s = .next t ∧ (s.setMe ((s.me.looksAt u).setPred p u.st.terminal)).Wrote t 4 d (scalar (u.word 0)) := by
  simp only [exec_tokTest, execTokTest, read64_ok s a readA, names.own, bind_ok]
  exact put_settles s write

theorem tokLook_terminal (names : s.Names h k u) (ended : u.st.terminal = true) :
    s.tokLook u.hdl = some (u.word 0, s.setMe (s.me.hears u.clock)) := by
  rw [State.tokLook, names.handle, ← names.key, names.held]
  exact if_pos ⟨names.handle, ended⟩

theorem tokLook_running (names : s.Names h k u) (runs : u.st.terminal = false) : s.tokLook u.hdl = none := by
  rw [State.tokLook, names.handle, ← names.key, names.held]
  exact if_neg fun ended => absurd (runs.symm.trans ended.2) (by decide)

/-- The state in which `tok.wait` looks at its token: `lt` is stale and the region has ended. -/
def State.closed (s : State) : State := s.stale.endRegion s.cur

/-- How `tok.wait` goes on after its look. -/
def State.awaits (s : State) (u : Token) (d : Spec) : Res :=
  match s.tokLook u.hdl with
  | some (w, s) => s.put 4 d (scalar w)
  | none => pure (s.block (.tok u.hdl d))

theorem tokWait_looks (names : s.Names (s.val64 a) k u) (readA : s.canRead a) (write : s.canWrite d) (named : d ≠ 1)
    (plain : s.me.ordered = false) (free : s.me.preempted = false) (performed : s.anyAcc (fun _ => true) = false)
    (stored : s.me.failed = none) :
    exec (.tokWait d a) s = settle s (s.closed.awaits u d) := by
  have stale : s.stale.Names (s.val64 a) k u := names.of_same stale_toks (by rw [stale_me]; rfl)
  have ready : s.stale.free1 d = .ok () := free1_ok (clearWlt_free (canWrite_free write named))
  have unordered : s.stale.me.ordered = false := by rw [stale_me]; exact plain
  have ended : s.stale.regionEnd = .ok s.closed := by
    have quiet : s.stale.anyAcc (fun _ => true) = false := (clearWlt_anyAcc _).trans performed
    rw [regionEnd_ok quiet (by rw [stale_me]; exact stored), stale_cur]
    rfl
  simp only [exec_tokWait, execTokWait, blocking_ok free, read64_ok s a readA, bind_ok, if_neg (not_and_of_not_left _ names.word_ne_zero),
    stale.own, pure_ok, unordered, Bool.false_eq_true, if_false, ready, ended, if_neg names.hdl_ne_zero]
  rfl

theorem closed_me : s.closed.me = { s.me with ltStale := true, region := s.me.region + 1 } := by
  rw [State.closed, ← stale_cur s, endRegion_me, stale_me]

theorem closed_toks : s.closed.toks = s.toks := by
  rw [State.closed, endRegion_rest]
  exact stale_toks

theorem closed_mem : s.closed.mem = s.mem := (endRegion_mem ..).trans stale_mem

theorem closed_names (names : s.Names h k u) : s.closed.Names h k u := names.of_same closed_toks (by rw [closed_me]; rfl)

/-! ### Control by the holder (R327 to R331) -/

/-- What a token gets to wait for (R328). -/
def Token.addedDep (u : Token) (dep : Word) : Token := if dep = 0 then u else { u with deps := u.deps ++ [dep.toNat] }

theorem toNat_eq_zero {w : Word} : w.toNat = 0 ↔ w = 0 := ⟨fun zero => BitVec.eq_of_toNat_eq zero, fun zero => by rw [zero]; rfl⟩

theorem addDep_writes (held : s.tok? k = some u) (issued : u.st = .issued) (settled : u.defer = none) (dep : Word) :
    s.addDep k dep.toNat false = s.setTok k (u.addedDep dep) ∧
      s.addDep k dep.toNat true = s.setTok k { u.addedDep dep with st := .waiting, gate := false } := by
  have kept : (u.addedDep dep).st = .issued ∧ (u.addedDep dep).defer = none := by
    unfold Token.addedDep
    split
    · exact ⟨issued, settled⟩
    · exact ⟨issued, settled⟩
  have added : (if dep.toNat = 0 then u else { u with deps := u.deps ++ [dep.toNat] }) = u.addedDep dep := by
    simp only [toNat_eq_zero, Token.addedDep]
  rw [State.addDep, State.addDep, held]
  dsimp only
  rw [added, kept.1, kept.2, if_neg (by simp), if_pos ⟨rfl, rfl⟩]
  exact ⟨rfl, rfl⟩

/-- R328: a dependence on a token of the launch, or on none, passes its checks. -/
theorem tokDep_runs (names : s.Names (s.val64 a) k u) (readA : s.canRead a) (readB : s.canRead b) (plain : s.me.ordered = false)
    (own : s.holds u = true) (issued : u.st = .issued) (gated : u.gate = true) (room : u.deps.length < 4) (go : Bool)
    (other : s.val64 b = 0 ∨ ∃ r, s.handle false (s.val64 b) = .ok r) :
    settle s (s.tokDep a b go) = .next ((s.addDep k (s.val64 b).toNat go).fin 4) := by
  have may : (!s.holds u || u.st != .issued || !u.gate || (s.val64 b != 0 && decide (4 ≤ u.deps.length))) = false := by
    rw [own, issued, gated, decide_eq_false (Nat.not_le.mpr room), Bool.and_false]
    rfl
  have ordinary := speculative_of_unordered plain
  unfold State.val64 at may other names ⊢
  rcases other with none | ⟨⟨j, v⟩, other⟩
  · simp only [State.tokDep, read2_ok s a b readA readB, bind_ok, names.own, if_pos none, pure_ok, may, ordinary, Bool.false_eq_true,
      if_false, settle_ok]
  · by_cases none : lo64 (s.regVal b) = 0
    · simp only [State.tokDep, read2_ok s a b readA readB, bind_ok, names.own, if_pos none, pure_ok, may, ordinary, Bool.false_eq_true,
        if_false, settle_ok]
    · simp only [State.tokDep, read2_ok s a b readA readB, bind_ok, names.own, if_neg none, other, pure_ok, may, ordinary,
        Bool.false_eq_true, if_false, settle_ok]

/-- The state in which a `tok.can` completes (R329). -/
def State.tokCancelled (s : State) (k : Nat) (u : Token) : State :=
  match u.st with
  | .done | .cancelled => s
  | .faulted => s.setTok k { u with st := .cancelled, ack := true, mask := [] }
  | .suspended => (s.setTok k { u with ack := u.ack || u.susFault, mask := [] }).endTok k .cancelled
  | _ => s.endTok k .cancelled

theorem tokCan_ends (names : s.Names (s.val64 a) k u) (readA : s.canRead a) (own : s.holds u = true) :
    exec (.tokCan a) s = .next ((s.tokCancelled k u).fin 4) := by
  simp only [exec_tokCan, execTokCan, read64_ok s a readA, names.own, bind_ok, own, Bool.not_true, Bool.false_eq_true, if_false, pure_ok,
    settle_ok]
  rfl

/-- What a cancelled token and the rest of the machine are like (R299, R329). -/
structure State.Cancels (s t : State) (k : Nat) (u v : Token) : Prop where
  held : t.tok? k = some v
  cancelled : v.st = .cancelled
  handle : v.hdl = u.hdl
  ends : s.EndsTokens t
  lines : u.st ≠ .faulted → u.startedColl = false → u.maj ≠ 0x10 ∨ (u.st ≠ .running ∧ u.st ≠ .draining) →
    t.dir = u.lines.foldl Tab.del s.dir

theorem endTok_cancels_running (held : s.tok? k = some u) (runs : u.st.terminal = false) :
    ∃ v, s.Cancels (s.endTok k .cancelled) k u v := by
  obtain ⟨v, own, cancelled, handle, ends, lines⟩ := endTok_cancels held runs
  exact ⟨v, own, cancelled, handle, ends, fun _ => lines⟩

theorem terminal_false {st : TokSt} (undone : st ≠ .done) (sound : st ≠ .faulted) (live : st ≠ .cancelled) : st.terminal = false := by
  cases st <;> trivial

theorem tokCancelled_cancels (held : s.tok? k = some u) (undone : u.st ≠ .done) (live : u.st ≠ .cancelled) :
    ∃ v, s.Cancels (s.tokCancelled k u) k u v := by
  unfold State.tokCancelled
  split
  case h_1 st => exact absurd st undone
  case h_2 st => exact absurd st live
  case h_3 st => exact ⟨_, tok?_setTok .., rfl, rfl, setTok_ends .., fun sound => absurd st sound⟩
  case h_4 st =>
    obtain ⟨v, held, cancelled, handle, ends, lines⟩ := endTok_cancels_running
      (tok?_setTok s k { u with ack := u.ack || u.susFault, mask := [] }) (show TokSt.terminal u.st = false by rw [st]; rfl)
    exact ⟨v, held, cancelled, handle, (setTok_ends ..).trans ends, lines⟩
  case h_5 _ _ unfaulted _ => exact endTok_cancels_running held (terminal_false undone unfaulted live)

/-- The state of R319 in which a faulted token restarts: an attached one counts again. -/
def State.recounted (s : State) (u : Token) : State := if u.hold == 0 && u.st == .faulted then s.setMe (s.me.count u.maj) else s

theorem recounted_state (s : State) (u : Token) : (s.recounted u).me.pc = s.me.pc ∧ (s.recounted u).mem = s.mem := by
  unfold State.recounted
  split
  · rw [me_setMe, count_pc]
    exact ⟨rfl, rfl⟩
  · exact ⟨rfl, rfl⟩

theorem tokCanR_restarts (names : s.Names (s.val64 a) k u) (readA : s.canRead a) (own : s.holds u = true) (faulted : u.st = .faulted)
    (again : u.copy = true ∨ (u.maj = 0x14 ∧ u.fn ≤ 1)) (room : s.me.countFull u.maj = false) :
    exec (.tokCanR a) s = .next (((s.recounted u).setTok k { u.restart with ack := true }).fin 4) := by
  have may : ((u.st == .faulted && (u.copy || (u.maj == 0x14 && decide (u.fn ≤ 1)))) || (u.st == .suspended && u.susFault)) = true := by
    rw [faulted]
    rcases again with copy | ⟨rows, moves⟩
    · rw [copy]; rfl
    · rw [rows, decide_eq_true moves]; simp
  simp only [exec_tokCanR, execTokCanR, read64_ok s a readA, names.own, bind_ok, own, may, room, Bool.and_false, Bool.not_true, Bool.or_false,
    Bool.false_eq_true, if_false, pure_ok, settle_ok]
  rfl

theorem sat8_succ (n : Nat) : satAt 255 (n + 1) = if n + 1 ≤ 255 then n + 1 else 255 := by
  unfold satAt
  split <;> split <;> omega

/-! ### Reading a token out (R307, R331) -/

/-- The four registers that receive a record. -/
structure Thread.TookRecord (x : Thread) (d : Spec) (u : Token) : Prop where
  first : x.regs[d] = mkReg (u.word 0) (u.word 1)
  second : x.regs[specPlus d 1] = mkReg (u.word 2) (u.word 3)
  third : x.regs[specPlus d 2] = mkReg (u.word 4) (u.word 5)
  fourth : x.regs[specPlus d 3] = mkReg (u.word 6) (u.word 7)

theorem takeRecord_takes (x : Thread) (lo : 16 ≤ d.val) (hi : d.val ≤ 60) : (x.takeRecord d u.word).TookRecord d u := by
  have named := ne_one_of_le lo
  have one := specPlus_val (n := 1) named (by omega)
  have two := specPlus_val (n := 2) named (by omega)
  have three := specPlus_val (n := 3) named (by omega)
  have regs : (x.takeRecord d u.word).regs = ((((x.regs.set (specPlus d 1) (mkReg (u.word 2) (u.word 3))).set (specPlus d 2)
      (mkReg (u.word 4) (u.word 5))).set (specPlus d 3) (mkReg (u.word 6) (u.word 7))).set d (mkReg (u.word 0) (u.word 1))).set 0
      (mkReg (u.word 0) (u.word 1)) := by
    rw [Thread.takeRecord, Thread.result, if_neg named]
  have unlatched : 0 ≠ d.val := by omega
  constructor
  all_goals
    rw [regs]
    simp [one, two, three, unlatched]

theorem takeRecord_blk (x : Thread) (w : Nat → Word) : (x.takeRecord d w).blk = x.blk := by
  unfold Thread.takeRecord Thread.result
  dsimp only
  split <;> rfl

theorem takeRecord_pc (x : Thread) (w : Nat → Word) : (x.takeRecord d w).pc = x.pc := by
  unfold Thread.takeRecord Thread.result
  dsimp only
  split <;> rfl

/-- The state in which a record has been written to the registers. -/
def State.tookRecord (s : State) (d : Spec) (u : Token) : State := (s.setMe (s.me.takeRecord d u.word)).clearWlt

theorem tookRecord_me : (s.tookRecord d u).me = s.me.takeRecord d u.word :=
  (me_eq _ _ (clearWlt_threads _) (clearWlt_cur _)).trans (me_setMe ..)

theorem tookRecord_rest : s.tookRecord d u = { s with threads := (s.tookRecord d u).threads, acc := (s.tookRecord d u).acc } := by
  unfold State.tookRecord
  rw [clearWlt_rest]
  rfl

theorem tookRecord_toks : (s.tookRecord d u).toks = s.toks := by rw [tookRecord_rest]
theorem tookRecord_mem : (s.tookRecord d u).mem = s.mem := by rw [tookRecord_rest]

section
variable (names : s.Names (s.val64 a) k u) (readA : s.canRead a) (first : s.busy d = false) (second : s.busy (specPlus d 1) = false)
  (third : s.busy (specPlus d 2) = false) (fourth : s.busy (specPlus d 3) = false)
include names readA first second third fourth

theorem tokRec_reads : exec (.tokRec d a false) s = .next ((s.tookRecord d u).fin 4) := by
  simp only [exec_tokRec, execTokRec, read64_ok s a readA, names.own, bind_ok, free3_ok first second third, fourth, Bool.false_and,
    Bool.false_eq_true, if_false, pure_ok, settle_ok]
  rfl

theorem tokRec_frees (ended : u.st.terminal = true) (own : s.holds u = true) (posted : u.posted = true) :
    exec (.tokRec d a true) s = .next (((s.tookRecord d u).freeTok k).fin 4) := by
  simp only [exec_tokRec, execTokRec, read64_ok s a readA, names.own, bind_ok, free3_ok first second third, fourth, ended, own, posted,
    Bool.and_self, Bool.not_true, Bool.and_false, Bool.false_eq_true, if_false, if_true, pure_ok, settle_ok]
  rfl

end

/-! ### A slot that is freed (R307) -/

/-- A context that waits for no token is not woken. -/
theorem wakeTok_me (s : State) (u : Token) (awake : s.me.blk = none) : (s.wakeTok u).me = s.me := by
  unfold State.wakeTok
  dsimp only
  split
  · rcases thread_mapV_or_idle s _ s.cur with own | ⟨idle, before⟩
    · refine own.trans ?_
      rw [← State.me, awake]
    · exact idle.trans before.symm
  · rfl

theorem wakeTok_rest (s : State) (u : Token) : s.wakeTok u = { s with threads := (s.wakeTok u).threads } := by
  unfold State.wakeTok
  dsimp only
  split <;> rfl

/-- Tokens that wait for a freed one that was not Done remember it (R299). -/
def Token.remembers (u v : Token) : Token :=
  if u.st ≠ .done ∧ v.deps.contains u.hdl = true ∧ v.lost = none then { v with lost := some u.hdl } else v

theorem freeTok_state (held : s.tok? k = some u) (awake : s.me.blk = none) :
    (s.freeTok k).toks = Tab.mapV (fun _ v => u.remembers v) (Tab.del s.toks k) ∧ (s.freeTok k).me = s.me ∧ (s.freeTok k).mem = s.mem := by
  have woken := wakeTok_rest s u
  have released := releaseLines_rest (s.wakeTok u) u.lines
  have toks : ((s.wakeTok u).releaseLines u.lines).toks = s.toks := by rw [released, woken]
  have mem : ((s.wakeTok u).releaseLines u.lines).mem = s.mem := by rw [released, woken]
  have me : ((s.wakeTok u).releaseLines u.lines).me = s.me := by
    rw [released]
    exact wakeTok_me s u awake
  rw [State.freeTok, held]
  refine ⟨?_, me, mem⟩
  dsimp only [State.setClu]
  rw [toks]
  rfl

/-! ### The obligation's parts -/

theorem pred_setPred_ne (x : Thread) {p r : PredNo} (v : Bool) (other : r ≠ p) : (x.setPred p v).pred r = x.pred r := by
  have kept := (putPred_wrote (State.reset.setMe x) 4 p v).preds r other
  rw [State.putPred, fin_me, me_setMe, me_setMe] at kept
  exact kept

theorem setPred_known (x : Thread) (p : PredNo) (v : Bool) : (x.setPred p v).known = x.known := by
  unfold Thread.setPred
  split <;> rfl

section
variable (names : s.Names (s.val64 a) k u) (readA : s.canRead a)
include names readA

theorem tokTest_effect {p : PredNo} (write : s.canWrite d) (named : d ≠ 1) :
    ∃ t, exec (.tokTest d a p) s = .next t ∧ t.me.regs[d] = scalar (u.word 0) ∧ (p ≠ 0 → t.me.pred p = u.st.terminal) ∧
      (∀ r : PredNo, r ≠ p → t.me.pred r = s.me.pred r) ∧ t.me.pc = s.me.pc + 4 ∧ t.toks = s.toks ∧ t.mem = s.mem ∧
      (u.st.terminal = true → ∀ e ∈ u.clock, e.2 ≤ Tab.getD t.me.known e.1 0) := by
  obtain ⟨t, runs, wrote⟩ := tokTest_runs (p := p) names readA write
  refine ⟨t, runs, wrote.dest named, fun written => ?_, fun r other => ?_, ?_, by rw [wrote.only.rest]; rfl, wrote.mem, fun ended => ?_⟩
  · rw [wrote.pred, me_setMe, pred_setPred _ _ written]
  · rw [wrote.pred, me_setMe, pred_setPred_ne _ _ other, looksAt_rest]
    rfl
  · rw [wrote.pc, me_setMe, Thread.setPred_pc, looksAt_rest]
    rfl
  · rw [congrArg Thread.known wrote.me, me_setMe, setPred_known]
    exact looksAt_known s.me ended

section
variable (write : s.canWrite d) (named : d ≠ 1) (plain : s.me.ordered = false) (free : s.me.preempted = false)
  (performed : s.anyAcc (fun _ => true) = false) (stored : s.me.failed = none)
include write named plain free performed stored

theorem tokWait_completes (ended : u.st.terminal = true) : ∃ t, exec (.tokWait d a) s = .next t ∧ t.me.regs[d] = scalar (u.word 0) ∧
    t.me.pc = s.me.pc + 4 ∧ t.toks = s.toks ∧ t.mem = s.mem := by
  have looked := tokLook_terminal (closed_names names) ended
  have dest : s.closed.canWrite d := canWrite_endRegion (s := s.stale) (.inr (clearWlt_free (canWrite_free write named)))
  obtain ⟨t, runs, wrote⟩ := put_settles (s := s.closed.setMe (s.closed.me.hears u.clock)) s (len := 4) (v := scalar (u.word 0)) dest
  refine ⟨t, ?_, wrote.dest named, ?_, ?_, wrote.mem.trans closed_mem⟩
  · rw [tokWait_looks names readA write named plain free performed stored, State.awaits, looked]
    exact runs
  · rw [wrote.pc, me_setMe, closed_me]
    rfl
  · rw [wrote.only.rest]
    exact closed_toks

theorem tokWait_blocks (runs : u.st.terminal = false) (ready : s.me.state = .ready) : ∃ t, exec (.tokWait d a) s = .next t ∧
    t.me.state = .blocked ∧ t.me.blk = some (.tok u.hdl d) ∧ t.me.ltStale = true ∧ t.me.pc = s.me.pc ∧ t.toks = s.toks ∧ t.mem = s.mem := by
  refine ⟨s.closed.block (.tok u.hdl d), ?_, ?_, ?_, ?_, ?_, closed_toks, closed_mem⟩
  · rw [tokWait_looks names readA write named plain free performed stored, State.awaits, tokLook_running (closed_names names) runs]
    rfl
  · rw [block_me]
    exact become_state (by rw [closed_me]; exact ready)
  · rw [block_me]
  · rw [block_me, closed_me]
    unfold Thread.become
    split <;> rfl
  · rw [block_me, closed_me]
    unfold Thread.become
    split <;> rfl

end

theorem tokDet_detaches (plain : s.me.ordered = false) (own : s.holds u = true) (attached : u.hold = 0) :
    ∃ t, exec (.tokDet a) s = .next t ∧ t.tok? k = some { u with hold := 1 } ∧ t.me.pc = s.me.pc + 4 ∧ t.me.regs = s.me.regs ∧
      t.mem = s.mem := by
  have runs : exec (.tokDet a) s = .next
      (((if u.st.terminal then s else s.setMe (s.me.uncount u.maj)).setTok k { u with hold := 1 }).fin 4) := by
    simp only [exec_tokDet, execTokDet, read64_ok s a readA, names.own, bind_ok, own, attached, plain, beq_self_eq_true, Bool.and_self,
      Bool.not_true, Bool.false_eq_true, if_false, pure_ok, settle_ok]
  have uncounted : s.EndsTokens (if u.st.terminal then s else s.setMe (s.me.uncount u.maj)) := by
    split
    · exact .refl s
    · exact setThread_ends (uncount_pc ..) (uncount_regs ..)
  have ends := uncounted.trans (setTok_ends _ k { u with hold := 1 })
  refine ⟨_, runs, tok?_setTok .., ?_, ?_, ends.mem⟩
  · rw [fin_me]
    exact congrArg (· + 4) ends.me_pc
  · rw [fin_me]
    exact ends.me_regs

theorem tokAdop_adopts (plain : s.me.ordered = false) (orphan : u.hold = 2) (group : u.grp = s.me.grp) :
    exec (.tokAdop a) s = .next ((s.setTok k { u with hold := 3, holder := some s.cur, ts := 0 }).fin 4) := by
  simp only [exec_tokAdop, execTokAdop, read64_ok s a readA, names.own, bind_ok, if_neg (not_and_of_not_right _ (not_not.mpr group)),
    if_neg (not_not.mpr orphan), plain, Bool.false_eq_true, if_false, pure_ok, settle_ok]

/-- R327, R329, R330: who does not hold a token does not control it. -/
theorem tok_refused (readB : s.canRead b) (foreign : s.holds u = false) :
    ∀ q ∈ ([.tokDet a, .tokCan a, .tokCanR a, .tokPri a b, .tokPost a b] : List Instr),
      exec q s = .next (s.takeFault { code := 0x004B, syn := BitVec.ofNat 64 u.hdl }) := by
  have pair := read2_ok s a b readA readB
  have own : s.handle false (lo64 (s.regVal a)) = .ok (k, u) := names.own false
  simp only [List.forall_mem_cons]
  refine ⟨?_, ?_, ?_, ?_, ?_, List.forall_mem_nil _⟩
  · simp only [exec_tokDet, execTokDet, read64_ok s a readA, names.own, bind_ok, foreign]
    rfl
  · simp only [exec_tokCan, execTokCan, read64_ok s a readA, names.own, bind_ok, foreign]
    rfl
  · simp only [exec_tokCanR, execTokCanR, read64_ok s a readA, names.own, bind_ok, foreign]
    rfl
  · simp only [exec_tokPri, execTokPri, pair, own, bind_ok, foreign]
    rfl
  · simp only [exec_tokPost, execTokPost, pair, own, bind_ok, foreign]
    rfl

theorem tokPri_sets (readB : s.canRead b) (own : s.holds u = true) (small : (s.val64 b).toNat < 8) :
    exec (.tokPri a b) s = .next ((s.setTok k { u with pri := (s.val64 b).toNat }).fin 4) := by
  have fits : descr ((s.val64 b).toNat / 8 != 0) (s.val64 b) 4 = .ok () := by
    rw [Nat.div_eq_of_lt small]
    rfl
  have handle := names.own false
  unfold State.val64 at fits handle ⊢
  simp only [exec_tokPri, execTokPri, read2_ok s a b readA readB, handle, bind_ok, own, fits, Bool.not_true, Bool.false_eq_true, if_false,
    pure_ok, settle_ok]

theorem tokPost_sets (readB : s.canRead b) (own : s.holds u = true) (small : (s.val64 b).toNat < 5)
    (target : targetCheck (s.val64 b).toNat (hi64 (s.regVal b)) = .ok ())
    (wake : s.wakeCheck (s.val64 b).toNat (hi64 (s.regVal b)) = .ok ())
    (base : (s.val64 b).toNat = 4 → s.baseCheck .write (hi64 (s.regVal b)) = .ok ()) (runs : u.st.terminal = false)
    (goes : u.st ≠ .suspended) :
    exec (.tokPost a b) s = .next ((s.setTok k { u with ntc := (s.val64 b).toNat, target := hi64 (s.regVal b) }).fin 4) := by
  have fits : descr (decide (5 ≤ (s.val64 b).toNat)) (s.val64 b) 4 = .ok () := by
    rw [decide_eq_false (Nat.not_le.mpr small)]
    rfl
  have handle := names.own false
  have stays : (u.st == TokSt.suspended) = false := beq_false_of_ne goes
  unfold State.val64 at fits handle target wake base ⊢
  by_cases record : (lo64 (s.regVal b)).toNat = 4
  · simp only [exec_tokPost, execTokPost, read2_ok s a b readA readB, handle, bind_ok, own, fits, target, wake, if_pos record, base record,
      Bool.not_true, Bool.false_eq_true, if_false, runs, stays, Bool.false_and, Bool.or_self, pure_ok, settle_ok]
  · simp only [exec_tokPost, execTokPost, read2_ok s a b readA readB, handle, bind_ok, own, fits, target, wake, if_neg record,
      Bool.not_true, Bool.false_eq_true, if_false, runs, stays, Bool.false_and, Bool.or_self, pure_ok, settle_ok]

theorem tokCan_again (own : s.holds u = true) (ended : u.st = .done ∨ u.st = .cancelled) : exec (.tokCan a) s = .next (s.fin 4) := by
  have kept : s.tokCancelled k u = s := by
    unfold State.tokCancelled
    rcases ended with done | cancelled
    · rw [done]
    · rw [cancelled]
  rw [tokCan_ends names readA own, kept]

end

end

/-- Settles O40: a handle names one token; control writes that token, and the tokens that end with a cancelled one are others. -/
theorem tokensSeenAndControlled : Obligations.TokensSeenAndControlled := by
  constructor
  · intro s d a b p k u readA readB write named handle plain
    have names := handle_names handle
    exact ⟨tokTest_effect names readA write named, fun free performed stored =>
        ⟨tokWait_completes names readA write named plain free performed stored,
          tokWait_blocks names readA write named plain free performed stored⟩,
      tokDet_detaches names readA plain, tokAdop_adopts names readA plain, tokPri_sets names readA readB, tokPost_sets names readA readB,
      tok_refused names readA readB⟩
  · intro s d a b k u readA readB handle plain own
    have names := handle_names handle
    refine ⟨fun issued gated settled room => ⟨fun named other => ⟨?dep, ?go⟩, fun none => ?released⟩, tokCan_again names readA own,
      fun undone live => ?cancel, fun faulted again room => ?restart, fun lo hi first second third fourth =>
        ⟨?reads, fun ended posted awake => ?frees⟩⟩
    case dep =>
      have runs := tokDep_runs names readA readB plain own issued gated room false (.inr other)
      rw [(addDep_writes names.held issued settled _).1, Token.addedDep, if_neg named] at runs
      exact runs
    case go =>
      have runs := tokDep_runs names readA readB plain own issued gated room true (.inr other)
      rw [(addDep_writes names.held issued settled _).2, Token.addedDep, if_neg named] at runs
      exact runs
    case released =>
      have runs := tokDep_runs names readA readB plain own issued gated room true (.inl none)
      rw [(addDep_writes names.held issued settled _).2, Token.addedDep, if_pos none] at runs
      exact runs
    case cancel =>
      obtain ⟨v, held, cancelled, handle, ends, lines⟩ := tokCancelled_cancels names.held undone live
      refine ⟨_, v, tokCan_ends names readA own, held, cancelled, handle, ?_, ?_, ends.mem, lines⟩
      · rw [fin_me]
        exact congrArg (· + 4) ends.me_pc
      · rw [fin_me]
        exact ends.me_regs
    case restart =>
      obtain ⟨pc, mem⟩ := recounted_state s u
      refine ⟨_, _, tokCanR_restarts names readA own faulted again room, tok?_setTok .., rfl, rfl, rfl, sat8_succ _, rfl, ?_, mem⟩
      rw [fin_me]
      exact congrArg (· + 4) pc
    case reads =>
      obtain ⟨one, two, three, four⟩ := takeRecord_takes (u := u) s.me lo hi
      have me : ((s.tookRecord d u).fin 4).me = (s.me.takeRecord d u.word).fin 4 := by rw [fin_me, tookRecord_me]
      refine ⟨_, tokRec_reads names readA first second third fourth, ?_, ?_, ?_, ?_, ?_, ?_, ?_⟩
      · rw [me]; exact one
      · rw [me]; exact two
      · rw [me]; exact three
      · rw [me]; exact four
      · rw [me]; exact congrArg (· + 4) (takeRecord_pc ..)
      · exact tookRecord_toks
      · exact tookRecord_mem
    case frees =>
      have held : (s.tookRecord d u).tok? k = some u := by
        rw [State.tok?, tookRecord_toks]
        exact names.held
      have waits : (s.tookRecord d u).me.blk = none := by
        rw [tookRecord_me, takeRecord_blk]
        exact awake
      obtain ⟨toks, same, mem⟩ := freeTok_state held waits
      have me : (((s.tookRecord d u).freeTok k).fin 4).me = (s.me.takeRecord d u.word).fin 4 := by rw [fin_me, same, tookRecord_me]
      refine ⟨_, tokRec_frees names readA first second third fourth ended own posted, ?_, ?_, ?_, ?_⟩
      · refine toks.trans ?_
        rw [tookRecord_toks]
        rfl
      · rw [me]; exact (takeRecord_takes s.me lo hi).first
      · rw [me]; exact congrArg (· + 4) (takeRecord_pc ..)
      · exact mem.trans tookRecord_mem

end Sys2Proof.Machine
end

section
/-! PROOFS. What the slots of a die do for a queue: reading its ring, starting and retiring packets (R379 to R383). -/

namespace Sys2Proof.Machine

section
variable {s t u : State} {k i : Nat} {q : Queue} {w : Vector Word 8}

/-! ### What the steps of a queue leave -/

/-- Besides what a store changes, only the queues have changed. -/
def State.SameButSlots (s t : State) : Prop :=
  t = { s with queues := t.queues, mem := t.mem, copies := t.copies, gran := t.gran, dir := t.dir, rels := t.rels,
               hub := { s.hub with errCorr := t.hub.errCorr, errUncorr := t.hub.errUncorr, sigLost := t.hub.sigLost } }

theorem State.SameButSlots.refl (s : State) : s.SameButSlots s := rfl

theorem State.SameButSlots.trans (first : s.SameButSlots t) (second : t.SameButSlots u) : s.SameButSlots u := by
  unfold State.SameButSlots at *
  rw [second, first]

theorem State.SameButStore.slots (kept : s.SameButStore t) : s.SameButSlots t := by
  rw [show t = _ from kept]
  rfl

theorem State.PutsQueue.slots (puts : s.PutsQueue k q t) : s.SameButSlots t := by
  rw [puts.rest]
  rfl

theorem State.SameButStore.queue? (kept : s.SameButStore t) (k : Nat) : t.queue? k = s.queue? k := by
  rw [show t = _ from kept]
  rfl

namespace State.SameButSlots

variable (kept : s.SameButSlots t)
include kept

theorem vendorRuns (d : Nat) : t.vendorRuns d = s.vendorRuns d := by rw [show t = _ from kept]; rfl
theorem nextId : t.nextId = s.nextId := by rw [show t = _ from kept]
theorem subs : t.subs = s.subs := by rw [show t = _ from kept]
theorem clu (cl : Nat) : t.clu cl = s.clu cl := by rw [show t = _ from kept]; rfl
theorem group? (l g : Nat) : t.group? l g = s.group? l g := by rw [show t = _ from kept]; rfl
theorem ringGroup (q : Queue) (g : Nat) : t.ringGroup q g = s.ringGroup q g := by rw [show t = _ from kept]; rfl

theorem ancestors (l n g : Nat) : t.ancestors l n g = s.ancestors l n g := by
  induction n generalizing g with
  | zero => rfl
  | succ n ih =>
    rw [State.ancestors, State.ancestors, kept.group?]
    cases s.group? l g with
    | none => rfl
    | some b => dsimp only; rw [ih]

theorem under (l a n g : Nat) : t.under l a g n = s.under l a g n := by
  induction n generalizing g with
  | zero => rfl
  | succ n ih =>
    rw [State.under, State.under, kept.group?]
    cases s.group? l g with
    | none => rfl
    | some b => dsimp only; rw [ih]

theorem liveCount (l g : Nat) : t.liveCount l g = s.liveCount l g := by
  have same : t.inSubtree l g = s.inSubtree l g := funext fun a => kept.under l g 4096 a
  have waiting : t.waitingGroups l = s.waitingGroups l := by rw [show t = _ from kept]; rfl
  have running : t.runningGroups l = s.runningGroups l := by rw [show t = _ from kept]; rfl
  rw [State.liveCount, State.liveCount, same, waiting, running]

theorem tasksFull (l : Option Nat) (g : Nat) : t.tasksFull l g = s.tasksFull l g := by
  cases l with
  | none => rfl
  | some l => simp only [State.tasksFull, kept.ancestors, kept.group?, kept.liveCount]

end State.SameButSlots

theorem schedule_off (off : s.vendorRuns i = false) : s.schedule i = s := if_neg (ne_true_of_eq_false off)

/-! ### Reading the ring (R211, R379) -/

theorem ringTouch_store (s : State) (q : Queue) (i : Nat) : s.SameButStore (s.ringTouch q i) := by
  unfold State.ringTouch
  split
  · exact ite_store ((dropCopy_store ..).trans (dropCopy_store ..)) (checkGran_store (Reader.ofDispatch_device q.die) ..)
  · exact .refl s

theorem queueHears_state (found : s.queue? k = some q) (loc : Nat) :
    ∃ c, (s.queueHears k loc).queue? k = some { q with clock := c } ∧ s.SameButSlots (s.queueHears k loc) := by
  rw [State.queueHears, found]
  exact ⟨_, Tab.get?_put_self .., rfl⟩

/-- A slot that reads a header changes the queue's clock alone. -/
theorem readHeader_state (found : s.queue? k = some q) (i : Nat) :
    ∃ c, (s.readHeader k q i).queue? k = some { q with clock := c } ∧ s.SameButSlots (s.readHeader k q i) := by
  unfold State.readHeader
  split
  · rename_i loc _
    have touched := ringTouch_store s q i
    obtain ⟨c, heard, kept⟩ := queueHears_state ((touched.queue? k).trans found) loc
    exact ⟨c, heard, touched.slots.trans kept⟩
  · exact ⟨q.clock, found, .refl s⟩

/-! ### Packets that retire (R379, R380) -/

/-- The state in which the header of a ring entry has become not ready. -/
def State.entryDone (s : State) (q : Queue) (i : Nat) : State :=
  match s.entryAt q .write i with
  | .ok loc => { s.ringTouch q i with mem := memPutN (s.ringTouch q i).mem loc (leBytes 8 0xF000000000000000) }
  | .error _ => s

theorem entryDone_store (s : State) (q : Queue) (i : Nat) : s.SameButStore (s.entryDone q i) := by
  unfold State.entryDone
  split
  · exact (ringTouch_store s q i).trans rfl
  · exact .refl s

/-- The queue whose oldest packet, its only one, has retired. -/
def Queue.retired (q : Queue) (skip : Bool) : Queue :=
  { q with started := [], ri := q.ri + 1, nret := if skip then q.nret else q.nret + 1 }

section
variable (found : s.queue? k = some q) (stays : q.leaving = false)
include found stays

theorem leaveCheck_present : s.leaveCheck k = s := by
  rw [State.leaveCheck, found]
  dsimp only
  rw [if_neg (by rw [stays]; simp)]

variable (off : s.vendorRuns q.die = false)
include off

theorem retireAll_none (empty : q.started = []) : s.retireAll k = s := by
  rw [State.retireAll, found]
  dsimp only
  rw [empty]
  change ((s.leaveCheck k).schedule q.die) = s
  rw [leaveCheck_present found stays, schedule_off off]

variable {p : Pkt} (one : q.started = [p])
include one

theorem retireAll_waits (held : p.completed = false ∨ s.ringHeld q .write p.idx = true) : s.retireAll k = s := by
  have waits : s.retirePkts k 1 = s := by
    rw [State.retirePkts, found]
    dsimp only
    rw [one]
    dsimp only
    rw [if_pos (by rcases held with runs | held
                   · rw [runs]; rfl
                   · rw [held, Bool.or_true])]
  rw [State.retireAll, found]
  dsimp only
  rw [one]
  change (((s.retirePkts k 1).leaveCheck k).schedule q.die) = s
  rw [waits, leaveCheck_present found stays, schedule_off off]

/-- A packet that has completed retires, unless its ring entry is held (R162). -/
theorem retireAll_one (done : p.completed = true) :
    (s.retireAll k = s ∧ s.ringHeld q .write p.idx = true) ∨
      ∃ stale, (s.retireAll k).queue? k = some { q.retired p.skip with stale } ∧ s.SameButSlots (s.retireAll k) := by
  cases held : s.ringHeld q .write p.idx with
  | true => exact .inl ⟨retireAll_waits found stays off one (.inr held), rfl⟩
  | false =>
    have retires : s.retirePkts k 1 = (s.entryDone q p.idx).setQueue k (q.retired p.skip) := by
      rw [State.retirePkts, found]
      dsimp only
      rw [one]
      dsimp only
      rw [if_neg (by rw [done, held]; decide)]
      rfl
    have puts := setQueue_puts (s.entryDone q p.idx) k (q.retired p.skip)
    have kept := (entryDone_store s q p.idx).slots.trans puts.slots
    obtain ⟨stale, own⟩ := puts.queue
    have whole : s.retireAll k = (s.entryDone q p.idx).setQueue k (q.retired p.skip) := by
      rw [State.retireAll, found]
      dsimp only
      rw [one]
      change (((s.retirePkts k 1).leaveCheck k).schedule q.die) = _
      rw [retires]
      generalize (s.entryDone q p.idx).setQueue k (q.retired p.skip) = t at own kept
      have calm : t.vendorRuns q.die = false := (kept.vendorRuns _).trans off
      rw [leaveCheck_present own stays, schedule_off calm]
    rw [whole]
    exact .inr ⟨stale, own, kept⟩

end

end

end Sys2Proof.Machine
end

section
/-! PROOFS. Queues, their packets and rings, Turat's policy, and the doorbells (O51). -/

namespace Sys2Proof.Machine

section
variable {s t : State} {k : Nat} {q : Queue} {w : Vector Word 8}

/-! ### The write index (R377, R384) -/

theorem wiNotice_pends (live : s.live = true) (found : s.queue? k = some q) (off : s.vendorRuns q.die = false) (stays : q.leaving = false)
    (idle : q.st = .idle) (sound : q.wiOk (s.wiOf q) = true) (more : s.wiOf q ≠ q.si) :
    exec (.queueWiNotice k) s = .next (s.setQueue k { q with st := .pending, epri := q.pri, pendAt := s.cyc, missed := false }) := by
  have calm : (s.setQueue k (q.pend s.cyc)).vendorRuns q.die = false := ((setQueue_puts s k (q.pend s.cyc)).slots.vendorRuns _).trans off
  have awake : ¬(q.st = .stopped ∨ q.leaving = true) := by rw [idle, stays]; decide
  rw [exec_queueWiNotice, execQueueWiNotice, if_pos live, State.wiNotice, found]
  dsimp only
  rw [if_neg awake, if_neg (by rw [sound]; decide), if_pos ⟨idle, more⟩, schedule_off calm]
  rfl

theorem wiNotice_stops (live : s.live = true) (found : s.queue? k = some q) (stays : q.leaving = false) (idle : q.st = .idle)
    (bad : q.wiOk (s.wiOf q) = false) : ∃ t r, exec (.queueWiNotice k) s = .next t ∧ t.queue? k = some r ∧ r.st = .stopped ∧ r.es = 3 ∧
      r.started = q.started := by
  have awake : ¬(q.st = .stopped ∨ q.leaving = true) := by rw [idle, stays]; decide
  obtain ⟨stale, own⟩ := (setQueue_puts (s.setQueue k { q with es := 3 }) k { q with es := 3, st := .stopped }).queue
  refine ⟨_, _, ?_, own, rfl, rfl, rfl⟩
  rw [exec_queueWiNotice, execQueueWiNotice, if_pos live, State.wiNotice, found]
  dsimp only
  rw [if_neg awake, if_pos (by rw [bad]; rfl), State.indexError, found]
  dsimp only
  rw [if_neg (by rw [idle]; decide)]

theorem headerReady_goes (live : s.live = true) (found : s.queue? k = some q) (waits : q.waiting = true) (packets : q.mode = 0)
    (words : s.ringWords q q.si = some w) (ready : pktKind w ≠ 15) :
    exec (.packetHeaderReady k) s = .next (s.setQueue k { q with waiting := false }) := by
  rw [exec_packetHeaderReady, execPacketHeaderReady, if_pos live, State.headerReady, found]
  dsimp only
  rw [if_neg (by rw [packets]; decide), words]
  dsimp only
  rw [if_pos ⟨waits, ready⟩]

/-! ### A packet starts (R379 to R382) -/

/-- A packet that starts enters the started ones. -/
theorem startPkt_state (found : s.queue? k = some q) (p : Pkt) : ∃ stale, s.SameButSlots (s.startPkt k p) ∧
    (s.startPkt k p).queue? k = some { q with
      si := q.si + 1, waiting := false, started := q.started ++ [p], nskip := if p.skip then q.nskip + 1 else q.nskip, stale } := by
  rw [State.startPkt, found]
  have puts := setQueue_puts s k
    { q with si := q.si + 1, waiting := false, started := q.started ++ [p], nskip := if p.skip then q.nskip + 1 else q.nskip }
  obtain ⟨stale, own⟩ := puts.queue
  exact ⟨stale, puts.slots, own⟩

/-- The slot of a mapped queue reads its next packet. -/
structure State.Starts (s : State) (k : Nat) (q : Queue) (w : Vector Word 8) : Prop where
  found : s.queue? k = some q
  off : s.vendorRuns q.die = false
  stays : q.leaving = false
  mapped : q.st = .mapped
  packets : q.mode = 0
  opened : s.queueOpen q = true
  empty : q.started = []
  ready : q.waiting = false
  sound : q.wiOk (s.wiOf q) = true
  more : q.si < s.wiOf q
  free : s.ringHeld q .read q.si = false
  words : s.ringWords q q.si = some w

theorem packetStart_runs (live : s.live = true) : exec (.packetStart k) s = .next ((s.packetStart k).retireAll k) := by
  rw [exec_packetStart, execPacketStart, if_pos live]

section
variable (starts : s.Starts k q w)
include starts

theorem mayStart_first (c : Clock) : ({ q with clock := c } : Queue).mayStart = true := by
  unfold Queue.mayStart
  dsimp only
  rw [starts.empty]
  rfl

/-- What becomes of a packet whose header has been read. -/
theorem packetStart_reads : ∃ c, (s.readHeader k q q.si).queue? k = some { q with clock := c } ∧ s.SameButSlots (s.readHeader k q q.si) ∧
    s.packetStart k =
      if pktKind w = 15 then (s.readHeader k q q.si).setQueue k { q with clock := c, waiting := true }
      else if q.dr && !pktC w then
        if (s.readHeader k q q.si).pktHeld { q with clock := c } (pktSig w) then s.readHeader k q q.si
        else (((s.readHeader k q q.si).completion (192 + q.die) q.ctx (dispatchPlace q.die) false (pktSig w) c).2).startPkt k
          { newPkt q.si w 0 0 (some none) with skip := true, completed := true }
      else (if q.dr then (s.readHeader k q q.si).setQueue k { q with clock := c, dr := false } else s.readHeader k q q.si).runPkt k
        { q with clock := c } w := by
  obtain ⟨c, read, kept⟩ := readHeader_state starts.found q.si
  refine ⟨c, read, kept, ?_⟩
  have may : ¬(q.st ≠ .mapped ∨ q.mode ≠ 0 ∨ (!s.queueOpen q) = true ∨ (!(q.dr || q.mayStart)) = true ∨ q.waiting = true) := by
    have first : q.mayStart = true := mayStart_first starts q.clock
    rw [starts.mapped, starts.packets, starts.opened, first, starts.ready, Bool.or_true]
    decide
  rw [State.packetStart, starts.found]
  dsimp only
  rw [if_neg may, if_neg (by rw [starts.sound]; decide), if_neg (not_or.mpr ⟨Nat.not_le.mpr starts.more, by rw [starts.free]; decide⟩),
    starts.words, read]
  simp only [Option.getD_some, mayStart_first starts c, Bool.not_true, Bool.false_eq_true, if_false]

/-- R379: the header is not ready. -/
theorem packetStart_unready (live : s.live = true) (kind : pktKind w = 15) : ∃ t r, exec (.packetStart k) s = .next t ∧
    t.queue? k = some r ∧ r.waiting = true ∧ r.si = q.si ∧ r.ri = q.ri ∧ r.started = [] := by
  obtain ⟨c, read, kept, starting⟩ := packetStart_reads starts
  rw [if_pos kind] at starting
  have puts := setQueue_puts (s.readHeader k q q.si) k { q with clock := c, waiting := true }
  obtain ⟨stale, own⟩ := puts.queue
  have calm := ((kept.trans puts.slots).vendorRuns q.die).trans starts.off
  refine ⟨_, { q with clock := c, waiting := true, stale }, packetStart_runs live, ?_, rfl, rfl, rfl, starts.empty⟩
  rw [starting, retireAll_none own starts.stays calm starts.empty]
  exact own

/-- A queue whose first packet has started. -/
def Queue.startedWith (q : Queue) (c : Clock) (p : Pkt) (stale : Bool) : Queue :=
  { q with clock := c, si := q.si + 1, waiting := false, started := [p], nskip := if p.skip then q.nskip + 1 else q.nskip, stale }

/-- A packet that runs has started, and it is the only one. -/
theorem startPkt_first {u : State} {c : Clock} (read : u.queue? k = some { q with clock := c }) (calm : u.vendorRuns q.die = false)
    (p : Pkt) : ∃ stale, u.SameButSlots (u.startPkt k p) ∧ (u.startPkt k p).vendorRuns q.die = false ∧
      (u.startPkt k p).queue? k = some (q.startedWith c p stale) := by
  obtain ⟨stale, kept, own⟩ := startPkt_state read p
  refine ⟨stale, kept, (kept.vendorRuns _).trans calm, own.trans ?_⟩
  unfold Queue.startedWith
  dsimp only
  rw [starts.empty]
  rfl

/-- R380: a packet of no work has its outcome at once. -/
theorem packetStart_plain (live : s.live = true) (kind : pktKind w = 0) (good : pktBad w = false) (runs : q.dr = false) :
    ∃ t r, exec (.packetStart k) s = .next t ∧ t.queue? k = some r ∧ r.si = q.si + 1 ∧ r.started = [newPkt q.si w 0 0 (some none)] ∧
      r.ri = q.ri := by
  obtain ⟨c, read, kept, starting⟩ := packetStart_reads starts
  have run : (s.readHeader k q q.si).runPkt k { q with clock := c } w = (s.readHeader k q q.si).startPkt k (newPkt q.si w 0 0 (some none)) := by
    unfold State.runPkt
    dsimp only
    rw [if_neg (by rw [good]; decide), kind]
    rfl
  rw [if_neg (by rw [kind]; decide), if_neg (by rw [runs]; simp), if_neg (by rw [runs]; decide), run] at starting
  obtain ⟨stale, -, calm, own⟩ := startPkt_first starts read ((kept.vendorRuns _).trans starts.off) (newPkt q.si w 0 0 (some none))
  refine ⟨_, q.startedWith c (newPkt q.si w 0 0 (some none)) stale, packetStart_runs live, ?_, rfl, rfl, rfl⟩
  rw [starting, retireAll_waits own starts.stays calm rfl (.inl rfl)]
  exact own

/-- R378, R380: a launch packet is submitted. -/
theorem packetStart_launch (live : s.live = true) (kind : pktKind w = 1) (good : pktBad w = false) (runs : q.dr = false) :
    ∃ t r, exec (.packetStart k) s = .next t ∧ t.queue? k = some r ∧ r.started = [newPkt q.si w 1 s.nextId none] ∧
      Tab.get? t.subs s.nextId =
        some { desc := #v[w[1], w[2], w[3], w[4]], ctx := q.ctx, die := q.die, from? := none, queue := some (k, q.si), clock := r.clock } := by
  obtain ⟨c, read, kept, starting⟩ := packetStart_reads starts
  generalize s.readHeader k q q.si = u at read kept starting
  have run : u.runPkt k { q with clock := c } w = (u.submit
      { desc := #v[w[1], w[2], w[3], w[4]], ctx := q.ctx, die := q.die, from? := none, queue := some (k, q.si), clock := c }).2.startPkt k
        (newPkt q.si w 1 s.nextId none) := by
    unfold State.runPkt
    dsimp only
    rw [if_neg (by rw [good]; decide), kind, ← kept.nextId]
    rfl
  rw [if_neg (by rw [kind]; decide), if_neg (by rw [runs]; simp), if_neg (by rw [runs]; decide), run] at starting
  have off : u.vendorRuns q.die = false := (kept.vendorRuns _).trans starts.off
  obtain ⟨stale, started, calm, own⟩ := startPkt_first starts (u := (u.submit
      { desc := #v[w[1], w[2], w[3], w[4]], ctx := q.ctx, die := q.die, from? := none, queue := some (k, q.si), clock := c }).2) read off
        (newPkt q.si w 1 s.nextId none)
  refine ⟨_, q.startedWith c (newPkt q.si w 1 s.nextId none) stale, packetStart_runs live, ?_, rfl, ?_⟩
  · rw [starting, retireAll_waits own starts.stays calm rfl (.inl rfl)]
    exact own
  · rw [starting, retireAll_waits own starts.stays calm rfl (.inl rfl), started.subs, ← kept.nextId]
    exact Tab.get?_put_self ..

/-- R382: a packet without a signal is skipped while the queue drains. -/
theorem packetStart_skips (live : s.live = true) (kind : pktKind w ≠ 15) (drains : q.dr = true) (plain : pktC w = false)
    (unsignalled : pktSig w = 0) : ∃ t r, exec (.packetStart k) s = .next t ∧ t.queue? k = some r ∧
      r.si = q.si + 1 ∧ r.nskip = q.nskip + 1 ∧ r.nret = q.nret ∧ (r.started = [] ∧ r.ri = q.ri + 1 ∨
        r.started = [{ newPkt q.si w 0 0 (some none) with skip := true, completed := true }] ∧ r.ri = q.ri ∧
          t.ringHeld r .write q.si = true) := by
  obtain ⟨c, read, kept, starting⟩ := packetStart_reads starts
  generalize s.readHeader k q q.si = u at read kept starting
  have silent : (u.completion (192 + q.die) q.ctx (dispatchPlace q.die) false (pktSig w) c).2 = u := by rw [State.completion, if_pos unsignalled]
  have free : u.pktHeld { q with clock := c } (pktSig w) = false := by rw [State.pktHeld, unsignalled]; rfl
  rw [if_neg kind, if_pos (by rw [drains, plain]; rfl), if_neg (by rw [free]; decide), silent] at starting
  generalize skipped : ({ newPkt q.si w 0 0 (some none) with skip := true, completed := true } : Pkt) = p at starting
  have skip : p.skip = true := by rw [← skipped]
  have done : p.completed = true := by rw [← skipped]
  have idx : p.idx = q.si := by rw [← skipped]; rfl
  obtain ⟨stale, -, calm, own⟩ := startPkt_first starts read ((kept.vendorRuns _).trans starts.off) p
  have counted (stale : Bool) : (q.startedWith c p stale).nskip = q.nskip + 1 := by rw [Queue.startedWith, skip]; rfl
  rw [packetStart_runs live, starting]
  rcases retireAll_one own starts.stays calm rfl done with ⟨waits, held⟩ | ⟨late, retired, -⟩
  · refine ⟨_, q.startedWith c p stale, rfl, by rw [waits]; exact own, rfl, counted stale, rfl, .inr ⟨rfl, rfl, ?_⟩⟩
    rw [waits, ← idx]
    exact held
  · exact ⟨_, _, rfl, retired, rfl, counted stale, if_pos skip, .inl ⟨rfl, rfl⟩⟩

end

/-! ### A packet completes (R381, R382) -/

/-- A queue with one packet, which has completed. -/
def Queue.completedWith (q : Queue) (p : Pkt) : Queue := { q with started := [{ p with completed := true }] }

/-- What a queue notes of an outcome; without a signal to write it notes no lost one. -/
def Queue.outcome (q : Queue) (p : Pkt) : Option Nat → Queue
  | some d => q.noteFail p d
  | none => q

theorem outcome_queue (q : Queue) (p : Pkt) (r : Option Nat) : (q.outcome p r).leaving = q.leaving ∧ (q.outcome p r).die = q.die ∧
    (q.outcome p r).ri = q.ri ∧ (q.outcome p r).nret = q.nret := by
  cases r <;> exact ⟨rfl, rfl, rfl, rfl⟩

section
variable {p : Pkt} (live : s.live = true) (found : s.queue? k = some q) (one : q.started = [p]) (runs : p.completed = false)
  (other : p.kind ≠ 3) (unwritten : p.wrote = none) (unsignalled : pktSig p.words = 0)
include live found one runs other unwritten unsignalled

theorem packetComplete_writes {r : Option Nat} (done : p.done = some r) :
    exec (.packetComplete k p.idx) s = .next ((s.setQueue k ((q.outcome p r).completedWith p)).retireAll k) := by
  have next : q.started.find? (fun x => x.idx == p.idx && !x.completed) = some p := by simp [one, runs]
  have free : s.pktHeld q (pktSig p.words) = false := by rw [State.pktHeld, unsignalled]; rfl
  have silent : s.completion (192 + q.die) q.ctx (dispatchPlace q.die) r.isNone (pktSig p.words) q.clock = (0, s) := by
    rw [State.completion, if_pos unsignalled]
  have marked (x : Queue) (single : x.started = [p]) :
      x.started.map (fun y => if y.idx = p.idx then { y with completed := true } else y) = [{ p with completed := true }] := by
    rw [single]
    simp
  rw [exec_packetComplete, execPacketComplete, if_pos live, State.packetComplete, found]
  dsimp only
  rw [next]
  dsimp only
  rw [State.pktOutcome, if_neg other, done]
  dsimp only
  rw [free, Bool.and_false, if_neg Bool.false_ne_true, unwritten]
  dsimp only
  rw [silent]
  dsimp only
  rw [if_neg other, if_pos rfl]
  cases r with
  | none =>
    dsimp only
    rw [marked q one]
    rfl
  | some x =>
    dsimp only
    rw [marked (q.noteFail p x) one]
    rfl

variable (off : s.vendorRuns q.die = false) (stays : q.leaving = false) (unskipped : p.skip = false)
include off stays unskipped

/-- A packet that completes retires at once, unless its ring entry is held (R162). -/
theorem packetComplete_retires {r : Option Nat} (done : p.done = some r) : ∃ t stale, exec (.packetComplete k p.idx) s = .next t ∧
    ((t.queue? k = some { ((q.outcome p r).completedWith p).retired false with stale }) ∨
      (t.queue? k = some { (q.outcome p r).completedWith p with stale } ∧
        t.ringHeld { (q.outcome p r).completedWith p with stale } .write p.idx = true)) := by
  have puts := setQueue_puts s k ((q.outcome p r).completedWith p)
  obtain ⟨stale, own⟩ := puts.queue
  obtain ⟨leaving, die, -, -⟩ := outcome_queue q p r
  have calm : (s.setQueue k ((q.outcome p r).completedWith p)).vendorRuns ((q.outcome p r).completedWith p).die = false :=
    (puts.slots.vendorRuns _).trans ((congrArg s.vendorRuns die).trans off)
  rw [packetComplete_writes live found one runs other unwritten unsignalled done]
  rcases retireAll_one (p := { p with completed := true }) own (leaving.trans stays) calm rfl rfl with ⟨waits, held⟩ | ⟨late, retired, -⟩
  · exact ⟨_, stale, rfl, .inr ⟨by rw [waits]; exact own, by rw [waits]; exact held⟩⟩
  · refine ⟨_, late, rfl, .inl (retired.trans ?_)⟩
    dsimp only
    rw [unskipped]
    rfl

theorem packetComplete_good (done : p.done = some none) : ∃ t r, exec (.packetComplete k p.idx) s = .next t ∧ t.queue? k = some r ∧
    r.dr = q.dr ∧ r.es = q.es ∧ (r.started = [] ∧ r.ri = q.ri + 1 ∧ r.nret = q.nret + 1 ∨
      r.started = [{ p with completed := true }] ∧ r.ri = q.ri ∧ t.ringHeld r .write p.idx = true) := by
  obtain ⟨t, stale, step, retired | ⟨waits, held⟩⟩ :=
    packetComplete_retires live found one runs other unwritten unsignalled off stays unskipped done
  · exact ⟨t, _, step, retired, rfl, rfl, .inl ⟨rfl, rfl, rfl⟩⟩
  · exact ⟨t, _, step, waits, rfl, rfl, .inr ⟨rfl, rfl, held⟩⟩

theorem packetComplete_failed {x : Nat} (done : p.done = some (some x)) : ∃ t r, exec (.packetComplete k p.idx) s = .next t ∧
    t.queue? k = some r ∧ (r.started = [] ∧ r.ri = q.ri + 1 ∨ r.started = [{ p with completed := true }] ∧ r.ri = q.ri ∧
      t.ringHeld r .write p.idx = true) ∧ r.es = (if p.kind = 4 then 2 else 1) ∧ r.lst = x ∧ r.fidx = p.idx ∧
      r.dr = (q.dr || pktP p.words) := by
  have drains : (q.outcome p (some x)).dr = (q.dr || pktP p.words) := by
    have alone : q.started.any (fun y => decide (p.idx < y.idx) && !y.skip && pktC y.words) = false := by simp [one]
    rw [Queue.outcome, Queue.noteFail]
    dsimp only
    rw [alone, Bool.not_false, Bool.and_true]
  obtain ⟨t, stale, step, retired | ⟨waits, held⟩⟩ :=
    packetComplete_retires live found one runs other unwritten unsignalled off stays unskipped done
  · exact ⟨t, _, step, retired, .inl ⟨rfl, rfl⟩, rfl, rfl, rfl, drains⟩
  · exact ⟨t, _, step, waits, .inr ⟨rfl, rfl, held⟩, rfl, rfl, rfl, drains⟩

end

/-! ### Stage rings (R383) -/

/-- A mapped stage ring reads its head entry. -/
structure State.Hands (s : State) (k cl : Nat) (q : Queue) (w : Vector Word 8) : Prop where
  found : s.queue? k = some q
  off : s.vendorRuns q.die = false
  mapped : q.st = .mapped
  ring : q.mode = 1
  opened : s.queueOpen q = true
  ready : q.waiting = false
  noLoad : (s.die q.die).go = false
  own : cl / 24 = q.die
  sound : q.wiOk (s.wiOf q) = true
  more : q.ri < s.wiOf q
  free : s.ringHeld q .write q.ri = false
  words : s.ringWords q q.ri = some w

/-- The record of a ring's head entry. -/
def State.ringMsg (s : State) (cl l : Nat) (q : Queue) (w : Vector Word 8) : Msg :=
  { newMsg w[0] (mkH1 (clusterRoute cl) (hRtag w[1]) (s.cyc % 2 ^ 24)) #v[mkReg w[2] w[3], mkReg w[4] w[5], mkReg w[6] w[7]]
      (dispatchPlace q.die) (.task cl) with launch := some l, ctx := q.ctx, sgrp := hGrp w[0], ord := s.nextId, clock := q.clock }

theorem ringPass_state {u : State} (off : u.vendorRuns q.die = false) : ∃ stale, u.SameButSlots (u.ringPass k q) ∧
    (u.ringPass k q).queue? k = some { q with ri := q.ri + 1, si := q.ri + 1, stale } := by
  have puts := setQueue_puts (u.entryDone q q.ri) k { q with ri := q.ri + 1, si := q.ri + 1 }
  have kept := (entryDone_store u q q.ri).slots.trans puts.slots
  obtain ⟨stale, own⟩ := puts.queue
  have passes : u.ringPass k q = (u.entryDone q q.ri).setQueue k { q with ri := q.ri + 1, si := q.ri + 1 } :=
    schedule_off ((kept.vendorRuns _).trans off)
  rw [passes]
  exact ⟨stale, kept, own⟩

theorem handoff_hands {cl l : Nat} {b : Group} (live : s.live = true) (known : cl < 192) (hands : s.Hands k cl q w) (kind : pktKind w = 0)
    (stage : s.ringGroup q (hGrp w[0]) = some (l, b)) (few : s.liveCount l (hGrp w[0]) < 2 * b.cap)
    (room : s.tasksFull (some l) (hGrp w[0]) = false) (unit : (s.clu cl).tu.length < 1024) :
    ∃ t r m, exec (.stageRingHandoff k cl) s = .next t ∧ t.queue? k = some r ∧ r.ri = q.ri + 1 ∧ r.nret = q.nret + 1 ∧
      (t.clu cl).tu = (s.clu cl).tu ++ [m] ∧ m.h0 = w[0] ∧ m.pay = #v[mkReg w[2] w[3], mkReg w[4] w[5], mkReg w[6] w[7]] ∧
      m.launch = some l ∧ m.ctx = q.ctx := by
  obtain ⟨c, read, kept⟩ := readHeader_state hands.found q.ri
  generalize reads : s.readHeader k q q.ri = u at read kept
  have may : ¬(q.st ≠ .mapped ∨ q.mode ≠ 1 ∨ (!s.queueOpen q) = true ∨ q.waiting = true ∨ cl / 24 ≠ q.die ∨
      (s.die q.die).go = true) := by
    rw [hands.mapped, hands.ring, hands.opened, hands.ready, hands.own, hands.noLoad]
    simp
  have stage : u.ringGroup { q with clock := c } (hGrp w[0]) = some (l, b) := (kept.ringGroup _ _).trans stage
  have fits : ¬(2 * b.cap ≤ u.liveCount l (hGrp w[0]) ∨ u.tasksFull (some l) (hGrp w[0]) = true ∨ 1024 ≤ (u.clu cl).tu.length) := by
    rw [kept.liveCount, kept.tasksFull, kept.clu, room]
    exact fun full => full.elim (Nat.not_le.mpr few) fun full => full.elim Bool.false_ne_true (Nat.not_le.mpr unit)
  let placed : State := (u.setClu cl { u.clu cl with tu := (u.clu cl).tu ++ [(u.ringMsg cl l { q with clock := c } w).taken u.cyc] }).bump
  have step : exec (.stageRingHandoff k cl) s = .next (placed.ringPass k { q with clock := c, nret := q.nret + 1 }) := by
    rw [exec_stageRingHandoff, execStageRingHandoff, live, decide_eq_true known, Bool.and_self, if_pos rfl, State.handoff, hands.found]
    dsimp only
    rw [if_neg may, if_neg (by rw [hands.sound]; decide), if_neg (not_or.mpr ⟨Nat.not_le.mpr hands.more, by rw [hands.free]; decide⟩),
      hands.words, reads, read]
    dsimp only [Option.getD_some]
    rw [if_neg (by rw [kind]; decide), if_neg (not_not.mpr kind), stage]
    dsimp only
    rw [if_neg fits]
    rfl
  obtain ⟨stale, passed, own⟩ := ringPass_state (k := k) (q := { q with clock := c, nret := q.nret + 1 }) (u := placed)
    ((kept.vendorRuns _).trans hands.off)
  refine ⟨_, _, (u.ringMsg cl l { q with clock := c } w).taken u.cyc, step, own, rfl, rfl, ?_, rfl, rfl, rfl, rfl⟩
  rw [passed.clu, ← kept.clu]
  exact congrArg Cluster.tu (Tab.getD_put_self ..)

end

/-! ### Turat's default policy (R384 to R388) -/

section
variable {s u : State} {k d : Nat} {q o : Queue} {d' : Spec}

theorem setQueue_single (single : s.queues = [(k, o)]) (q : Queue) : ∃ stale, (s.setQueue k q).queues = [(k, { q with stale })] := by
  have put (r : Queue) : Tab.put s.queues k r = [(k, r)] := by rw [single]; simp [Tab.put]
  unfold State.setQueue
  dsimp only
  split
  · exact ⟨q.stale, put q⟩
  · split
    · refine ⟨true, ?_⟩
      dsimp only
      rw [put q]
      simp [Tab.put]
    · rename_i loc _
      generalize [2, 4, 5, 6, 7].filter _ = words
      have writes := State.SameButMem.foldl (fun s i => writeN_keeps s (loc + 8 * i) 8 (q.word i).toNat) words
        { s with queues := Tab.put s.queues k q }
      exact ⟨q.stale, (congrArg State.queues writes :).trans (put q)⟩

section
variable (single : s.queues = [(k, q)])
include single

theorem queue?_single : s.queue? k = some q := by
  rw [State.queue?, single]
  simp [Tab.get?]

theorem bestPending_none (unready : q.st ≠ .pending ∨ (s.context q.ctx).st = .suspended) : s.bestPending d = none := by
  have passes : (q.die == d && q.st == .pending && !q.leaving && (s.context q.ctx).st != .suspended) = false := by
    rcases unready with other | suspended
    · simp [other]
    · simp [suspended]
  rw [State.bestPending, single, List.filter_cons_of_neg (by rw [passes]; decide)]
  rfl

theorem bestPending_some (pending : q.st = .pending) (stays : q.leaving = false) (die : q.die = d)
    (goes : (s.context q.ctx).st ≠ .suspended) : s.bestPending d = some (k, q) := by
  have passes : (q.die == d && q.st == .pending && !q.leaving && (s.context q.ctx).st != .suspended) = true := by
    simp [pending, stays, die, goes]
  rw [State.bestPending, single, List.filter_cons_of_pos (by exact passes)]
  rfl

theorem freeSlot_first (unmapped : q.st ≠ .mapped) (d : Nat) : s.freeSlot d = some (32 * d) := by
  have empty (n : Nat) : s.slotQueue n = none := by
    rw [State.slotQueue, single]
    exact List.find?_eq_none.mpr fun e listed => by
      rw [List.mem_singleton.mp listed]
      simp [unmapped]
  rw [State.freeSlot, List.find?_map]
  simp [List.range_succ_eq_map, empty]

theorem dropEmpty_single (unmapped : q.st ≠ .mapped) (d : Nat) : s.dropEmpty d = s := by
  unfold State.dropEmpty
  split
  · rfl
  · rw [single, List.filter_cons_of_neg (by simp [unmapped])]
    rfl

end

theorem fillSlots_none (none : s.bestPending d = none) (n : Nat) : s.fillSlots d n = s := by
  cases n with
  | zero => rfl
  | succ n =>
    rw [State.fillSlots, none]
    cases s.freeSlot d <;> rfl

/-- R386: a queue that alone is Pending, its context not suspended, takes the first slot of its die. -/
theorem schedule_maps (single : s.queues = [(k, q)]) (on : s.vendorRuns q.die = true) (pending : q.st = .pending) (stays : q.leaving = false)
    (goes : (s.context q.ctx).st ≠ .suspended) : ∃ r, (s.schedule q.die).queue? k = some r ∧ r.st = .mapped ∧ r.slot = 32 * q.die ∧
      r.nmap = q.nmap + 1 := by
  have unmapped : q.st ≠ .mapped := by rw [pending]; decide
  obtain ⟨stale, put⟩ := setQueue_single single
    { q with st := .mapped, slot := 32 * q.die, epri := q.pri, nmap := q.nmap + 1, mapAt := s.cyc, bySoft := false, waiting := false }
  generalize placed : ({ q with st := .mapped, slot := 32 * q.die, epri := q.pri, nmap := q.nmap + 1, mapAt := s.cyc, bySoft := false,
                                waiting := false, stale } : Queue) = r at put
  have maps : (s.mapQueue k (32 * q.die) 0 false).queues = [(k, r)] := by
    rw [State.mapQueue, queue?_single single]
    dsimp only
    rw [show State.record _ _ _ _ _ _ _ = _ from record_log ..]
    exact put
  have filled : s.schedule q.die = s.mapQueue k (32 * q.die) 0 false := by
    rw [State.schedule, if_pos on, dropEmpty_single single unmapped, State.fillSlots, freeSlot_first single unmapped,
      bestPending_some single pending stays rfl goes]
    exact fillSlots_none (bestPending_none maps (.inl (by rw [← placed]; exact (by decide : QState.mapped ≠ QState.pending)))) 31
  rw [filled]
  exact ⟨r, queue?_single maps, by rw [← placed], by rw [← placed], by rw [← placed]⟩

theorem schedule_keeps (single : s.queues = [(k, q)]) (on : s.vendorRuns d = true) (pending : q.st = .pending)
    (suspended : (s.context q.ctx).st = .suspended) : s.schedule d = s := by
  rw [State.schedule, if_pos on, dropEmpty_single single (by rw [pending]; decide), fillSlots_none (bestPending_none single (.inr suspended))]

/-- What a tick makes of the effective priority (R386). -/
def State.agedPri (s : State) (q : Queue) : Nat := Nat.min 15 (q.pri + (s.cyc - q.pendAt) / (Nat.max 1 (s.die q.die).age.toNat * 2000))

theorem agedPri_eq (s : State) (q : Queue) : s.agedPri q =
    if q.pri + (s.cyc - q.pendAt) / ((if (s.die q.die).age.toNat = 0 then 1 else (s.die q.die).age.toNat) * 2000) ≤ 15
    then q.pri + (s.cyc - q.pendAt) / ((if (s.die q.die).age.toNat = 0 then 1 else (s.die q.die).age.toNat) * 2000) else 15 := by
  have step : Nat.max 1 (s.die q.die).age.toNat = if (s.die q.die).age.toNat = 0 then 1 else (s.die q.die).age.toNat := by
    change max 1 _ = _
    split <;> omega
  rw [State.agedPri, step]
  generalize q.pri + (s.cyc - q.pendAt) / _ = n
  change min 15 n = _
  split <;> omega

theorem agingTick_ages (live : s.live = true) (single : s.queues = [(k, q)]) (pending : q.st = .pending) (die : q.die < 8)
    (on : s.vendorRuns q.die = true) :
    exec (.agingTick q.die) s = .next ((s.setQueue k { q with epri := s.agedPri q }).schedule q.die) := by
  rw [exec_agingTick, execAgingTick, live, decide_eq_true die, Bool.and_self, if_pos rfl, State.agingTick]
  dsimp only
  rw [if_pos on, single, List.foldl_cons, List.foldl_nil, if_pos ⟨rfl, pending⟩]
  rfl

theorem quantumExpiry_unmaps {n k' : Nat} {r : Queue} (live : s.live = true) (mapped : s.slotQueue n = some (k, q))
    (waits : s.bestPending q.die = some (k', r)) (on : s.vendorRuns q.die = true) (below : q.epri ≤ r.epri)
    (old : q.mapAt + (s.die q.die).qnt.toNat * 2000 ≤ s.cyc) :
    exec (.quantumExpiry n) s = .next ((s.unmapQueue k 2).schedule q.die) := by
  rw [exec_quantumExpiry, execQuantumExpiry, if_pos live, State.quantumExpiry, mapped]
  dsimp only
  rw [waits]
  dsimp only
  rw [on, decide_eq_true old, decide_eq_true below]
  rfl

theorem boundMissed_records {b : Nat} (live : s.live = true) (found : s.queue? k = some q) (bound : s.mapBound q.die = some b)
    (pending : q.st = .pending) (first : q.missed = false) (late : q.pendAt + b < s.cyc) :
    exec (.boundMissed k) s = .next ((s.setQueue k { q with missed := true }).record q.die 7 0 0 q.ctx q.qcb.toNat) := by
  rw [exec_boundMissed, execBoundMissed, if_pos live, State.boundMissed, found]
  dsimp only
  rw [bound]
  dsimp only
  rw [if_pos ⟨pending, by rw [first]; rfl, late⟩]

/-! ### Images (R385) -/

theorem trtCtlGo_starts (live : s.live = true) (die : d < 8) (idle : (s.die d).go = false) :
    exec (.trtCtlGo d) s = .next (s.setDie d { s.die d with go := true, err := 4 }) := by
  rw [exec_trtCtlGo, execTrtCtlGo, live, decide_eq_true die, Bool.and_self, if_pos rfl, State.trtGo]
  dsimp only
  rw [if_neg (by rw [idle]; decide)]

/-- A record changes of a die's registers its counters alone. -/
theorem record_die (s : State) (d act rsn slot ctx obj : Nat) : ((s.record d act rsn slot ctx obj).die d).go = (s.die d).go ∧
    ((s.record d act rsn slot ctx obj).die d).err = (s.die d).err ∧ ((s.record d act rsn slot ctx obj).die d).key = (s.die d).key := by
  have die (u : State) (x : Die) : (u.setDie d x).die d = x := Tab.getD_put_self ..
  have put (lo hi : Nat) : ∃ n c, (s.dlogPut d lo hi).die d = { s.die d with dcnt := c, dwi := n } := by
    have stored (lo hi : Nat) (u : State) (kept : s.SameButStore u) : u.die d = s.die d := by
      rw [show u = _ from kept]
      rfl
    unfold State.dlogPut
    dsimp only
    rw [die, stored lo hi _ (ite_store (putRecord_store ..) (.refl s))]
    exact ⟨_, _, rfl⟩
  unfold State.record
  dsimp only
  obtain ⟨n, c, eq⟩ := put obj (act % 16 * 2 ^ 28 + rsn % 256 * 2 ^ 20 + slot % 256 * 2 ^ 12 + ctx % 1024 * 2 ^ 2)
  split
  · rw [die, Die.count, eq]
    exact ⟨rfl, rfl, rfl⟩
  · rw [eq]
    exact ⟨rfl, rfl, rfl⟩

theorem turatLoadComplete_ends {err key : Nat} (live : s.live = true) (die : d < 8) (loads : (s.die d).go = true) (known : err ≤ 3) :
    ∃ t, exec (.turatLoadComplete d err key) s = .next t ∧ (t.die d).go = false ∧ (t.die d).err = err ∧
      (t.die d).key = (if err = 0 then key % 4 else (s.die d).key) ∧ t.threads = s.threads := by
  let u : State := s.setDie d { s.die d with
    go := false, err, key := if err = 0 then key % 4 else (s.die d).key, loads := if err = 0 then (s.die d).loads + 1 else (s.die d).loads }
  have own : u.die d = { s.die d with
      go := false, err, key := if err = 0 then key % 4 else (s.die d).key,
      loads := if err = 0 then (s.die d).loads + 1 else (s.die d).loads } := Tab.getD_put_self ..
  have step : exec (.turatLoadComplete d err key) s = .next (u.record d 9 0 0 0 err) := by
    rw [exec_turatLoadComplete, execTuratLoadComplete, live, decide_eq_true die, Bool.and_self, if_pos rfl, State.turatLoaded]
    rw [if_neg (by rw [loads, decide_eq_false (Nat.not_lt.mpr known)]; decide)]
  obtain ⟨go, error, kept⟩ := record_die u d 9 0 0 0 err
  refine ⟨_, step, by rw [go, own], by rw [error, own], by rw [kept, own], ?_⟩
  rw [show State.record _ _ _ _ _ _ _ = _ from record_log ..]
  rfl

/-! ### The notice of a signal (R397, R401) -/

/-- Hearing releases changes what the context knows. -/
theorem hearAt_me (s : State) (loc n : Nat) (acq : Option Scope) : (s.hearAt s.cur loc n acq).me =
    { s.me with known := (s.hearAt s.cur loc n acq).me.known, missed := (s.hearAt s.cur loc n acq).me.missed,
                heard := (s.hearAt s.cur loc n acq).me.heard } := by
  unfold State.hearAt
  split
  · rfl
  · rename_i r rs _
    have own (x : Thread) : (s.setThread s.cur x).me = x := me_setMe s x
    dsimp only
    rw [own]
    cases acq with
    | none => rfl
    | some z =>
      dsimp only
      rw [show List.foldl (fun t x => t.acquire s.cur z x) (s.thread s.cur) (r :: rs) = _ from acquires_rest s.cur z (s.thread s.cur) (r :: rs)]
      rfl

/-- A Blocked context goes on with a value, and its instruction no longer counts in cld. -/
theorem unblockSig_ok {v : Reg} (write : s.canWrite d') : ∃ t, s.unblockSig d' v = .ok t ∧ t.cur = s.cur ∧
    t.me = { ({ (s.me.result d' v).goesOn with blk := none } : Thread).fin 4 with
      cld := (({ (s.me.result d' v).goesOn with blk := none } : Thread).fin 4).cld - 1 } := by
  let u := ((s.wrote d' v).setMe { (s.wrote d' v).me.goesOn with blk := none }).fin 4
  have me : u.me = ({ (s.me.result d' v).goesOn with blk := none } : Thread).fin 4 := by rw [fin_me, me_setMe, wrote_me]
  have freed : s.unblock d' v = .ok u := by
    rw [State.unblock, writeReg_ok s d' v write]
    rfl
  refine ⟨u.setMe { u.me with cld := u.me.cld - 1 }, ?_, wrote_cur s d' v, ?_⟩
  · rw [State.unblockSig, freed]
    rfl
  · rw [me_setMe, me]

/-- A context that was Blocked has completed its instruction with a value. -/
structure Thread.Completed (x y : Thread) (d : Spec) (v : Reg) : Prop where
  state : y.state = .ready
  dest : y.regs[d] = v
  pc : y.pc = x.pc + 4
  blk : y.blk = none

theorem unblockSig_completes {x : Thread} {v : Reg} (write : s.canWrite d') (named : d' ≠ 1) (blocked : s.me.state = .blocked)
    (task : s.me.inSave = false) (pc : s.me.pc = x.pc) : ∃ t, s.unblockSig d' v = .ok t ∧ t.cur = s.cur ∧ x.Completed t.me d' v := by
  obtain ⟨t, ok, cur, me⟩ := unblockSig_ok (v := v) write
  have result : s.me.result d' v = { s.me with
      regs := (s.me.regs.set d' v).set 0 v, ltStale := false, dmg := s.me.dmg.filter (fun e => e.1 != d'.val && e.1 != 0) } := if_neg named
  have goes : (s.me.result d' v).goesOn = { s.me.result d' v with state := .ready } := by
    rw [Thread.goesOn, result, task, Thread.become]
    dsimp only
    rw [if_neg (by rw [blocked]; decide)]
    rfl
  rw [goes] at me
  refine ⟨t, ok, cur, by rw [me]; rfl, ?_, ?_, by rw [me]; rfl⟩
  · rw [me]
    have dest := (done_wrote s 4 d' v).dest named
    rw [State.done, fin_me, wrote_me] at dest
    exact dest
  · rw [me, result]
    exact congrArg (· + 4) pc

/-- The only context is Blocked in a `sig.wait` whose signal lies at `loc` now and has come to its threshold. -/
structure State.Wakes (s : State) (p loc : Nat) (th : Thread) (d : Spec) (v : Nat) : Prop where
  threads : s.threads = [(p, th)]
  queues : s.queues = []
  blocked : th.state = .blocked
  task : th.inSave = false
  named : d ≠ 1
  polls : ∃ l va thr n s₁ s', th.blk = some (.sig l va thr d) ∧ s.locNow p th.ctxNo va l = loc ∧
    ({ s with cur := p } : State).lateLoc p th.ctxNo va l false ({ s with cur := p } : State).myReader = .ok (n, s₁) ∧
    s₁.sigValue n va = .ok (some v, s') ∧ s'.cur = p ∧ s'.acc = [] ∧ s'.thread p = th ∧ toInt 64 v ≤ thr.toInt

theorem notify_wakes {p loc v : Nat} {th : Thread} (wakes : s.Wakes p loc th d' v) : (s.notify loc).cur = s.cur ∧
    th.Completed ((s.notify loc).thread p) d' (scalar (wd v)) := by
  obtain ⟨l, va, thr, n, s₁, s', waits, lies, located, read, cur, quiet, same, met⟩ := wakes.polls
  have own : s.thread p = th := by
    rw [State.thread, wakes.threads]
    simp [Tab.getD, Tab.get?]
  have rechecks : s.notify loc = s.recheckWait loc p := by
    rw [State.notify, wakes.queues]
    dsimp only [List.foldl_nil]
    rw [wakes.threads]
    rfl
  have me : s'.me = th := by rw [State.me, cur, same]
  have heard := hearAt_me s' n 8 (some .sys)
  have dest : (s'.hearAt s'.cur n 8 (some .sys)).canWrite d' :=
    hearAt_canWrite 8 _ (.inr (by rw [State.busy, quiet]; rfl))
  have hearer : (s'.hearAt s'.cur n 8 (some .sys)).cur = p := by rw [hearAt_keeps]; exact cur
  obtain ⟨t, ok, here, done⟩ := unblockSig_completes (v := scalar (wd v)) dest wakes.named (x := th)
    (by rw [heard, me]; exact wakes.blocked) (by rw [heard, me]; exact wakes.task) (by rw [heard, me])
  have polled : ({ s with cur := p } : State).sigPoll l va thr d' = .ok t := by
    have reader : ({ s with cur := p } : State).me = th := own
    rw [State.sigPoll, reader]
    dsimp only
    rw [located]
    dsimp only
    rw [read]
    simp only [bind_ok]
    rw [if_pos (show sigMet v thr = true from decide_eq_true met), ok]
  have goes : s.recheckWait loc p = { t with cur := s.cur } := by
    rw [State.recheckWait, own, wakes.blocked, waits]
    dsimp only
    rw [if_pos lies, State.onPlace, polled]
  rw [rechecks, goes]
  refine ⟨rfl, ?_⟩
  rw [State.me, here, hearer] at done
  exact done

/-- A notice of a signal at HBM, at a chip window and at a remote place. -/
theorem signal_notices {loc : Nat} (live : s.live = true) :
    ∀ x ∈ ([(.signalNotify loc, locTag loc == 0), (.signalPollChip loc, locTag loc == tagChip), (.signalPollRemote loc, isRemote loc)] :
        List (Instr × Bool)), x.2 = true → exec x.1 s = .next (s.notify loc) := by
  simp only [List.forall_mem_cons]
  refine ⟨fun home => ?_, fun chip => ?_, fun remote => ?_, List.forall_mem_nil _⟩
  · rw [exec_signalNotify, execSignalNotify, live, home]; rfl
  · rw [exec_signalPollChip, execSignalPollChip, live, chip]; rfl
  · rw [exec_signalPollRemote, execSignalPollRemote, live, remote]; rfl

/-! ### Doorbells (R405) -/

section
variable {n : Nat} {qcb cmd : Word} (live : s.live = true) (set : n < 256)
include live set

theorem bellOk_live : s.bellOk n = true := by
  rw [State.live, Bool.and_eq_true, Bool.and_eq_true] at live
  rw [State.bellOk, live.1.1, live.1.2, decide_eq_true set]
  rfl

theorem dbCmdRegister_done {st : Nat} {s' : State} (done : s.register qcb cmd = .ok (st, s')) : exec (.dbCmdRegister n qcb cmd) s =
    .next (s'.setHub { s'.hub with bells := Tab.put s'.hub.bells n { qcb := qcb, cmd := cmd, stat := BitVec.ofNat 64 st } }) := by
  rw [exec_dbCmdRegister, execDbCmdRegister, if_pos (bellOk_live live set), State.bellApply, if_neg (by rw [live]; decide)]
  dsimp only
  rw [done]
  rfl

theorem dbCmdRegister_faults {f : Flt} (faults : s.register qcb cmd = .error (.flt f)) : exec (.dbCmdRegister n qcb cmd) s = .next (s.setHub
    { s.hub with bells := Tab.put s.hub.bells n { qcb := qcb, cmd := cmd, stat := BitVec.ofNat 64 (s.bellSt qcb cmd + f.code * 256) } }) := by
  rw [exec_dbCmdRegister, execDbCmdRegister, if_pos (bellOk_live live set), State.bellApply, if_neg (by rw [live]; decide)]
  dsimp only
  rw [faults]
  rfl

theorem dbCmdResume_done {st : Nat} {s' : State} (done : s.restartQueue qcb cmd = .ok (st, s')) : exec (.dbCmdResume n qcb cmd) s =
    .next (s'.setHub { s'.hub with bells := Tab.put s'.hub.bells n { qcb := qcb, cmd := cmd, stat := BitVec.ofNat 64 st } }) := by
  rw [exec_dbCmdResume, execDbCmdResume, if_pos (bellOk_live live set)]
  unfold State.bellApply
  rw [if_neg (by rw [live]; decide)]
  dsimp only
  rw [done]
  rfl

theorem dbCmdUnregister_leaves (found : s.unregister qcb cmd = .ok k) : exec (.dbCmdUnregister n qcb cmd) s = .next ((s.setHub
    { s.hub with bells := Tab.put s.hub.bells n { qcb := qcb, cmd := cmd, stat := BitVec.ofNat 64 (2 ^ 63 + s.bellSt qcb cmd) } }).beginLeave
      k) := by
  rw [exec_dbCmdUnregister, execDbCmdUnregister, if_pos (bellOk_live live set), State.bellApply, if_neg (by rw [live]; decide)]
  dsimp only
  rw [found]
  rfl

end

end

/-- Settles O51: a slot's step changes one queue and what a store changes; Turat's decisions, notices and doorbells are each one such change. -/
theorem queueAndDoorbellSteps : Obligations.QueueAndDoorbellSteps := by
  constructor
  · intro s k q live found off stays
    refine ⟨wiNotice_pends live found off stays, wiNotice_stops live found stays, fun w => headerReady_goes live found, fun w mapped packets opened
      empty ready sound more free words => ?start, fun p one runs unskipped other unwritten unsignalled =>
        ⟨packetComplete_good live found one runs other unwritten unsignalled off stays unskipped,
          fun x => packetComplete_failed live found one runs other unwritten unsignalled off stays unskipped⟩, ?ring⟩
    case start =>
      have starts : s.Starts k q w := ⟨found, off, stays, mapped, packets, opened, empty, ready, sound, more, free, words⟩
      exact ⟨packetStart_unready starts live, packetStart_plain starts live, packetStart_launch starts live, packetStart_skips starts live⟩
    case ring =>
      intro w cl l b mapped ring opened ready noLoad known own sound more free room words kind stage few unit
      exact handoff_hands live known ⟨found, off, mapped, ring, opened, ready, noLoad, own, sound, more, free, words⟩ kind stage few room unit
  · intro s live
    refine ⟨fun k q single pending stays die on => ?aging, fun n k q k' r mapped waits on => quantumExpiry_unmaps live mapped waits on,
      fun k q b found bound => boundMissed_records live found bound, fun d die =>
        ⟨trtCtlGo_starts live die, fun err key => turatLoadComplete_ends live die⟩,
      ?signal, fun n qcb cmd set => ⟨fun st s' => dbCmdRegister_done live set, fun st s' => dbCmdResume_done live set,
        fun k => dbCmdUnregister_leaves live set, fun f => dbCmdRegister_faults live set⟩⟩
    case aging =>
      obtain ⟨stale, aged⟩ := setQueue_single single { q with epri := s.agedPri q }
      have kept := (setQueue_puts s k { q with epri := s.agedPri q }).slots
      have runs : (s.setQueue k { q with epri := s.agedPri q }).vendorRuns q.die = true := (kept.vendorRuns _).trans on
      have context : (s.setQueue k { q with epri := s.agedPri q }).context q.ctx = s.context q.ctx := by
        rw [show State.setQueue _ _ _ = _ from kept]
        rfl
      rw [agingTick_ages live single pending die on]
      constructor
      · intro suspended
        rw [schedule_keeps aged runs pending ((congrArg Ctx.st context).trans suspended)]
        exact ⟨_, _, rfl, queue?_single aged, pending, agedPri_eq s q⟩
      · intro goes
        obtain ⟨r, own, mapped, slot, count⟩ := schedule_maps aged runs pending stays (fun bad => goes ((congrArg Ctx.st context).symm.trans bad))
        exact ⟨_, r, rfl, own, mapped, slot, count⟩
    case signal =>
      intro p th l n loc va thr d v s₁ s' threads queues blocked task waits named lies located read cur quiet same met x listed holds
      obtain ⟨here, state, dest, pc, blk⟩ := notify_wakes (s := s) (loc := loc) (v := v)
        ⟨threads, queues, blocked, task, named, l, va, thr, n, s₁, s', waits, lies, located, read, cur, quiet, same, met⟩
      exact ⟨_, signal_notices live x listed holds, state, dest, pc, blk, here⟩

end Sys2Proof.Machine
end
